-- ==== Sys2Proof/Word.lean ====
section
/-! DEFINITION. The word types of the block: a register is 64 bits wide (R2), memory is counted in bytes. -/
namespace Sys2Proof

/-- A register's contents (R2). -/
abbrev Word := BitVec 64

/-- One byte of memory. -/
abbrev Byte := BitVec 8

end Sys2Proof
end

