-- ==== Sys2Proof/Machine/RegMap.lean ====
section
/-! DEFINITION. The register map: one name per register and per memory of the spec's chapters, its block, offset,
repeats, reset value and access types, taken from the code line and field table that introduce it (R2 to R4, R518),
and one named field per row of a field table. -/
namespace Sys2Proof

/-- The blocks of device register space (R518, table *Device register space*). -/
inductive Block where

  | GLB
  | CAR
  | GONG
  | PWR
  | SEC
  | ETH
  | HL
  | PPL
  | TBE
  | TBC
  | SCH
  | CRY
  | CMP
  | SNR
  | TBL
  | DDR
  | MBX
  | FNC
  | NVM
  | PMC
  | XPT
deriving DecidableEq, Repr

/-- Base of instance 0, number of instances and stride of a block (R3, R518). -/
def Block.place : Block → Nat × Nat × Nat
  | .GLB => (0x0, 1, 0x10000)
  | .CAR => (0x10000, 1, 0x10000)
  | .GONG => (0x20000, 1, 0x10000)
  | .PWR => (0x30000, 1, 0x10000)
  | .SEC => (0x40000, 1, 0x10000)
  | .ETH => (0x100000, 32, 0x10000)
  | .HL => (0x300000, 16, 0x10000)
  | .PPL => (0x400000, 8, 0x80000)
  | .TBE => (0x800000, 128, 0x4000)
  | .TBC => (0xA00000, 16, 0x10000)
  | .SCH => (0xB00000, 1, 0x100000)
  | .CRY => (0xC00000, 1, 0x100000)
  | .CMP => (0xD00000, 1, 0x80000)
  | .SNR => (0xD80000, 1, 0x80000)
  | .TBL => (0xE00000, 1, 0x100000)
  | .DDR => (0xF00000, 8, 0x10000)
  | .MBX => (0xF80000, 1, 0x80000)
  | .FNC => (0x1000000, 2080, 0x2000)
  | .NVM => (0x3000000, 1, 0x1000000)
  | .PMC => (0x4000000, 1, 0x100000)
  | .XPT => (0x4100000, 1, 0x1000000)

/-- Every block, in address order. -/
def Block.all : List Block := [.GLB, .CAR, .GONG, .PWR, .SEC, .ETH, .HL, .PPL, .TBE, .TBC, .SCH, .CRY, .CMP, .SNR, .TBL, .DDR, .MBX, .FNC, .NVM, .PMC, .XPT]

/-- The name of every register and every directly mapped memory (R2, "Register Map Index"). -/
inductive RegName where
  | GLB_IDENT
  | GLB_STEPPING
  | GLB_MODE
  | GLB_STRAPS
  | GLB_RESET_CAUSE
  | GLB_RESET_CTL
  | GLB_WDOG_CTL
  | GLB_WDOG_KICK
  | GLB_EVENING_CTL
  | GLB_LOCK
  | PWR_CLK_CTL
  | PWR_PLL_STATUS
  | PWR_SAG_STATUS
  | PWR_DOMAIN_STATUS
  | PWR_HOLD_AWAKE
  | PWR_THERM
  | PWR_LOCK
  | CAR_TIME_NSF
  | CAR_TIME_SEC
  | CAR_TIME_TS64
  | CAR_ADJ
  | CAR_STEP_SEC
  | CAR_STEP_NS
  | CAR_STATUS
  | CAR_EPS_TIME
  | CAR_EPS_BASE
  | CAR_EPS_GROWTH
  | CAR_EPS_PARTS
  | CAR_SERVO_CFG
  | CAR_SERVO_LIMIT
  | CAR_SERVO_GAIN
  | CAR_OSC
  | CAR_OSC_R
  | CAR_OSC_A
  | CAR_OSC_W
  | CAR_GRADE_FLOOR
  | CAR_UTC
  | CAR_LEAP_TIME
  | CAR_PPS_IN
  | CAR_GNSS_PPS
  | CAR_NMEA
  | CAR_PPS_OUT
  | CAR_LAST_MEAS
  | CAR_LOCK
  | CAR_SRC_CFG
  | CAR_SRC_BUDGET
  | CAR_SRC_PATH
  | CAR_SRC_STATUS
  | CAR_PTP_CLOCK
  | CAR_PTP_IDENTITY
  | CAR_PTP_PORT
  | CAR_TOKEN_CTL
  | CAR_TOKEN_STATUS
  | CAR_TOKEN_BATCH
  | CAR_HOLD_CFG
  | CAR_LINK_MAP
  | CAR_LINK_STATUS
  | CAR_BELL_CTL
  | ETH_PORT_CFG
  | ETH_PORT_CTL
  | ETH_PORT_STATUS
  | ETH_MAC_CFG
  | ETH_PFC_CFG
  | ETH_MAC_ADDR
  | ETH_PTP_IP4
  | ETH_PTP_IP6_HI
  | ETH_PTP_IP6_LO
  | ETH_TS_INT
  | ETH_TS_BOARD
  | ETH_TS_ASYM
  | ETH_LANE_CTL
  | ETH_LANE_STATUS
  | ETH_SYNCE
  | ETH_SYNCE_SEL
  | ETH_MACSEC_CTL
  | ETH_LOCK
  | ETH_STAT
  | PPL_CFG
  | PPL_GEN
  | PPL_GEN_GLOBAL
  | PPL_HASH_CFG
  | PPL_REORDER_CFG
  | PPL_ACT_ADDR
  | PPL_ACT_DATA
  | PPL_LOCK
  | PPL_STAT
  | PPL_POOL_CFG
  | PPL_SCAN_PROF
  | PPL_STAGE_CFG
  | TBL_CMD
  | TBL_CMD_STATUS
  | TBL_CMD_DATA
  | TBL_LEARN_RING
  | TBL_LEARN_RING_CTL
  | TBL_LEARN_PPL
  | TBL_FLOW_CFG
  | TBL_FLOW_BASE
  | TBL_FLOW_BUCKETS
  | TBL_LOCK
  | TBL_STAT
  | TBL_SET_CFG
  | TBL_BLOCK_MAP
  | TBL_T_CFG
  | TBL_T_WAYS
  | TBL_T_SEED
  | TBL_T_AGE
  | TBL_T_LEARN
  | TBL_T_STATUS
  | TBC_CTL
  | TBC_STATUS
  | TBC_ENTRY
  | TBC_START
  | TBC_START_MASK
  | TBC_SHARE
  | TBC_WDOG
  | TBC_POWER
  | TBC_MBX_THREADS
  | TBC_CHAN_PERM
  | TBC_TBL_SETS
  | TBC_DDR_WIN_BASE
  | TBC_DDR_WIN_SIZE
  | TBC_LOCK
  | TBC_STAT
  | TBC_MEM_ADDR
  | TBC_MEM_DATA
  | TBE_CTL
  | TBE_STATUS
  | TBE_THREAD_CTL
  | TBE_THREAD_STATUS
  | TBE_THREAD_PC
  | TBE_THREAD_EVT
  | TBE_THREAD_TRAP
  | TBE_THREAD_VEC
  | TBE_THREAD_G
  | TBE_THREAD_S
  | SCH_BUF_CFG
  | SCH_STATUS
  | SCH_LOCK
  | SCH_OVH
  | SCH_STAT
  | SCH_L2_CFG
  | SCH_SESSION
  | SCH_CAP_BASE
  | SCH_CAP_CTL
  | FNC_Q_SEL
  | FNC_Q_CFG
  | FNC_Q_CTL
  | FNC_Q_STATUS
  | FNC_Q_IDX
  | FNC_Q_IRQ
  | FNC_Q_BASE
  | FNC_FN_INFO
  | FNC_FN_STAT
  | FNC_RES_QP
  | FNC_RES_VEC
  | FNC_RES_TX
  | FNC_RES_CTL
  | HL_LINK_CFG
  | HL_LINK_STATUS
  | HL_LINK_CTL
  | HL_SRIOV_STATUS
  | HL_IDE_STATUS
  | HL_MGR_CTL
  | HL_LOCK
  | HL_STAT
  | XPT_CFG
  | XPT_CONN_BASE
  | XPT_WIN_BASE
  | XPT_CMD
  | XPT_CMD_STATUS
  | XPT_CMD_DATA
  | XPT_LOCK
  | XPT_STAT
  | XPT_FN_CONN
  | XPT_FN_WIN
  | NVM_CFG
  | NVM_STATUS
  | NVM_ATTACH_BASE
  | NVM_CMD
  | NVM_CMD_STATUS
  | NVM_CMD_DATA
  | NVM_LOCK
  | NVM_STAT
  | NVM_WAKE
  | NVM_FN_RES
  | NVM_FN_CFG
  | CRY_CFG
  | CRY_STATUS
  | CRY_RETIRED
  | CRY_KEY_BASE
  | CRY_SA_BASE
  | CRY_KEY_CMD
  | CRY_KEY_STATUS
  | CRY_KEY_DATA
  | CRY_LOCK
  | CRY_STAT
  | SEC_LIFECYCLE
  | SEC_BOOT_STATUS
  | SEC_SLOT_STATUS
  | SEC_ROLLBACK
  | SEC_ROLLBACK_CMD
  | SEC_MEASURE_EXTEND
  | SEC_TRIGGER
  | SEC_MEASURE_DATA
  | SEC_LOCK
  | CMP_CFG
  | CMP_STATUS
  | CMP_FC_BASE
  | CMP_FC_CMD
  | CMP_FC_STATUS
  | CMP_FC_DATA
  | CMP_REC_BASE
  | CMP_REC_CTL
  | CMP_REC_CFG
  | CMP_LOCK
  | CMP_STAT
  | CMP_HIST_CFG
  | CMP_SK_CFG
  | CMP_SK_SEED01
  | CMP_SK_SEED23
  | CMP_SK_N
  | CMP_SK_QUERY
  | CMP_SK_RESULT
  | CMP_SK_KEY
  | GLB_CC_CTL
  | GLB_CC_VEC
  | GLB_CC_STATUS
  | GLB_CC_MTIMECMP
  | GLB_CC_IRQ
  | MBX_MGR_CTL
  | MBX_STAT
  | MBX_PEND
  | MBX_PKT_BASE
  | MBX_PKT_CTL
  | MBX_SEL
  | MBX_HEAD
  | MBX_POP
  | MBX_POST
  | MBX_STATUS
  | MBX_CTL
  | MBX_IN_DATA
  | MBX_OUT_DATA
  | GONG_CFG
  | GONG_STATUS_SUM
  | GONG_FATAL_ACT
  | GONG_ACCESS
  | GONG_INJECT
  | GONG_ST_STATUS
  | GONG_LOCK
  | GONG_STATUS
  | GONG_SEV
  | GONG_FIRST_INFO
  | GONG_FIRST_ADDR
  | GONG_FIRST_TS
  | PMC_CFG
  | PMC_USER
  | PMC_SAMPLE_BASE
  | PMC_SAMPLE_CTL
  | PMC_SAMPLE_STATUS
  | PMC_LOCK
  | PMC_OVF
  | PMC_CTR_CFG
  | PMC_CTR_VAL
  | PMC_FN_MASK
  | FNC_PMC
  | PWR_IO_CTL
  | PWR_AVS
  | SNR_LOAD
  | PPL_PARSE_STATE
  | PPL_PARSE_TRANS
  | PPL_KEY_PROF
  | PPL_POLICER
  | TBL_SUB
  | TBL_MASK
  | TBL_STASH
  | SCH_L1
  | SCH_GROUP
  | SCH_SHAPER
  | SCH_DEST_MAP
  | SCH_MODIFY
  | SCH_TEMPLATE
  | XPT_QP_BIND
  | CRY_MACSEC
  | SEC_MEASURE
  | CMP_HIST
  | CMP_HIST_SNAP
  | MBX_MCFG
  | GONG_COUNT
  | GONG_RETIRE_LOG
deriving DecidableEq, Repr

/-- The access types of R4, as one mask of bits per type; a bit in no mask is RSVD. `act` marks a WO bit that
starts an action and holds nothing, `wo` a WO bit that sets a value. -/
structure Layout where
  block : Block
  off : Nat
  /-- Repeats within the instance of the block, outermost first: how many, at which stride. -/
  dims : List (Nat × Nat) := []
  reset : Nat := 0
  ro : Nat := 0
  rw : Nat := 0
  rwl : Nat := 0
  w1c : Nat := 0
  w1s : Nat := 0
  rc : Nat := 0
  wo : Nat := 0
  act : Nat := 0
deriving DecidableEq, Repr

/-- The code line and field table of each register (R3, R4), chapter by chapter. -/
def RegName.layout : RegName → Layout
  | .GLB_IDENT =>
    { block := .GLB, off := 0x0, reset := 0x1E6F9640, ro := 0x3FFFFFFFF }
  | .GLB_STEPPING =>
    { block := .GLB, off := 0x8, reset := 0x21, ro := 0xFF }
  | .GLB_MODE =>
    { block := .GLB, off := 0x10, reset := 0x11, ro := 0x40F, rw := 0xF0, w1c := 0x100, act := 0x200 }
  | .GLB_STRAPS =>
    { block := .GLB, off := 0x18, ro := 0x1FF }
  | .GLB_RESET_CAUSE =>
    { block := .GLB, off := 0x20, reset := 0x1, ro := 0xFF00, w1c := 0xFF }
  | .GLB_RESET_CTL =>
    { block := .GLB, off := 0x28, act := 0x1FFFF }
  | .GLB_WDOG_CTL =>
    { block := .GLB, off := 0x30, reset := 0x13880, rwl := 0xFFFF1, w1c := 0x100000 }
  | .GLB_WDOG_KICK =>
    { block := .GLB, off := 0x38, act := 0xFFFFFFFFFFFFFFFF }
  | .GLB_EVENING_CTL =>
    { block := .GLB, off := 0x40, reset := 0x3E80200100000, rw := 0xFFFFFFFFFFFF01 }
  | .GLB_LOCK =>
    { block := .GLB, off := 0x48, w1s := 0x1 }
  | .PWR_CLK_CTL =>
    { block := .PWR, off := 0x0, reset := 0x1F, ro := 0x100, rwl := 0x1F }
  | .PWR_PLL_STATUS =>
    { block := .PWR, off := 0x8, ro := 0x7F, w1c := 0x80 }
  | .PWR_SAG_STATUS =>
    { block := .PWR, off := 0x10, ro := 0xFF, w1c := 0xFF00, rc := 0xFFFF0000 }
  | .PWR_DOMAIN_STATUS =>
    { block := .PWR, off := 0x18, ro := 0xFFFFFFFFFFFF }
  | .PWR_HOLD_AWAKE =>
    { block := .PWR, off := 0x20, rw := 0xFFFFFFFFFFFF }
  | .PWR_THERM =>
    { block := .PWR, off := 0x28, ro := 0x1FFFF, w1c := 0x20000 }
  | .PWR_LOCK =>
    { block := .PWR, off := 0x30, w1s := 0x1 }
  | .CAR_TIME_NSF =>
    { block := .CAR, off := 0x0, ro := 0xFFFFFFFFFFFF }
  | .CAR_TIME_SEC =>
    { block := .CAR, off := 0x8, ro := 0xFFFFFFFFFFFF }
  | .CAR_TIME_TS64 =>
    { block := .CAR, off := 0x10, ro := 0xFFFFFFFFFFFFFFFF }
  | .CAR_ADJ =>
    { block := .CAR, off := 0x18, rw := 0xFFFFFFFF }
  | .CAR_STEP_SEC =>
    { block := .CAR, off := 0x20, rw := 0xFFFFFFFFFFFF }
  | .CAR_STEP_NS =>
    { block := .CAR, off := 0x28, act := 0xFFFFFFFF }
  | .CAR_STATUS =>
    { block := .CAR, off := 0x30, reset := 0x40, ro := 0xFFFFFFFF27FF, w1c := 0x1800 }
  | .CAR_EPS_TIME =>
    { block := .CAR, off := 0x38, ro := 0xFFFFFFFFFFFFFFFF }
  | .CAR_EPS_BASE =>
    { block := .CAR, off := 0x40, reset := 0xFFFFFFFFFFFFFFFF, ro := 0xFFFFFFFFFFFFFFFF }
  | .CAR_EPS_GROWTH =>
    { block := .CAR, off := 0x48, ro := 0xFFFFFFFFFFFFFFFF }
  | .CAR_EPS_PARTS =>
    { block := .CAR, off := 0x50, ro := 0xFFFFFFFFFFFFFFFF }
  | .CAR_SERVO_CFG =>
    { block := .CAR, off := 0x58, reset := 0x810006403E803C3, rw := 0xFFFFFFFFFFFFFF6, rwl := 0x1 }
  | .CAR_SERVO_LIMIT =>
    { block := .CAR, off := 0x60, reset := 0xC350000F4240, rwl := 0xFFFFFFFFFFFFF }
  | .CAR_SERVO_GAIN =>
    { block := .CAR, off := 0x68, reset := 0xA04, rw := 0x1F1F }
  | .CAR_OSC =>
    { block := .CAR, off := 0x70, reset := 0x5, rwl := 0x7 }
  | .CAR_OSC_R =>
    { block := .CAR, off := 0x78, rwl := 0xFFFFFFFFFFFF }
  | .CAR_OSC_A =>
    { block := .CAR, off := 0x80, rwl := 0xFFFFFFFFFFFF }
  | .CAR_OSC_W =>
    { block := .CAR, off := 0x88, rwl := 0xFFFFFFFF }
  | .CAR_GRADE_FLOOR =>
    { block := .CAR, off := 0x90, reset := 0x18, ro := 0xFFFF }
  | .CAR_UTC =>
    { block := .CAR, off := 0x98, reset := 0x25, ro := 0x80000, rw := 0x7FFFF, w1c := 0x100000 }
  | .CAR_LEAP_TIME =>
    { block := .CAR, off := 0xA0, ro := 0xFFFFFFFFFFFF }
  | .CAR_PPS_IN =>
    { block := .CAR, off := 0xA8, reset := 0x3E801, rw := 0x1FFFFFFFFFF03 }
  | .CAR_GNSS_PPS =>
    { block := .CAR, off := 0xB0, reset := 0x3E801, rw := 0xFFFFFFFFFF03 }
  | .CAR_NMEA =>
    { block := .CAR, off := 0xB8, reset := 0x7, rw := 0xF }
  | .CAR_PPS_OUT =>
    { block := .CAR, off := 0xC0, reset := 0x6402, rw := 0xFFFFFF0FFF07 }
  | .CAR_LAST_MEAS =>
    { block := .CAR, off := 0xC8, ro := 0xFFFFFFFFFFFFFFFF }
  | .CAR_LOCK =>
    { block := .CAR, off := 0xD0, w1s := 0x1 }
  | .CAR_SRC_CFG =>
    { block := .CAR, off := 0x100, dims := [(8, 0x20)], reset := 0x2000, rw := 0x4FFF, rwl := 0x3000 }
  | .CAR_SRC_BUDGET =>
    { block := .CAR, off := 0x108, dims := [(8, 0x20)], reset := 0x800000FA0, rwl := 0xFFFFFFFFFFFF }
  | .CAR_SRC_PATH =>
    { block := .CAR, off := 0x110, dims := [(8, 0x20)], rwl := 0xFFFFFFFF }
  | .CAR_SRC_STATUS =>
    { block := .CAR, off := 0x118, dims := [(8, 0x20)], ro := 0xFFFFFF07, rc := 0xFFFF00000000 }
  | .CAR_PTP_CLOCK =>
    { block := .CAR, off := 0x200, reset := 0xF8F8F88080, rw := 0xFFFFFFFFFF }
  | .CAR_PTP_IDENTITY =>
    { block := .CAR, off := 0x208, rw := 0xFFFFFFFFFFFFFFFF }
  | .CAR_PTP_PORT =>
    { block := .CAR, off := 0x400, dims := [(32, 0x8)], reset := 0x8000000000, rw := 0xFF1FFFFFFF }
  | .CAR_TOKEN_CTL =>
    { block := .CAR, off := 0x600, reset := 0x10000, rw := 0x1FF00, rwl := 0x1 }
  | .CAR_TOKEN_STATUS =>
    { block := .CAR, off := 0x608, rc := 0xFFFFFFFFFFFFFFFF }
  | .CAR_TOKEN_BATCH =>
    { block := .CAR, off := 0x610, ro := 0xFFFFFFFFFFFFFFFF }
  | .CAR_HOLD_CFG =>
    { block := .CAR, off := 0x618, reset := 0x3E803E8, rw := 0xFFFFFFFF }
  | .CAR_LINK_MAP =>
    { block := .CAR, off := 0x800, dims := [(16, 0x20)], reset := 0x40064002807D1, rw := 0xFFF1, rwl := 0x3FFFFFFFFFF0000 }
  | .CAR_LINK_STATUS =>
    { block := .CAR, off := 0x808, dims := [(16, 0x20)], ro := 0xFFFF0003, w1c := 0x4, rc := 0xFFFF00000000 }
  | .CAR_BELL_CTL =>
    { block := .CAR, off := 0x810, dims := [(16, 0x20)], reset := 0x2, rw := 0xFFFFFF03 }
  | .ETH_PORT_CFG =>
    { block := .ETH, off := 0x0, reset := 0xF20, rw := 0xF73 }
  | .ETH_PORT_CTL =>
    { block := .ETH, off := 0x8, rw := 0xF, w1c := 0x20, act := 0x10 }
  | .ETH_PORT_STATUS =>
    { block := .ETH, off := 0x10, ro := 0xFF, rc := 0xFFFF0000 }
  | .ETH_MAC_CFG =>
    { block := .ETH, off := 0x18, reset := 0x2580, rw := 0xFF033FFF }
  | .ETH_PFC_CFG =>
    { block := .ETH, off := 0x20, reset := 0x80FFFF00C00100, rw := 0xFFFFFFFFFFFFFFFF }
  | .ETH_MAC_ADDR =>
    { block := .ETH, off := 0x28, rw := 0xFFFFFFFFFFFF }
  | .ETH_PTP_IP4 =>
    { block := .ETH, off := 0x30, rw := 0x1FFFFFFFFFFF }
  | .ETH_PTP_IP6_HI =>
    { block := .ETH, off := 0x38, rw := 0xFFFFFFFFFFFFFFFF }
  | .ETH_PTP_IP6_LO =>
    { block := .ETH, off := 0x40, rw := 0xFFFFFFFFFFFFFFFF }
  | .ETH_TS_INT =>
    { block := .ETH, off := 0x48, ro := 0x1FFFFFFFF }
  | .ETH_TS_BOARD =>
    { block := .ETH, off := 0x50, rwl := 0xFFFFFFFF }
  | .ETH_TS_ASYM =>
    { block := .ETH, off := 0x58, rwl := 0xFFFFFF }
  | .ETH_LANE_CTL =>
    { block := .ETH, off := 0x60, reset := 0x4, rw := 0xF4, rwl := 0x3 }
  | .ETH_LANE_STATUS =>
    { block := .ETH, off := 0x68, ro := 0x3, rc := 0xFFFFFFFF0000 }
  | .ETH_SYNCE =>
    { block := .ETH, off := 0x70, ro := 0x2, rw := 0x1, w1c := 0x4 }
  | .ETH_SYNCE_SEL =>
    { block := .ETH, off := 0x78, reset := 0xA00, ro := 0xC0, rw := 0xFF00, rwl := 0x3F }
  | .ETH_MACSEC_CTL =>
    { block := .ETH, off := 0x80, reset := 0x18, rw := 0x79, rwl := 0x6 }
  | .ETH_LOCK =>
    { block := .ETH, off := 0xF8, w1s := 0x1 }
  | .ETH_STAT =>
    { block := .ETH, off := 0x100, dims := [(20, 0x8)], ro := 0xFFFFFFFFFFFFFFFF }
  | .PPL_CFG =>
    { block := .PPL, off := 0x0, reset := 0xFFFF0000, rw := 0xFFFF0001 }
  | .PPL_GEN =>
    { block := .PPL, off := 0x8, ro := 0xFFFF0005, w1c := 0x18, act := 0x2 }
  | .PPL_GEN_GLOBAL =>
    { block := .PPL, off := 0x10, w1c := 0xFF00, act := 0xFF }
  | .PPL_HASH_CFG =>
    { block := .PPL, off := 0x18, reset := 0xFFFFFFFF, rw := 0x1FFFFFFFFF }
  | .PPL_REORDER_CFG =>
    { block := .PPL, off := 0x20, reset := 0x753000000032, rw := 0xFFFF000007FF }
  | .PPL_ACT_ADDR =>
    { block := .PPL, off := 0x28, rw := 0xFFFF, act := 0x30000 }
  | .PPL_ACT_DATA =>
    { block := .PPL, off := 0x30, dims := [(4, 0x8)], rw := 0xFFFFFFFFFFFFFFFF }
  | .PPL_LOCK =>
    { block := .PPL, off := 0xF8, w1s := 0x1 }
  | .PPL_STAT =>
    { block := .PPL, off := 0x100, dims := [(20, 0x8)], ro := 0xFFFFFFFFFFFFFFFF }
  | .PPL_POOL_CFG =>
    { block := .PPL, off := 0x200, dims := [(16, 0x8)], rw := 0xFFFF }
  | .PPL_SCAN_PROF =>
    { block := .PPL, off := 0x300, dims := [(32, 0x8)], reset := 0xFFFF, rw := 0x3FFFFFF }
  | .PPL_STAGE_CFG =>
    { block := .PPL, off := 0x400, dims := [(2, 0x100), (12, 0x8)], reset := 0xFFFF00000000, rw := 0xFFFFFFF1FFF7 }
  | .TBL_CMD =>
    { block := .TBL, off := 0x0, act := 0x3FFFFFFFF0FFF }
  | .TBL_CMD_STATUS =>
    { block := .TBL, off := 0x8, ro := 0xFFFFFFFFF1, w1c := 0x2 }
  | .TBL_CMD_DATA =>
    { block := .TBL, off := 0x40, dims := [(16, 0x8)], rw := 0xFFFFFFFFFFFFFFFF }
  | .TBL_LEARN_RING =>
    { block := .TBL, off := 0x100, rw := 0xFFFFFFFFFF }
  | .TBL_LEARN_RING_CTL =>
    { block := .TBL, off := 0x108, reset := 0xC, ro := 0xFFFFFF00, rw := 0xFFFFFF0000003F }
  | .TBL_LEARN_PPL =>
    { block := .TBL, off := 0x110, reset := 0xFFFFFFFFFFFFFFFF, rw := 0xFFFFFFFFFFFFFFFF }
  | .TBL_FLOW_CFG =>
    { block := .TBL, off := 0x200, reset := 0x1FFFE0000000, rw := 0x1FFFE0000000, rwl := 0x7FFFF }
  | .TBL_FLOW_BASE =>
    { block := .TBL, off := 0x208, rwl := 0xFFFFFFFFFF }
  | .TBL_FLOW_BUCKETS =>
    { block := .TBL, off := 0x210, rwl := 0x3FFFFFF }
  | .TBL_LOCK =>
    { block := .TBL, off := 0x2F8, w1s := 0x1 }
  | .TBL_STAT =>
    { block := .TBL, off := 0x300, dims := [(18, 0x8)], ro := 0xFFFFFFFFFFFFFFFF }
  | .TBL_SET_CFG =>
    { block := .TBL, off := 0x400, dims := [(8, 0x8)], rwl := 0xFF }
  | .TBL_BLOCK_MAP =>
    { block := .TBL, off := 0x800, dims := [(40, 0x8)], reset := 0xFFFFFFFFFFFFFFFF, rwl := 0xFFFFFFFFFFFFFFFF }
  | .TBL_T_CFG =>
    { block := .TBL, off := 0x10000, dims := [(256, 0x40)], rw := 0x1FFFF }
  | .TBL_T_WAYS =>
    { block := .TBL, off := 0x10008, dims := [(256, 0x40)], rw := 0xFFFFFFF1FFFFFFF }
  | .TBL_T_SEED =>
    { block := .TBL, off := 0x10010, dims := [(256, 0x40)], rw := 0xFFFFFFFFFFFFFFFF }
  | .TBL_T_AGE =>
    { block := .TBL, off := 0x10018, dims := [(256, 0x40)], reset := 0x186A0, rw := 0x3FFFFFFFF, w1c := 0x400000000 }
  | .TBL_T_LEARN =>
    { block := .TBL, off := 0x10020, dims := [(256, 0x40)], reset := 0xA03E800000000, rw := 0xFFFFFFFFFFFFFFFF }
  | .TBL_T_STATUS =>
    { block := .TBL, off := 0x10028, dims := [(256, 0x40)], ro := 0xFFFFFF0F, w1c := 0x10 }
  | .TBC_CTL =>
    { block := .TBC, off := 0x0, rw := 0x2, w1c := 0x8, act := 0x5 }
  | .TBC_STATUS =>
    { block := .TBC, off := 0x8, ro := 0x7F0F1F }
  | .TBC_ENTRY =>
    { block := .TBC, off := 0x10, rw := 0xFFFF }
  | .TBC_START =>
    { block := .TBC, off := 0x18, reset := 0x101010101010101, rw := 0xFFFFFFFFFFFFFFFF }
  | .TBC_START_MASK =>
    { block := .TBC, off := 0x20, reset := 0x8, rw := 0xFFFF }
  | .TBC_SHARE =>
    { block := .TBC, off := 0x28, reset := 0x204, rw := 0xF0F }
  | .TBC_WDOG =>
    { block := .TBC, off := 0x30, reset := 0x64, rw := 0xFFFF }
  | .TBC_POWER =>
    { block := .TBC, off := 0x38, reset := 0x14, rw := 0xFFFF }
  | .TBC_MBX_THREADS =>
    { block := .TBC, off := 0x40, reset := 0x1, rw := 0xFFFFFFFFFFFFFFFF }
  | .TBC_CHAN_PERM =>
    { block := .TBC, off := 0x48, reset := 0x1FF, rwl := 0x1FF }
  | .TBC_TBL_SETS =>
    { block := .TBC, off := 0x50, rwl := 0xFF }
  | .TBC_DDR_WIN_BASE =>
    { block := .TBC, off := 0x80, dims := [(4, 0x10)], rwl := 0xFFFFFFFFFF }
  | .TBC_DDR_WIN_SIZE =>
    { block := .TBC, off := 0x88, dims := [(4, 0x10)], rwl := 0x1FFFFFFFFF }
  | .TBC_LOCK =>
    { block := .TBC, off := 0xF8, w1s := 0x1 }
  | .TBC_STAT =>
    { block := .TBC, off := 0x100, dims := [(11, 0x8)], ro := 0xFFFFFFFFFFFFFFFF }
  | .TBC_MEM_ADDR =>
    { block := .TBC, off := 0x200, rw := 0x7FFFF }
  | .TBC_MEM_DATA =>
    { block := .TBC, off := 0x208, rw := 0xFFFFFFFFFFFFFFFF }
  | .TBE_CTL =>
    { block := .TBE, off := 0x0, reset := 0x1, ro := 0x2, rw := 0x1 }
  | .TBE_STATUS =>
    { block := .TBE, off := 0x8, ro := 0x7F3F }
  | .TBE_THREAD_CTL =>
    { block := .TBE, off := 0x1000, dims := [(8, 0x400)], w1c := 0x20, w1s := 0x1, act := 0xFFFF001E }
  | .TBE_THREAD_STATUS =>
    { block := .TBE, off := 0x1008, dims := [(8, 0x400)], ro := 0x1FFFFF }
  | .TBE_THREAD_PC =>
    { block := .TBE, off := 0x1010, dims := [(8, 0x400)], rw := 0xFFFF }
  | .TBE_THREAD_EVT =>
    { block := .TBE, off := 0x1018, dims := [(8, 0x400)], ro := 0xFFFFFFFF }
  | .TBE_THREAD_TRAP =>
    { block := .TBE, off := 0x1020, dims := [(8, 0x400)], ro := 0xFFFFFFFF00FFFFFF }
  | .TBE_THREAD_VEC =>
    { block := .TBE, off := 0x1028, dims := [(8, 0x400)], rw := 0xFFFF }
  | .TBE_THREAD_G =>
    { block := .TBE, off := 0x1100, dims := [(8, 0x400), (32, 0x8)], rw := 0xFFFFFFFFFFFFFFFF }
  | .TBE_THREAD_S =>
    { block := .TBE, off := 0x1200, dims := [(8, 0x400), (16, 0x8)], rw := 0xFFFFFFFFFFFFFFFF }
  | .SCH_BUF_CFG =>
    { block := .SCH, off := 0x0, reset := 0x10000, rw := 0x1FFFF }
  | .SCH_STATUS =>
    { block := .SCH, off := 0x8, ro := 0x1FFFF, w1c := 0x20000 }
  | .SCH_LOCK =>
    { block := .SCH, off := 0xF8, w1s := 0x1 }
  | .SCH_OVH =>
    { block := .SCH, off := 0x100, dims := [(16, 0x8)], reset := 0x14, rw := 0x7F }
  | .SCH_STAT =>
    { block := .SCH, off := 0x800, dims := [(12, 0x8)], ro := 0xFFFFFFFFFFFFFFFF }
  | .SCH_L2_CFG =>
    { block := .SCH, off := 0x1000, dims := [(52, 0x8)], reset := 0x1, ro := 0xFF02, rw := 0x1 }
  | .SCH_SESSION =>
    { block := .SCH, off := 0x2000, dims := [(64, 0x8)], rw := 0x1FFFFFFFFF }
  | .SCH_CAP_BASE =>
    { block := .SCH, off := 0x3000, dims := [(8, 0x10)], rwl := 0xFFFFFFFFFF }
  | .SCH_CAP_CTL =>
    { block := .SCH, off := 0x3008, dims := [(8, 0x10)], reset := 0x10, ro := 0xFFFFFF00, rw := 0xFFFFFF0000003F }
  | .FNC_Q_SEL =>
    { block := .FNC, off := 0x0, rw := 0xFFF }
  | .FNC_Q_CFG =>
    { block := .FNC, off := 0x8, reset := 0x6666, rw := 0x1FFFFFF }
  | .FNC_Q_CTL =>
    { block := .FNC, off := 0x10, rw := 0x1, w1c := 0x2 }
  | .FNC_Q_STATUS =>
    { block := .FNC, off := 0x18, ro := 0xFFFFFF03, rc := 0xFFFFFFFF00000000 }
  | .FNC_Q_IDX =>
    { block := .FNC, off := 0x20, ro := 0xFFFFFFFFFFFFFFFF }
  | .FNC_Q_IRQ =>
    { block := .FNC, off := 0x28, reset := 0x1000000000000, rw := 0xFF03FF07FF07FF }
  | .FNC_Q_BASE =>
    { block := .FNC, off := 0x40, dims := [(4, 0x8)], rw := 0xFFFFFFFFFFFFF000 }
  | .FNC_FN_INFO =>
    { block := .FNC, off := 0x100, ro := 0xFFF1FFF, rw := 0x7FF00000000 }
  | .FNC_FN_STAT =>
    { block := .FNC, off := 0x180, dims := [(6, 0x8)], ro := 0xFFFFFFFFFFFFFFFF }
  | .FNC_RES_QP =>
    { block := .FNC, off := 0x1000, rw := 0x1FFF7FFF }
  | .FNC_RES_VEC =>
    { block := .FNC, off := 0x1008, rw := 0xFFFFFFF }
  | .FNC_RES_TX =>
    { block := .FNC, off := 0x1010, rw := 0x1FFFFFFFFFFFFFFF }
  | .FNC_RES_CTL =>
    { block := .FNC, off := 0x1018, rw := 0x1, w1c := 0x2 }
  | .HL_LINK_CFG =>
    { block := .HL, off := 0x0, reset := 0x8015, ro := 0xFFFFFF7F }
  | .HL_LINK_STATUS =>
    { block := .HL, off := 0x8, ro := 0x7FFF7FFF0000F7FF, rc := 0xFFFF0000 }
  | .HL_LINK_CTL =>
    { block := .HL, off := 0x10, reset := 0xA, rwl := 0x7F }
  | .HL_SRIOV_STATUS =>
    { block := .HL, off := 0x18, ro := 0x1FFF1FFF, w1c := 0xE0000000 }
  | .HL_IDE_STATUS =>
    { block := .HL, off := 0x20, ro := 0xFF, rc := 0xFFFF0000 }
  | .HL_MGR_CTL =>
    { block := .HL, off := 0x28, rwl := 0x3 }
  | .HL_LOCK =>
    { block := .HL, off := 0xF8, w1s := 0x1 }
  | .HL_STAT =>
    { block := .HL, off := 0x100, dims := [(10, 0x8)], ro := 0xFFFFFFFFFFFFFFFF }
  | .XPT_CFG =>
    { block := .XPT, off := 0x0, reset := 0x208BB300000, rw := 0xFFFFFFFF003E, rwl := 0x1 }
  | .XPT_CONN_BASE =>
    { block := .XPT, off := 0x8, rwl := 0xFFFFFFFFFF }
  | .XPT_WIN_BASE =>
    { block := .XPT, off := 0x10, rwl := 0xFFFFFFFFFF }
  | .XPT_CMD =>
    { block := .XPT, off := 0x18, act := 0xFFFFF0F }
  | .XPT_CMD_STATUS =>
    { block := .XPT, off := 0x20, ro := 0xF1, w1c := 0x2 }
  | .XPT_CMD_DATA =>
    { block := .XPT, off := 0x40, dims := [(8, 0x8)], rw := 0xFFFFFFFFFFFFFFFF }
  | .XPT_LOCK =>
    { block := .XPT, off := 0xF8, w1s := 0x1 }
  | .XPT_STAT =>
    { block := .XPT, off := 0x100, dims := [(16, 0x8)], ro := 0xFFFFFFFFFFFFFFFF }
  | .XPT_FN_CONN =>
    { block := .XPT, off := 0x20000, dims := [(2080, 0x10)], rw := 0x1FFFFFFFFF }
  | .XPT_FN_WIN =>
    { block := .XPT, off := 0x20008, dims := [(2080, 0x10)], rw := 0x1FFFFFFFFFF }
  | .NVM_CFG =>
    { block := .NVM, off := 0x0, rwl := 0x1 }
  | .NVM_STATUS =>
    { block := .NVM, off := 0x8, reset := 0x100000000, ro := 0x3FFFFFFFFFFFF }
  | .NVM_ATTACH_BASE =>
    { block := .NVM, off := 0x10, rwl := 0xFFFFFFFFFF }
  | .NVM_CMD =>
    { block := .NVM, off := 0x18, act := 0x1FFFFFFFFF }
  | .NVM_CMD_STATUS =>
    { block := .NVM, off := 0x20, ro := 0xF1, w1c := 0x2 }
  | .NVM_CMD_DATA =>
    { block := .NVM, off := 0x40, dims := [(4, 0x8)], rw := 0xFFFFFFFFFFFFFFFF }
  | .NVM_LOCK =>
    { block := .NVM, off := 0xF8, w1s := 0x1 }
  | .NVM_STAT =>
    { block := .NVM, off := 0x100, dims := [(12, 0x8)], ro := 0xFFFFFFFFFFFFFFFF }
  | .NVM_WAKE =>
    { block := .NVM, off := 0x200, dims := [(16, 0x8)], rw := 0xFFFFFFFFFFFFFFFF }
  | .NVM_FN_RES =>
    { block := .NVM, off := 0x10000, dims := [(2080, 0x10)], rw := 0x3FFFFFFFFFFFFF }
  | .NVM_FN_CFG =>
    { block := .NVM, off := 0x10008, dims := [(2080, 0x10)], reset := 0x1, rw := 0x1 }
  | .CRY_CFG =>
    { block := .CRY, off := 0x0, rw := 0x1FFFE, rwl := 0x1 }
  | .CRY_STATUS =>
    { block := .CRY, off := 0x8, ro := 0x1FFFF }
  | .CRY_RETIRED =>
    { block := .CRY, off := 0x10, dims := [(2, 0x8)], ro := 0xFFFFFFFFFFFFFFFF }
  | .CRY_KEY_BASE =>
    { block := .CRY, off := 0x20, rwl := 0xFFFFFFFFFF }
  | .CRY_SA_BASE =>
    { block := .CRY, off := 0x28, rwl := 0xFFFFFFFFFF }
  | .CRY_KEY_CMD =>
    { block := .CRY, off := 0x30, act := 0xFFFFF7FFFFFF }
  | .CRY_KEY_STATUS =>
    { block := .CRY, off := 0x38, ro := 0x7FF5, w1c := 0x2 }
  | .CRY_KEY_DATA =>
    { block := .CRY, off := 0x40, dims := [(8, 0x8)], wo := 0xFFFFFFFFFFFFFFFF }
  | .CRY_LOCK =>
    { block := .CRY, off := 0xF8, w1s := 0x1 }
  | .CRY_STAT =>
    { block := .CRY, off := 0x100, dims := [(10, 0x8)], ro := 0xFFFFFFFFFFFFFFFF }
  | .SEC_LIFECYCLE =>
    { block := .SEC, off := 0x0, ro := 0xF }
  | .SEC_BOOT_STATUS =>
    { block := .SEC, off := 0x8, ro := 0xFFFFFFFFFF1F }
  | .SEC_SLOT_STATUS =>
    { block := .SEC, off := 0x10, ro := 0xFF }
  | .SEC_ROLLBACK =>
    { block := .SEC, off := 0x18, ro := 0xFFFFFFFF }
  | .SEC_ROLLBACK_CMD =>
    { block := .SEC, off := 0x20, ro := 0x10000, w1c := 0x20000, act := 0xFF03 }
  | .SEC_MEASURE_EXTEND =>
    { block := .SEC, off := 0x28, w1c := 0x10, act := 0xF }
  | .SEC_TRIGGER =>
    { block := .SEC, off := 0x30, reset := 0x700, rwl := 0x700, w1c := 0xF0000, act := 0x1 }
  | .SEC_MEASURE_DATA =>
    { block := .SEC, off := 0x80, dims := [(6, 0x8)], wo := 0xFFFFFFFFFFFFFFFF }
  | .SEC_LOCK =>
    { block := .SEC, off := 0xF8, w1s := 0x1 }
  | .CMP_CFG =>
    { block := .CMP, off := 0x0, rwl := 0x1 }
  | .CMP_STATUS =>
    { block := .CMP, off := 0x8, ro := 0xFFFFFFFF }
  | .CMP_FC_BASE =>
    { block := .CMP, off := 0x10, rwl := 0xFFFFFFFFFF }
  | .CMP_FC_CMD =>
    { block := .CMP, off := 0x18, act := 0xFFFFFF03 }
  | .CMP_FC_STATUS =>
    { block := .CMP, off := 0x20, ro := 0xFFFFFF01, w1c := 0x6 }
  | .CMP_FC_DATA =>
    { block := .CMP, off := 0x28, dims := [(2, 0x8)], ro := 0xFFFFFFFFFFFFFFFF }
  | .CMP_REC_BASE =>
    { block := .CMP, off := 0x40, rwl := 0xFFFFFFFFFF }
  | .CMP_REC_CTL =>
    { block := .CMP, off := 0x48, reset := 0xA, ro := 0xFFFFFF00, rw := 0xFFFFFF0000003F }
  | .CMP_REC_CFG =>
    { block := .CMP, off := 0x50, reset := 0x1FF00640000, rw := 0x1FFFFFFFFFF }
  | .CMP_LOCK =>
    { block := .CMP, off := 0xF8, w1s := 0x1 }
  | .CMP_STAT =>
    { block := .CMP, off := 0x100, dims := [(12, 0x8)], ro := 0xFFFFFFFFFFFFFFFF }
  | .CMP_HIST_CFG =>
    { block := .CMP, off := 0x400, dims := [(32, 0x8)], rw := 0xFFFF001F, act := 0x20 }
  | .CMP_SK_CFG =>
    { block := .CMP, off := 0x600, dims := [(8, 0x20)], ro := 0x480, rw := 0x7F, w1c := 0x800, act := 0x300 }
  | .CMP_SK_SEED01 =>
    { block := .CMP, off := 0x608, dims := [(8, 0x20)], rw := 0xFFFFFFFFFFFFFFFF }
  | .CMP_SK_SEED23 =>
    { block := .CMP, off := 0x610, dims := [(8, 0x20)], rw := 0xFFFFFFFFFFFFFFFF }
  | .CMP_SK_N =>
    { block := .CMP, off := 0x618, dims := [(8, 0x20)], ro := 0xFFFFFFFFFFFFFFFF }
  | .CMP_SK_QUERY =>
    { block := .CMP, off := 0x700, act := 0xF }
  | .CMP_SK_RESULT =>
    { block := .CMP, off := 0x708, ro := 0x3FFFFFFFF }
  | .CMP_SK_KEY =>
    { block := .CMP, off := 0x740, dims := [(8, 0x8)], rw := 0xFFFFFFFFFFFFFFFF }
  | .GLB_CC_CTL =>
    { block := .GLB, off := 0x100, reset := 0x1, ro := 0x1, rw := 0x6, w1c := 0x8 }
  | .GLB_CC_VEC =>
    { block := .GLB, off := 0x108, rwl := 0xFFFFFFFFFFFFFC }
  | .GLB_CC_STATUS =>
    { block := .GLB, off := 0x110, ro := 0xFFFFFFFFFFFF }
  | .GLB_CC_MTIMECMP =>
    { block := .GLB, off := 0x200, dims := [(24, 0x8)], reset := 0xFFFFFFFFFFFFFFFF, rw := 0xFFFFFFFFFFFFFFFF }
  | .GLB_CC_IRQ =>
    { block := .GLB, off := 0x300, dims := [(24, 0x8)], ro := 0x4, rw := 0x700, w1c := 0x3 }
  | .MBX_MGR_CTL =>
    { block := .MBX, off := 0x0, ro := 0xF00, rw := 0x1, act := 0x2 }
  | .MBX_STAT =>
    { block := .MBX, off := 0x100, dims := [(10, 0x8)], ro := 0xFFFFFFFFFFFFFFFF }
  | .MBX_PEND =>
    { block := .MBX, off := 0x200, dims := [(33, 0x8)], ro := 0xFFFFFFFFFFFFFFFF }
  | .MBX_PKT_BASE =>
    { block := .MBX, off := 0x400, dims := [(24, 0x10)], rw := 0xFFFFFFFFFF }
  | .MBX_PKT_CTL =>
    { block := .MBX, off := 0x408, dims := [(24, 0x10)], reset := 0x10, ro := 0xFFFFFF00, rw := 0xFFFFFF0000003F }
  | .MBX_SEL =>
    { block := .MBX, off := 0x10000, dims := [(24, 0x1000)], rw := 0xFFF }
  | .MBX_HEAD =>
    { block := .MBX, off := 0x10008, dims := [(24, 0x1000)], ro := 0xF03FF }
  | .MBX_POP =>
    { block := .MBX, off := 0x10010, dims := [(24, 0x1000)], act := 0xFFFFFFFFFFFFFFFF }
  | .MBX_POST =>
    { block := .MBX, off := 0x10018, dims := [(24, 0x1000)], act := 0xF }
  | .MBX_STATUS =>
    { block := .MBX, off := 0x10020, dims := [(24, 0x1000)], reset := 0x8, ro := 0xFF002F, w1c := 0xD0, rc := 0xFF00 }
  | .MBX_CTL =>
    { block := .MBX, off := 0x10028, dims := [(24, 0x1000)], rw := 0xFFF }
  | .MBX_IN_DATA =>
    { block := .MBX, off := 0x10040, dims := [(24, 0x1000), (8, 0x8)], ro := 0xFFFFFFFFFFFFFFFF }
  | .MBX_OUT_DATA =>
    { block := .MBX, off := 0x10080, dims := [(24, 0x1000), (8, 0x8)], rw := 0xFFFFFFFFFFFFFFFF }
  | .GONG_CFG =>
    { block := .GONG, off := 0x0, reset := 0x151806420, rw := 0xFF5F, rwl := 0xFFFFFFFF0020, act := 0x80 }
  | .GONG_STATUS_SUM =>
    { block := .GONG, off := 0x8, ro := 0xFFFFFFFFF }
  | .GONG_FATAL_ACT =>
    { block := .GONG, off := 0x10, rwl := 0xFFFFFFFFFFFFFFFF }
  | .GONG_ACCESS =>
    { block := .GONG, off := 0x18, reset := 0x100000000, rwl := 0x300000000, w1c := 0xFFFFFFFF }
  | .GONG_INJECT =>
    { block := .GONG, off := 0x20, act := 0x103FF }
  | .GONG_ST_STATUS =>
    { block := .GONG, off := 0x28, ro := 0xFFFF01FFFFFF }
  | .GONG_LOCK =>
    { block := .GONG, off := 0xF8, w1s := 0x1 }
  | .GONG_STATUS =>
    { block := .GONG, off := 0x100, dims := [(32, 0x8)], w1c := 0xFFFFFFFF }
  | .GONG_SEV =>
    { block := .GONG, off := 0x200, dims := [(32, 0x8)], reset := 0x5555555555555555, rwl := 0xFFFFFFFFFFFFFFFF }
  | .GONG_FIRST_INFO =>
    { block := .GONG, off := 0x400, dims := [(32, 0x20)], ro := 0xFFFFFFFF00FFFFFE, w1c := 0x1 }
  | .GONG_FIRST_ADDR =>
    { block := .GONG, off := 0x408, dims := [(32, 0x20)], ro := 0xFFFFFFFFFFFFFFFF }
  | .GONG_FIRST_TS =>
    { block := .GONG, off := 0x410, dims := [(32, 0x20)], ro := 0xFFFFFFFFFFFFFFFF }
  | .PMC_CFG =>
    { block := .PMC, off := 0x0, rw := 0x1 }
  | .PMC_USER =>
    { block := .PMC, off := 0x8, rwl := 0xFFFF }
  | .PMC_SAMPLE_BASE =>
    { block := .PMC, off := 0x10, rwl := 0xFFFFFFFFFF }
  | .PMC_SAMPLE_CTL =>
    { block := .PMC, off := 0x18, reset := 0xC, ro := 0xFFFFFF00, rw := 0xFFFFFF0000003F }
  | .PMC_SAMPLE_STATUS =>
    { block := .PMC, off := 0x20, rc := 0xFFFFFFFFFFFFFFFF }
  | .PMC_LOCK =>
    { block := .PMC, off := 0xF8, w1s := 0x1 }
  | .PMC_OVF =>
    { block := .PMC, off := 0x100, dims := [(21, 0x8)], ro := 0xFFFFFFFFFFFFFFFF }
  | .PMC_CTR_CFG =>
    { block := .PMC, off := 0x10000, dims := [(1344, 0x10)], reset := 0xFF0000, rw := 0x3FFF3FFF }
  | .PMC_CTR_VAL =>
    { block := .PMC, off := 0x10008, dims := [(1344, 0x10)], rw := 0xFFFFFFFFFFFF, w1c := 0x8000000000000000 }
  | .PMC_FN_MASK =>
    { block := .PMC, off := 0x20000, dims := [(2080, 0x8)], rw := 0xFFFFFFFFFFFFFFFF }
  | .FNC_PMC =>
    { block := .FNC, off := 0x800, dims := [(64, 0x8)], reset := 0x4000000000000000, ro := 0xC000FFFFFFFFFFFF }
  | .PWR_IO_CTL =>
    { block := .PWR, off := 0x38, reset := 0x59, rw := 0xFF, rwl := 0x300 }
  | .PWR_AVS =>
    { block := .PWR, off := 0x40, reset := 0x2EE02EE, ro := 0x3FF03FF, w1c := 0x100000000 }
  | .SNR_LOAD =>
    { block := .SNR, off := 0x0, ro := 0x2000000000000, rw := 0xFFFFFFFFFFFF, w1c := 0x4000000000000, act := 0x1000000000000 }
  | .PPL_PARSE_STATE =>
    { block := .PPL, off := 0x10000, dims := [(2, 0x2000), (1024, 0x8)], rw := 0xFFFFFFFFFFFFFFFF }
  | .PPL_PARSE_TRANS =>
    { block := .PPL, off := 0x14000, dims := [(2, 0x2000), (1024, 0x8)], rw := 0xFFFFFFFFFFFFFFFF }
  | .PPL_KEY_PROF =>
    { block := .PPL, off := 0x18000, dims := [(2, 0x1000), (512, 0x8)], rw := 0xFFFFFFFFFFFFFFFF }
  | .PPL_POLICER =>
    { block := .PPL, off := 0x40000, dims := [(32768, 0x8)], rw := 0xFFFFFFFFFFFFFFFF }
  | .TBL_SUB =>
    { block := .TBL, off := 0x20000, dims := [(2048, 0x8)], rw := 0xFFFFFFFFFFFFFFFF }
  | .TBL_MASK =>
    { block := .TBL, off := 0x30000, dims := [(8192, 0x8)], rw := 0xFFFFFFFFFFFFFFFF }
  | .TBL_STASH =>
    { block := .TBL, off := 0x40000, dims := [(32768, 0x8)], ro := 0xFFFFFFFFFFFFFFFF }
  | .SCH_L1 =>
    { block := .SCH, off := 0x10000, dims := [(4096, 0x8)], rw := 0xFFFFFFFFFFFFFFFF }
  | .SCH_GROUP =>
    { block := .SCH, off := 0x20000, dims := [(16384, 0x8)], rw := 0xFFFFFFFFFFFFFFFF }
  | .SCH_SHAPER =>
    { block := .SCH, off := 0x40000, dims := [(24680, 0x8)], rw := 0xFFFFFFFFFFFFFFFF }
  | .SCH_DEST_MAP =>
    { block := .SCH, off := 0x80000, dims := [(8212, 0x8)], rw := 0xFFFFFFFFFFFFFFFF }
  | .SCH_MODIFY =>
    { block := .SCH, off := 0xA0000, dims := [(16384, 0x8)], rw := 0xFFFFFFFFFFFFFFFF }
  | .SCH_TEMPLATE =>
    { block := .SCH, off := 0xC0000, dims := [(32768, 0x8)], rw := 0xFFFFFFFFFFFFFFFF }
  | .XPT_QP_BIND =>
    { block := .XPT, off := 0x100000, dims := [(32768, 0x8)], rw := 0xFFFFFFFFFFFFFFFF }
  | .CRY_MACSEC =>
    { block := .CRY, off := 0x10000, dims := [(33792, 0x8)], rw := 0xFFFFFFFFFFFFFFFF }
  | .SEC_MEASURE =>
    { block := .SEC, off := 0x1000, dims := [(128, 0x8)], ro := 0xFFFFFFFFFFFFFFFF }
  | .CMP_HIST =>
    { block := .CMP, off := 0x10000, dims := [(8192, 0x8)], ro := 0xFFFFFFFFFFFFFFFF }
  | .CMP_HIST_SNAP =>
    { block := .CMP, off := 0x20000, dims := [(8192, 0x8)], ro := 0xFFFFFFFFFFFFFFFF }
  | .MBX_MCFG =>
    { block := .MBX, off := 0x40000, dims := [(2104, 0x8)], reset := 0x20000A, rw := 0xFFFFFFFFFFFFFFFF }
  | .GONG_COUNT =>
    { block := .GONG, off := 0x1000, dims := [(256, 0x8)], ro := 0xFFFFFFFFFFFFFFFF }
  | .GONG_RETIRE_LOG =>
    { block := .GONG, off := 0x2000, dims := [(512, 0x8)], ro := 0xFFFFFFFFFFFFFFFF }

/-- Part 1 of the list of all registers. -/
def RegName.part1 : List RegName :=
  [.GLB_IDENT, .GLB_STEPPING, .GLB_MODE, .GLB_STRAPS, .GLB_RESET_CAUSE, .GLB_RESET_CTL, .GLB_WDOG_CTL, .GLB_WDOG_KICK, .GLB_EVENING_CTL, .GLB_LOCK, .PWR_CLK_CTL, .PWR_PLL_STATUS, .PWR_SAG_STATUS, .PWR_DOMAIN_STATUS, .PWR_HOLD_AWAKE, .PWR_THERM, .PWR_LOCK, .CAR_TIME_NSF, .CAR_TIME_SEC, .CAR_TIME_TS64, .CAR_ADJ, .CAR_STEP_SEC, .CAR_STEP_NS, .CAR_STATUS, .CAR_EPS_TIME, .CAR_EPS_BASE, .CAR_EPS_GROWTH, .CAR_EPS_PARTS, .CAR_SERVO_CFG, .CAR_SERVO_LIMIT, .CAR_SERVO_GAIN, .CAR_OSC, .CAR_OSC_R, .CAR_OSC_A, .CAR_OSC_W, .CAR_GRADE_FLOOR, .CAR_UTC, .CAR_LEAP_TIME, .CAR_PPS_IN, .CAR_GNSS_PPS, .CAR_NMEA, .CAR_PPS_OUT, .CAR_LAST_MEAS, .CAR_LOCK, .CAR_SRC_CFG, .CAR_SRC_BUDGET, .CAR_SRC_PATH, .CAR_SRC_STATUS, .CAR_PTP_CLOCK, .CAR_PTP_IDENTITY]

/-- Part 2 of the list of all registers. -/
def RegName.part2 : List RegName :=
  [.CAR_PTP_PORT, .CAR_TOKEN_CTL, .CAR_TOKEN_STATUS, .CAR_TOKEN_BATCH, .CAR_HOLD_CFG, .CAR_LINK_MAP, .CAR_LINK_STATUS, .CAR_BELL_CTL, .ETH_PORT_CFG, .ETH_PORT_CTL, .ETH_PORT_STATUS, .ETH_MAC_CFG, .ETH_PFC_CFG, .ETH_MAC_ADDR, .ETH_PTP_IP4, .ETH_PTP_IP6_HI, .ETH_PTP_IP6_LO, .ETH_TS_INT, .ETH_TS_BOARD, .ETH_TS_ASYM, .ETH_LANE_CTL, .ETH_LANE_STATUS, .ETH_SYNCE, .ETH_SYNCE_SEL, .ETH_MACSEC_CTL, .ETH_LOCK, .ETH_STAT, .PPL_CFG, .PPL_GEN, .PPL_GEN_GLOBAL, .PPL_HASH_CFG, .PPL_REORDER_CFG, .PPL_ACT_ADDR, .PPL_ACT_DATA, .PPL_LOCK, .PPL_STAT, .PPL_POOL_CFG, .PPL_SCAN_PROF, .PPL_STAGE_CFG, .TBL_CMD, .TBL_CMD_STATUS, .TBL_CMD_DATA, .TBL_LEARN_RING, .TBL_LEARN_RING_CTL, .TBL_LEARN_PPL, .TBL_FLOW_CFG, .TBL_FLOW_BASE, .TBL_FLOW_BUCKETS, .TBL_LOCK, .TBL_STAT]

/-- Part 3 of the list of all registers. -/
def RegName.part3 : List RegName :=
  [.TBL_SET_CFG, .TBL_BLOCK_MAP, .TBL_T_CFG, .TBL_T_WAYS, .TBL_T_SEED, .TBL_T_AGE, .TBL_T_LEARN, .TBL_T_STATUS, .TBC_CTL, .TBC_STATUS, .TBC_ENTRY, .TBC_START, .TBC_START_MASK, .TBC_SHARE, .TBC_WDOG, .TBC_POWER, .TBC_MBX_THREADS, .TBC_CHAN_PERM, .TBC_TBL_SETS, .TBC_DDR_WIN_BASE, .TBC_DDR_WIN_SIZE, .TBC_LOCK, .TBC_STAT, .TBC_MEM_ADDR, .TBC_MEM_DATA, .TBE_CTL, .TBE_STATUS, .TBE_THREAD_CTL, .TBE_THREAD_STATUS, .TBE_THREAD_PC, .TBE_THREAD_EVT, .TBE_THREAD_TRAP, .TBE_THREAD_VEC, .TBE_THREAD_G, .TBE_THREAD_S, .SCH_BUF_CFG, .SCH_STATUS, .SCH_LOCK, .SCH_OVH, .SCH_STAT, .SCH_L2_CFG, .SCH_SESSION, .SCH_CAP_BASE, .SCH_CAP_CTL, .FNC_Q_SEL, .FNC_Q_CFG, .FNC_Q_CTL, .FNC_Q_STATUS, .FNC_Q_IDX, .FNC_Q_IRQ]

/-- Part 4 of the list of all registers. -/
def RegName.part4 : List RegName :=
  [.FNC_Q_BASE, .FNC_FN_INFO, .FNC_FN_STAT, .FNC_RES_QP, .FNC_RES_VEC, .FNC_RES_TX, .FNC_RES_CTL, .HL_LINK_CFG, .HL_LINK_STATUS, .HL_LINK_CTL, .HL_SRIOV_STATUS, .HL_IDE_STATUS, .HL_MGR_CTL, .HL_LOCK, .HL_STAT, .XPT_CFG, .XPT_CONN_BASE, .XPT_WIN_BASE, .XPT_CMD, .XPT_CMD_STATUS, .XPT_CMD_DATA, .XPT_LOCK, .XPT_STAT, .XPT_FN_CONN, .XPT_FN_WIN, .NVM_CFG, .NVM_STATUS, .NVM_ATTACH_BASE, .NVM_CMD, .NVM_CMD_STATUS, .NVM_CMD_DATA, .NVM_LOCK, .NVM_STAT, .NVM_WAKE, .NVM_FN_RES, .NVM_FN_CFG, .CRY_CFG, .CRY_STATUS, .CRY_RETIRED, .CRY_KEY_BASE, .CRY_SA_BASE, .CRY_KEY_CMD, .CRY_KEY_STATUS, .CRY_KEY_DATA, .CRY_LOCK, .CRY_STAT, .SEC_LIFECYCLE, .SEC_BOOT_STATUS, .SEC_SLOT_STATUS, .SEC_ROLLBACK]

/-- Part 5 of the list of all registers. -/
def RegName.part5 : List RegName :=
  [.SEC_ROLLBACK_CMD, .SEC_MEASURE_EXTEND, .SEC_TRIGGER, .SEC_MEASURE_DATA, .SEC_LOCK, .CMP_CFG, .CMP_STATUS, .CMP_FC_BASE, .CMP_FC_CMD, .CMP_FC_STATUS, .CMP_FC_DATA, .CMP_REC_BASE, .CMP_REC_CTL, .CMP_REC_CFG, .CMP_LOCK, .CMP_STAT, .CMP_HIST_CFG, .CMP_SK_CFG, .CMP_SK_SEED01, .CMP_SK_SEED23, .CMP_SK_N, .CMP_SK_QUERY, .CMP_SK_RESULT, .CMP_SK_KEY, .GLB_CC_CTL, .GLB_CC_VEC, .GLB_CC_STATUS, .GLB_CC_MTIMECMP, .GLB_CC_IRQ, .MBX_MGR_CTL, .MBX_STAT, .MBX_PEND, .MBX_PKT_BASE, .MBX_PKT_CTL, .MBX_SEL, .MBX_HEAD, .MBX_POP, .MBX_POST, .MBX_STATUS, .MBX_CTL, .MBX_IN_DATA, .MBX_OUT_DATA, .GONG_CFG, .GONG_STATUS_SUM, .GONG_FATAL_ACT, .GONG_ACCESS, .GONG_INJECT, .GONG_ST_STATUS, .GONG_LOCK, .GONG_STATUS]

/-- Part 6 of the list of all registers. -/
def RegName.part6 : List RegName :=
  [.GONG_SEV, .GONG_FIRST_INFO, .GONG_FIRST_ADDR, .GONG_FIRST_TS, .PMC_CFG, .PMC_USER, .PMC_SAMPLE_BASE, .PMC_SAMPLE_CTL, .PMC_SAMPLE_STATUS, .PMC_LOCK, .PMC_OVF, .PMC_CTR_CFG, .PMC_CTR_VAL, .PMC_FN_MASK, .FNC_PMC, .PWR_IO_CTL, .PWR_AVS, .SNR_LOAD, .PPL_PARSE_STATE, .PPL_PARSE_TRANS, .PPL_KEY_PROF, .PPL_POLICER, .TBL_SUB, .TBL_MASK, .TBL_STASH, .SCH_L1, .SCH_GROUP, .SCH_SHAPER, .SCH_DEST_MAP, .SCH_MODIFY, .SCH_TEMPLATE, .XPT_QP_BIND, .CRY_MACSEC, .SEC_MEASURE, .CMP_HIST, .CMP_HIST_SNAP, .MBX_MCFG, .GONG_COUNT, .GONG_RETIRE_LOG]

/-- Every register and memory, in the order of the chapters. -/
def RegName.all : List RegName :=
  part1 ++ part2 ++ part3 ++ part4 ++ part5 ++ part6

/-- One field of a field table: its register and its bits [hi:lo]. -/
structure Field where
  reg : RegName
  hi : Nat
  lo : Nat
deriving DecidableEq, Repr

/-! ## The fields, each under its register's name -/

def GLB_IDENT.DEVICE : Field := ⟨.GLB_IDENT, 15, 0⟩
def GLB_IDENT.VENDOR : Field := ⟨.GLB_IDENT, 31, 16⟩
def GLB_IDENT.GRADE : Field := ⟨.GLB_IDENT, 33, 32⟩
def GLB_STEPPING.MINOR : Field := ⟨.GLB_STEPPING, 3, 0⟩
def GLB_STEPPING.MAJOR : Field := ⟨.GLB_STEPPING, 7, 4⟩
def GLB_MODE.MODE : Field := ⟨.GLB_MODE, 2, 0⟩
def GLB_MODE.TRANSIT : Field := ⟨.GLB_MODE, 3, 3⟩
def GLB_MODE.REQ : Field := ⟨.GLB_MODE, 6, 4⟩
def GLB_MODE.DUSK_END : Field := ⟨.GLB_MODE, 7, 7⟩
def GLB_MODE.REFUSED : Field := ⟨.GLB_MODE, 8, 8⟩
def GLB_MODE.FORCE : Field := ⟨.GLB_MODE, 9, 9⟩
def GLB_MODE.AUTO : Field := ⟨.GLB_MODE, 10, 10⟩
def GLB_STRAPS.BOOT_SRC : Field := ⟨.GLB_STRAPS, 1, 0⟩
def GLB_STRAPS.MGR_LINK : Field := ⟨.GLB_STRAPS, 5, 2⟩
def GLB_STRAPS.LANE_MAP : Field := ⟨.GLB_STRAPS, 8, 6⟩
def GLB_RESET_CAUSE.POR : Field := ⟨.GLB_RESET_CAUSE, 0, 0⟩
def GLB_RESET_CAUSE.SUPPLY : Field := ⟨.GLB_RESET_CAUSE, 1, 1⟩
def GLB_RESET_CAUSE.WDOG : Field := ⟨.GLB_RESET_CAUSE, 2, 2⟩
def GLB_RESET_CAUSE.MGR : Field := ⟨.GLB_RESET_CAUSE, 3, 3⟩
def GLB_RESET_CAUSE.FATAL : Field := ⟨.GLB_RESET_CAUSE, 4, 4⟩
def GLB_RESET_CAUSE.THERMAL : Field := ⟨.GLB_RESET_CAUSE, 5, 5⟩
def GLB_RESET_CAUSE.AON : Field := ⟨.GLB_RESET_CAUSE, 6, 6⟩
def GLB_RESET_CAUSE.DUSK_NIGHT : Field := ⟨.GLB_RESET_CAUSE, 7, 7⟩
def GLB_RESET_CAUSE.WARM_COUNT : Field := ⟨.GLB_RESET_CAUSE, 15, 8⟩
def GLB_RESET_CTL.KEY : Field := ⟨.GLB_RESET_CTL, 15, 0⟩
def GLB_RESET_CTL.TARGET : Field := ⟨.GLB_RESET_CTL, 16, 16⟩
def GLB_WDOG_CTL.EN : Field := ⟨.GLB_WDOG_CTL, 0, 0⟩
def GLB_WDOG_CTL.PERIOD : Field := ⟨.GLB_WDOG_CTL, 19, 4⟩
def GLB_WDOG_CTL.FIRST : Field := ⟨.GLB_WDOG_CTL, 20, 20⟩
def GLB_WDOG_KICK.KICK : Field := ⟨.GLB_WDOG_KICK, 63, 0⟩
def GLB_EVENING_CTL.AUTO_ENTER : Field := ⟨.GLB_EVENING_CTL, 0, 0⟩
def GLB_EVENING_CTL.UP_KIB : Field := ⟨.GLB_EVENING_CTL, 23, 8⟩
def GLB_EVENING_CTL.DOWN_KIB : Field := ⟨.GLB_EVENING_CTL, 39, 24⟩
def GLB_EVENING_CTL.IDLE_US : Field := ⟨.GLB_EVENING_CTL, 55, 40⟩
def GLB_LOCK.LOCK : Field := ⟨.GLB_LOCK, 0, 0⟩
def PWR_CLK_CTL.SPREAD_PIPE : Field := ⟨.PWR_CLK_CTL, 0, 0⟩
def PWR_CLK_CTL.SPREAD_CRYPTO : Field := ⟨.PWR_CLK_CTL, 1, 1⟩
def PWR_CLK_CTL.SPREAD_CMP : Field := ⟨.PWR_CLK_CTL, 2, 2⟩
def PWR_CLK_CTL.SPREAD_ENG : Field := ⟨.PWR_CLK_CTL, 3, 3⟩
def PWR_CLK_CTL.SPREAD_CTL : Field := ⟨.PWR_CLK_CTL, 4, 4⟩
def PWR_CLK_CTL.PIPE_HALF : Field := ⟨.PWR_CLK_CTL, 8, 8⟩
def PWR_PLL_STATUS.LOCKED : Field := ⟨.PWR_PLL_STATUS, 6, 0⟩
def PWR_PLL_STATUS.TS_LOCK_LOST : Field := ⟨.PWR_PLL_STATUS, 7, 7⟩
def PWR_SAG_STATUS.WARN_NOW : Field := ⟨.PWR_SAG_STATUS, 7, 0⟩
def PWR_SAG_STATUS.WARN_SEEN : Field := ⟨.PWR_SAG_STATUS, 15, 8⟩
def PWR_SAG_STATUS.SAG_COUNT : Field := ⟨.PWR_SAG_STATUS, 31, 16⟩
def PWR_DOMAIN_STATUS.TBC_AWAKE : Field := ⟨.PWR_DOMAIN_STATUS, 15, 0⟩
def PWR_DOMAIN_STATUS.CRY_AWAKE : Field := ⟨.PWR_DOMAIN_STATUS, 23, 16⟩
def PWR_DOMAIN_STATUS.CMP_AWAKE : Field := ⟨.PWR_DOMAIN_STATUS, 39, 24⟩
def PWR_DOMAIN_STATUS.SNR_AWAKE : Field := ⟨.PWR_DOMAIN_STATUS, 47, 40⟩
def PWR_HOLD_AWAKE.HOLD : Field := ⟨.PWR_HOLD_AWAKE, 47, 0⟩
def PWR_THERM.TJ : Field := ⟨.PWR_THERM, 15, 0⟩
def PWR_THERM.THROTTLE : Field := ⟨.PWR_THERM, 16, 16⟩
def PWR_THERM.SHUTDOWN_SEEN : Field := ⟨.PWR_THERM, 17, 17⟩
def PWR_LOCK.LOCK : Field := ⟨.PWR_LOCK, 0, 0⟩
def CAR_TIME_NSF.FRAC : Field := ⟨.CAR_TIME_NSF, 15, 0⟩
def CAR_TIME_NSF.NS : Field := ⟨.CAR_TIME_NSF, 47, 16⟩
def CAR_TIME_SEC.SEC : Field := ⟨.CAR_TIME_SEC, 47, 0⟩
def CAR_TIME_TS64.TS64 : Field := ⟨.CAR_TIME_TS64, 63, 0⟩
def CAR_ADJ.ADJ : Field := ⟨.CAR_ADJ, 31, 0⟩
def CAR_STEP_SEC.SEC : Field := ⟨.CAR_STEP_SEC, 47, 0⟩
def CAR_STEP_NS.NS : Field := ⟨.CAR_STEP_NS, 31, 0⟩
def CAR_STATUS.STATE : Field := ⟨.CAR_STATUS, 2, 0⟩
def CAR_STATUS.SRC : Field := ⟨.CAR_STATUS, 5, 3⟩
def CAR_STATUS.UNSYNC : Field := ⟨.CAR_STATUS, 6, 6⟩
def CAR_STATUS.HELD : Field := ⟨.CAR_STATUS, 7, 7⟩
def CAR_STATUS.CARRY : Field := ⟨.CAR_STATUS, 8, 8⟩
def CAR_STATUS.DEGRADED : Field := ⟨.CAR_STATUS, 9, 9⟩
def CAR_STATUS.TOD_VALID : Field := ⟨.CAR_STATUS, 10, 10⟩
def CAR_STATUS.CONFLICT : Field := ⟨.CAR_STATUS, 11, 11⟩
def CAR_STATUS.STEP_REFUSED : Field := ⟨.CAR_STATUS, 12, 12⟩
def CAR_STATUS.SYNCE_IN_USE : Field := ⟨.CAR_STATUS, 13, 13⟩
def CAR_STATUS.HOLD_S : Field := ⟨.CAR_STATUS, 47, 16⟩
def CAR_EPS_TIME.TK : Field := ⟨.CAR_EPS_TIME, 63, 0⟩
def CAR_EPS_BASE.BASE : Field := ⟨.CAR_EPS_BASE, 63, 0⟩
def CAR_EPS_GROWTH.FRAC : Field := ⟨.CAR_EPS_GROWTH, 31, 0⟩
def CAR_EPS_GROWTH.INT : Field := ⟨.CAR_EPS_GROWTH, 63, 32⟩
def CAR_EPS_PARTS.SOURCE : Field := ⟨.CAR_EPS_PARTS, 31, 0⟩
def CAR_EPS_PARTS.PATH : Field := ⟨.CAR_EPS_PARTS, 63, 32⟩
def CAR_SERVO_CFG.SERVO_EN : Field := ⟨.CAR_SERVO_CFG, 0, 0⟩
def CAR_SERVO_CFG.REVERT : Field := ⟨.CAR_SERVO_CFG, 1, 1⟩
def CAR_SERVO_CFG.CONFLICT_ACT : Field := ⟨.CAR_SERVO_CFG, 2, 2⟩
def CAR_SERVO_CFG.WTR_S : Field := ⟨.CAR_SERVO_CFG, 15, 4⟩
def CAR_SERVO_CFG.STEP_THRESH : Field := ⟨.CAR_SERVO_CFG, 31, 16⟩
def CAR_SERVO_CFG.LOCK_THRESH : Field := ⟨.CAR_SERVO_CFG, 47, 32⟩
def CAR_SERVO_CFG.LOCK_COUNT : Field := ⟨.CAR_SERVO_CFG, 55, 48⟩
def CAR_SERVO_CFG.LOSS_N : Field := ⟨.CAR_SERVO_CFG, 59, 56⟩
def CAR_SERVO_LIMIT.EPS_LIMIT : Field := ⟨.CAR_SERVO_LIMIT, 31, 0⟩
def CAR_SERVO_LIMIT.SLEW_PPB : Field := ⟨.CAR_SERVO_LIMIT, 51, 32⟩
def CAR_SERVO_GAIN.KP_SHIFT : Field := ⟨.CAR_SERVO_GAIN, 4, 0⟩
def CAR_SERVO_GAIN.KI_SHIFT : Field := ⟨.CAR_SERVO_GAIN, 12, 8⟩
def CAR_OSC.CLASS : Field := ⟨.CAR_OSC, 2, 0⟩
def CAR_OSC_R.R : Field := ⟨.CAR_OSC_R, 47, 0⟩
def CAR_OSC_A.A : Field := ⟨.CAR_OSC_A, 47, 0⟩
def CAR_OSC_W.W : Field := ⟨.CAR_OSC_W, 31, 0⟩
def CAR_GRADE_FLOOR.FLOOR : Field := ⟨.CAR_GRADE_FLOOR, 15, 0⟩
def CAR_UTC.OFFSET : Field := ⟨.CAR_UTC, 15, 0⟩
def CAR_UTC.VALID : Field := ⟨.CAR_UTC, 16, 16⟩
def CAR_UTC.LEAP61 : Field := ⟨.CAR_UTC, 17, 17⟩
def CAR_UTC.LEAP59 : Field := ⟨.CAR_UTC, 18, 18⟩
def CAR_UTC.FROM_PTP : Field := ⟨.CAR_UTC, 19, 19⟩
def CAR_UTC.APPLIED : Field := ⟨.CAR_UTC, 20, 20⟩
def CAR_LEAP_TIME.SEC : Field := ⟨.CAR_LEAP_TIME, 47, 0⟩
def CAR_PPS_IN.EN : Field := ⟨.CAR_PPS_IN, 0, 0⟩
def CAR_PPS_IN.FALLING : Field := ⟨.CAR_PPS_IN, 1, 1⟩
def CAR_PPS_IN.WINDOW_NS : Field := ⟨.CAR_PPS_IN, 23, 8⟩
def CAR_PPS_IN.DELAY : Field := ⟨.CAR_PPS_IN, 47, 24⟩
def CAR_PPS_IN.EXT10M : Field := ⟨.CAR_PPS_IN, 48, 48⟩
def CAR_GNSS_PPS.EN : Field := ⟨.CAR_GNSS_PPS, 0, 0⟩
def CAR_GNSS_PPS.FALLING : Field := ⟨.CAR_GNSS_PPS, 1, 1⟩
def CAR_GNSS_PPS.WINDOW_NS : Field := ⟨.CAR_GNSS_PPS, 23, 8⟩
def CAR_GNSS_PPS.DELAY : Field := ⟨.CAR_GNSS_PPS, 47, 24⟩
def CAR_NMEA.EN : Field := ⟨.CAR_NMEA, 0, 0⟩
def CAR_NMEA.ASSOC : Field := ⟨.CAR_NMEA, 1, 1⟩
def CAR_NMEA.BAUD : Field := ⟨.CAR_NMEA, 3, 2⟩
def CAR_PPS_OUT.EN : Field := ⟨.CAR_PPS_OUT, 0, 0⟩
def CAR_PPS_OUT.SQUELCH : Field := ⟨.CAR_PPS_OUT, 1, 1⟩
def CAR_PPS_OUT.EXT10M_EN : Field := ⟨.CAR_PPS_OUT, 2, 2⟩
def CAR_PPS_OUT.WIDTH_US : Field := ⟨.CAR_PPS_OUT, 19, 8⟩
def CAR_PPS_OUT.OFFSET : Field := ⟨.CAR_PPS_OUT, 47, 24⟩
def CAR_LAST_MEAS.THETA : Field := ⟨.CAR_LAST_MEAS, 31, 0⟩
def CAR_LAST_MEAS.AGE_MS : Field := ⟨.CAR_LAST_MEAS, 63, 32⟩
def CAR_LOCK.LOCK : Field := ⟨.CAR_LOCK, 0, 0⟩
def CAR_SRC_CFG.EN : Field := ⟨.CAR_SRC_CFG, 0, 0⟩
def CAR_SRC_CFG.KIND : Field := ⟨.CAR_SRC_CFG, 2, 1⟩
def CAR_SRC_CFG.PORT : Field := ⟨.CAR_SRC_CFG, 7, 3⟩
def CAR_SRC_CFG.PRIORITY : Field := ⟨.CAR_SRC_CFG, 11, 8⟩
def CAR_SRC_CFG.EPS_MODE : Field := ⟨.CAR_SRC_CFG, 13, 12⟩
def CAR_SRC_CFG.SYNCE_ASSIST : Field := ⟨.CAR_SRC_CFG, 14, 14⟩
def CAR_SRC_BUDGET.BUDGET : Field := ⟨.CAR_SRC_BUDGET, 31, 0⟩
def CAR_SRC_BUDGET.HOP_BUDGET : Field := ⟨.CAR_SRC_BUDGET, 47, 32⟩
def CAR_SRC_PATH.PATH : Field := ⟨.CAR_SRC_PATH, 31, 0⟩
def CAR_SRC_STATUS.USABLE : Field := ⟨.CAR_SRC_STATUS, 0, 0⟩
def CAR_SRC_STATUS.SELECTED : Field := ⟨.CAR_SRC_STATUS, 1, 1⟩
def CAR_SRC_STATUS.WTR : Field := ⟨.CAR_SRC_STATUS, 2, 2⟩
def CAR_SRC_STATUS.STEPS : Field := ⟨.CAR_SRC_STATUS, 15, 8⟩
def CAR_SRC_STATUS.GM_CLASS : Field := ⟨.CAR_SRC_STATUS, 23, 16⟩
def CAR_SRC_STATUS.GM_ACCURACY : Field := ⟨.CAR_SRC_STATUS, 31, 24⟩
def CAR_SRC_STATUS.REJECTS : Field := ⟨.CAR_SRC_STATUS, 47, 32⟩
def CAR_PTP_CLOCK.PRIORITY1 : Field := ⟨.CAR_PTP_CLOCK, 7, 0⟩
def CAR_PTP_CLOCK.PRIORITY2 : Field := ⟨.CAR_PTP_CLOCK, 15, 8⟩
def CAR_PTP_CLOCK.CLASS_LOCKED : Field := ⟨.CAR_PTP_CLOCK, 23, 16⟩
def CAR_PTP_CLOCK.CLASS_HOLDOVER : Field := ⟨.CAR_PTP_CLOCK, 31, 24⟩
def CAR_PTP_CLOCK.CLASS_FREE : Field := ⟨.CAR_PTP_CLOCK, 39, 32⟩
def CAR_PTP_IDENTITY.IDENTITY : Field := ⟨.CAR_PTP_IDENTITY, 63, 0⟩
def CAR_PTP_PORT.ROLE : Field := ⟨.CAR_PTP_PORT, 1, 0⟩
def CAR_PTP_PORT.PROFILE : Field := ⟨.CAR_PTP_PORT, 4, 2⟩
def CAR_PTP_PORT.DOMAIN : Field := ⟨.CAR_PTP_PORT, 12, 5⟩
def CAR_PTP_PORT.LOG_SYNC : Field := ⟨.CAR_PTP_PORT, 16, 13⟩
def CAR_PTP_PORT.LOG_DELAY : Field := ⟨.CAR_PTP_PORT, 20, 17⟩
def CAR_PTP_PORT.LOG_ANNOUNCE : Field := ⟨.CAR_PTP_PORT, 24, 21⟩
def CAR_PTP_PORT.TWO_STEP : Field := ⟨.CAR_PTP_PORT, 25, 25⟩
def CAR_PTP_PORT.TRANSPORT : Field := ⟨.CAR_PTP_PORT, 27, 26⟩
def CAR_PTP_PORT.UNICAST : Field := ⟨.CAR_PTP_PORT, 28, 28⟩
def CAR_PTP_PORT.LOCAL_PRIORITY : Field := ⟨.CAR_PTP_PORT, 39, 32⟩
def CAR_TOKEN_CTL.EN : Field := ⟨.CAR_TOKEN_CTL, 0, 0⟩
def CAR_TOKEN_CTL.PER_FN_MAX : Field := ⟨.CAR_TOKEN_CTL, 16, 8⟩
def CAR_TOKEN_STATUS.ISSUED : Field := ⟨.CAR_TOKEN_STATUS, 31, 0⟩
def CAR_TOKEN_STATUS.BUSY : Field := ⟨.CAR_TOKEN_STATUS, 47, 32⟩
def CAR_TOKEN_STATUS.DISCARDED : Field := ⟨.CAR_TOKEN_STATUS, 63, 48⟩
def CAR_TOKEN_BATCH.BATCH : Field := ⟨.CAR_TOKEN_BATCH, 63, 0⟩
def CAR_HOLD_CFG.HOLD_MAX_MS : Field := ⟨.CAR_HOLD_CFG, 15, 0⟩
def CAR_HOLD_CFG.LAUNCH_MAX_MS : Field := ⟨.CAR_HOLD_CFG, 31, 16⟩
def CAR_LINK_MAP.EN : Field := ⟨.CAR_LINK_MAP, 0, 0⟩
def CAR_LINK_MAP.PTM_US : Field := ⟨.CAR_LINK_MAP, 15, 4⟩
def CAR_LINK_MAP.MAP_EPS : Field := ⟨.CAR_LINK_MAP, 31, 16⟩
def CAR_LINK_MAP.RATE_BOUND : Field := ⟨.CAR_LINK_MAP, 47, 32⟩
def CAR_LINK_MAP.VALID_MS : Field := ⟨.CAR_LINK_MAP, 57, 48⟩
def CAR_LINK_STATUS.PTM_ON : Field := ⟨.CAR_LINK_STATUS, 0, 0⟩
def CAR_LINK_STATUS.MAPPED : Field := ⟨.CAR_LINK_STATUS, 1, 1⟩
def CAR_LINK_STATUS.CONFLICT : Field := ⟨.CAR_LINK_STATUS, 2, 2⟩
def CAR_LINK_STATUS.MAP_EPOCH : Field := ⟨.CAR_LINK_STATUS, 31, 16⟩
def CAR_LINK_STATUS.FAILS : Field := ⟨.CAR_LINK_STATUS, 47, 32⟩
def CAR_BELL_CTL.EN : Field := ⟨.CAR_BELL_CTL, 0, 0⟩
def CAR_BELL_CTL.SQUELCH : Field := ⟨.CAR_BELL_CTL, 1, 1⟩
def CAR_BELL_CTL.ADVANCE : Field := ⟨.CAR_BELL_CTL, 31, 8⟩
def ETH_PORT_CFG.WIDTH : Field := ⟨.ETH_PORT_CFG, 1, 0⟩
def ETH_PORT_CFG.RATE : Field := ⟨.ETH_PORT_CFG, 6, 4⟩
def ETH_PORT_CFG.FEC : Field := ⟨.ETH_PORT_CFG, 9, 8⟩
def ETH_PORT_CFG.AN : Field := ⟨.ETH_PORT_CFG, 10, 10⟩
def ETH_PORT_CFG.TRAIN : Field := ⟨.ETH_PORT_CFG, 11, 11⟩
def ETH_PORT_CTL.EN : Field := ⟨.ETH_PORT_CTL, 0, 0⟩
def ETH_PORT_CTL.TX_OFF : Field := ⟨.ETH_PORT_CTL, 1, 1⟩
def ETH_PORT_CTL.LOOP : Field := ⟨.ETH_PORT_CTL, 3, 2⟩
def ETH_PORT_CTL.RESTART : Field := ⟨.ETH_PORT_CTL, 4, 4⟩
def ETH_PORT_CTL.REFUSED : Field := ⟨.ETH_PORT_CTL, 5, 5⟩
def ETH_PORT_STATUS.LINK : Field := ⟨.ETH_PORT_STATUS, 0, 0⟩
def ETH_PORT_STATUS.AN_DONE : Field := ⟨.ETH_PORT_STATUS, 1, 1⟩
def ETH_PORT_STATUS.TRAIN_DONE : Field := ⟨.ETH_PORT_STATUS, 2, 2⟩
def ETH_PORT_STATUS.FEC_ALIGN : Field := ⟨.ETH_PORT_STATUS, 3, 3⟩
def ETH_PORT_STATUS.LOCAL_FAULT : Field := ⟨.ETH_PORT_STATUS, 4, 4⟩
def ETH_PORT_STATUS.REMOTE_FAULT : Field := ⟨.ETH_PORT_STATUS, 5, 5⟩
def ETH_PORT_STATUS.TS_READY : Field := ⟨.ETH_PORT_STATUS, 6, 6⟩
def ETH_PORT_STATUS.OWNED : Field := ⟨.ETH_PORT_STATUS, 7, 7⟩
def ETH_PORT_STATUS.DOWN_COUNT : Field := ⟨.ETH_PORT_STATUS, 31, 16⟩
def ETH_MAC_CFG.MAX_FRAME : Field := ⟨.ETH_MAC_CFG, 13, 0⟩
def ETH_MAC_CFG.PAUSE_RX : Field := ⟨.ETH_MAC_CFG, 16, 16⟩
def ETH_MAC_CFG.PAUSE_TX : Field := ⟨.ETH_MAC_CFG, 17, 17⟩
def ETH_MAC_CFG.PFC_EN : Field := ⟨.ETH_MAC_CFG, 31, 24⟩
def ETH_PFC_CFG.XOFF_KIB : Field := ⟨.ETH_PFC_CFG, 15, 0⟩
def ETH_PFC_CFG.XON_KIB : Field := ⟨.ETH_PFC_CFG, 31, 16⟩
def ETH_PFC_CFG.QUANTA : Field := ⟨.ETH_PFC_CFG, 47, 32⟩
def ETH_PFC_CFG.HEADROOM_KIB : Field := ⟨.ETH_PFC_CFG, 63, 48⟩
def ETH_MAC_ADDR.ADDR : Field := ⟨.ETH_MAC_ADDR, 47, 0⟩
def ETH_PTP_IP4.IP4 : Field := ⟨.ETH_PTP_IP4, 31, 0⟩
def ETH_PTP_IP4.VLAN : Field := ⟨.ETH_PTP_IP4, 43, 32⟩
def ETH_PTP_IP4.VLAN_EN : Field := ⟨.ETH_PTP_IP4, 44, 44⟩
def ETH_PTP_IP6_HI.HI : Field := ⟨.ETH_PTP_IP6_HI, 63, 0⟩
def ETH_PTP_IP6_LO.LO : Field := ⟨.ETH_PTP_IP6_LO, 63, 0⟩
def ETH_TS_INT.TX_INT : Field := ⟨.ETH_TS_INT, 15, 0⟩
def ETH_TS_INT.RX_INT : Field := ⟨.ETH_TS_INT, 31, 16⟩
def ETH_TS_INT.FUSED : Field := ⟨.ETH_TS_INT, 32, 32⟩
def ETH_TS_BOARD.TX_BOARD : Field := ⟨.ETH_TS_BOARD, 15, 0⟩
def ETH_TS_BOARD.RX_BOARD : Field := ⟨.ETH_TS_BOARD, 31, 16⟩
def ETH_TS_ASYM.ASYM : Field := ⟨.ETH_TS_ASYM, 23, 0⟩
def ETH_LANE_CTL.TX_INV : Field := ⟨.ETH_LANE_CTL, 0, 0⟩
def ETH_LANE_CTL.RX_INV : Field := ⟨.ETH_LANE_CTL, 1, 1⟩
def ETH_LANE_CTL.RX_INV_AUTO : Field := ⟨.ETH_LANE_CTL, 2, 2⟩
def ETH_LANE_CTL.PRBS : Field := ⟨.ETH_LANE_CTL, 6, 4⟩
def ETH_LANE_CTL.CHECK : Field := ⟨.ETH_LANE_CTL, 7, 7⟩
def ETH_LANE_STATUS.CDR_LOCK : Field := ⟨.ETH_LANE_STATUS, 0, 0⟩
def ETH_LANE_STATUS.PRBS_LOCK : Field := ⟨.ETH_LANE_STATUS, 1, 1⟩
def ETH_LANE_STATUS.PRBS_ERR : Field := ⟨.ETH_LANE_STATUS, 47, 16⟩
def ETH_SYNCE.RECOV_EN : Field := ⟨.ETH_SYNCE, 0, 0⟩
def ETH_SYNCE.RECOV_LOCK : Field := ⟨.ETH_SYNCE, 1, 1⟩
def ETH_SYNCE.FAIL_SEEN : Field := ⟨.ETH_SYNCE, 2, 2⟩
def ETH_SYNCE_SEL.USE_RECOV : Field := ⟨.ETH_SYNCE_SEL, 0, 0⟩
def ETH_SYNCE_SEL.PORT : Field := ⟨.ETH_SYNCE_SEL, 5, 1⟩
def ETH_SYNCE_SEL.HOLDOVER : Field := ⟨.ETH_SYNCE_SEL, 6, 6⟩
def ETH_SYNCE_SEL.ACTIVE : Field := ⟨.ETH_SYNCE_SEL, 7, 7⟩
def ETH_SYNCE_SEL.WTR_S : Field := ⟨.ETH_SYNCE_SEL, 15, 8⟩
def ETH_MACSEC_CTL.EN : Field := ⟨.ETH_MACSEC_CTL, 0, 0⟩
def ETH_MACSEC_CTL.CIPHER : Field := ⟨.ETH_MACSEC_CTL, 2, 1⟩
def ETH_MACSEC_CTL.PTP_BYPASS : Field := ⟨.ETH_MACSEC_CTL, 3, 3⟩
def ETH_MACSEC_CTL.VALIDATE : Field := ⟨.ETH_MACSEC_CTL, 4, 4⟩
def ETH_MACSEC_CTL.OFFSET : Field := ⟨.ETH_MACSEC_CTL, 6, 5⟩
def ETH_LOCK.LOCK : Field := ⟨.ETH_LOCK, 0, 0⟩
def ETH_STAT.COUNT : Field := ⟨.ETH_STAT, 63, 0⟩
def PPL_CFG.EN : Field := ⟨.PPL_CFG, 0, 0⟩
def PPL_CFG.DEFAULT_ACT : Field := ⟨.PPL_CFG, 31, 16⟩
def PPL_GEN.ACTIVE : Field := ⟨.PPL_GEN, 0, 0⟩
def PPL_GEN.COMMIT : Field := ⟨.PPL_GEN, 1, 1⟩
def PPL_GEN.PENDING : Field := ⟨.PPL_GEN, 2, 2⟩
def PPL_GEN.DONE : Field := ⟨.PPL_GEN, 3, 3⟩
def PPL_GEN.REFUSED : Field := ⟨.PPL_GEN, 4, 4⟩
def PPL_GEN.OLD_COUNT : Field := ⟨.PPL_GEN, 31, 16⟩
def PPL_GEN_GLOBAL.COMMIT_MASK : Field := ⟨.PPL_GEN_GLOBAL, 7, 0⟩
def PPL_GEN_GLOBAL.REFUSED : Field := ⟨.PPL_GEN_GLOBAL, 15, 8⟩
def PPL_HASH_CFG.SEED : Field := ⟨.PPL_HASH_CFG, 31, 0⟩
def PPL_HASH_CFG.HASH_PROF : Field := ⟨.PPL_HASH_CFG, 36, 32⟩
def PPL_REORDER_CFG.TIMEOUT_US : Field := ⟨.PPL_REORDER_CFG, 9, 0⟩
def PPL_REORDER_CFG.LATE_ACT : Field := ⟨.PPL_REORDER_CFG, 10, 10⟩
def PPL_REORDER_CFG.STREAM_IDLE_S : Field := ⟨.PPL_REORDER_CFG, 47, 32⟩
def PPL_ACT_ADDR.INDEX : Field := ⟨.PPL_ACT_ADDR, 15, 0⟩
def PPL_ACT_ADDR.WRITE : Field := ⟨.PPL_ACT_ADDR, 16, 16⟩
def PPL_ACT_ADDR.READ : Field := ⟨.PPL_ACT_ADDR, 17, 17⟩
def PPL_ACT_DATA.WORD : Field := ⟨.PPL_ACT_DATA, 63, 0⟩
def PPL_LOCK.LOCK : Field := ⟨.PPL_LOCK, 0, 0⟩
def PPL_STAT.COUNT : Field := ⟨.PPL_STAT, 63, 0⟩
def PPL_POOL_CFG.CLUSTERS : Field := ⟨.PPL_POOL_CFG, 15, 0⟩
def PPL_SCAN_PROF.MATCH_ACT : Field := ⟨.PPL_SCAN_PROF, 15, 0⟩
def PPL_SCAN_PROF.RULE_SET : Field := ⟨.PPL_SCAN_PROF, 23, 16⟩
def PPL_SCAN_PROF.FULL_ACT : Field := ⟨.PPL_SCAN_PROF, 24, 24⟩
def PPL_SCAN_PROF.STREAM : Field := ⟨.PPL_SCAN_PROF, 25, 25⟩
def PPL_STAGE_CFG.EN : Field := ⟨.PPL_STAGE_CFG, 0, 0⟩
def PPL_STAGE_CFG.KIND : Field := ⟨.PPL_STAGE_CFG, 2, 1⟩
def PPL_STAGE_CFG.TABLE : Field := ⟨.PPL_STAGE_CFG, 11, 4⟩
def PPL_STAGE_CFG.KEY_PROF : Field := ⟨.PPL_STAGE_CFG, 16, 12⟩
def PPL_STAGE_CFG.PRED : Field := ⟨.PPL_STAGE_CFG, 23, 20⟩
def PPL_STAGE_CFG.PRED_ARG : Field := ⟨.PPL_STAGE_CFG, 31, 24⟩
def PPL_STAGE_CFG.MISS_ACT : Field := ⟨.PPL_STAGE_CFG, 47, 32⟩
def TBL_CMD.OP : Field := ⟨.TBL_CMD, 3, 0⟩
def TBL_CMD.TABLE : Field := ⟨.TBL_CMD, 11, 4⟩
def TBL_CMD.INDEX : Field := ⟨.TBL_CMD, 47, 16⟩
def TBL_CMD.GEN_MASK : Field := ⟨.TBL_CMD, 49, 48⟩
def TBL_CMD_STATUS.BUSY : Field := ⟨.TBL_CMD_STATUS, 0, 0⟩
def TBL_CMD_STATUS.REFUSED : Field := ⟨.TBL_CMD_STATUS, 1, 1⟩
def TBL_CMD_STATUS.RESULT : Field := ⟨.TBL_CMD_STATUS, 7, 4⟩
def TBL_CMD_STATUS.LOCATION : Field := ⟨.TBL_CMD_STATUS, 39, 8⟩
def TBL_CMD_DATA.WORD : Field := ⟨.TBL_CMD_DATA, 63, 0⟩
def TBL_LEARN_RING.ADDR : Field := ⟨.TBL_LEARN_RING, 39, 0⟩
def TBL_LEARN_RING_CTL.LOG2 : Field := ⟨.TBL_LEARN_RING_CTL, 4, 0⟩
def TBL_LEARN_RING_CTL.EN : Field := ⟨.TBL_LEARN_RING_CTL, 5, 5⟩
def TBL_LEARN_RING_CTL.PROD : Field := ⟨.TBL_LEARN_RING_CTL, 31, 8⟩
def TBL_LEARN_RING_CTL.CONS : Field := ⟨.TBL_LEARN_RING_CTL, 55, 32⟩
/-- TBL_LEARN_PPL field TABLE_k, k = 0 to 7. -/
def TBL_LEARN_PPL.TABLE (k : Nat) : Field := ⟨.TBL_LEARN_PPL, 8 * k + 7, 8 * k⟩
def TBL_FLOW_CFG.EN : Field := ⟨.TBL_FLOW_CFG, 0, 0⟩
def TBL_FLOW_CFG.TABLE : Field := ⟨.TBL_FLOW_CFG, 8, 1⟩
def TBL_FLOW_CFG.CACHE_BASE : Field := ⟨.TBL_FLOW_CFG, 18, 9⟩
def TBL_FLOW_CFG.BUSY_ACT : Field := ⟨.TBL_FLOW_CFG, 44, 29⟩
def TBL_FLOW_BASE.ADDR : Field := ⟨.TBL_FLOW_BASE, 39, 0⟩
def TBL_FLOW_BUCKETS.BUCKETS : Field := ⟨.TBL_FLOW_BUCKETS, 25, 0⟩
def TBL_LOCK.LOCK : Field := ⟨.TBL_LOCK, 0, 0⟩
def TBL_STAT.COUNT : Field := ⟨.TBL_STAT, 63, 0⟩
def TBL_SET_CFG.READERS : Field := ⟨.TBL_SET_CFG, 7, 0⟩
/-- TBL_BLOCK_MAP field OWNER_k, k = 0 to 15. -/
def TBL_BLOCK_MAP.OWNER (k : Nat) : Field := ⟨.TBL_BLOCK_MAP, 4 * k + 3, 4 * k⟩
def TBL_T_CFG.EN : Field := ⟨.TBL_T_CFG, 0, 0⟩
def TBL_T_CFG.KIND : Field := ⟨.TBL_T_CFG, 2, 1⟩
def TBL_T_CFG.MODE : Field := ⟨.TBL_T_CFG, 3, 3⟩
def TBL_T_CFG.SET : Field := ⟨.TBL_T_CFG, 6, 4⟩
def TBL_T_CFG.SLOT : Field := ⟨.TBL_T_CFG, 8, 7⟩
def TBL_T_CFG.KEY_BYTES : Field := ⟨.TBL_T_CFG, 15, 9⟩
def TBL_T_CFG.TIER : Field := ⟨.TBL_T_CFG, 16, 16⟩
def TBL_T_WAYS.BASE0 : Field := ⟨.TBL_T_WAYS, 9, 0⟩
def TBL_T_WAYS.BASE1 : Field := ⟨.TBL_T_WAYS, 19, 10⟩
def TBL_T_WAYS.BLOCKS : Field := ⟨.TBL_T_WAYS, 28, 20⟩
def TBL_T_WAYS.SUB_BASE : Field := ⟨.TBL_T_WAYS, 42, 32⟩
def TBL_T_WAYS.SUB_COUNT : Field := ⟨.TBL_T_WAYS, 49, 43⟩
def TBL_T_WAYS.MASK_BASE : Field := ⟨.TBL_T_WAYS, 59, 50⟩
def TBL_T_SEED.SEED0 : Field := ⟨.TBL_T_SEED, 31, 0⟩
def TBL_T_SEED.SEED1 : Field := ⟨.TBL_T_SEED, 63, 32⟩
def TBL_T_AGE.AGE_P_MS : Field := ⟨.TBL_T_AGE, 31, 0⟩
def TBL_T_AGE.AGE_EN : Field := ⟨.TBL_T_AGE, 32, 32⟩
def TBL_T_AGE.NOTIFY : Field := ⟨.TBL_T_AGE, 33, 33⟩
def TBL_T_AGE.AGE_SLOW : Field := ⟨.TBL_T_AGE, 34, 34⟩
def TBL_T_LEARN.LEARN_EN : Field := ⟨.TBL_T_LEARN, 0, 0⟩
def TBL_T_LEARN.TWIN : Field := ⟨.TBL_T_LEARN, 8, 1⟩
def TBL_T_LEARN.TWIN_EN : Field := ⟨.TBL_T_LEARN, 9, 9⟩
def TBL_T_LEARN.ACT_BASE : Field := ⟨.TBL_T_LEARN, 25, 10⟩
def TBL_T_LEARN.FID_OFF : Field := ⟨.TBL_T_LEARN, 31, 26⟩
def TBL_T_LEARN.MOVE_HOLD_MS : Field := ⟨.TBL_T_LEARN, 47, 32⟩
def TBL_T_LEARN.RACE_US : Field := ⟨.TBL_T_LEARN, 63, 48⟩
def TBL_T_STATUS.STASH : Field := ⟨.TBL_T_STATUS, 3, 0⟩
def TBL_T_STATUS.REHASH : Field := ⟨.TBL_T_STATUS, 4, 4⟩
def TBL_T_STATUS.ENTRIES : Field := ⟨.TBL_T_STATUS, 31, 8⟩
def TBC_CTL.RUN : Field := ⟨.TBC_CTL, 0, 0⟩
def TBC_CTL.DRAIN : Field := ⟨.TBC_CTL, 1, 1⟩
def TBC_CTL.RESET : Field := ⟨.TBC_CTL, 2, 2⟩
def TBC_CTL.REFUSED : Field := ⟨.TBC_CTL, 3, 3⟩
def TBC_STATUS.STATE : Field := ⟨.TBC_STATUS, 2, 0⟩
def TBC_STATUS.AWAKE : Field := ⟨.TBC_STATUS, 3, 3⟩
def TBC_STATUS.QUIET : Field := ⟨.TBC_STATUS, 4, 4⟩
def TBC_STATUS.EPOCH : Field := ⟨.TBC_STATUS, 11, 8⟩
def TBC_STATUS.WAITING : Field := ⟨.TBC_STATUS, 22, 16⟩
def TBC_ENTRY.ENTRY : Field := ⟨.TBC_ENTRY, 15, 0⟩
def TBC_START.START : Field := ⟨.TBC_START, 63, 0⟩
def TBC_START_MASK.MASK : Field := ⟨.TBC_START_MASK, 15, 0⟩
def TBC_SHARE.STATIC_CREDITS : Field := ⟨.TBC_SHARE, 3, 0⟩
def TBC_SHARE.STATIC_SLOTS : Field := ⟨.TBC_SHARE, 11, 8⟩
def TBC_WDOG.WDOG_US : Field := ⟨.TBC_WDOG, 15, 0⟩
def TBC_POWER.GATE_US : Field := ⟨.TBC_POWER, 15, 0⟩
def TBC_MBX_THREADS.THREADS : Field := ⟨.TBC_MBX_THREADS, 63, 0⟩
def TBC_CHAN_PERM.PERM : Field := ⟨.TBC_CHAN_PERM, 8, 0⟩
def TBC_TBL_SETS.SETS : Field := ⟨.TBC_TBL_SETS, 7, 0⟩
def TBC_DDR_WIN_BASE.BASE : Field := ⟨.TBC_DDR_WIN_BASE, 39, 0⟩
def TBC_DDR_WIN_SIZE.SIZE : Field := ⟨.TBC_DDR_WIN_SIZE, 35, 0⟩
def TBC_DDR_WIN_SIZE.WRITE : Field := ⟨.TBC_DDR_WIN_SIZE, 36, 36⟩
def TBC_LOCK.LOCK : Field := ⟨.TBC_LOCK, 0, 0⟩
def TBC_STAT.COUNT : Field := ⟨.TBC_STAT, 63, 0⟩
def TBC_MEM_ADDR.ADDR : Field := ⟨.TBC_MEM_ADDR, 17, 0⟩
def TBC_MEM_ADDR.DMEM : Field := ⟨.TBC_MEM_ADDR, 18, 18⟩
def TBC_MEM_DATA.DATA : Field := ⟨.TBC_MEM_DATA, 63, 0⟩
def TBE_CTL.EN : Field := ⟨.TBE_CTL, 0, 0⟩
def TBE_CTL.RETIRED : Field := ⟨.TBE_CTL, 1, 1⟩
def TBE_STATUS.SLOTS_USED : Field := ⟨.TBE_STATUS, 5, 0⟩
def TBE_STATUS.CREDITS_USED : Field := ⟨.TBE_STATUS, 14, 8⟩
def TBE_THREAD_CTL.HALT : Field := ⟨.TBE_THREAD_CTL, 0, 0⟩
def TBE_THREAD_CTL.RESUME : Field := ⟨.TBE_THREAD_CTL, 1, 1⟩
def TBE_THREAD_CTL.STEP : Field := ⟨.TBE_THREAD_CTL, 2, 2⟩
def TBE_THREAD_CTL.ABORT_STAGE : Field := ⟨.TBE_THREAD_CTL, 3, 3⟩
def TBE_THREAD_CTL.SEV : Field := ⟨.TBE_THREAD_CTL, 4, 4⟩
def TBE_THREAD_CTL.REFUSED : Field := ⟨.TBE_THREAD_CTL, 5, 5⟩
def TBE_THREAD_CTL.CLR_EVT : Field := ⟨.TBE_THREAD_CTL, 31, 16⟩
def TBE_THREAD_STATUS.STATE : Field := ⟨.TBE_THREAD_STATUS, 2, 0⟩
def TBE_THREAD_STATUS.STAGED : Field := ⟨.TBE_THREAD_STATUS, 6, 3⟩
def TBE_THREAD_STATUS.IN_TRAP : Field := ⟨.TBE_THREAD_STATUS, 7, 7⟩
def TBE_THREAD_STATUS.OUTSTANDING : Field := ⟨.TBE_THREAD_STATUS, 14, 8⟩
def TBE_THREAD_STATUS.SLOTS : Field := ⟨.TBE_THREAD_STATUS, 20, 15⟩
def TBE_THREAD_PC.PC : Field := ⟨.TBE_THREAD_PC, 15, 0⟩
def TBE_THREAD_EVT.MASK : Field := ⟨.TBE_THREAD_EVT, 15, 0⟩
def TBE_THREAD_EVT.PENDING : Field := ⟨.TBE_THREAD_EVT, 31, 16⟩
def TBE_THREAD_TRAP.CAUSE : Field := ⟨.TBE_THREAD_TRAP, 3, 0⟩
def TBE_THREAD_TRAP.DETAIL : Field := ⟨.TBE_THREAD_TRAP, 7, 4⟩
def TBE_THREAD_TRAP.PC : Field := ⟨.TBE_THREAD_TRAP, 23, 8⟩
def TBE_THREAD_TRAP.ADDR : Field := ⟨.TBE_THREAD_TRAP, 63, 32⟩
def TBE_THREAD_VEC.VEC : Field := ⟨.TBE_THREAD_VEC, 15, 0⟩
def TBE_THREAD_G.VALUE : Field := ⟨.TBE_THREAD_G, 63, 0⟩
def TBE_THREAD_S.VALUE : Field := ⟨.TBE_THREAD_S, 63, 0⟩
def SCH_BUF_CFG.MIRROR_KIB : Field := ⟨.SCH_BUF_CFG, 16, 0⟩
def SCH_STATUS.OCC_KIB : Field := ⟨.SCH_STATUS, 16, 0⟩
def SCH_STATUS.REFUSED : Field := ⟨.SCH_STATUS, 17, 17⟩
def SCH_LOCK.LOCK : Field := ⟨.SCH_LOCK, 0, 0⟩
def SCH_OVH.OVERHEAD : Field := ⟨.SCH_OVH, 6, 0⟩
def SCH_STAT.COUNT : Field := ⟨.SCH_STAT, 63, 0⟩
def SCH_L2_CFG.EN : Field := ⟨.SCH_L2_CFG, 0, 0⟩
def SCH_L2_CFG.PORT_PAUSED : Field := ⟨.SCH_L2_CFG, 1, 1⟩
def SCH_L2_CFG.PFC_PAUSED : Field := ⟨.SCH_L2_CFG, 15, 8⟩
def SCH_SESSION.KIND : Field := ⟨.SCH_SESSION, 1, 0⟩
def SCH_SESSION.TARGET : Field := ⟨.SCH_SESSION, 6, 2⟩
def SCH_SESSION.GROUP : Field := ⟨.SCH_SESSION, 19, 7⟩
def SCH_SESSION.PRIO : Field := ⟨.SCH_SESSION, 22, 20⟩
def SCH_SESSION.TRUNC : Field := ⟨.SCH_SESSION, 36, 23⟩
def SCH_CAP_BASE.ADDR : Field := ⟨.SCH_CAP_BASE, 39, 0⟩
def SCH_CAP_CTL.LOG2 : Field := ⟨.SCH_CAP_CTL, 4, 0⟩
def SCH_CAP_CTL.EN : Field := ⟨.SCH_CAP_CTL, 5, 5⟩
def SCH_CAP_CTL.PROD : Field := ⟨.SCH_CAP_CTL, 31, 8⟩
def SCH_CAP_CTL.CONS : Field := ⟨.SCH_CAP_CTL, 55, 32⟩
def FNC_Q_SEL.QUEUE : Field := ⟨.FNC_Q_SEL, 11, 0⟩
def FNC_Q_CFG.TX_LOG2 : Field := ⟨.FNC_Q_CFG, 3, 0⟩
def FNC_Q_CFG.RX_LOG2 : Field := ⟨.FNC_Q_CFG, 7, 4⟩
def FNC_Q_CFG.TXCQ_LOG2 : Field := ⟨.FNC_Q_CFG, 11, 8⟩
def FNC_Q_CFG.RXCQ_LOG2 : Field := ⟨.FNC_Q_CFG, 15, 12⟩
def FNC_Q_CFG.PAGE : Field := ⟨.FNC_Q_CFG, 24, 16⟩
def FNC_Q_CTL.ENABLE : Field := ⟨.FNC_Q_CTL, 0, 0⟩
def FNC_Q_CTL.REFUSED : Field := ⟨.FNC_Q_CTL, 1, 1⟩
def FNC_Q_STATUS.STATE : Field := ⟨.FNC_Q_STATUS, 1, 0⟩
def FNC_Q_STATUS.ERR : Field := ⟨.FNC_Q_STATUS, 15, 8⟩
def FNC_Q_STATUS.ERR_INDEX : Field := ⟨.FNC_Q_STATUS, 31, 16⟩
def FNC_Q_STATUS.RX_DROPS : Field := ⟨.FNC_Q_STATUS, 63, 32⟩
def FNC_Q_IDX.TX_CONS : Field := ⟨.FNC_Q_IDX, 15, 0⟩
def FNC_Q_IDX.RX_CONS : Field := ⟨.FNC_Q_IDX, 31, 16⟩
def FNC_Q_IDX.TXCQ_PROD : Field := ⟨.FNC_Q_IDX, 47, 32⟩
def FNC_Q_IDX.RXCQ_PROD : Field := ⟨.FNC_Q_IDX, 63, 48⟩
def FNC_Q_IRQ.TX_VEC : Field := ⟨.FNC_Q_IRQ, 10, 0⟩
def FNC_Q_IRQ.RX_VEC : Field := ⟨.FNC_Q_IRQ, 26, 16⟩
def FNC_Q_IRQ.TIMER_US : Field := ⟨.FNC_Q_IRQ, 41, 32⟩
def FNC_Q_IRQ.COUNT : Field := ⟨.FNC_Q_IRQ, 55, 48⟩
def FNC_Q_BASE.ADDR : Field := ⟨.FNC_Q_BASE, 63, 12⟩
def FNC_FN_INFO.QP_COUNT : Field := ⟨.FNC_FN_INFO, 12, 0⟩
def FNC_FN_INFO.VEC_COUNT : Field := ⟨.FNC_FN_INFO, 27, 16⟩
def FNC_FN_INFO.ERR_VEC : Field := ⟨.FNC_FN_INFO, 42, 32⟩
def FNC_FN_STAT.COUNT : Field := ⟨.FNC_FN_STAT, 63, 0⟩
def FNC_RES_QP.QP_BASE : Field := ⟨.FNC_RES_QP, 14, 0⟩
def FNC_RES_QP.QP_COUNT : Field := ⟨.FNC_RES_QP, 28, 16⟩
def FNC_RES_VEC.VEC_BASE : Field := ⟨.FNC_RES_VEC, 15, 0⟩
def FNC_RES_VEC.VEC_COUNT : Field := ⟨.FNC_RES_VEC, 27, 16⟩
def FNC_RES_TX.RATE : Field := ⟨.FNC_RES_TX, 31, 0⟩
def FNC_RES_TX.BURST : Field := ⟨.FNC_RES_TX, 55, 32⟩
def FNC_RES_TX.PROFILE : Field := ⟨.FNC_RES_TX, 59, 56⟩
def FNC_RES_TX.RESET_TO : Field := ⟨.FNC_RES_TX, 60, 60⟩
def FNC_RES_CTL.VALID : Field := ⟨.FNC_RES_CTL, 0, 0⟩
def FNC_RES_CTL.REFUSED : Field := ⟨.FNC_RES_CTL, 1, 1⟩
def HL_LINK_CFG.WIDTH : Field := ⟨.HL_LINK_CFG, 1, 0⟩
def HL_LINK_CFG.MAX_SPEED : Field := ⟨.HL_LINK_CFG, 4, 2⟩
def HL_LINK_CFG.CLK : Field := ⟨.HL_LINK_CFG, 6, 5⟩
def HL_LINK_CFG.VF_NET : Field := ⟨.HL_LINK_CFG, 19, 8⟩
def HL_LINK_CFG.VF_NVME : Field := ⟨.HL_LINK_CFG, 31, 20⟩
def HL_LINK_STATUS.UP : Field := ⟨.HL_LINK_STATUS, 0, 0⟩
def HL_LINK_STATUS.SPEED : Field := ⟨.HL_LINK_STATUS, 3, 1⟩
def HL_LINK_STATUS.LANES : Field := ⟨.HL_LINK_STATUS, 8, 4⟩
def HL_LINK_STATUS.FLIT : Field := ⟨.HL_LINK_STATUS, 9, 9⟩
def HL_LINK_STATUS.REVERSED : Field := ⟨.HL_LINK_STATUS, 10, 10⟩
def HL_LINK_STATUS.LTSSM : Field := ⟨.HL_LINK_STATUS, 15, 12⟩
def HL_LINK_STATUS.DOWN_COUNT : Field := ⟨.HL_LINK_STATUS, 31, 16⟩
def HL_LINK_STATUS.OUTSTANDING : Field := ⟨.HL_LINK_STATUS, 46, 32⟩
def HL_LINK_STATUS.VOID : Field := ⟨.HL_LINK_STATUS, 62, 48⟩
def HL_LINK_CTL.CPL_TO_MS : Field := ⟨.HL_LINK_CTL, 5, 0⟩
def HL_LINK_CTL.IDE_REQ : Field := ⟨.HL_LINK_CTL, 6, 6⟩
def HL_SRIOV_STATUS.NUMVFS_NET : Field := ⟨.HL_SRIOV_STATUS, 11, 0⟩
def HL_SRIOV_STATUS.VFE_NET : Field := ⟨.HL_SRIOV_STATUS, 12, 12⟩
def HL_SRIOV_STATUS.NUMVFS_NVME : Field := ⟨.HL_SRIOV_STATUS, 27, 16⟩
def HL_SRIOV_STATUS.VFE_NVME : Field := ⟨.HL_SRIOV_STATUS, 28, 28⟩
def HL_SRIOV_STATUS.CHANGED : Field := ⟨.HL_SRIOV_STATUS, 29, 29⟩
def HL_SRIOV_STATUS.FLR_SEEN : Field := ⟨.HL_SRIOV_STATUS, 30, 30⟩
def HL_SRIOV_STATUS.BME_SEEN : Field := ⟨.HL_SRIOV_STATUS, 31, 31⟩
def HL_IDE_STATUS.STATE : Field := ⟨.HL_IDE_STATUS, 7, 0⟩
def HL_IDE_STATUS.CHECK_FAIL : Field := ⟨.HL_IDE_STATUS, 31, 16⟩
def HL_MGR_CTL.HOST_RD : Field := ⟨.HL_MGR_CTL, 0, 0⟩
def HL_MGR_CTL.HOST_WR : Field := ⟨.HL_MGR_CTL, 1, 1⟩
def HL_LOCK.LOCK : Field := ⟨.HL_LOCK, 0, 0⟩
def HL_STAT.COUNT : Field := ⟨.HL_STAT, 63, 0⟩
def XPT_CFG.EN : Field := ⟨.XPT_CFG, 0, 0⟩
def XPT_CFG.EXC_EN : Field := ⟨.XPT_CFG, 1, 1⟩
def XPT_CFG.EXC_POOL : Field := ⟨.XPT_CFG, 5, 2⟩
def XPT_CFG.UDP_PORT : Field := ⟨.XPT_CFG, 31, 16⟩
def XPT_CFG.ACK_N : Field := ⟨.XPT_CFG, 39, 32⟩
def XPT_CFG.ACK_US : Field := ⟨.XPT_CFG, 47, 40⟩
def XPT_CONN_BASE.ADDR : Field := ⟨.XPT_CONN_BASE, 39, 0⟩
def XPT_WIN_BASE.ADDR : Field := ⟨.XPT_WIN_BASE, 39, 0⟩
def XPT_CMD.OP : Field := ⟨.XPT_CMD, 3, 0⟩
def XPT_CMD.INDEX : Field := ⟨.XPT_CMD, 27, 8⟩
def XPT_CMD_STATUS.BUSY : Field := ⟨.XPT_CMD_STATUS, 0, 0⟩
def XPT_CMD_STATUS.REFUSED : Field := ⟨.XPT_CMD_STATUS, 1, 1⟩
def XPT_CMD_STATUS.RESULT : Field := ⟨.XPT_CMD_STATUS, 7, 4⟩
def XPT_CMD_DATA.WORD : Field := ⟨.XPT_CMD_DATA, 63, 0⟩
def XPT_LOCK.LOCK : Field := ⟨.XPT_LOCK, 0, 0⟩
def XPT_STAT.COUNT : Field := ⟨.XPT_STAT, 63, 0⟩
def XPT_FN_CONN.CONN_BASE : Field := ⟨.XPT_FN_CONN, 17, 0⟩
def XPT_FN_CONN.CONN_COUNT : Field := ⟨.XPT_FN_CONN, 36, 18⟩
def XPT_FN_WIN.WIN_BASE : Field := ⟨.XPT_FN_WIN, 19, 0⟩
def XPT_FN_WIN.WIN_COUNT : Field := ⟨.XPT_FN_WIN, 40, 20⟩
def NVM_CFG.EN : Field := ⟨.NVM_CFG, 0, 0⟩
def NVM_STATUS.DIRTY : Field := ⟨.NVM_STATUS, 31, 0⟩
def NVM_STATUS.CLEAN : Field := ⟨.NVM_STATUS, 32, 32⟩
def NVM_STATUS.OUTSTANDING : Field := ⟨.NVM_STATUS, 49, 33⟩
def NVM_ATTACH_BASE.ADDR : Field := ⟨.NVM_ATTACH_BASE, 39, 0⟩
def NVM_CMD.OP : Field := ⟨.NVM_CMD, 3, 0⟩
def NVM_CMD.NS : Field := ⟨.NVM_CMD, 15, 4⟩
def NVM_CMD.FUNCTION : Field := ⟨.NVM_CMD, 27, 16⟩
def NVM_CMD.NSID : Field := ⟨.NVM_CMD, 36, 28⟩
def NVM_CMD_STATUS.BUSY : Field := ⟨.NVM_CMD_STATUS, 0, 0⟩
def NVM_CMD_STATUS.REFUSED : Field := ⟨.NVM_CMD_STATUS, 1, 1⟩
def NVM_CMD_STATUS.RESULT : Field := ⟨.NVM_CMD_STATUS, 7, 4⟩
def NVM_CMD_DATA.WORD : Field := ⟨.NVM_CMD_DATA, 63, 0⟩
def NVM_LOCK.LOCK : Field := ⟨.NVM_LOCK, 0, 0⟩
def NVM_STAT.COUNT : Field := ⟨.NVM_STAT, 63, 0⟩
def NVM_WAKE.THREADS : Field := ⟨.NVM_WAKE, 63, 0⟩
def NVM_FN_RES.QP_BASE : Field := ⟨.NVM_FN_RES, 13, 0⟩
def NVM_FN_RES.QP_COUNT : Field := ⟨.NVM_FN_RES, 24, 14⟩
def NVM_FN_RES.VEC_BASE : Field := ⟨.NVM_FN_RES, 40, 25⟩
def NVM_FN_RES.VEC_COUNT : Field := ⟨.NVM_FN_RES, 52, 41⟩
def NVM_FN_RES.VALID : Field := ⟨.NVM_FN_RES, 53, 53⟩
def NVM_FN_CFG.VWC_DEFAULT : Field := ⟨.NVM_FN_CFG, 0, 0⟩
def CRY_CFG.EN : Field := ⟨.CRY_CFG, 0, 0⟩
def CRY_CFG.ESP_HDR_ID : Field := ⟨.CRY_CFG, 8, 1⟩
def CRY_CFG.TCP_HDR_ID : Field := ⟨.CRY_CFG, 16, 9⟩
def CRY_STATUS.LOOKASIDE_RETIRED : Field := ⟨.CRY_STATUS, 7, 0⟩
def CRY_STATUS.INLINE_RETIRED : Field := ⟨.CRY_STATUS, 16, 8⟩
def CRY_RETIRED.CORES : Field := ⟨.CRY_RETIRED, 63, 0⟩
def CRY_KEY_BASE.ADDR : Field := ⟨.CRY_KEY_BASE, 39, 0⟩
def CRY_SA_BASE.ADDR : Field := ⟨.CRY_SA_BASE, 39, 0⟩
def CRY_KEY_CMD.OP : Field := ⟨.CRY_KEY_CMD, 3, 0⟩
def CRY_KEY_CMD.INDEX : Field := ⟨.CRY_KEY_CMD, 23, 4⟩
def CRY_KEY_CMD.ALG : Field := ⟨.CRY_KEY_CMD, 26, 24⟩
def CRY_KEY_CMD.USE : Field := ⟨.CRY_KEY_CMD, 31, 28⟩
def CRY_KEY_CMD.CLUSTERS : Field := ⟨.CRY_KEY_CMD, 47, 32⟩
def CRY_KEY_STATUS.BUSY : Field := ⟨.CRY_KEY_STATUS, 0, 0⟩
def CRY_KEY_STATUS.REFUSED : Field := ⟨.CRY_KEY_STATUS, 1, 1⟩
def CRY_KEY_STATUS.VALID : Field := ⟨.CRY_KEY_STATUS, 2, 2⟩
def CRY_KEY_STATUS.RESULT : Field := ⟨.CRY_KEY_STATUS, 7, 4⟩
def CRY_KEY_STATUS.ALG : Field := ⟨.CRY_KEY_STATUS, 10, 8⟩
def CRY_KEY_STATUS.USE : Field := ⟨.CRY_KEY_STATUS, 14, 11⟩
def CRY_KEY_DATA.WORD : Field := ⟨.CRY_KEY_DATA, 63, 0⟩
def CRY_LOCK.LOCK : Field := ⟨.CRY_LOCK, 0, 0⟩
def CRY_STAT.COUNT : Field := ⟨.CRY_STAT, 63, 0⟩
def SEC_LIFECYCLE.STATE : Field := ⟨.SEC_LIFECYCLE, 1, 0⟩
def SEC_LIFECYCLE.DEBUG_OPEN : Field := ⟨.SEC_LIFECYCLE, 2, 2⟩
def SEC_LIFECYCLE.DEBUG_UNLOCKED : Field := ⟨.SEC_LIFECYCLE, 3, 3⟩
def SEC_BOOT_STATUS.SOURCE : Field := ⟨.SEC_BOOT_STATUS, 1, 0⟩
def SEC_BOOT_STATUS.SLOT : Field := ⟨.SEC_BOOT_STATUS, 3, 2⟩
def SEC_BOOT_STATUS.GOLDEN : Field := ⟨.SEC_BOOT_STATUS, 4, 4⟩
def SEC_BOOT_STATUS.FAIL : Field := ⟨.SEC_BOOT_STATUS, 15, 8⟩
def SEC_BOOT_STATUS.SVN : Field := ⟨.SEC_BOOT_STATUS, 47, 16⟩
def SEC_SLOT_STATUS.PROGRAMMED : Field := ⟨.SEC_SLOT_STATUS, 3, 0⟩
def SEC_SLOT_STATUS.REVOKED : Field := ⟨.SEC_SLOT_STATUS, 7, 4⟩
/-- SEC_ROLLBACK field COUNTER_k, k = 0 to 3. -/
def SEC_ROLLBACK.COUNTER (k : Nat) : Field := ⟨.SEC_ROLLBACK, 8 * k + 7, 8 * k⟩
def SEC_ROLLBACK_CMD.COUNTER : Field := ⟨.SEC_ROLLBACK_CMD, 1, 0⟩
def SEC_ROLLBACK_CMD.VALUE : Field := ⟨.SEC_ROLLBACK_CMD, 15, 8⟩
def SEC_ROLLBACK_CMD.BUSY : Field := ⟨.SEC_ROLLBACK_CMD, 16, 16⟩
def SEC_ROLLBACK_CMD.REFUSED : Field := ⟨.SEC_ROLLBACK_CMD, 17, 17⟩
def SEC_MEASURE_EXTEND.INDEX : Field := ⟨.SEC_MEASURE_EXTEND, 3, 0⟩
def SEC_MEASURE_EXTEND.REFUSED : Field := ⟨.SEC_MEASURE_EXTEND, 4, 4⟩
def SEC_TRIGGER.LOCKDOWN : Field := ⟨.SEC_TRIGGER, 0, 0⟩
def SEC_TRIGGER.GLITCH_EN : Field := ⟨.SEC_TRIGGER, 8, 8⟩
def SEC_TRIGGER.OTP_EN : Field := ⟨.SEC_TRIGGER, 9, 9⟩
def SEC_TRIGGER.DEBUG_EN : Field := ⟨.SEC_TRIGGER, 10, 10⟩
def SEC_TRIGGER.CAUSE : Field := ⟨.SEC_TRIGGER, 19, 16⟩
def SEC_MEASURE_DATA.WORD : Field := ⟨.SEC_MEASURE_DATA, 63, 0⟩
def SEC_LOCK.LOCK : Field := ⟨.SEC_LOCK, 0, 0⟩
def CMP_CFG.EN : Field := ⟨.CMP_CFG, 0, 0⟩
def CMP_STATUS.AWAKE : Field := ⟨.CMP_STATUS, 15, 0⟩
def CMP_STATUS.RETIRED : Field := ⟨.CMP_STATUS, 31, 16⟩
def CMP_FC_BASE.ADDR : Field := ⟨.CMP_FC_BASE, 39, 0⟩
def CMP_FC_CMD.OP : Field := ⟨.CMP_FC_CMD, 1, 0⟩
def CMP_FC_CMD.INDEX : Field := ⟨.CMP_FC_CMD, 31, 8⟩
def CMP_FC_STATUS.BUSY : Field := ⟨.CMP_FC_STATUS, 0, 0⟩
def CMP_FC_STATUS.REFUSED : Field := ⟨.CMP_FC_STATUS, 1, 1⟩
def CMP_FC_STATUS.LOST : Field := ⟨.CMP_FC_STATUS, 2, 2⟩
def CMP_FC_STATUS.LOST_INDEX : Field := ⟨.CMP_FC_STATUS, 31, 8⟩
def CMP_FC_DATA.VALUE : Field := ⟨.CMP_FC_DATA, 63, 0⟩
def CMP_REC_BASE.ADDR : Field := ⟨.CMP_REC_BASE, 39, 0⟩
def CMP_REC_CTL.LOG2 : Field := ⟨.CMP_REC_CTL, 4, 0⟩
def CMP_REC_CTL.EN : Field := ⟨.CMP_REC_CTL, 5, 5⟩
def CMP_REC_CTL.PROD : Field := ⟨.CMP_REC_CTL, 31, 8⟩
def CMP_REC_CTL.CONS : Field := ⟨.CMP_REC_CTL, 55, 32⟩
def CMP_REC_CFG.ACTIVE_S : Field := ⟨.CMP_REC_CFG, 15, 0⟩
def CMP_REC_CFG.CLOSE_MS : Field := ⟨.CMP_REC_CFG, 31, 16⟩
def CMP_REC_CFG.FLAGS_OFF : Field := ⟨.CMP_REC_CFG, 40, 32⟩
def CMP_LOCK.LOCK : Field := ⟨.CMP_LOCK, 0, 0⟩
def CMP_STAT.COUNT : Field := ⟨.CMP_STAT, 63, 0⟩
def CMP_HIST_CFG.EN : Field := ⟨.CMP_HIST_CFG, 0, 0⟩
def CMP_HIST_CFG.SOURCE : Field := ⟨.CMP_HIST_CFG, 3, 1⟩
def CMP_HIST_CFG.CLEAR_ON_SNAP : Field := ⟨.CMP_HIST_CFG, 4, 4⟩
def CMP_HIST_CFG.SNAP : Field := ⟨.CMP_HIST_CFG, 5, 5⟩
def CMP_HIST_CFG.ARG : Field := ⟨.CMP_HIST_CFG, 31, 16⟩
def CMP_SK_CFG.EN : Field := ⟨.CMP_SK_CFG, 0, 0⟩
def CMP_SK_CFG.MODE : Field := ⟨.CMP_SK_CFG, 1, 1⟩
def CMP_SK_CFG.PROF : Field := ⟨.CMP_SK_CFG, 6, 2⟩
def CMP_SK_CFG.ACTIVE : Field := ⟨.CMP_SK_CFG, 7, 7⟩
def CMP_SK_CFG.SWAP : Field := ⟨.CMP_SK_CFG, 8, 8⟩
def CMP_SK_CFG.CLEAR : Field := ⟨.CMP_SK_CFG, 9, 9⟩
def CMP_SK_CFG.CLEARED : Field := ⟨.CMP_SK_CFG, 10, 10⟩
def CMP_SK_CFG.REFUSED : Field := ⟨.CMP_SK_CFG, 11, 11⟩
def CMP_SK_SEED01.SEED0 : Field := ⟨.CMP_SK_SEED01, 31, 0⟩
def CMP_SK_SEED01.SEED1 : Field := ⟨.CMP_SK_SEED01, 63, 32⟩
def CMP_SK_SEED23.SEED2 : Field := ⟨.CMP_SK_SEED23, 31, 0⟩
def CMP_SK_SEED23.SEED3 : Field := ⟨.CMP_SK_SEED23, 63, 32⟩
def CMP_SK_N.N : Field := ⟨.CMP_SK_N, 63, 0⟩
def CMP_SK_QUERY.SKETCH : Field := ⟨.CMP_SK_QUERY, 2, 0⟩
def CMP_SK_QUERY.GO : Field := ⟨.CMP_SK_QUERY, 3, 3⟩
def CMP_SK_RESULT.ESTIMATE : Field := ⟨.CMP_SK_RESULT, 31, 0⟩
def CMP_SK_RESULT.BUSY : Field := ⟨.CMP_SK_RESULT, 32, 32⟩
def CMP_SK_RESULT.SATURATED : Field := ⟨.CMP_SK_RESULT, 33, 33⟩
def CMP_SK_KEY.WORD : Field := ⟨.CMP_SK_KEY, 63, 0⟩
def GLB_CC_CTL.RUN0 : Field := ⟨.GLB_CC_CTL, 0, 0⟩
def GLB_CC_CTL.RUN : Field := ⟨.GLB_CC_CTL, 2, 1⟩
def GLB_CC_CTL.REFUSED : Field := ⟨.GLB_CC_CTL, 3, 3⟩
def GLB_CC_VEC.RESET_VEC : Field := ⟨.GLB_CC_VEC, 55, 2⟩
def GLB_CC_STATUS.WFI : Field := ⟨.GLB_CC_STATUS, 23, 0⟩
def GLB_CC_STATUS.DEBUG : Field := ⟨.GLB_CC_STATUS, 47, 24⟩
def GLB_CC_MTIMECMP.CMP : Field := ⟨.GLB_CC_MTIMECMP, 63, 0⟩
def GLB_CC_IRQ.MBX : Field := ⟨.GLB_CC_IRQ, 0, 0⟩
def GLB_CC_IRQ.PKT : Field := ⟨.GLB_CC_IRQ, 1, 1⟩
def GLB_CC_IRQ.GONG : Field := ⟨.GLB_CC_IRQ, 2, 2⟩
def GLB_CC_IRQ.EN : Field := ⟨.GLB_CC_IRQ, 10, 8⟩
def MBX_MGR_CTL.READY : Field := ⟨.MBX_MGR_CTL, 0, 0⟩
def MBX_MGR_CTL.RESET : Field := ⟨.MBX_MGR_CTL, 1, 1⟩
def MBX_MGR_CTL.EPOCH : Field := ⟨.MBX_MGR_CTL, 11, 8⟩
def MBX_STAT.COUNT : Field := ⟨.MBX_STAT, 63, 0⟩
def MBX_PEND.PEND : Field := ⟨.MBX_PEND, 63, 0⟩
def MBX_PKT_BASE.ADDR : Field := ⟨.MBX_PKT_BASE, 39, 0⟩
def MBX_PKT_CTL.LOG2 : Field := ⟨.MBX_PKT_CTL, 4, 0⟩
def MBX_PKT_CTL.EN : Field := ⟨.MBX_PKT_CTL, 5, 5⟩
def MBX_PKT_CTL.PROD : Field := ⟨.MBX_PKT_CTL, 31, 8⟩
def MBX_PKT_CTL.CONS : Field := ⟨.MBX_PKT_CTL, 55, 32⟩
def MBX_SEL.MAILBOX : Field := ⟨.MBX_SEL, 11, 0⟩
def MBX_HEAD.VALID : Field := ⟨.MBX_HEAD, 0, 0⟩
def MBX_HEAD.LEN : Field := ⟨.MBX_HEAD, 4, 1⟩
def MBX_HEAD.EPOCH : Field := ⟨.MBX_HEAD, 8, 5⟩
def MBX_HEAD.TOKEN : Field := ⟨.MBX_HEAD, 9, 9⟩
def MBX_HEAD.COUNT : Field := ⟨.MBX_HEAD, 19, 16⟩
def MBX_POP.POP : Field := ⟨.MBX_POP, 63, 0⟩
def MBX_POST.LEN : Field := ⟨.MBX_POST, 3, 0⟩
def MBX_STATUS.ROOM : Field := ⟨.MBX_STATUS, 3, 0⟩
def MBX_STATUS.FULL : Field := ⟨.MBX_STATUS, 4, 4⟩
def MBX_STATUS.ABSENT : Field := ⟨.MBX_STATUS, 5, 5⟩
def MBX_STATUS.TIMEOUT : Field := ⟨.MBX_STATUS, 6, 6⟩
def MBX_STATUS.DISCARDED : Field := ⟨.MBX_STATUS, 7, 7⟩
def MBX_STATUS.DISCARD_COUNT : Field := ⟨.MBX_STATUS, 15, 8⟩
def MBX_STATUS.FAR_EPOCH : Field := ⟨.MBX_STATUS, 19, 16⟩
def MBX_STATUS.OWN_EPOCH : Field := ⟨.MBX_STATUS, 23, 20⟩
def MBX_CTL.IRQ_EN : Field := ⟨.MBX_CTL, 0, 0⟩
def MBX_CTL.VEC : Field := ⟨.MBX_CTL, 11, 1⟩
def MBX_IN_DATA.WORD : Field := ⟨.MBX_IN_DATA, 63, 0⟩
def MBX_OUT_DATA.WORD : Field := ⟨.MBX_OUT_DATA, 63, 0⟩
def GONG_CFG.TARGET : Field := ⟨.GONG_CFG, 4, 0⟩
def GONG_CFG.ST_EN : Field := ⟨.GONG_CFG, 5, 5⟩
def GONG_CFG.AER_ALL : Field := ⟨.GONG_CFG, 6, 6⟩
def GONG_CFG.CLR_COUNTS : Field := ⟨.GONG_CFG, 7, 7⟩
def GONG_CFG.STALL_US : Field := ⟨.GONG_CFG, 15, 8⟩
def GONG_CFG.LASTING_S : Field := ⟨.GONG_CFG, 47, 16⟩
def GONG_STATUS_SUM.GROUP : Field := ⟨.GONG_STATUS_SUM, 31, 0⟩
def GONG_STATUS_SUM.ACCESS : Field := ⟨.GONG_STATUS_SUM, 32, 32⟩
def GONG_STATUS_SUM.NONFATAL : Field := ⟨.GONG_STATUS_SUM, 33, 33⟩
def GONG_STATUS_SUM.FATAL : Field := ⟨.GONG_STATUS_SUM, 34, 34⟩
def GONG_STATUS_SUM.FAULT : Field := ⟨.GONG_STATUS_SUM, 35, 35⟩
/-- GONG_FATAL_ACT field ACT_k, k = 0 to 31. -/
def GONG_FATAL_ACT.ACT (k : Nat) : Field := ⟨.GONG_FATAL_ACT, 2 * k + 1, 2 * k⟩
def GONG_ACCESS.FLAG : Field := ⟨.GONG_ACCESS, 31, 0⟩
def GONG_ACCESS.SEV : Field := ⟨.GONG_ACCESS, 33, 32⟩
def GONG_INJECT.SOURCE : Field := ⟨.GONG_INJECT, 9, 0⟩
def GONG_INJECT.GO : Field := ⟨.GONG_INJECT, 16, 16⟩
def GONG_ST_STATUS.RUNNING : Field := ⟨.GONG_ST_STATUS, 7, 0⟩
def GONG_ST_STATUS.QUEUED : Field := ⟨.GONG_ST_STATUS, 15, 8⟩
def GONG_ST_STATUS.TRANSIENT : Field := ⟨.GONG_ST_STATUS, 24, 16⟩
def GONG_ST_STATUS.RETIRED : Field := ⟨.GONG_ST_STATUS, 47, 32⟩
def GONG_LOCK.LOCK : Field := ⟨.GONG_LOCK, 0, 0⟩
def GONG_STATUS.SRC : Field := ⟨.GONG_STATUS, 31, 0⟩
/-- GONG_SEV field SEV_k, k = 0 to 31. -/
def GONG_SEV.SEV (k : Nat) : Field := ⟨.GONG_SEV, 2 * k + 1, 2 * k⟩
def GONG_FIRST_INFO.VALID : Field := ⟨.GONG_FIRST_INFO, 0, 0⟩
def GONG_FIRST_INFO.SOURCE : Field := ⟨.GONG_FIRST_INFO, 5, 1⟩
def GONG_FIRST_INFO.ACCESS : Field := ⟨.GONG_FIRST_INFO, 6, 6⟩
def GONG_FIRST_INFO.SEV : Field := ⟨.GONG_FIRST_INFO, 8, 7⟩
def GONG_FIRST_INFO.INITIATOR : Field := ⟨.GONG_FIRST_INFO, 20, 9⟩
def GONG_FIRST_INFO.TYPE : Field := ⟨.GONG_FIRST_INFO, 23, 21⟩
def GONG_FIRST_INFO.MORE : Field := ⟨.GONG_FIRST_INFO, 63, 32⟩
def GONG_FIRST_ADDR.ADDR : Field := ⟨.GONG_FIRST_ADDR, 63, 0⟩
def GONG_FIRST_TS.TS64 : Field := ⟨.GONG_FIRST_TS, 63, 0⟩
def PMC_CFG.FREEZE : Field := ⟨.PMC_CFG, 0, 0⟩
def PMC_USER.CLUSTERS : Field := ⟨.PMC_USER, 15, 0⟩
def PMC_SAMPLE_BASE.ADDR : Field := ⟨.PMC_SAMPLE_BASE, 39, 0⟩
def PMC_SAMPLE_CTL.LOG2 : Field := ⟨.PMC_SAMPLE_CTL, 4, 0⟩
def PMC_SAMPLE_CTL.EN : Field := ⟨.PMC_SAMPLE_CTL, 5, 5⟩
def PMC_SAMPLE_CTL.PROD : Field := ⟨.PMC_SAMPLE_CTL, 31, 8⟩
def PMC_SAMPLE_CTL.CONS : Field := ⟨.PMC_SAMPLE_CTL, 55, 32⟩
def PMC_SAMPLE_STATUS.DROPPED : Field := ⟨.PMC_SAMPLE_STATUS, 31, 0⟩
def PMC_SAMPLE_STATUS.LOST : Field := ⟨.PMC_SAMPLE_STATUS, 63, 32⟩
def PMC_LOCK.LOCK : Field := ⟨.PMC_LOCK, 0, 0⟩
def PMC_OVF.OVF : Field := ⟨.PMC_OVF, 63, 0⟩
def PMC_CTR_CFG.EVENT : Field := ⟨.PMC_CTR_CFG, 11, 0⟩
def PMC_CTR_CFG.EN : Field := ⟨.PMC_CTR_CFG, 12, 12⟩
def PMC_CTR_CFG.SAMPLE : Field := ⟨.PMC_CTR_CFG, 13, 13⟩
def PMC_CTR_CFG.THREADS : Field := ⟨.PMC_CTR_CFG, 23, 16⟩
def PMC_CTR_CFG.PERIOD_LOG2 : Field := ⟨.PMC_CTR_CFG, 29, 24⟩
def PMC_CTR_VAL.COUNT : Field := ⟨.PMC_CTR_VAL, 47, 0⟩
def PMC_CTR_VAL.OVF : Field := ⟨.PMC_CTR_VAL, 63, 63⟩
def PMC_FN_MASK.MASK : Field := ⟨.PMC_FN_MASK, 63, 0⟩
def FNC_PMC.COUNT : Field := ⟨.FNC_PMC, 47, 0⟩
def FNC_PMC.NOACCESS : Field := ⟨.FNC_PMC, 62, 62⟩
def FNC_PMC.OVF : Field := ⟨.FNC_PMC, 63, 63⟩
def PWR_IO_CTL.SLEW_C33 : Field := ⟨.PWR_IO_CTL, 1, 0⟩
def PWR_IO_CTL.SLEW_QSPI : Field := ⟨.PWR_IO_CTL, 3, 2⟩
def PWR_IO_CTL.SLEW_JTAG : Field := ⟨.PWR_IO_CTL, 5, 4⟩
def PWR_IO_CTL.SLEW_AVS : Field := ⟨.PWR_IO_CTL, 7, 6⟩
def PWR_IO_CTL.SMB0_I3C : Field := ⟨.PWR_IO_CTL, 8, 8⟩
def PWR_IO_CTL.SMB1_I3C : Field := ⟨.PWR_IO_CTL, 9, 9⟩
def PWR_AVS.SETPOINT_MV : Field := ⟨.PWR_AVS, 9, 0⟩
def PWR_AVS.REQUEST_MV : Field := ⟨.PWR_AVS, 25, 16⟩
def PWR_AVS.ACK_ERR : Field := ⟨.PWR_AVS, 32, 32⟩
def SNR_LOAD.ADDR : Field := ⟨.SNR_LOAD, 39, 0⟩
def SNR_LOAD.RULE_SET : Field := ⟨.SNR_LOAD, 47, 40⟩
def SNR_LOAD.GO : Field := ⟨.SNR_LOAD, 48, 48⟩
def SNR_LOAD.BUSY : Field := ⟨.SNR_LOAD, 49, 49⟩
def SNR_LOAD.REFUSED : Field := ⟨.SNR_LOAD, 50, 50⟩
def PPL_PARSE_STATE.WORD : Field := ⟨.PPL_PARSE_STATE, 63, 0⟩
def PPL_PARSE_TRANS.WORD : Field := ⟨.PPL_PARSE_TRANS, 63, 0⟩
def PPL_KEY_PROF.WORD : Field := ⟨.PPL_KEY_PROF, 63, 0⟩
def PPL_POLICER.WORD : Field := ⟨.PPL_POLICER, 63, 0⟩
def TBL_SUB.WORD : Field := ⟨.TBL_SUB, 63, 0⟩
def TBL_MASK.WORD : Field := ⟨.TBL_MASK, 63, 0⟩
def TBL_STASH.WORD : Field := ⟨.TBL_STASH, 63, 0⟩
def SCH_L1.WORD : Field := ⟨.SCH_L1, 63, 0⟩
def SCH_GROUP.WORD : Field := ⟨.SCH_GROUP, 63, 0⟩
def SCH_SHAPER.WORD : Field := ⟨.SCH_SHAPER, 63, 0⟩
def SCH_DEST_MAP.WORD : Field := ⟨.SCH_DEST_MAP, 63, 0⟩
def SCH_MODIFY.WORD : Field := ⟨.SCH_MODIFY, 63, 0⟩
def SCH_TEMPLATE.WORD : Field := ⟨.SCH_TEMPLATE, 63, 0⟩
def XPT_QP_BIND.WORD : Field := ⟨.XPT_QP_BIND, 63, 0⟩
def CRY_MACSEC.WORD : Field := ⟨.CRY_MACSEC, 63, 0⟩
def SEC_MEASURE.WORD : Field := ⟨.SEC_MEASURE, 63, 0⟩
def CMP_HIST.WORD : Field := ⟨.CMP_HIST, 63, 0⟩
def CMP_HIST_SNAP.WORD : Field := ⟨.CMP_HIST_SNAP, 63, 0⟩
def MBX_MCFG.WORD : Field := ⟨.MBX_MCFG, 63, 0⟩
def GONG_COUNT.WORD : Field := ⟨.GONG_COUNT, 63, 0⟩
def GONG_RETIRE_LOG.WORD : Field := ⟨.GONG_RETIRE_LOG, 63, 0⟩

end Sys2Proof
end

