-- ==== Sys2Proof/Syntax.lean ====
section
/-! DEFINITION. The commands of the block: one constructor per row of spec/opcode_table.json, in the table's order, with
the operands that the row's rule names. A write of a register that has a row of its own carries the requester and the
word written; an event carries what happened outside the part. -/
namespace Sys2Proof

/-- Who makes a register access or sends a command (R465 gives the codes). -/
inductive Requester where
  | thread (t : Fin 1024)
  | function (f : Fin 2080)
  | hart (h : Fin 24)
  | jtag
deriving DecidableEq, Repr

/-- A PLL whose lock is watched (R45): the always-on PLL, or the SerDes PLL of an Ethernet lane. -/
inductive Pll where
  | alwaysOn
  | serdes (lane : Fin 32)
deriving DecidableEq, Repr

/-- A PTP message that Carillon sends (R62). -/
inductive PtpSend where
  | announce | sync | followUp | delayReq | delayResp | pdelayReq | pdelayResp | pdelayRespFollowUp | signaling
deriving DecidableEq, Repr

/-- A sentence on GNSS_RXD (R60, R64): the code of its rate in CAR_NMEA.BAUD, and its UTC second counted from the epoch, as given
by ZDA or RMC. -/
structure NmeaSentence where
  baud : Fin 4
  rmc : Bool
  checksumOk : Bool
  statusA : Bool
  utc : Nat
deriving DecidableEq, Repr

/-- What a PTM dialogue that succeeds brings (R91): the phase at which its response arrives (R55), the time from the request's
departure to that arrival in 1/16 ns, the PTM Master Time at which the root took the request, and how long the root held the request
of the dialogue before, both in nanoseconds. -/
structure PtmAnswer where
  phase : Fin 128
  span : Nat
  master : Nat
  turn : Nat
deriving DecidableEq, Repr

/-- A debugger's view of a thread's registers (R225). -/
inductive ThreadReg where
  | pc
  | g (n : Fin 32)
  | s (n : Fin 16)
deriving DecidableEq, Repr

/-- How a completion of a non-posted request ends (R315). -/
inductive CplStatus where
  | success
  | unsupported
  | abort
  | poisoned
deriving DecidableEq, Repr

/-- A link-level error that takes a link into Recovery (R328). -/
inductive LinkError where
  | receiver | badTlp | badDllp | replayTimeout | replayRollover | dataLinkProtocol | flowControlProtocol
  | receiverOverflow | none
deriving DecidableEq, Repr

/-- What a host writes in a function's configuration space (R91, R325 and the capabilities of R320). -/
inductive ConfigItem where
  | ptmEnable (on : Bool)
  | busMasterSet
  | memorySpace (on : Bool)
  | msixEnable (on : Bool)
  | msixMask (on : Bool)
  | d3hot (on : Bool)
  | aerClear
  /-- 10-bit and 14-bit Tag Requester Enable (R314). -/
  | tags10 (on : Bool)
  | tags14 (on : Bool)
  /-- Mask and severity bits of AER, by place in the list of errors (R328). -/
  | aerMask (error : Fin 20) (on : Bool)
  | aerSeverity (error : Fin 20) (fatal : Bool)
deriving DecidableEq, Repr

/-- The memories whose ECC errors the chapters tell of (R167, R200, R228, R283, R361, R418, R438, R458, R460). -/
inductive SramMemory where
  | packetBuffer | tables | cluster (c : Fin 16) | coreL2 (n : Fin 3) | parse (p : Fin 8) | action (p : Fin 8)
  | scheduler | keyCache | transport | histogram | streamState | ruleImage | fabric
deriving DecidableEq, Repr

/-- Who read a word with an uncorrectable error: the packet at the head of a pipeline's feed, the frame at the head of a scheduler
queue, a thread (an instruction or data), or nobody. -/
inductive EccVictim where
  | nobody
  | feed (p : Fin 8) (k : Nat)
  /-- A packet before its verdict that has begun its stages: place of the pipeline's parked, resumed and held packets. -/
  | walk (p : Fin 8) (i : Nat)
  | queue (k : Nat)
  | thread (t : Fin 1024) (instruction : Bool)
deriving DecidableEq, Repr

/-- Faults of a DDR channel beside ECC errors (R460). -/
inductive DdrFault where
  | commandParity | writeCrc | training
deriving DecidableEq, Repr

/-- Where an ECC or parity error lies (R460, R470). -/
inductive EccError where
  /-- An SRAM row. -/
  | sram (bank : Fin 4096) (row : BitVec 16) (memory : SramMemory) (uncorrectable : Bool) (victim : EccVictim)
  /-- A read of a word of an SRAM row, or of a DDR row, that is marked poisoned. -/
  | poisonedSram (bank : Fin 4096) (row : BitVec 16) (memory : SramMemory) (victim : EccVictim)
  | poisonedDdr (channel : Fin 8) (row : BitVec 26) (addr : Nat)
  /-- A DDR channel's interface: a command or address parity error, a write CRC error, or a failure of its training. -/
  | ddrBus (channel : Fin 8) (fault : DdrFault) (addr : Nat)
  /-- A DDR row, by its identifier above the channel bits, and the address read. -/
  | ddr (channel : Fin 8) (row : BitVec 26) (addr : Nat) (uncorrectable : Bool)
  /-- A line of a control-core cluster's caches, by set and way, and the hart that consumes the poisoned line. -/
  | ccCache (cluster : Fin 3) (line : BitVec 19) (hart : Option (Fin 8))
  /-- The register file of a thread (R224). -/
  | registerFile (t : Fin 1024)
  | cmpUnit (u : Fin 16)
  | scanner (n : Fin 8)
  /-- The storage front end's state for a controller (R379). -/
  | controller (f : Fin 2080)
  /-- A cached counter half of a pipeline (R427): packets or bytes of a pair. -/
  | flowCounter (p : Fin 8) (pair : Nat) (bytes : Bool)
deriving DecidableEq, Repr

/-- What the debug transport asks (R445): an access to a register, or that a hart enter or leave debug mode. -/
inductive DebugAccess where
  | register (addr : Nat) (data : Option Word)
  | halt (hart : Fin 24)
  | resume (hart : Fin 24)
deriving DecidableEq, Repr

/-- A mailbox side: a manager window, or the page of a function's mailbox. -/
inductive MbxPlace where
  | window (w : Fin 24)
  | page (m : Fin 2104)
deriving DecidableEq, Repr

/-- A Sarup queue: a local queue of a function bound to the transport (R335), or a thread's queue (R360). -/
inductive SarupQueue where
  | host (f : Fin 2080) (q : Nat)
  | engine (t : Fin 1024)
deriving DecidableEq, Repr

/-- The commands and events of the block. -/
inductive Instr where
  /-- NARROW_ACCESS (R2): An access narrower than 64 bits or misaligned completes without effect: a read returns all ones, a write changes nothing. -/
  | narrowAccess (req : Requester) (addr : Nat) (bytes : Nat) (write : Bool)
  /-- RESERVED_ACCESS (R519): An access to a reserved offset or range completes without effect and sets the access flag. -/
  | reservedAccess (req : Requester) (addr : Nat) (write : Bool)
  /-- RC_READ (R6): A read of an RC register returns its value and then clears it; the fabric orders simultaneous reads. -/
  | rcRead (req : Requester) (r : RegName) (n k : Nat)
  /-- TIME_LOW_HALF_READ (R8): A 32-bit low-half read of a time register snapshots the high half into the requester's holding register. -/
  | timeLowHalfRead (req : Requester) (r : RegName) (n k : Nat)
  /-- TIME_NSF_READ (R56): A 64-bit read of CAR_TIME_NSF copies the seconds of the same counter value into the requester's holding register. -/
  | timeNsfRead (req : Requester)
  /-- EPS_TIME_READ (R56): A 64-bit read of CAR_EPS_TIME copies the CAR_EPS_BASE and CAR_EPS_GROWTH values published with it into holding registers. -/
  | epsTimeRead (req : Requester)
  /-- REGISTER_WRITE (R4): A write to a register that has no row of its own acts by the field access types, with RWL fields ignored after LOCK. -/
  | registerWrite (req : Requester) (r : RegName) (n k : Nat) (w : Word)
  /-- REQ_DAY (R25): A manager write of GLB_MODE.REQ = DAY requests a transition to DAY, which is accepted or refused under R25. -/
  | reqDay (req : Requester) (w : Word)
  /-- REQ_NOON (R25): A manager write of GLB_MODE.REQ = NOON requests the transition from DAY to NOON. -/
  | reqNoon (req : Requester) (w : Word)
  /-- REQ_EVENING (R25): A manager write of GLB_MODE.REQ = EVENING requests the transition from DAY to EVENING. -/
  | reqEvening (req : Requester) (w : Word)
  /-- REQ_DUSK (R29): A manager write of GLB_MODE.REQ = DUSK enters DUSK, which stops fetch and starts the drain. -/
  | reqDusk (req : Requester) (w : Word)
  /-- REQ_MIDNIGHT (R414): A manager write of GLB_MODE.REQ = MIDNIGHT is a security trigger; it abandons any transition and enters MIDNIGHT. -/
  | reqMidnight (req : Requester) (w : Word)
  /-- FORCE (R30): A write of FORCE in DUSK ends the drain at once and moves the part to the mode in DUSK_END. -/
  | force (req : Requester) (w : Word)
  /-- TRANSITION_COMPLETE (R24): A mode transition in progress completes, and the part enters its new mode. -/
  | transitionComplete (record : Option (List Word))
  /-- DUSK_DRAIN_END (R30): When nothing of R29 remains, the drain ends and the part moves to the mode in DUSK_END. -/
  | duskDrainEnd
  /-- DUSK_DRAIN_TIMEOUT (R30): If the drain has not ended after 1 s, the part raises a group 0 Gong event and stays in DUSK. -/
  | duskDrainTimeout
  /-- AUTO_EVENING_ENTRY (R31): After the idle conditions have held for IDLE_US with AUTO_ENTER set, the part enters EVENING from DAY. -/
  | autoEveningEntry
  /-- AUTO_EVENING_RETURN (R32): In EVENING, buffer occupancy reaching UP_KIB or work needing a powered-off domain returns the part to DAY. -/
  | autoEveningReturn
  /-- EVENING_CTL_WRITE (R34): A write of GLB_EVENING_CTL is stored as written and sets REFUSED if AUTO_ENTER is 1 and DOWN_KIB is not below UP_KIB. -/
  | eveningCtlWrite (req : Requester) (w : Word)
  /-- DOMAIN_WAKE (R35): Work arriving at a gated domain wakes it within the wake-latency bound. -/
  | domainWake (dom : Fin 48)
  /-- DOMAIN_GATE (R35): In DAY, a lookaside crypto group, compression unit or Snare scanner with no work is power-gated. -/
  | domainGate (dom : Fin 48)
  /-- SAG_BEGIN (R42): A rail falls below its warning level; fast clocks stretch and a group 0 Gong event carries the rail index. -/
  | sagBegin (rail : Fin 8) (upper : Bool) (uv : Nat)
  /-- SAG_END (R525): A sag ends once the rail has stayed more than 1 % above its warning level for 1 µs; clocks are restored. -/
  | sagEnd (rail : Fin 8) (upper : Bool) (uv ns : Nat)
  /-- PLL_LOCK_LOST (R45): The always-on or a timestamping SerDes PLL loses lock; TS_LOCK_LOST sets and affected slots become unusable. -/
  | pllLockLost (pll : Pll)
  /-- SUPPLY_RESET (R46): A rail other than VDD_AON falls below its reset level, and the part performs a supply reset. -/
  | supplyReset (rail : Fin 8) (upper : Bool) (uv : Nat)
  /-- AON_RESET (R46): VDD_AON falls below its reset level; the whole part resets and the Carillon counter stops. -/
  | aonReset (uv : Nat)
  /-- THERMAL_THROTTLE (R47): At 100 °C the part asserts THROTTLE# and halves ECLK and CCLK. -/
  | thermalThrottle (tj : BitVec 16)
  /-- THROTTLE_RELEASE (R47): Below 95 °C the part restores ECLK and CCLK and releases THROTTLE#. -/
  | throttleRelease (tj : BitVec 16)
  /-- THERMAL_SHUTDOWN (R47): At 115 °C the part enters NIGHT, asserts FAULT# and sets SHUTDOWN_SEEN until POR#. -/
  | thermalShutdown (tj : BitVec 16)
  /-- POR_ASSERT (R48): POR# held low past its glitch filter starts a device reset into NIGHT. -/
  | porAssert
  /-- POR_DEASSERT (R51): POR# deasserts; the straps are latched and the part boots toward DAWN. -/
  | porDeassert (straps : BitVec 9)
  /-- WDOG_KICK (R49): Any write to GLB_WDOG_KICK restarts the watchdog period. -/
  | wdogKick (req : Requester) (w : Word)
  /-- WDOG_FIRST_EXPIRY (R49): At the first expiry, FIRST sets, a non-fatal Gong event is raised and a second period starts. -/
  | wdogFirstExpiry
  /-- WDOG_SECOND_EXPIRY (R49): At the second expiry without a kick, the part performs a watchdog reset. -/
  | wdogSecondExpiry
  /-- MANAGER_RESET (R48): A write of GLB_RESET_CTL with key 0xD05C performs a device reset to TARGET; a wrong key raises a Gong event. -/
  | managerReset (req : Requester) (w : Word)
  /-- STEP_WRITE (R57): A write of CAR_STEP_NS steps the counter by SEC × 10⁹ + NS at the next AOCLK edge, or is refused while HELD is 1. -/
  | stepWrite (req : Requester) (w : Word)
  /-- CHECKER_MISMATCH (R59): The checker counter differs from the counter; event 13 is raised, HELD clears and the servo enters FREERUN. -/
  | checkerMismatch
  /-- PTP_FRAME_RX (R61): A PTP frame received on a port with ROLE not 0 is handed to Carillon's PTP unit. -/
  | ptpFrameRx (p : Fin 32) (synce : Int)
  /-- PTP_MESSAGE_TX (R62): Carillon sends a PTP message of its port state machine when its interval falls due. -/
  | ptpMessageTx (p : Fin 32) (msg : PtpSend) (phase : Fin 128)
  /-- ANNOUNCE_TIMEOUT (R67): At the profile's announce receipt timeout, a PTP slot stops being usable. -/
  | announceTimeout (n : Fin 8)
  /-- PPS_EDGE (R63): An edge on PPS_IN or GNSS_PPS is captured and accepted or rejected by the window test. -/
  | ppsEdge (gnss falling : Bool) (phase : Fin 128) (freq10m : Int)
  /-- NMEA_SENTENCE (R64): A ZDA or RMC sentence arrives on GNSS_RXD and is paired with a GNSS_PPS edge under ASSOC. -/
  | nmeaSentence (sentence : NmeaSentence)
  /-- NMEA_HOLD_EXPIRY (R64): A held sentence is discarded when edge k + 1 is not accepted within 1 s + WINDOW_NS after edge k. -/
  | nmeaHoldExpiry
  /-- MEASUREMENT_MISSING (R72): An expected measurement falls due without one; LOSS_N in a row make the slot unusable. -/
  | measurementMissing (n : Fin 8)
  /-- WTR_EXPIRY (R69): With REVERT set, a better slot that has stayed usable for WTR_S seconds becomes selected. -/
  | wtrExpiry (n : Fin 8)
  /-- SERVO_DISABLE (R74): A write of SERVO_EN = 0 puts the servo into FREERUN and makes ADJ writable. -/
  | servoDisable (req : Requester) (w : Word)
  /-- SRC_PATH_WRITE (R75): A write of PATH below FLOOR is stored as FLOOR and raises event 5. -/
  | srcPathWrite (req : Requester) (n : Fin 8) (w : Word)
  /-- SRC_ENABLE_WRITE (R78): A write of 1 to a slot's EN enables it and clears an exclusion made under CONFLICT_ACT = 1. -/
  | srcEnableWrite (req : Requester) (n : Fin 8) (w : Word)
  /-- EPS_PUBLISH (R80): Every 1 µs Carillon publishes the triple CAR_EPS_TIME, CAR_EPS_BASE and CAR_EPS_GROWTH. -/
  | epsPublish
  /-- CARRY_HOLD_END (R79): Two seconds after CARRY becomes 1, the servo resumes applying a phase term. -/
  | carryHoldEnd
  /-- LEAP_APPLY (R85): At the instant in CAR_LEAP_TIME, Carillon changes OFFSET by one second and raises event 11. -/
  | leapApply
  /-- PPS_OUT_EDGE (R87): PPS_OUT rises when device time plus OFFSET reaches a whole TAI second, and stays high for WIDTH_US. -/
  | ppsOutEdge
  /-- PTM_DIALOGUE (R91): Every PTM_US the part runs a PTM dialogue on a link and adds its pair to the host-time fit. -/
  | ptmDialogue (l : Fin 16) (answer : Option PtmAnswer)
  /-- PAGE_PUBLISH (R96): Every 1 ms the part publishes a new version of the bounded time page on every page of a link. -/
  | pagePublish (l : Fin 16)
  /-- BELL_EDGE (R103): BELLn rises when device time reaches a whole TAI second minus ADVANCE. -/
  | bellEdge (l : Fin 16)
  /-- BELL_FRAME (R104): 16 µs after the edge, the bell line sends its Manchester-coded 176-bit frame. -/
  | bellFrame (l : Fin 16)
  /-- HOLD_RELEASE (R105): The HOLD logic releases a held frame within 16 ns after earliest reaches its HOLD value. -/
  | holdRelease (node : Fin 52) (place : Nat)
  /-- HOLD_EXPIRY (R107): A frame held for HOLD_MAX_MS without release is discarded and completes HOLD_EXPIRED. -/
  | holdExpiry (node : Fin 52) (place : Nat)
  /-- LAUNCH_ENTER (R109): A frame with LAUNCH enters its port's calendar once T − device time is below 524,288 ns. -/
  | launchEnter (p : Fin 32) (queue : Nat)
  /-- LAUNCH_SEND (R109): At its calendar slot the frame's first bit passes the timestamp point within ±8 ns of T. -/
  | launchSend (p : Fin 32) (place : Nat) (phase : Fin 128)
  /-- TOKEN_REQUEST (R111): A token request by mailbox or TX descriptor is accepted or answered at once with UNSYNC, BUSY or NOT_AVAILABLE. -/
  | tokenRequest (f : Fin 2080) (nonce : List Byte) (buf : Word) (tag : Word)
  /-- TOKEN_BATCH_CLOSE (R112): At each whole millisecond of device time, the pending requests form a batch whose root is signed. -/
  | tokenBatchClose
  /-- TOKEN_REPLY (R113): When a batch is signed, the token and batch record are written and each request is answered OK. -/
  | tokenReply
  /-- PORT_CFG_WRITE (R119): A write of ETH_PORT_CFG is applied or refused under R119. -/
  | portCfgWrite (req : Requester) (p : Fin 32) (w : Word)
  /-- PORT_ENABLE (R119): A write of ETH_PORT_CTL.EN = 1 enables the port unless its lanes overlap an enabled port. -/
  | portEnable (req : Requester) (p : Fin 32) (w : Word)
  /-- TX_OFF_WRITE (R122): A write of TX_OFF = 1 takes the link down at once; TX_OFF = 0 starts link bring-up. -/
  | txOffWrite (req : Requester) (p : Fin 32) (w : Word)
  /-- RESTART (R120): A write of RESTART takes the link down and restarts auto-negotiation and training. -/
  | restart (req : Requester) (p : Fin 32) (w : Word)
  /-- LINK_UP (R120): The PCS reports link up and LINK reads 1. -/
  | linkUp (p : Fin 32)
  /-- LINK_DOWN (R122): A port's link goes down; its queued, held and calendared frames are discarded with PORT_DOWN. -/
  | linkDown (p : Fin 32) (cdrLoss : List Nat)
  /-- TS_MEASURE_DONE (R132): After link-up, the port's FEC and deskew delay measurement completes and TS_READY sets, or the timestamp source fires. -/
  | tsMeasureDone (p : Fin 32) (tx rx : Int)
  /-- FRAME_RX (R123): The MAC receives a frame, checks it, timestamps it and passes it on or drops and counts it. -/
  | frameRx (p : Fin 32) (frame : List Byte) (corrected : Nat) (badCode : Bool) (phase : Fin 128)
  /-- XOFF_REPEAT (R125): The port repeats XOFF each half QUANTA while occupancy stays at or above XON_KIB. -/
  | xoffRepeat (p : Fin 32) (prio : Option (Fin 8))
  /-- PAUSE_FRAME_RX (R126): A received 802.3x pause is consumed, counted and pauses the whole port. -/
  | pauseFrameRx (p : Fin 32) (quanta : BitVec 16)
  /-- PFC_FRAME_RX (R126): A received PFC XOFF is consumed, counted and pauses the scheduler queues of that priority. -/
  | pfcFrameRx (p : Fin 32) (enable : BitVec 8) (quanta : List Nat)
  /-- PAUSE_END (R126): A received pause time expires and the paused queues or port resume. -/
  | pauseEnd (p : Fin 32) (prio : Option (Fin 8))
  /-- FRAME_TX (R130): A frame's first bit passes the port's timestamp point and its transmit timestamp is captured. -/
  | frameTx (p : Fin 32) (phase : Fin 128)
  /-- SYNCE_CLOCK_FAIL (R136): The selected recovered clock fails; the TX clock enters holdover within 10 µs and FAIL_SEEN sets. -/
  | synceClockFail
  /-- SYNCE_RESTORE (R136): After the recovered clock has been locked for WTR_S seconds, the TX clock returns to it. -/
  | synceRestore
  /-- PACKET_ADMIT (R139): A pipeline admits one packet per cycle from its feeds and stamps it with the active generation. -/
  | packetAdmit (p : Fin 8)
  /-- SNARE_ANSWER (R159): Snare answers a scanned packet and its verdict becomes final, with MATCH_ACT applied on a match. -/
  | snareAnswer (place : Nat) (ids onward : List (BitVec 32))
  /-- FLOW_FETCH_DONE (R198): A flow-tier DDR fetch completes and the parked packets of that key resume in arrival order. -/
  | flowFetchDone (t : Fin 256) (key : List Byte)
  /-- STALE_DROP (R180): A packet not at its verdict 10 ms after its first table lookup is dropped as STALE. -/
  | staleDrop (p : Fin 8) (place : Nat)
  /-- GEN_COMMIT (R157): A write of PPL_GEN.COMMIT flips ACTIVE at the next PCLK edge and sets PENDING, or is refused. -/
  | genCommit (req : Requester) (p : Fin 8) (w : Word)
  /-- GLOBAL_COMMIT (R157): A write of COMMIT_MASK flips every named pipeline whose PENDING is 0 at one edge. -/
  | globalCommit (req : Requester) (w : Word)
  /-- GEN_FLIP_DONE (R157): When OLD_COUNT reaches 0, PENDING clears, DONE sets and the flip-done source fires. -/
  | genFlipDone (p : Fin 8)
  /-- ACT_WRITE (R156): A write of PPL_ACT_ADDR.WRITE writes PPL_ACT_DATA0–3 to the action entry atomically. -/
  | actWrite (req : Requester) (p : Fin 8) (w : Word)
  /-- ACT_READ (R150): A write of PPL_ACT_ADDR.READ loads the action entry into PPL_ACT_DATA0–3. -/
  | actRead (req : Requester) (p : Fin 8) (w : Word)
  /-- POOL_DISPATCH (R163): A packet is handed to the next able engine of its pool, or queued, or dropped POOL_FULL. -/
  | poolDispatch (pool : Fin 16)
  /-- REORDER_TIMEOUT (R164): The oldest unreturned packet of a domain passes its deadline and is skipped; held packets behind it are released. -/
  | reorderTimeout (p : Fin 8) (domain : Nat)
  /-- STREAM_IDLE_EVICT (R161): A Snare stream idle for STREAM_IDLE_S seconds is evicted. -/
  | streamIdleEvict (stream : Nat)
  /-- INSERT (R176): TBL_CMD INSERT places an entry by the cuckoo algorithm, stashes it, or fails. -/
  | insert (req : Requester) (w : Word)
  /-- UPDATE (R179): TBL_CMD UPDATE rewrites ACTION, GEN, STATIC and PRIORITY of the qualifying entry. -/
  | update (req : Requester) (w : Word)
  /-- DELETE (R179): TBL_CMD DELETE clears GEN_MASK bits of every entry with the key and removes entries left with GEN 0. -/
  | delete (req : Requester) (w : Word)
  /-- READ_SLOT (R175): TBL_CMD READ_SLOT returns the entry at a slot or stash place in TBL_CMD_DATA. -/
  | readSlot (req : Requester) (w : Word)
  /-- WRITE_INDEX (R181): TBL_CMD WRITE_INDEX writes an entry of a direct-indexed table or an LPM first stage. -/
  | writeIndex (req : Requester) (w : Word)
  /-- FIND (R181): TBL_CMD FIND returns the entry with the key, or the indexed entry of a direct table. -/
  | find (req : Requester) (w : Word)
  /-- BLOCK_MAP_WRITE (R169): A write of TBL_BLOCK_MAP changes block owners, or is refused for a block in use. -/
  | blockMapWrite (req : Requester) (k : Fin 40) (w : Word)
  /-- T_CFG_WRITE (R187): A write of TBL_T_CFG is refused if it would give a set a fifth enabled range table. -/
  | tCfgWrite (req : Requester) (t : Fin 256) (w : Word)
  /-- LEARN_PROCESS (R190): The learning unit takes a queued submission and inserts, refreshes, moves or damps the entry. -/
  | learnProcess
  /-- SWEEP_VISIT (R193): The sweeper visits a slot once per AGE_P_MS, clearing HIT or advancing MISS and removing aged entries. -/
  | sweepVisit (t : Fin 256) (slot : Nat)
  /-- CLUSTER_RUN (R205): A write of TBC_CTL.RUN = 1 in LOADED starts the cluster's threads at ENTRY. -/
  | clusterRun (req : Requester) (c : Fin 16) (w : Word)
  /-- CLUSTER_DRAIN (R204): A write of DRAIN = 1 in RUNNING moves the cluster to DRAINING. -/
  | clusterDrain (req : Requester) (c : Fin 16) (w : Word)
  /-- CLUSTER_UNDRAIN (R204): A write of DRAIN = 0 in DRAINING or DRAINED returns the cluster to RUNNING. -/
  | clusterUndrain (req : Requester) (c : Fin 16) (w : Word)
  /-- CLUSTER_DRAINED (R204): In DRAINING, once no thread holds a packet or awaits a response, the cluster becomes DRAINED. -/
  | clusterDrained (c : Fin 16)
  /-- CLUSTER_RESET (R207): A write of RESET = 1 stops every thread, increments EPOCH and moves the cluster to LOADED. -/
  | clusterReset (req : Requester) (c : Fin 16) (w : Word)
  /-- MEM_DATA_ACCESS (R206): An access to TBC_MEM_DATA reads or writes cluster memory at ADDR and adds 8 to ADDR. -/
  | memDataAccess (req : Requester) (c : Fin 16) (data : Option Word)
  /-- SHARE_WRITE (R208): A write of TBC_SHARE sets the static credit and slot shares, or is refused. -/
  | shareWrite (req : Requester) (c : Fin 16) (w : Word)
  /-- CHANNEL_RESPONSE (R216): A channel response lands in the response queue or memory and sets CHAN. -/
  | channelResponse (place : Nat)
  /-- THREAD_TIMER_EXPIRY (R250): A thread's timer expires, sets TIMER in EPEND and disarms. -/
  | threadTimerExpiry (t : Fin 1024)
  /-- TWAIT_END (R249): Device time reaches a TWAIT operand, the wait ends and TIME sets. -/
  | twaitEnd (t : Fin 1024)
  /-- THREAD_WATCHDOG (R223): A thread ready or stalled without waiting for WDOG_US takes a WATCHDOG trap. -/
  | threadWatchdog (t : Fin 1024)
  /-- HALT (R225): A write of HALT = 1 stops the thread at its next instruction boundary. -/
  | halt (req : Requester) (t : Fin 1024) (w : Word)
  /-- RESUME (R225): A write of RESUME clears HALT and continues the thread. -/
  | resume (req : Requester) (t : Fin 1024) (w : Word)
  /-- STEP (R225): A write of STEP lets a halted thread issue one instruction and halt again. -/
  | step (req : Requester) (t : Fin 1024) (w : Word)
  /-- ABORT_STAGE (R225): A write of ABORT_STAGE clears the staging buffer of a halted thread. -/
  | abortStage (req : Requester) (t : Fin 1024) (w : Word)
  /-- THREAD_CTL_SEV (R221): A write of TBE_THREAD_CTL.SEV sets SEV in the thread's pending set. -/
  | threadCtlSev (req : Requester) (t : Fin 1024) (w : Word)
  /-- CLR_EVT (R221): A write of CLR_EVT clears the named pending bits. -/
  | clrEvt (req : Requester) (t : Fin 1024) (w : Word)
  /-- THREAD_REG_WRITE (R225): A debugger write of a thread's PC, g or s registers takes effect only while it is halted. -/
  | threadRegWrite (req : Requester) (t : Fin 1024) (reg : ThreadReg) (w : Word)
  /-- QUIET_CLUSTER (R226): A cluster whose threads have all been quiet for 1 µs raises the quiet-cluster source and sets QUIET. -/
  | quietCluster (c : Fin 16)
  /-- CLUSTER_GATE (R227): A cluster with no work for GATE_US is gated in DAY. -/
  | clusterGate (c : Fin 16)
  /-- ALU (R238): ALU computes rd from rs1 and rs2 by FN. -/
  | alu (t : Fin 1024)
  /-- IALU (R239): IALU computes rd from rs1 and the sign-extended IMM12 by FN. -/
  | ialu (t : Fin 1024)
  /-- BFI (R240): BFI extracts, inserts or clears a bit field. -/
  | bfi (t : Fin 1024)
  /-- MOVI (R241): MOVI writes or replaces 16 bits of rd. -/
  | movi (t : Fin 1024)
  /-- ATOM (R246): ATOM performs an atomic add, compare-and-swap or OR in local or shared space. -/
  | atom (t : Fin 1024)
  /-- HASH (R247): HASH computes a checksum, CRC-32C update or Toeplitz step. -/
  | hash (t : Fin 1024)
  /-- LD (R243): LD loads from a memory space. -/
  | ld (t : Fin 1024)
  /-- ST (R243): ST stores to a memory space. -/
  | st (t : Fin 1024)
  /-- BR (R242): BR branches when its condition holds. -/
  | br (t : Fin 1024)
  /-- JAL (R242): JAL writes PC + 1 to rd and jumps to IMM16. -/
  | jal (t : Fin 1024)
  /-- JALR (R242): JALR writes PC + 1 to rd and jumps to register A plus IMM16. -/
  | jalr (t : Fin 1024)
  /-- CHW (R251): CHW writes a register to a word of the staging buffer. -/
  | chw (t : Fin 1024)
  /-- CHS (R252): CHS sends the staged message, taking a credit, or traps. -/
  | chs (t : Fin 1024)
  /-- CHR (R253): CHR reads a word of the oldest unread response, optionally popping it. -/
  | chr (t : Fin 1024)
  /-- SRD (R231): SRD reads a special register. -/
  | srd (t : Fin 1024)
  /-- SWR (R231): SWR writes a special register. -/
  | swr (t : Fin 1024)
  /-- TREAD (R248): TREAD writes the TS64 of device time to rd. -/
  | tread (t : Fin 1024)
  /-- TWAIT (R249): TWAIT waits until device time reaches the TS64 in register A. -/
  | twait (t : Fin 1024)
  /-- WFE (R254): WFE waits until pending AND mask is non-zero and writes it to rd. -/
  | wfe (t : Fin 1024)
  /-- SEV (R255): SEV sets SEV in every other thread of the cluster. -/
  | sev (t : Fin 1024)
  /-- SEVT (R255): SEVT sets SEV in one named thread of any cluster. -/
  | sevt (t : Fin 1024)
  /-- TRAP (R258): TRAP raises cause TRAP with CODE = IMM16. -/
  | trap (t : Fin 1024)
  /-- TRET (R257): TRET clears IN_TRAP and continues at TPC or TPC + 1. -/
  | tret (t : Fin 1024)
  /-- CRD (R259): CRD reads the performance or cycle counter that IMM16 selects. -/
  | crd (t : Fin 1024)
  /-- FENCE (R260): FENCE waits until earlier DDR-window stores are visible. -/
  | fence (t : Fin 1024)
  /-- ILLEGAL (R235): A reserved opcode or field value traps with ILLEGAL and has no effect. -/
  | illegal (t : Fin 1024)
  /-- PKT_RETURN (R218): PKT RETURN sends the frame onward and frees the slot, taking its reorder place if sequenced. -/
  | pktReturn (place : Nat)
  /-- PKT_DROP (R218): PKT DROP discards the packet, releases its sequence number and frees the slot. -/
  | pktDrop (place : Nat)
  /-- PKT_FRAME (R218): PKT FRAME moves the frame's start and length. -/
  | pktFrame (place : Nat)
  /-- PKT_NEW (R218): PKT NEW allocates a slot for a new unsequenced packet. -/
  | pktNew (place : Nat)
  /-- PKT_SEND (R218): PKT SEND sends the packet onward unsequenced. -/
  | pktSend (place : Nat)
  /-- TABLE_LOOKUP (R219): A TABLE LOOKUP reads the table under a generation and returns the entry and action. -/
  | tableLookup (place : Nat)
  /-- TABLE_INSERT (R219): A TABLE INSERT passes through the set's ordered port as INSERT does. -/
  | tableInsert (place : Nat)
  /-- TABLE_UPDATE (R219): A TABLE UPDATE passes through the set's ordered port as UPDATE does. -/
  | tableUpdate (place : Nat)
  /-- TABLE_DELETE (R219): A TABLE DELETE passes through the set's ordered port as DELETE does. -/
  | tableDelete (place : Nat)
  /-- TABLE_WRITE_INDEX (R219): A TABLE WRITE_INDEX writes an indexed entry through the ordered port. -/
  | tableWriteIndex (place : Nat)
  /-- TABLE_READ_SLOT (R219): A TABLE READ_SLOT returns the entry of a slot. -/
  | tableReadSlot (place : Nat)
  /-- TABLE_FIND (R219): A TABLE FIND returns the entry with a key. -/
  | tableFind (place : Nat)
  /-- PREFETCH (R220): A PREFETCH message brings a key's buckets or tier entry into the flow cache without a response. -/
  | prefetch (place : Nat)
  /-- GCM_ENC (R386): A CRYPTO GCM_ENC request encrypts AAD and plaintext and writes ciphertext and tag. -/
  | gcmEnc (place : Nat)
  /-- GCM_DEC (R388): A CRYPTO GCM_DEC request decrypts and releases plaintext only after the tag verifies. -/
  | gcmDec (place : Nat)
  /-- XTS_ENC (R386): A CRYPTO XTS_ENC request encrypts data units with AES-XTS. -/
  | xtsEnc (place : Nat)
  /-- XTS_DEC (R386): A CRYPTO XTS_DEC request decrypts data units with AES-XTS. -/
  | xtsDec (place : Nat)
  /-- CMAC (R386): A CRYPTO CMAC request writes a 16-byte AES-CMAC tag. -/
  | cmac (place : Nat)
  /-- CRYPTO_HASH (R386): A CRYPTO HASH request writes the digest of the data. -/
  | cryptoHash (place : Nat)
  /-- HMAC (R386): A CRYPTO HMAC request writes the HMAC of the data under a key. -/
  | hmac (place : Nat)
  /-- CRYPTO_COMPLETE (R387): A lookaside core finishes a request and sends its response status. -/
  | cryptoComplete (core : Fin 128) (reply : CplStatus)
  /-- KEY_UNWRAP (R392): A key cache miss fetches and unwraps the key entry, and the waiting request proceeds. -/
  | keyUnwrap (index : Fin 1048576)
  /-- CIPHER_PARITY_FAULT (R390): A lookaside core reports a parity error; its request ends CRYPTO_FAULT and the core is tested. -/
  | cipherParityFault (core : Fin 128)
  /-- INLINE_PARITY_FAULT (R391): An inline core reports a parity error; the frame or TLP in process is not forwarded. -/
  | inlineParityFault (unit : Fin 24) (core : Nat)
  /-- ZSTD_C (R421): A CMP ZSTD_C request compresses the input into one zstd frame. -/
  | zstdC (place : Nat)
  /-- ZSTD_D (R422): A CMP ZSTD_D request decodes concatenated zstd frames. -/
  | zstdD (place : Nat)
  /-- DEFL_C (R421): A CMP DEFL_C request compresses the input into a raw DEFLATE stream. -/
  | deflC (place : Nat)
  /-- DEFL_D (R422): A CMP DEFL_D request decodes a raw DEFLATE stream. -/
  | deflD (place : Nat)
  /-- CMP_COMPLETE (R423): A compression unit finishes a request and sends its status with OUT and IN. -/
  | cmpComplete (unit : Fin 16) (reply : CplStatus)
  /-- XPT_WORK_REQUEST (R360): An XPT message with OP 0x01 posts a Sarup work request on an engine queue. -/
  | xptWorkRequest (place : Nat)
  /-- XPT_CQ_CONSUMER (R360): An XPT message with OP 0x02 sets the consumer index of the engine queue's completion ring. -/
  | xptCqConsumer (place : Nat)
  /-- TAKE (R370): An NVM TAKE hands the thread the next command of its cluster's ready queue. -/
  | take (place : Nat)
  /-- COMPLETE (R372): An NVM COMPLETE writes the command's completion after its data writes, or is VOID. -/
  | complete (place : Nat)
  /-- MARK (R370): An NVM MARK adds a signed delta to an attachment's DIRTY count. -/
  | mark (place : Nat)
  /-- DEFER (R378): An NVM DEFER records a deferred write error for an attachment. -/
  | defer (place : Nat)
  /-- COPY (R371): A DMA COPY moves bytes between spaces, DDR, host memory or a command's data buffer. -/
  | copy (place : Nat) (reply : Option CplStatus)
  /-- MBX_CH_POST (R457): An MBX POST posts LEN words from thread memory to the cluster's mailbox. -/
  | mbxChPost (place : Nat)
  /-- MBX_CH_READ (R457): An MBX READ writes the oldest message toward the cluster to thread memory and pops it. -/
  | mbxChRead (place : Nat)
  /-- MBX_CH_STATUS (R457): An MBX STATUS returns the sender-side status and clears TIMEOUT, DISCARDED and DISCARD_COUNT. -/
  | mbxChStatus (place : Nat)
  /-- FRAME_SELECT (R265): An L2 node able to accept a frame selects one top-down through its L1 nodes, groups and queues. -/
  | frameSelect (node : Fin 52) (reply : Option CplStatus)
  /-- SHAPER_WRITE (R271): A write to word 0 of a shaper sets RATE, BURST, PROFILE and the token count under RESET_TO. -/
  | shaperWrite (req : Requester) (k : Nat) (w : Word)
  /-- POLICER_WRITE (R281): A write to a policer entry sets its buckets full or zero under RESET_TO. -/
  | policerWrite (req : Requester) (p : Fin 8) (k : Nat) (w : Word)
  /-- GROUP_WRITE (R266): A write of a group's PARENT while its queues hold frames is refused. -/
  | groupWrite (req : Requester) (k : Nat) (w : Word)
  /-- L1_WRITE (R266): A write of an L1 node's PARENT while its groups hold frames is refused. -/
  | l1Write (req : Requester) (k : Nat) (w : Word)
  /-- DOORBELL (R292): A doorbell write moves a ring's producer or consumer index, arms it, or halts the queue. -/
  | doorbell (f : Fin 2080) (page : Nat) (bytes : Nat) (aligned : Bool) (w : Word)
  /-- TX_FETCH (R289): Descriptor fetch takes the next frame of a function's ACTIVE TX queue and sends it into its pipeline. -/
  | txFetch (f : Fin 2080) (q : Nat) (reply : Option CplStatus)
  /-- TX_COMPLETION_WRITE (R301): A TX completion is written in slot order once every earlier frame of the queue has completed. -/
  | txCompletionWrite (f : Fin 2080) (q : Nat)
  /-- MODERATION_TIMER (R306): TIMER_US after the oldest pending completion, an armed ring fires its vector and disarms. -/
  | moderationTimer (f : Fin 2080) (q : Nat) (rx : Bool)
  /-- QUEUE_ENABLE (R303): A write of ENABLE = 1 in DISABLED makes the queue ACTIVE with indexes zero. -/
  | queueEnable (req : Requester) (f : Fin 2080) (w : Word)
  /-- QUEUE_DISABLE (R303): A write of ENABLE = 0 in ACTIVE or HALTED moves the queue to STOPPING. -/
  | queueDisable (req : Requester) (f : Fin 2080) (w : Word)
  /-- QUEUE_DRAINED (R303): A STOPPING queue whose fetched frames and tokens have completed becomes DISABLED. -/
  | queueDrained (f : Fin 2080) (q : Nat)
  /-- RES_VALID_WRITE (R288): A write of FNC_RES_CTL.VALID assigns or releases a function's resources, or is refused. -/
  | resValidWrite (req : Requester) (f : Fin 2080) (w : Word)
  /-- PERST_ASSERT (R323): PERST#[L] asserted performs a fundamental reset of link L. -/
  | perstAssert (l : Fin 16)
  /-- PERST_DEASSERT (R51): PERST#[L] deasserted starts link training once the part has reached DAWN. -/
  | perstDeassert (l : Fin 16)
  /-- HOST_LINK_UP (R313): A host link completes training and its data link comes up. -/
  | hostLinkUp (l : Fin 16) (speed lanes : Nat) (flit reversed : Bool)
  /-- HOST_LINK_DOWN (R323): An in-band hot reset, Link Disable or loss of link resets all functions of the link. -/
  | hostLinkDown (l : Fin 16) (lane : Option (Fin 64))
  /-- PF_FLR (R326): Initiate FLR on a PF quiesces the PF and its VFs and starts the drain. -/
  | pfFlr (f : Fin 2080)
  /-- VF_FLR (R326): Initiate FLR on a VF quiesces that VF and starts the drain. -/
  | vfFlr (f : Fin 2080)
  /-- FLR_COMPLETE (R326): After outstanding requests end, the function state is reset and the FLR completes. -/
  | flrComplete (f : Fin 2080)
  /-- VF_ENABLE (R320): The host sets VF Enable with NumVFs; the VFs answer within 100 ms and CHANGED sets. -/
  | vfEnable (pf : Fin 32) (numVfs : Nat)
  /-- VF_DISABLE (R320): Clearing VF Enable, or writing NumVFs while VF Enable is 0, removes the VFs as an FLR would. -/
  | vfDisable (pf : Fin 32) (numVfs : Nat)
  /-- BME_CLEAR (R325): Clearing Bus Master Enable stops new requests and halts the function's queues with BME_OFF. -/
  | bmeClear (f : Fin 2080)
  /-- COMPLETION_TIMEOUT (R315): A non-posted request reaches CPL_TO_MS without completion; it fails and its tag becomes void. -/
  | completionTimeout (l : Fin 16) (tag : Nat)
  /-- COMPLETION_RX (R327): A completion arrives from the host; one for a void tag is discarded and counted as late. -/
  | completionRx (l : Fin 16) (tag : Nat) (status : CplStatus)
  /-- MGR_BAR_ACCESS (R322): A host access to device register space through the manager PF's BAR0 is performed or refused under HOST_RD and HOST_WR. -/
  | mgrBarAccess (addr : Nat) (data : Option Word)
  /-- HOST_MEMORY_REQUEST (R333): A host memory request to a BAR of a link is served, or refused with UR under IDE_REQ. -/
  | hostMemoryRequest (l : Fin 16) (f : Fin 2080) (bar addr : Nat) (data : Option Word) (secure : Bool)
  /-- IDE_CHECK_FAIL (R332): A TLP fails its IDE integrity check; it is dropped and its stream returns to Insecure. -/
  | ideCheckFail (l : Fin 16) (slot : Fin 4)
  /-- DOE_OBJECT (R331): A DOE data object is received and processed by its protocol. -/
  | doeObject (pf : Fin 32) (obj : List Byte)
  /-- DOE_ABORT (R331): DOE Abort discards the object in progress within 1 ms. -/
  | doeAbort (pf : Fin 32)
  /-- CONN_WRITE (R334): XPT_CMD CONN_WRITE writes a connection context in IDLE, possibly making it READY. -/
  | connWrite (req : Requester) (w : Word)
  /-- CONN_READ (R334): XPT_CMD CONN_READ returns a connection context in XPT_CMD_DATA. -/
  | connRead (req : Requester) (w : Word)
  /-- CONN_RESET (R334): XPT_CMD CONN_RESET moves a connection to QUARANTINE and completes its work with CONN_ERROR. -/
  | connReset (req : Requester) (w : Word)
  /-- QUARANTINE_END (R334): 500 ms after entering QUARANTINE, a connection becomes IDLE. -/
  | quarantineEnd (conn : Nat)
  /-- WIN_WRITE (R355): XPT_CMD WIN_WRITE writes a window descriptor, refused for an enabled window. -/
  | winWrite (req : Requester) (w : Word)
  /-- WIN_READ (R355): XPT_CMD WIN_READ returns a window descriptor. -/
  | winRead (req : Requester) (w : Word)
  /-- WIN_REVOKE (R354): XPT_CMD WIN_REVOKE revokes a window, staying BUSY until accepted writes are placed. -/
  | winRevoke (req : Requester) (w : Word)
  /-- QP_BIND_WRITE (R335): A write of XPT_QP_BIND binds a queue as a Sarup queue, ignored unless the queue is DISABLED. -/
  | qpBindWrite (req : Requester) (q : Fin 32768) (w : Word)
  /-- WR_WRITE (R341): A WRITE work request is sent as packets into the remote window. -/
  | wrWrite (q : SarupQueue) (reply : Option CplStatus)
  /-- WR_WRITE_IMM (R341): A WRITE_IMM work request is sent with IMM on its last packet. -/
  | wrWriteImm (q : SarupQueue) (reply : Option CplStatus)
  /-- WR_SEND (R341): A SEND work request is sent into the target's RX buffers. -/
  | wrSend (q : SarupQueue) (reply : Option CplStatus)
  /-- WR_READ (R341): A READ work request sends READ_REQ and completes when the response is placed. -/
  | wrRead (q : SarupQueue) (reply : Option CplStatus)
  /-- WR_FETCH_ADD (R341): A FETCH_ADD work request sends the addend and completes on ATOMIC_RESP. -/
  | wrFetchAdd (q : SarupQueue) (reply : Option CplStatus)
  /-- WR_CAS (R341): A CAS work request sends compare and swap and completes on ATOMIC_RESP. -/
  | wrCas (q : SarupQueue) (reply : Option CplStatus)
  /-- WR_FLUSH (R341): A FLUSH work request completes on FLUSH_RESP. -/
  | wrFlush (q : SarupQueue) (reply : Option CplStatus)
  /-- WR_OPEN (R353): An OPEN work request enables a window and returns its new key. -/
  | wrOpen (q : SarupQueue) (reply : Option CplStatus)
  /-- WR_REVOKE (R354): A REVOKE work request revokes a window key within 2 µs. -/
  | wrRevoke (q : SarupQueue) (reply : Option CplStatus)
  /-- REVOKE_COMPLETE (R354): A revoke completes once every write checked before it has been placed and is visible. -/
  | revokeComplete (win : Nat)
  /-- WRITE (R346): A received WRITE packet is checked and placed at the window address it names. -/
  | write (place : Nat)
  /-- WRITE_IMM (R348): A received WRITE_IMM packet is placed, and its notification waits for the receive base. -/
  | writeImm (place : Nat)
  /-- SEND (R349): A received SEND packet takes RX buffers in SSN order or is answered NAK RNR. -/
  | send (place : Nat)
  /-- READ_REQ (R350): A received READ_REQ is executed once and answered on the responder's stream. -/
  | readReq (place : Nat) (reply : Option CplStatus)
  /-- READ_RESP (R341): A received READ_RESP packet is placed in the local buffer. -/
  | readResp (place : Nat)
  /-- FETCH_ADD (R350): A received FETCH_ADD is executed once atomically and answered with the old value. -/
  | fetchAdd (place : Nat) (reply : Option CplStatus)
  /-- CAS (R350): A received CAS is executed once atomically and answered with the old value. -/
  | cas (place : Nat) (reply : Option CplStatus)
  /-- ATOMIC_RESP (R341): A received ATOMIC_RESP completes the atomic work request with its old value. -/
  | atomicResp (place : Nat)
  /-- FLUSH (R351): A received FLUSH is accepted and waits for earlier placements to become visible. -/
  | flush (place : Nat)
  /-- FLUSH_VISIBLE (R351): Once B has passed the FLUSH and earlier placements are visible, the target sends FLUSH_RESP. -/
  | flushVisible (conn : Nat) (psn : Nat)
  /-- FLUSH_RESP (R341): A received FLUSH_RESP completes the FLUSH work request. -/
  | flushResp (place : Nat)
  /-- ACK (R344): A received ACK frees every PSN below its base and every PSN its bitmap marks. -/
  | ack (place : Nat)
  /-- NAK (R352): A received NAK completes the request with an error or schedules an RNR resend. -/
  | nak (place : Nat)
  /-- ACK_TIMER (R344): ACK_US after an unacknowledged packet, the receiver sends an ACK. -/
  | ackTimer (conn : Nat)
  /-- RETRANSMIT_TIMEOUT (R345): An unfreed packet is resent after RTO_US × 2^min(r, 3), or the connection enters ERROR. -/
  | retransmitTimeout (conn : Nat) (psn : Nat)
  /-- RNR_RETRY (R349): RNR_US after a NAK RNR, the sender resends the SEND message. -/
  | rnrRetry (conn : Nat) (psn : Nat)
  /-- SARUP_RX_COMPLETION (R348): Once B passes a message's LAST packet and room exists, its receive completion is written. -/
  | sarupRxCompletion (conn : Nat)
  /-- CC_ENABLE (R367): A host write of CC.EN = 1 enables the NVMe controller. -/
  | ccEnable (f : Fin 2080) (w : BitVec 32)
  /-- CSTS_RDY_SET (R367): CSTS.RDY sets once the part is in DAY, NOON or EVENING and NVM_FN_RES.VALID is 1. -/
  | cstsRdySet (f : Fin 2080)
  /-- CC_DISABLE (R368): A write of CC.EN = 0 ends the controller's fetched commands with Commands Aborted due to SQ Deletion. -/
  | ccDisable (f : Fin 2080) (w : BitVec 32)
  /-- CC_SHUTDOWN (R369): A write of CC.SHN stops fetch for the controller. -/
  | ccShutdown (f : Fin 2080) (w : BitVec 32)
  /-- SHUTDOWN_COMPLETE (R369): CSTS.SHST reads complete once every fetched command has completed and DIRTY counts are zero. -/
  | shutdownComplete (f : Fin 2080)
  /-- SQ_DOORBELL (R370): A submission queue tail doorbell makes new commands available for fetch. -/
  | sqDoorbell (f : Fin 2080) (q : Nat) (v : BitVec 32)
  /-- CQ_DOORBELL (R363): A completion queue head doorbell frees completion entries. -/
  | cqDoorbell (f : Fin 2080) (q : Nat) (v : BitVec 32)
  /-- COMMAND_FETCH (R370): The front end fetches a command, gives it a handle and checks it. -/
  | commandFetch (f : Fin 2080) (sq : Nat) (reply : Option CplStatus)
  /-- COMMAND_DISPATCH (R373): Once no earlier conflicting command is uncompleted, a command goes to a cluster ready queue and SEV is sent. -/
  | commandDispatch (h : Nat)
  /-- CREATE_IO_SQ (R365): Create I/O SQ creates a submission queue or fails with a queue error. -/
  | createIoSq (h : Nat)
  /-- DELETE_IO_SQ (R368): Delete I/O SQ ends its fetched commands and then completes. -/
  | deleteIoSq (h : Nat)
  /-- CREATE_IO_CQ (R365): Create I/O CQ creates a completion queue or fails. -/
  | createIoCq (h : Nat)
  /-- DELETE_IO_CQ (R363): Delete I/O CQ deletes a completion queue. -/
  | deleteIoCq (h : Nat)
  /-- GET_LOG_PAGE (R363): Get Log Page returns a supported log page. -/
  | getLogPage (h : Nat)
  /-- IDENTIFY (R364): Identify returns the controller, namespace, list or descriptor data. -/
  | identify (h : Nat)
  /-- ABORT (R380): Abort completes a waiting command with Command Abort Requested, or reports it not aborted. -/
  | abort (h : Nat)
  /-- SET_FEATURES (R363): Set Features sets a supported feature. -/
  | setFeatures (h : Nat)
  /-- GET_FEATURES (R363): Get Features returns a supported feature. -/
  | getFeatures (h : Nat)
  /-- ASYNC_EVENT_REQUEST (R378): An Asynchronous Event Request stays outstanding until an event completes it. -/
  | asyncEventRequest (h : Nat)
  /-- NVME_READ (R375): A Read command is dispatched to an engine, which serves it from cache or backend. -/
  | nvmeRead (h : Nat)
  /-- NVME_WRITE (R376): A Write command is dispatched to an engine and completed under the durability obligations. -/
  | nvmeWrite (h : Nat)
  /-- NVME_FLUSH (R376): A Flush command completes once earlier completed writes are durable. -/
  | nvmeFlush (h : Nat)
  /-- COMPARE (R375): A Compare command is dispatched to an engine. -/
  | compare (h : Nat)
  /-- WRITE_ZEROES (R376): A Write Zeroes command is dispatched to an engine. -/
  | writeZeroes (h : Nat)
  /-- DATASET_MANAGEMENT (R373): A Dataset Management command is dispatched after every earlier command of its NSID completes. -/
  | datasetManagement (h : Nat)
  /-- NS_WRITE (R366): NVM_CMD NS_WRITE writes a namespace entry, refused while attached and busy. -/
  | nsWrite (req : Requester) (w : Word)
  /-- NS_READ (R366): NVM_CMD NS_READ returns a namespace entry. -/
  | nsRead (req : Requester) (w : Word)
  /-- ATTACH (R366): NVM_CMD ATTACH makes a namespace visible to a controller as an NSID. -/
  | attach (req : Requester) (w : Word)
  /-- DETACH (R366): NVM_CMD DETACH removes an attachment, refused while commands or DIRTY remain. -/
  | detach (req : Requester) (w : Word)
  /-- FN_RES_WRITE (R365): A write of NVM_FN_RES assigns an NVMe function's queues and vectors, or is refused. -/
  | fnResWrite (req : Requester) (f : Fin 2080) (w : Word)
  /-- KEY_LOAD (R393): CRY_KEY_CMD LOAD stores the key in CRY_KEY_DATA at an index. -/
  | keyLoad (req : Requester) (w : Word)
  /-- KEY_IMPORT (R393): CRY_KEY_CMD IMPORT unwraps a blob under a KEK and stores the key. -/
  | keyImport (req : Requester) (w : Word)
  /-- KEY_DELETE (R395): CRY_KEY_CMD DELETE removes a key for every later reader. -/
  | keyDelete (req : Requester) (w : Word)
  /-- KEY_DELETE_COMPLETE (R395): DELETE completes and BUSY clears once every operation that read the key has ended. -/
  | keyDeleteComplete
  /-- KEY_QUERY (R393): CRY_KEY_CMD QUERY returns whether an index holds a key, with its algorithm and use. -/
  | keyQuery (req : Requester) (w : Word)
  /-- IMAGE_ACCEPTED (R404): The boot ROM's checks pass and the image runs. -/
  | imageAccepted (img : List Byte)
  /-- IMAGE_REJECTED (R404): An image check fails; FAIL records it and the part falls back under R405. -/
  | imageRejected (img : List Byte) (check : Fin 8)
  /-- GET_NONCE (R417): GET_NONCE writes a fresh 48-byte nonce to the buffer. -/
  | getNonce (r : Fin 8) (msg : List Word)
  /-- RECOVER (R416): A signed RECOVER moves the part from MIDNIGHT to TWILIGHT. -/
  | recover (r : Fin 8) (msg : List Word)
  /-- SLOT_REVOKE (R416): A signed REVOKE sets a REVOKE fuse bit for a slot. -/
  | slotRevoke (r : Fin 8) (msg : List Word)
  /-- RETIRE (R412): A signed RETIRE enters RETIRED and blows every UDS fuse. -/
  | retire (r : Fin 8) (msg : List Word)
  /-- DEBUG_UNLOCK (R413): A signed DEBUG_UNLOCK takes effect at the next non-POR device reset. -/
  | debugUnlock (r : Fin 8) (msg : List Word)
  /-- IMAGE_LOAD (R405): IMAGE_LOAD delivers an image through a root-of-trust mailbox in the waiting state. -/
  | imageLoad (r : Fin 8) (msg : List Word)
  /-- LIFECYCLE_ADVANCE (R412): LIFECYCLE_ADVANCE moves MANUFACTURE to DEVELOP or DEVELOP to PRODUCTION. -/
  | lifecycleAdvance (r : Fin 8) (msg : List Word)
  /-- SLOT_PROGRAM (R417): SLOT_PROGRAM programs a key slot with the hash of two public keys. -/
  | slotProgram (r : Fin 8) (msg : List Word)
  /-- ROLLBACK_CMD (R407): A write of SEC_ROLLBACK_CMD raises a rollback counter to VALUE, or is refused. -/
  | rollbackCmd (req : Requester) (w : Word)
  /-- ROLLBACK_DONE (R407): The last fuse of a rollback command is blown and BUSY clears. -/
  | rollbackDone
  /-- MEASURE_EXTEND (R406): A write of SEC_MEASURE_EXTEND extends measurement INDEX with SEC_MEASURE_DATA. -/
  | measureExtend (req : Requester) (w : Word)
  /-- LOCKDOWN (R414): A write of SEC_TRIGGER.LOCKDOWN is a security trigger that enters MIDNIGHT. -/
  | lockdown (req : Requester) (w : Word)
  /-- GLITCH_DETECT (R414): The glitch detector sees a VDD_CORE excursion or short clock pulse and triggers MIDNIGHT when enabled. -/
  | glitchDetect
  /-- OTP_CHECK (R414): The OTP integrity check runs every 1 s and triggers MIDNIGHT on failure when enabled. -/
  | otpCheck (ok : Bool)
  /-- DEBUG_ACCESS (R445): A debug access while debug is closed has no effect and raises the debug trigger. -/
  | debugAccess (access : DebugAccess)
  /-- FC_READ (R426): CMP_FC_CMD READ spills and returns a counter pair in one step. -/
  | fcRead (req : Requester) (w : Word)
  /-- FC_CLEAR (R426): CMP_FC_CMD CLEAR sets a counter pair to zero in one step. -/
  | fcClear (req : Requester) (w : Word)
  /-- FC_FLUSH (R426): CMP_FC_CMD FLUSH spills every cached pair of every pipeline. -/
  | fcFlush (req : Requester) (w : Word)
  /-- RECORD_BLOCK_CLOSE (R430): A record block closes at 63 records or CLOSE_MS, has its timestamps delta-coded and is written to the ring. -/
  | recordBlockClose
  /-- HIST_SNAP (R434): A write of SNAP copies a histogram's counters to its snapshot, optionally zeroing them. -/
  | histSnap (req : Requester) (h : Fin 32) (w : Word)
  /-- SKETCH_CLEAR (R437): A write of CLEAR zeroes the inactive sketch bank and its N. -/
  | sketchClear (req : Requester) (p : Fin 8) (w : Word)
  /-- SKETCH_CLEAR_DONE (R437): Within 50 µs the clear completes and CLEARED reads 1. -/
  | sketchClearDone (p : Fin 8)
  /-- SKETCH_SWAP (R437): A write of SWAP flips the active bank, refused unless CLEARED is 1. -/
  | sketchSwap (req : Requester) (p : Fin 8) (w : Word)
  /-- SKETCH_QUERY (R436): A write of CMP_SK_QUERY.GO estimates a key from the inactive bank. -/
  | sketchQuery (req : Requester) (w : Word)
  /-- CC_RUN (R443): A write of GLB_CC_CTL.RUN starts control-core clusters 1 and 2 or holds them in reset. -/
  | ccRun (req : Requester) (w : Word)
  /-- MTIMER_EXPIRY (R442): A hart's machine timer interrupt becomes pending when time reaches GLB_CC_MTIMECMP. -/
  | mtimerExpiry (h : Fin 24)
  /-- POST (R448): A write of MBX_POST enqueues LEN staged words as one message, or is refused. -/
  | post (req : Requester) (place : MbxPlace) (w : Word)
  /-- POP (R449): A write of MBX_POP removes the head message. -/
  | pop (req : Requester) (place : MbxPlace) (w : Word)
  /-- MGR_RESET (R453): A write of MBX_MGR_CTL.RESET discards every queue toward the manager and raises its epoch. -/
  | mgrReset (req : Requester) (w : Word)
  /-- MAILBOX_TIMEOUT (R451): The oldest message unread for TIMEOUT_MS sets the sender's TIMEOUT. -/
  | mailboxTimeout (m : Fin 2104) (toManager : Bool)
  /-- INJECT (R460): A write of GONG_INJECT.GO fires a source once as an injected event. -/
  | inject (req : Requester) (w : Word)
  /-- CLR_COUNTS (R461): A write of GONG_CFG.CLR_COUNTS zeroes GONG_COUNT. -/
  | clrCounts (req : Requester) (w : Word)
  /-- SEV_WRITE (R468): A write of GONG_SEV changes severities and performs the fatal action where a fatal condition is gained. -/
  | sevWrite (req : Requester) (g : Fin 32) (w : Word)
  /-- SELF_TEST_DONE (R471): A unit's self-test ends and the unit is classed transient or lasting and retired. -/
  | selfTestDone (kind : Fin 11) (unit : Nat) (pass : Bool)
  /-- STALL_DETECT (R478): A fabric request unanswered for STALL_US fires the stall source of its class. -/
  | stallDetect (cls : Fin 4) (us : Nat)
  /-- SNARE_LOAD (R521): A write of SNR_LOAD.GO copies a compiled image into Snare blocks, or is refused. -/
  | snareLoad (req : Requester) (w : Word)
  /-- SNARE_LOAD_DONE (R521): Once no packet queued under the old image remains, BUSY clears and the old blocks are freed. -/
  | snareLoadDone
  /-- VDD_AON_POWER_UP (R46): When VDD_AON comes up or recovers, the counter restarts unsynchronized, the servo enters FREERUN and the always-on fields return to their reset values. -/
  | vddAonPowerUp (uv : Nat) (straps : BitVec 9)
  /-- RAIL_RECOVERY (R511): A rail held below its reset level recovers, and the part leaves the supply reset and proceeds as from POR#. -/
  | railRecovery (rail : Fin 8) (upper : Bool) (uv : Nat) (straps : BitVec 9)
  /-- PLL_RELOCK (R83): A PLL that lost lock locks again, LOCKED reads 1 and slots made unusable by the loss may become usable at their next measurement. -/
  | pllRelock (pll : Pll)
  /-- RECOVERED_CLOCK_LOCK (R136): A port's recovered SyncE clock gains lock, RECOV_LOCK sets, and the wait-to-restore period and SyncE assist can begin. -/
  | recoveredClockLock (p : Fin 32)
  /-- REF25_IN_MISSING (R460): REF25_IN goes missing or moves more than 200 ppm from 25 MHz, and group 31 source 0 fires. -/
  | ref25InMissing
  /-- PCIE_REFCLK_MISSING (R460): A PCIE_REFCLK input in use by a link goes missing, and its group 31 source fires. -/
  | pcieRefclkMissing (n : Fin 4)
  /-- MEMORY_ECC_ERROR (R470): An ECC error in an on-chip SRAM row, a DDR row or a control-core cache line fires its Gong source and starts the self-test of that row or line. -/
  | memoryEccError (err : EccError)
  /-- DRAM_OVER_TEMPERATURE (R460): A DDR channel reports DRAM over temperature and its group 18 or 19 source fires. -/
  | dramOverTemperature (c : Fin 8)
  /-- HOST_LINK_RECOVERY (R328): A host link enters Recovery, for example on a link-level protocol error or on receiver errors, logging AER errors and possibly starting a PCIe lane test. -/
  | hostLinkRecovery (l : Fin 16) (error : LinkError) (lane : Option (Fin 64))
  /-- HOST_CONFIG_WRITE (R93): A host writes a function's configuration space, for example PTM Enable, Bus Master Enable set, the MSI-X enables or the power state. -/
  | hostConfigWrite (f : Fin 2080) (item : ConfigItem)
  /-- VOID_TAG_REUSE (R327): One completion timeout after a tag became void, the tag becomes reusable and leaves the VOID count. -/
  | voidTagReuse (l : Fin 16) (tag : Nat)
  /-- AVS_ACK (R513): The VDD_CORE regulator acknowledges an AVS request; REQUEST_MV updates and the next 5 mV step is requested. -/
  | avsAck
  /-- AVS_ACK_TIMEOUT (R513): An AVS step not acknowledged within 100 µs is requested again, and after the third failure ACK_ERR sets and the walk stops. -/
  | avsAckTimeout
  /-- LEAP_FLAG_CLEAR (R85): At the end of the inserted second, LEAP61 clears. -/
  | leapFlagClear
  /-- SMBUS_BUS_ERROR (R460): A bus error on SMBus/I3C port 0 or 1 fires its group 31 source. -/
  | smbusBusError (port : Fin 2)
  /-- UART_ERROR (R460): A UART framing or overrun error fires group 31 source 9. -/
  | uartError
  /-- MCTP_MESSAGE (R417): An MCTP message arriving on an SMBus/I3C port is taken whole, as an SPDM request or as a post to root-of-trust mailbox 2 or 3. -/
  | mctpMessage (port : Fin 2) (spdm : Bool) (msg : List Byte)
deriving DecidableEq, Repr

end Sys2Proof
end

