-- ==== Sys2Proof/Config.lean ====
section
/-! DEFINITION. What the spec leaves open: values it does not state and algorithms it takes from other standards. Each is
an opaque constant without a body, so that no proof can see what it is; a claim holds whatever it is. -/
namespace Sys2Proof.Config

/-- A free word, one for each draw (log entry 2). -/
opaque freeWord : Nat → Word

/-- A free byte string of a given length, one for each draw (log entry 2). -/
opaque freeBytes : Nat → Nat → List Byte

/-- What an algorithm of another standard (a hash, a cipher, a signature, a compressed format), named by a number, gives
for an input (log entry 21). -/
opaque algorithm : Nat → List Byte → List Byte

/-- Whether such an algorithm accepts an input: a tag or a signature verifies, a stream is well formed (log entry 21). -/
opaque accepts : Nat → List Byte → Bool

/-- The fixed permutation M of a flow-tier key under the seeds of its table (R197; log entry 22). -/
opaque flowPermutation : Nat → Nat → Nat

/-- Whether the board's thermal diode reads open or shorted when the part checks it (R516; log entry 193). -/
opaque diodeFaulty : Bool

end Sys2Proof.Config
end

