-- ==== Sys2Proof/Machine/Bits.lean ====
section
/-! DEFINITION. Bit-field, sign, byte-order and exact-arithmetic helpers. Bits are numbered little-endian, bit 0 least
significant; a field is written [hi:lo] ("Registers" of 00_scope). -/
namespace Sys2Proof.Machine

/-- Bits [hi:lo] of a number. -/
def bits (v hi lo : Nat) : Nat := (v >>> lo) % 2 ^ (hi + 1 - lo)

/-- Bit `i` of a number. -/
def bitOf (v i : Nat) : Bool := v.testBit i

/-- `v` placed at bits [hi:lo], cut to the field. -/
def place (v hi lo : Nat) : Nat := (v % 2 ^ (hi + 1 - lo)) <<< lo

/-- The mask of bits [hi:lo]. -/
def maskOf (hi lo : Nat) : Nat := (2 ^ (hi + 1 - lo) - 1) <<< lo

/-- Word `w` with bits [hi:lo] replaced by `v`. -/
def putBits (w : Word) (hi lo v : Nat) : Word :=
  (w &&& ~~~(BitVec.ofNat 64 (maskOf hi lo))) ||| BitVec.ofNat 64 (place v hi lo)

/-- Bits [hi:lo] of a word. -/
def getBits (w : Word) (hi lo : Nat) : Nat := bits w.toNat hi lo

/-- A truth value as a bit. -/
def b2n (b : Bool) : Nat := if b then 1 else 0

/-- An `n`-bit number read as two's complement. -/
def signed (n v : Nat) : Int :=
  let u := v % 2 ^ n
  if u < 2 ^ (n - 1) then (u : Int) else (u : Int) - 2 ^ n

/-- An integer as an `n`-bit two's complement number. -/
def unsigned (n : Nat) (v : Int) : Nat := (v % (2 ^ n : Int)).toNat

/-- An integer held within [lo, hi]. -/
def clampInt (v lo hi : Int) : Int := if v < lo then lo else if hi < v then hi else v

/-- A count that saturates at `hi`. -/
def satAdd (v d hi : Nat) : Nat := if v + d < hi then v + d else hi

/-- Division rounded up. -/
def ceilDiv (a b : Nat) : Nat := (a + b - 1) / b

/-- The number little-endian bytes spell. -/
def leNat : List Byte → Nat
  | [] => 0
  | b :: bs => b.toNat + 256 * leNat bs

/-- The `n` little-endian bytes of a number. -/
def natLe : Nat → Nat → List Byte
  | 0, _ => []
  | n + 1, v => BitVec.ofNat 8 v :: natLe n (v / 256)

/-- The number big-endian bytes spell. -/
def beNat (bs : List Byte) : Nat := bs.foldl (fun a b => 256 * a + b.toNat) 0

/-- The `n` big-endian bytes of a number. -/
def natBe (n v : Nat) : List Byte := (natLe n v).reverse

/-- The largest `r` of at most `n` bits with `r * r ≤ v`, bit by bit from the top. -/
def isqrtGo (v : Nat) : Nat → Nat → Nat
  | 0, r => r
  | n + 1, r => if (r + 2 ^ n) * (r + 2 ^ n) ≤ v then isqrtGo v n (r + 2 ^ n) else isqrtGo v n r

/-- The integer square root of a number below 2^512. -/
def isqrt (v : Nat) : Nat := isqrtGo v 256 0

/-- The square root rounded up. -/
def ceilSqrt (v : Nat) : Nat :=
  let r := isqrt v
  if r * r = v then r else r + 1

/-- Words of a byte list, each of eight bytes, little-endian; a short end is filled with zeros. -/
def leWords : Nat → List Byte → List Word
  | 0, _ => []
  | n + 1, bs => BitVec.ofNat 64 (leNat (bs.take 8)) :: leWords n (bs.drop 8)

/-- The little-endian bytes of a list of words. -/
def wordBytes (ws : List Word) : List Byte := ws.flatMap fun w => natLe 8 w.toNat

/-- Element `i` of a list, or `d` beyond its end. -/
def nth {α : Type} (d : α) (l : List α) (i : Nat) : α := l.getD i d

/-- The list with element `i` replaced; unchanged where `i` is beyond its end. -/
def setNth {α : Type} (l : List α) (i : Nat) (v : α) : List α := l.set i v

/-- Bytes `at` to `at + n - 1` of a list; bytes beyond its end read zero. -/
def slice (bs : List Byte) (at_ n : Nat) : List Byte :=
  let t := (bs.drop at_).take n
  t ++ List.replicate (n - t.length) 0

/-- A byte list with `new` written over the bytes from `at_` on; bytes past the end are dropped. -/
def overwrite (bs : List Byte) (at_ : Nat) (new : List Byte) : List Byte :=
  (bs.take at_ ++ new ++ bs.drop (at_ + new.length)).take bs.length

/-- The number of bits of `v` that are 1, below bit `n`. -/
def popCount (n v : Nat) : Nat := ((List.range n).filter fun i => v.testBit i).length

/-- The lowest bit below `n` that is 1. -/
def lowestBit (n v : Nat) : Option Nat := (List.range n).find? fun i => v.testBit i

/-- CRC-32C over `n` bits of `d`, least significant first, with the reflected polynomial (R247, R522). -/
def crcBits : Nat → Nat → Nat → Nat
  | 0, c, _ => c
  | n + 1, c, d =>
    let c := c ^^^ (d % 2)
    crcBits n (if c % 2 = 1 then (c / 2) ^^^ 0x82F63B78 else c / 2) (d / 2)

/-- CRC-32C(seed, bytes) of R522: no final inversion. -/
def crc32c (seed : Nat) (bs : List Byte) : Nat := bs.foldl (fun c b => crcBits 8 c b.toNat) seed

/-- Bits [hi:lo] of `v` replaced by `x`, the rest kept. -/
def setBits (v hi lo x : Nat) : Nat := v - place (bits v hi lo) hi lo + place x hi lo

/-- The ones'-complement sum of 16-bit big-endian words, folded; an odd end is padded with zero. -/
def onesSum : List Byte → Nat
  | [] => 0
  | [a] => a.toNat * 256
  | a :: b :: rest =>
    let t := onesSum rest + a.toNat * 256 + b.toNat
    t % 65536 + t / 65536

/-- The two's complement of a ones'-complement sum, as a checksum field holds it. -/
def checksum (bs : List Byte) : Nat := 0xFFFF - onesSum bs

end Sys2Proof.Machine
end

