-- ==== Sys2Proof/Machine/Store.lean ====
section
/-! DEFINITION. Sparse data by key, in one canonical form: keys strictly rising and no entry equal to what an unlisted
key reads as. Registers, memories and the tables of ports, threads, queues and connections are all held so; equal
contents are then equal data. -/
namespace Sys2Proof

/-- A sparse table from natural numbers to `α`. -/
structure Store (α : Type) where
  entries : List (Nat × α) := []
deriving DecidableEq, Repr, Inhabited

namespace Store

variable {α : Type}

/-- The value listed for a key, if one is. -/
def look : List (Nat × α) → Nat → Option α
  | [], _ => none
  | (a, v) :: rest, k => if a = k then some v else look rest k

/-- The entries without key `k`. -/
def drop (k : Nat) : List (Nat × α) → List (Nat × α)
  | [] => []
  | (a, v) :: rest => if a = k then drop k rest else (a, v) :: drop k rest

/-- The entries with key `k` bound to `v`, kept in rising order. -/
def put (k : Nat) (v : α) : List (Nat × α) → List (Nat × α)
  | [] => [(k, v)]
  | (a, w) :: rest =>
    if k < a then (k, v) :: (a, w) :: rest
    else if a = k then (k, v) :: rest
    else (a, w) :: put k v rest

/-- What key `k` reads as, where an unlisted key reads as `d`. -/
def get (d : α) (s : Store α) (k : Nat) : α := (look s.entries k).getD d

/-- Writes `v` at key `k`; writing what an unlisted key reads as removes the entry. -/
def set [DecidableEq α] (d : α) (s : Store α) (k : Nat) (v : α) : Store α :=
  if v = d then ⟨drop k s.entries⟩ else ⟨put k v s.entries⟩

/-- Applies `f` to what key `k` holds. -/
def modify [DecidableEq α] (d : α) (s : Store α) (k : Nat) (f : α → α) : Store α :=
  s.set d k (f (s.get d k))

/-- The store without the entries whose key fails `p`. -/
def keep (p : Nat → Bool) (s : Store α) : Store α := ⟨s.entries.filter fun e => p e.1⟩

/-- The keys listed. -/
def keys (s : Store α) : List Nat := s.entries.map (·.1)

/-- The values listed. -/
def vals (s : Store α) : List α := s.entries.map (·.2)

/-- Keys rise strictly. -/
def rising : List (Nat × α) → Bool
  | (a, _) :: (b, w) :: rest => decide (a < b) && rising ((b, w) :: rest)
  | _ => true

/-- The canonical form: keys strictly rising, and no entry equal to the value an unlisted key reads as. -/
def wf [DecidableEq α] (d : Nat → α) (s : Store α) : Bool :=
  rising s.entries && s.entries.all fun e => decide (e.2 ≠ d e.1)

end Store

/-- A memory of bytes: the list of (address, byte) pairs in canonical form. -/
abbrev Memory := Store Byte

/-- What a byte that nothing has written reads as. DESIGN CHOICE (log entry 3): the spec gives DDR and host memory no
contents; the model reads zero. -/
def Memory.unwritten : Byte := 0

/-- The canonical form of a memory. -/
def Memory.wf (m : Memory) : Bool := Store.wf (fun _ => Memory.unwritten) m

/-- One byte. -/
def Memory.read (m : Memory) (a : Nat) : Byte := Store.get Memory.unwritten m a

/-- Writes one byte. -/
def Memory.write (m : Memory) (a : Nat) (b : Byte) : Memory := Store.set Memory.unwritten m a b

/-- `n` bytes from `a`, lowest address first. -/
def Memory.readBytes (m : Memory) (a : Nat) : Nat → List Byte
  | 0 => []
  | n + 1 => Memory.read m a :: Memory.readBytes m (a + 1) n

/-- Writes bytes from `a` on. -/
def Memory.writeBytes (m : Memory) (a : Nat) : List Byte → Memory
  | [] => m
  | b :: bs => Memory.writeBytes (Memory.write m a b) (a + 1) bs

/-- Zeroes `n` bytes from `a`. -/
def Memory.zero (m : Memory) (a n : Nat) : Memory := Store.keep (fun k => !(a ≤ k && k < a + n)) m

end Sys2Proof
end

