-- ==== Sys2Proof/Machine/State.lean ====
section
/-! DEFINITION. The state of the block: every register and memory, everything the chapters say the part remembers besides,
and the commands waiting, first in, first out. All of it is plain data. -/
namespace Sys2Proof.Machine

/-! ## Scope and conventions (R2 to R8, R56) -/

/-- What the register fabric holds: the answer to the last read, and the holding registers of R8 and R56, one set per
requester (initiator code of R465). -/
structure BusState where
  /-- What the last read returned; none before the first read. -/
  resp : Option Word := none
  /-- High halves snapshotted by low-half reads (R8), by requester and time register. -/
  hold : Store Nat := {}
  /-- Seconds copied by a read of CAR_TIME_NSF (R56), by requester. -/
  sec : Store Nat := {}
  /-- CAR_EPS_BASE copied by a read of CAR_EPS_TIME (R56), by requester. -/
  epsBase : Store Nat := {}
  /-- CAR_EPS_GROWTH copied by a read of CAR_EPS_TIME (R56), by requester. -/
  epsGrowth : Store Nat := {}
deriving DecidableEq, Repr, Inhabited

/-! ## Modes, power and clocks (R23 to R51, R524 to R527) -/

/-- Why the part is held in NIGHT with no transition running: it is not, POR# is low (R48), a rail is below its
reset level (R46), a thermal shutdown waits for
POR# (R47), a NIGHT entered from DUSK waits for POR# (R30), or VDD_AON is below its reset level (R46). -/
inductive NightHold where
  | no | porLow | supply | thermal | dusk | aonDown
deriving DecidableEq, Repr, Inhabited

/-- The sources of device resets (R48), and the reset of VDD_AON (R46). -/
inductive ResetSource where
  | por | supply | watchdog | manager (twilight : Bool) | fatal (twilight : Bool) | thermal | dusk | aon
deriving DecidableEq, Repr

/-- The device resets performed at one AOCLK edge (R26): the edge, the sources so far, and what the first of them found: whether
register space could be reached, and whether the watchdog's second expiry was due. -/
structure ResetMeet where
  edge : Nat
  sources : List ResetSource
  reachable : Bool
  wdogDue : Bool
deriving DecidableEq, Repr

/-- What began the transition in progress (R26): the edge, its place in the order of R26, and the initiator of a request. -/
structure TransitionStart where
  edge : Nat
  rank : Nat
  init : Nat
deriving DecidableEq, Repr

/-- Mode, power and reset state that no register shows. GLB_MODE holds the mode, TRANSIT and the target (REQ). -/
structure ModeState where
  hold : NightHold := .no
  /-- The mode left on entering DUSK or MIDNIGHT, whose clocks DUSK and MIDNIGHT keep (R524). -/
  left : Nat := 1
  /-- Up-time at which DUSK was entered (R30). -/
  duskSince : Nat := 0
  /-- The 1 s event of R30 has been raised in this DUSK. -/
  duskLate : Bool := false
  /-- Up-time at which EVENING was last left (R31); none before the first time. -/
  eveningLeft : Option Nat := none
  /-- The watchdog runs its second period (R49). -/
  wdogSecond : Bool := false
  /-- Up-time from which the watchdog counts (R49). -/
  wdogSince : Nat := 0
  /-- The always-on record of a thermal shutdown, until the POR# that ends it (R527). -/
  thermalRecord : Bool := false
  /-- The always-on record of a NIGHT entered from DUSK (R527). -/
  duskRecord : Bool := false
  /-- Group 0 sources that fire when register space becomes reachable (R460): 5 thermal, 8 supply. -/
  announce : List Nat := []
  /-- POR# is low. -/
  porLow : Bool := false
  /-- The transition in progress is the automatic EVENING entry or return (R31, R32). -/
  auto : Bool := false
  /-- Ethernet lanes whose SerDes PLL is out of lock (R45). -/
  lostSerdes : List Nat := []
  /-- Supply monitors other than VDD_AON's that see their rail below its reset level (R46, R511). -/
  lowRails : List Nat := []
  /-- Supply monitors that see a sag (R41, R525). -/
  sags : List Nat := []
  /-- What began the transition in progress (R26). -/
  began : Option TransitionStart := none
  /-- The device resets of one edge (R26). -/
  met : Option ResetMeet := none
  /-- Up-time since which the three conditions of R31 have held together. -/
  idleSince : Option Nat := none
  /-- Up-time at which the wake from EVENING began (R33). -/
  wakeSince : Option Nat := none
  /-- Failures of the AVS step that waits for its acknowledgement; at 3 the walk has stopped (R513). -/
  avsFails : Nat := 0
deriving DecidableEq, Repr, Inhabited

/-! ## Gong (R460 to R482) -/

/-- A unit of the table *Units and their tests* with the TS64 of its error (R470, R471). -/
structure TestUnit where
  kind : Nat
  unit : Nat
  ts : Nat
  /-- A spare row or map entry stands in (R470). -/
  spare : Bool := false
deriving DecidableEq, Repr, Inhabited

/-- Gong state beyond its registers and memories. -/
structure GongState where
  /-- The highest fatal action gained in this step and not yet performed (R468); 0 between steps. -/
  act : Nat := 0
  running : List TestUnit := []
  waiting : List TestUnit := []
  /-- The transient table (R471). -/
  transient : List TestUnit := []
  /-- Retired units, as KIND and identifier (R473). -/
  retired : List (Nat × Nat) := []
  /-- Retirements since the last POR# or supply reset (GONG_ST_STATUS.RETIRED). -/
  retiredCount : Nat := 0
  /-- Spare rows in use per SRAM bank (R470). -/
  sramSpares : Store Nat := {}
  /-- Spare-row map entries in use per DDR channel (R470). -/
  ddrSpares : Store Nat := {}
  /-- Global sources whose unit is isolated (R468). -/
  isolated : List Nat := []
  /-- Rows, as KIND and identifier, whose copy holds words marked poisoned (R470). -/
  poisoned : List (Nat × Nat) := []
  /-- Epochs of control-core clusters 1 and 2 (R482). -/
  coreEpochs : Store Nat := {}
deriving DecidableEq, Repr, Inhabited

/-! ## Carillon (R52 to R90) -/

/-- What a grandmaster's Announce gives a PTP slot (R67, R68, R75, R86). -/
structure PtpDataset where
  priority1 : Nat := 0
  clockClass : Nat := 0
  accuracy : Nat := 0xFE
  variance : Nat := 0
  priority2 : Nat := 0
  identity : Nat := 0
  steps : Nat := 0
  utcOffset : Int := 0
  utcValid : Bool := false
  leap61 : Bool := false
  leap59 : Bool := false
deriving DecidableEq, Repr, Inhabited

/-- One source slot beyond its registers (R67 to R73). -/
structure CarSlot where
  /-- Excluded by a conflict until EN is written again (R78). -/
  excluded : Bool := false
  /-- The foreign master is qualified (R67). -/
  qualified : Bool := false
  ds : PtpDataset := {}
  /-- Device time of the last accepted measurement, 2^-32 ns. -/
  tLast : Option Nat := none
  /-- A measurement has been accepted since the slot was selected (R73). -/
  measured : Bool := false
  /-- Missing or rejected measurements in a row (R72). -/
  miss : Nat := 0
  /-- Device time from which the slot has stayed usable and better than the selected one (R69). -/
  betterSince : Option Nat := none
  /-- A PLL the slot depends on is out of lock (R83). -/
  pllLost : Bool := false
  /-- The slot's previous accepted measurement (R72). -/
  theta : Option Int := none
  /-- Device time at which the last expected measurement that came, or was counted missing, fell due (R72). -/
  seen : Option Nat := none
deriving DecidableEq, Repr, Inhabited

/-- One PPS input (R63, R64): 0 PPS_IN, 1 GNSS_PPS. -/
structure PpsInput where
  /-- The next edge is accepted without the window test. -/
  free : Bool := true
  rejected : Nat := 0
  /-- Captured time of the last accepted edge, 2^-32 ns. -/
  last : Option Nat := none
  /-- The last accepted edge was captured during a sag (R44). -/
  degraded : Bool := false
  /-- The last accepted edge has a sentence that names its second, and a measurement (R64). -/
  paired : Bool := false
  /-- A sentence has arrived within 900 ms after the last accepted edge (R64). -/
  heard : Bool := false
  /-- Event 9 has been raised for the last accepted edge (R64). -/
  told : Bool := false
  /-- TAI second a held sentence names for the next edge (R64, ASSOC = 0). -/
  held : Option Nat := none
deriving DecidableEq, Repr, Inhabited

/-- The carried bound of R77: the bound and instant at which it began, the t_last it rests on, the ADJ of the frequency
term then in force and the deviation since, all times and bounds in 2^-32 ns. -/
structure Carry where
  eps : Nat
  tC : Nat
  tLast : Nat
  adjF : Int
  dev : Int := 0
  /-- The 2 s hold of R79 runs. -/
  hold : Bool := true
deriving DecidableEq, Repr, Inhabited

/-- A frame that the MAC handed to the PTP unit (R61): its bytes, its receive timestamp in 2^-32 ns and the degraded bit. -/
structure PtpFrame where
  bytes : List Byte
  t : Int
  degraded : Bool
deriving DecidableEq, Repr, Inhabited

/-- Where a PTP message came from or goes to: its MAC address and its IP address, 0 over Ethernet. -/
structure PtpPeer where
  mac : Nat := 0
  ip : Nat := 0
deriving DecidableEq, Repr, Inhabited

/-- A foreign master heard on a port (R62, R67): its portIdentity, its address, the dataset it announces, its Announce interval in
2^-32 ns, the up-times of its last Announces, newest first, and whether the port has qualified it. -/
structure ForeignMaster where
  id : Nat
  peer : PtpPeer := {}
  ds : PtpDataset := {}
  interval : Nat := 0
  heard : List Nat := []
  qualified : Bool := false
deriving DecidableEq, Repr, Inhabited

/-- A message that waits for its answer (R62): a Delay_Req (1), a Pdelay_Req (2), a Pdelay_Resp sent that needs its Follow_Up (3),
or a request for a grant (13, `want` naming the messages, `t` the seconds asked for). -/
structure PtpRequest where
  kind : Nat
  id : Nat
  seq : Nat
  correction : Int
  t : Int
  peer : PtpPeer := {}
  want : Nat := 0
deriving DecidableEq, Repr, Inhabited

/-- A unicast grant that the port made (R60, G.8275.2): the messages granted, to whom, and the up-time at which it ends. -/
structure PtpGrant where
  kind : Nat
  id : Nat
  peer : PtpPeer
  ends : Nat
deriving DecidableEq, Repr, Inhabited

/-- One PTP port's exchange in progress (R62). -/
structure PtpPort where
  /-- The port is held off, and event 14 has been raised for it (R62). -/
  heldOff : Bool := false
  /-- Frames handed over by the MAC and not yet taken, oldest first (R61). -/
  rx : List PtpFrame := []
  /-- The foreign masters heard. -/
  masters : List ForeignMaster := []
  /-- Up-time from which the port listens. -/
  since : Nat := 0
  /-- Origin and arrival of the last Sync, 2^-32 ns: t1 (none until a Follow_Up of a two-step clock) and t2; its sequenceId,
  its correction and its interval in 2^-32 ns. -/
  t1 : Option Nat := none
  t2 : Option Nat := none
  syncSeq : Nat := 0
  syncCorr : Int := 0
  syncInterval : Nat := 0
  /-- The arrival of the last Sync carries the degraded bit. -/
  degraded : Bool := false
  /-- Departure of the last delay request, its sequenceId, and its degraded bit. -/
  t3 : Option Nat := none
  reqSeq : Nat := 0
  t3Degraded : Bool := false
  /-- Of a two-step peer delay response that waits for its Follow_Up: its receipt time at the far end, its arrival and its correction. -/
  half : Option (Int × Int × Int) := none
  /-- Mean path delay, and whether a timestamp in it carries the degraded bit (R72). -/
  delay : Option Int := none
  delayDegraded : Bool := false
  /-- t2 − t1 of the last Sync, corrected. -/
  fromMaster : Option Int := none
  /-- clockClass and clockAccuracy of the last Announce sent (R62). -/
  advertised : Option (Nat × Nat) := none
  /-- Messages sent. -/
  sent : Nat := 0
  /-- sequenceId of the next message of each type, and the up-time at which the last one went. -/
  seqs : Store Nat := {}
  lastSent : Store (Option Nat) := {}
  /-- The Sync sent that waits for its Follow_Up: its transmit timestamp and sequenceId. -/
  followUp : Option (Nat × Nat) := none
  /-- Messages that wait for an answer, oldest first. -/
  requests : List PtpRequest := []
  grants : List PtpGrant := []
deriving DecidableEq, Repr, Inhabited

/-- Carillon beyond its registers. Times and offsets are in units of 2^-32 ns, the unit of the counter's fraction. -/
structure CarState where
  /-- The counter (R52): seconds, nanoseconds and fraction as one count of 2^-32 ns. -/
  time : Nat := 0
  /-- The checker counter (R59). -/
  checker : Nat := 0
  /-- Steps accepted for the next AOCLK edge (R57). -/
  steps : List Int := []
  /-- The servo's frequency term, in units of ADJ (2^-35), exact. -/
  freq : Rat := 0
  /-- Consecutive accepted measurements within LOCK_THRESH. -/
  good : Nat := 0
  /-- Consecutive accepted measurements above LOCK_THRESH. -/
  bad : Nat := 0
  /-- A slot is selected; CAR_STATUS.SRC says which. -/
  selected : Bool := false
  slots : Store CarSlot := {}
  pps : Store PpsInput := {}
  ports : Store PtpPort := {}
  carry : Option Carry := none
  /-- t_last of the bound in force (R75). -/
  tLast : Nat := 0
  /-- Device time of the last publication (R80). -/
  published : Option Nat := none
  /-- Device time until which PPS_OUT is high (R87). -/
  ppsUntil : Nat := 0
  /-- Edges PPS_OUT has started, and the whole second of the last. -/
  ppsEdges : Nat := 0
  ppsSecond : Option Nat := none
  /-- ε_source and ε_path as CAR_EPS_PARTS last showed them, quarter-nanoseconds. -/
  parts : Nat × Nat := (0, 0)
  /-- In TWILIGHT a slot has been enabled, and the slots are used from then on (R88). -/
  slotsUsed : Bool := false
  /-- EPS_LIMIT in force, ns: a write of it acts at the next AOCLK edge (R82). -/
  limit : Nat := 1000000
  /-- CAR_UTC [18:0] as last written, in force while no PTP source gives them (R86). -/
  utcWritten : Nat := 37
  /-- TAI second of an applied insertion whose LEAP61 has not cleared (R85). -/
  leapSecond : Option Nat := none
deriving DecidableEq, Repr, Inhabited

/-! ## Bounded time (R91 to R115) -/

/-- The fields of the bounded time page of one link (R95), without SEQ's odd phase. Before its first version a page shows NO_MAP, as
R93 has it while PTM is off, no bound, and zeros: R95 gives it no contents (DESIGN CHOICE, log entry 176). -/
structure TimePage where
  seq : Nat := 0
  hostBase : Nat := 0
  tsBase : Nat := 0
  rate : Int := 0
  epsBase : Nat := 2 ^ 64 - 1
  epsGrowth : Nat := 0
  utc : Nat := 0
  status : Nat := 2 ^ 12
  horizon : Nat := 0
deriving DecidableEq, Repr, Inhabited

/-- A pair of the host-time fit (R91): PTM Master Time in 1/32 ns, the TS64 of the same instant, and its degraded bit (R44). -/
structure PtmPair where
  host : Nat
  ts : Nat
  degraded : Bool := false
deriving DecidableEq, Repr, Inhabited

/-- PTM mapping and bell state of one host link (R91 to R104). -/
structure LinkTime where
  /-- The last 64 good pairs, oldest first (R91). -/
  pairs : List PtmPair := []
  /-- Up-time of the last dialogue, and what its response took to come, in 1/16 ns, while it succeeded (R91). -/
  asked : Option Nat := none
  span : Option Nat := none
  /-- Failed dialogues in a row (R93). -/
  failed : Nat := 0
  /-- Good dialogues since NO_MAP was set (R93). -/
  good : Nat := 0
  page : TimePage := {}
  /-- Device time of the last version of the page (R96). -/
  published : Option Nat := none
  /-- The bell line has risen and its frame has not begun (R103). -/
  bell : Bool := false
  /-- Up-time of the rising edge whose line timing runs (R103). -/
  bellAt : Option Nat := none
  /-- The bell frame being sent or last sent (R104). -/
  frame : List Byte := []
  /-- Bell frames sent (R104, COUNT). -/
  frames : Nat := 0
  /-- TAI second of the last bell edge, and the ε and flags at that edge. -/
  edge : Option Nat := none
deriving DecidableEq, Repr, Inhabited

/-- A pending token request (R111 to R113). -/
structure TokenRequest where
  fn : Nat
  nonce : List Byte
  buf : Nat
  tag : Nat
  /-- The global queue and the number of the chain of a request by TX descriptor; none for a mailbox request. -/
  queue : Option (Nat × Nat)
  earliest : Nat
  latest : Nat
  flags : Nat
  utc : Nat
  /-- Discarded by a reset of its function (R113): no reply, no write. -/
  gone : Bool := false
deriving DecidableEq, Repr, Inhabited

/-- A closed batch being signed (R112, R113). -/
structure TokenBatch where
  number : Nat
  close : Nat
  leaves : List TokenRequest
deriving DecidableEq, Repr, Inhabited

/-- Time delivery beyond the CAR registers. -/
structure TimeDelivery where
  links : Store LinkTime := {}
  /-- Requests accepted and not yet in a batch, in acceptance order. -/
  waiting : List TokenRequest := []
  /-- Closed batches not yet answered, oldest first. -/
  batches : List TokenBatch := []
  /-- The millisecond of device time of the last close. -/
  lastClose : Nat := 0
deriving DecidableEq, Repr, Inhabited

/-! ## Ethernet ports (R116 to R138) -/

/-- One port beyond its registers, kept under its first lane. -/
structure PortState where
  /-- Priorities (0 to 7), and 8 for the whole port, for which XOFF is in force at the partner, with the time of the last
  XOFF sent. -/
  xoff : Store Nat := {}
  /-- Up-time until which each priority (8: the whole port) is paused by a received XOFF. -/
  paused : Store Nat := {}
  /-- Additions of R132 in force, TX and RX, 1/16 ns. -/
  addTx : Int := 0
  addRx : Int := 0
  /-- Control frames sent, oldest first: priority (8: 802.3x) and pause time. -/
  control : List (Nat × Nat) := []
  /-- The last transmit timestamp (TS64) and its degraded bit (R131). -/
  txStamp : Option (Nat × Bool) := none
  /-- Up-time since which the recovered clock has been locked (R136). -/
  recovSince : Option Nat := none
  /-- The lane is disabled by retirement (R470). -/
  retired : Bool := false
  /-- Up-time until which the port is sending a frame (R109, R110). -/
  busy : Nat := 0
  /-- The delay measurement of this link-up was out of range (R132). -/
  tsBad : Bool := false
deriving DecidableEq, Repr, Inhabited

/-! ## Frames on their way (R139 to R168, R261 to R284) -/

/-- A destination the scheduler serves (R261): a network port, a global host RX queue, an engine pool, a control core,
a pipeline re-entered, a capture ring; or the outbound
pipeline that an engine returns a packet to (R218), which no queue serves. -/
inductive Dest where
  | port (p : Nat) | rx (q : Nat) | pool (n : Nat) | core (c : Nat) | loop (p : Nat) | capture (r : Nat)
  | outbound (p : Nat)
deriving DecidableEq, Repr, Inhabited

/-- The TX chain a frame came from (R294): its global queue, the number of the chain in that queue, and whether it is the chain's
last frame. -/
structure TxRef where
  queue : Nat
  chain : Nat
  last : Bool := true
deriving DecidableEq, Repr, Inhabited

/-- The Sarup packet that a frame is (R336): its connection, its PSN, and whether it is the last of its message. -/
structure SarupRef where
  conn : Nat
  psn : Nat
  last : Bool
deriving DecidableEq, Repr, Inhabited

/-- A frame in the part. `bytes` run from the destination address, without FCS. -/
structure Packet where
  bytes : List Byte := []
  /-- PHV TS64 and its degraded bit (R141). -/
  ts : Nat := 0
  degraded : Bool := false
  /-- PHV SOURCE and QUEUE. -/
  source : Nat := 0
  queue : Nat := 0
  /-- The pipeline it is in or came through, the generation stamped, and the loop count (R152, R155). -/
  pipe : Nat := 0
  gen : Nat := 0
  loops : Nat := 0
  /-- The 512 bytes of the PHV once parsed. -/
  phv : List Byte := []
  /-- HDR_ID and exact byte offset of each header on the stack. -/
  hdrs : List (Nat × Nat) := []
  /-- Offset of the outermost IP header (R146), and the end of the last accepted header (R159). -/
  ip : Option Nat := none
  payload : Nat := 0
  /-- Ingress port and priority, while the frame counts in that port's occupancy (R125). -/
  inPort : Option (Nat × Nat) := none
  tx : Option TxRef := none
  sarup : Option SarupRef := none
  /-- HOLD and LAUNCH as TS64, 0 none (R105, R109). -/
  hold : Nat := 0
  launch : Nat := 0
  late : Bool := false
  clamped : Bool := false
  ignored : Bool := false
  /-- Security association: kind and index (R294). -/
  sa : Option (Nat × Nat) := none
  dest : Dest := .port 0
  /-- The scheduler queue it is admitted to: 8 × group + queue. -/
  l0 : Nat := 0
  /-- Egress rewrites in stage order (R275): 0 a modify program, 1 a template; and its index. -/
  rewrites : List (Nat × Nat) := []
  /-- DSCP that a yellow policer writes at egress (R280). -/
  dscp : Option Nat := none
  tsReq : Bool := false
  /-- 0 the original, 1 a copy, 2 a mirror (R263). -/
  copy : Nat := 0
  session : Nat := 0
  origLen : Nat := 0
  /-- Reorder domain and sequence number in its inbound pipeline (R162). -/
  seq : Option (Nat × Nat) := none
  /-- Device time of the final verdict, and up-time of the first table lookup. -/
  verdictAt : Nat := 0
  lookupAt : Option Nat := none
  /-- TS64 and degraded bit of the selection, for TS_KIND 1 (R300). -/
  selTs : Nat × Bool := (0, false)
  /-- Flags DEPTH_CUT and SCAN_SKIPPED (R159, R160). -/
  depthCut : Bool := false
  scanSkipped : Bool := false
deriving DecidableEq, Repr, Inhabited

/-- An entry that a lookup hit (R180): table, LOCATION, VERSION, and the key where it is a flow-tier entry. -/
structure Hit where
  table : Nat
  loc : Nat
  version : Nat
  key : List Byte := []
deriving DecidableEq, Repr, Inhabited

/-- Classification in progress: the packet and what its executed actions have gathered (R149 to R151). -/
structure Walk where
  pkt : Packet
  /-- The next stage to run; 12 once all have run. -/
  stage : Nat := 0
  /-- Whether the last executed stage hit; none while no stage has been executed. -/
  last : Option Bool := none
  hits : List Hit := []
  /-- Lookups made. -/
  lookups : Nat := 0
  /-- VERDICT in force, with DEST_KIND, DEST and PRIO of the action that set it. -/
  verdict : Nat := 0
  destKind : Nat := 0
  dest : Nat := 0
  prio : Nat := 0
  counters : List Nat := []
  /-- Policer index and METER_ONLY. -/
  policers : List (Nat × Bool) := []
  /-- Copies: COPY_KIND, COPY_DEST, PRIO. Mirrors: MIRROR_KIND, session. -/
  copies : List (Nat × Nat × Nat) := []
  mirrors : List (Nat × Nat) := []
  /-- 0 a modify program, 1 a template; and its index. -/
  rewrites : List (Nat × Nat) := []
  scan : Option Nat := none
  tsReq : Bool := false
  learn : Bool := false
  /-- Table and key of the flow-tier fetch it waits for (R198). -/
  table : Nat := 0
  key : List Byte := []
  /-- The Snare image it is scanned under, and whether it is scanned from a carried state (R161, R521). -/
  image : Nat := 0
  carry : Bool := false
deriving DecidableEq, Repr, Inhabited

/-- A place in a reorder domain (R162 to R165). -/
structure ReorderEntry where
  seq : Nat
  /-- Up-time of its deadline; none before its dispatch. -/
  deadline : Option Nat := none
  /-- The packet, once returned; it waits for those before it. -/
  ready : Option Packet := none
deriving DecidableEq, Repr, Inhabited

/-- A TCP stream that Snare carries (R161). -/
structure Stream where
  key : List Byte
  /-- Next expected sequence number. -/
  expect : Nat
  /-- A state other than the initial one is stored. -/
  carried : Bool
  lastAt : Nat
  /-- The pipeline it was last seen in. -/
  pipe : Nat
deriving DecidableEq, Repr, Inhabited

/-- A compiled image that Snare holds (R521): its number, its rule set and its blocks; the image of a rule set loaded last
is current once complete. -/
structure SnareImage where
  num : Nat
  ruleSet : Nat
  blocks : List Nat
  old : Bool := false
deriving DecidableEq, Repr, Inhabited

/-- One pipeline beyond its registers and memories. -/
structure Pipeline where
  /-- Packets waiting at each feed: 0 the octet or the engines, 1 the loopback, 2 + L host link L. -/
  feeds : Store (List Packet) := {}
  /-- The feed served last (R139). -/
  turn : Nat := 0
  /-- The miss queue (R198), and the walks whose fetch has ended. -/
  parked : List Walk := []
  resumed : List Walk := []
  /-- A packet held at the verdict for want of a reorder entry (R162). -/
  held : Option Walk := none
  /-- Next sequence number and entries in use, by domain. -/
  nextSeq : Store Nat := {}
  reorder : Store (List ReorderEntry) := {}
  /-- Sequence numbers skipped whose packets have not come back, by domain (R164). -/
  skipped : Store (List Nat) := {}
deriving DecidableEq, Repr, Inhabited

/-- A token bucket (R269, R278): its contents in 10⁻⁶ bytes as of AOCLK edge `edge`. -/
structure Bucket where
  tokens : Int := 0
  edge : Nat := 0
deriving DecidableEq, Repr, Inhabited

/-- A policer's two buckets, in 10⁻⁶ bytes as of AOCLK edge `edge` (R278). -/
structure PolicerState where
  tc : Nat := 0
  te : Nat := 0
  edge : Nat := 0
deriving DecidableEq, Repr, Inhabited

/-- A frame in the HOLD logic (R105 to R107) since a device time and an up-time, or released from it and waiting for its output. -/
structure HeldFrame where
  pkt : Packet
  since : Nat
  sinceUp : Nat := 0
  released : Bool := false
deriving DecidableEq, Repr, Inhabited

/-- The packet paths beyond registers and memories: pipelines, scheduler, Snare. -/
structure NetState where
  /-- Pipelines whose bank 1 holds the program of the boot ROM as it was loaded (R166). -/
  boot : List Nat := []
  /-- Pipelines whose bank 1 the boot ROM loaded: their registers then give how it differs from that program. -/
  rom : List Nat := []
  pipes : Store Pipeline := {}
  /-- Action entries (R150): word w of entry i of pipeline p at (p × 65,536 + i) × 4 + w. -/
  actions : Store Nat := {}
  /-- Packets that Snare scans, oldest first (R160), and its streams. -/
  snare : List Walk := []
  streams : List Stream := []
  images : List SnareImage := []
  nextImage : Nat := 1
  /-- Scheduler queues (R261), by 8 × group + queue, oldest first. -/
  queues : Store (List Packet) := {}
  /-- Deficits of L1 nodes, and of queues (R265). -/
  deficitL1 : Store Int := {}
  deficitQ : Store Int := {}
  /-- What was served last: L1 node per L2 node, group per L1 node, queue per group. -/
  lastL1 : Store Nat := {}
  lastGroup : Store Nat := {}
  lastQueue : Store Nat := {}
  shapers : Store Bucket := {}
  policers : Store PolicerState := {}
  /-- TX fetch shapers, by function (R289). -/
  fetch : Store Bucket := {}
  /-- The HOLD logic of each L2 node, in arrival order. -/
  holds : Store (List HeldFrame) := {}
  /-- The launch calendar of each port, in entry order. -/
  calendar : Store (List Packet) := {}
  /-- Frames selected for each port and not yet sent, oldest first. -/
  txq : Store (List Packet) := {}
  /-- LAUNCH of the previous frame that carried one, by scheduler queue (R110). -/
  lastLaunch : Store Nat := {}
  /-- Engine served last, by pool (R163). -/
  lastEngine : Store Nat := {}
  /-- Frames sent on each port, newest first: what the wire saw. -/
  wire : Store (List (List Byte)) := {}
deriving DecidableEq, Repr, Inhabited

/-! ## Lookup tables (R169 to R201) -/

/-- A submission to the learning unit (R188). -/
structure LearnItem where
  table : Nat
  key : List Byte
  src : Nat
  ts : Nat
deriving DecidableEq, Repr, Inhabited

/-- A line of the flow cache (R197). -/
structure CacheLine where
  key : List Byte
  action : Nat
  gen : Nat
  hit : Bool := false
deriving DecidableEq, Repr, Inhabited

/-- Tables beyond their registers. -/
structure TableState where
  /-- Table memory: block b from b × 65,536 (R169). -/
  mem : Memory := {}
  /-- Table memory of blocks 0 to 15 holds the boot ROM's tables (R182): `mem` then gives how it differs from them. -/
  rom : Bool := false
  /-- Stash entries, entry j of table t at 8t + j (R174), and one more than the subtable each belongs to; 0 is an empty place. -/
  stash : Store Nat := {}
  stashSub : Store Nat := {}
  /-- rr_way of each table, and the victim pointer of each bucket by its address (R176). -/
  rrWay : Store Nat := {}
  victim : Store Nat := {}
  /-- The learning queue (R189). -/
  learn : List LearnItem := []
  /-- Entries in the device that LEARNED marks (R189). -/
  learned : Nat := 0
  /-- The flow cache: lines of each set, most recently used first. -/
  cache : Store (List CacheLine) := {}
  /-- Keys of the flow-tier fetches outstanding (R198). -/
  fetches : List (List Byte) := []
  /-- One more than the time of the sweeper's last visit to a place, by table and place (R193). -/
  visits : Store Nat := {}
deriving DecidableEq, Repr, Inhabited

/-! ## Tabor (R202 to R260) -/

/-- What a thread does (R225 and TBE_THREAD_STATUS). -/
inductive ThreadMode where
  | idle | run
  /-- Waits in WFE, whose result goes to `rd`. -/
  | wfe (rd : Nat)
  | twait (ts : Nat)
  /-- Stalled at CHS for a credit, at CHR for a response. -/
  | chs | chr
  | faulted
  /-- Parked: waits for START_MASK and then starts at ENTRY (R205). -/
  | parked
deriving DecidableEq, Repr, Inhabited

/-- A packet slot (R212): the window from 0x0400 on, and the frame's start and length in it. -/
structure Slot where
  num : Nat
  pkt : Packet
  win : Memory := {}
  start : Nat := 0x500
  len : Nat := 0
  /-- Made by NEW (R218). -/
  made : Bool := false
  /-- Pool the packet was dispatched from and the device time of it (R432). -/
  pool : Option Nat := none
  at_ : Nat := 0
deriving DecidableEq, Repr, Inhabited

/-- A thread (R203, R231). -/
structure Thread where
  mode : ThreadMode := .idle
  halted : Bool := false
  /-- Issues one instruction and halts (STEP, R225). -/
  step : Bool := false
  g : Store Word := {}
  pc : Nat := 0
  emask : Nat := 0
  epend : Nat := 0
  tvec : Nat := 0
  tpc : Nat := 0
  cause : Nat := 0
  detail : Nat := 0
  code : Nat := 0
  taddr : Word := 0
  inTrap : Bool := false
  /-- Device time at which the timer expires (R250). -/
  timer : Option Nat := none
  scratch0 : Word := 0
  scratch1 : Word := 0
  /-- The staging buffer (R214), and CHW executed since the last CHS, to 15. -/
  staging : Store Word := {}
  staged : Nat := 0
  /-- Slots held, oldest assigned first, and the current one (R233). -/
  slots : List Slot := []
  cur : Option Nat := none
  /-- Messages awaiting a response: in memory, and in the queue. -/
  outMem : Nat := 0
  outQueue : Nat := 0
  /-- PREFETCH messages, which hold a credit and await no response (R220). -/
  prefetches : Nat := 0
  /-- What a debugger's write made of s0 (R232); none where s0 still names the thread and its epoch. -/
  ident : Option Nat := none
  /-- Unread responses, oldest first (R253). -/
  unread : List (List Word) := []
  /-- Credits and slots held of the dynamic pool (R208). -/
  dynCredits : Nat := 0
  dynSlots : Nat := 0
  /-- Up-time since which the thread has been ready, running or stalled without waiting (R223). -/
  busySince : Nat := 0
  /-- Up-time at which it halted (R225). -/
  haltAt : Nat := 0
  /-- Instructions completed since it started (R259). -/
  done : Nat := 0
deriving DecidableEq, Repr, Inhabited

/-- A message on its way to a channel's target (R214). -/
structure Msg where
  thread : Nat
  epoch : Nat
  words : List Word
  /-- The slot that a PKT operation freed at the CHS (R233). -/
  slot : Option Slot := none
deriving DecidableEq, Repr, Inhabited

/-- A response on its way back (R216). -/
structure Resp where
  thread : Nat
  epoch : Nat
  channel : Nat
  /-- Byte offset in shared (true) or local space; none for the response queue. -/
  mem : Option (Bool × Nat) := none
  words : List Word
  /-- A table entry that lands with it, and where (R219). -/
  entry : List Byte := []
  entryAt : Bool × Nat := (false, 0)
deriving DecidableEq, Repr, Inhabited

/-- A store to a DDR window that no reader but its thread sees yet (R245). -/
structure Posted where
  thread : Nat
  addr : Nat
  bytes : List Byte
deriving DecidableEq, Repr, Inhabited

/-- Engines and clusters beyond their registers. -/
structure TaborState where
  threads : Store Thread := {}
  /-- Cluster memory: instruction memory of cluster c from 2c × 2^18, data memory from (2c + 1) × 2^18. -/
  mem : Memory := {}
  msgs : List Msg := []
  resps : List Resp := []
  /-- Stores to DDR windows that are posted, oldest first. -/
  posted : List Posted := []
  /-- ECLK cycles of a cluster's engines since it entered RUNNING (R259). -/
  cycles : Store Nat := {}
  /-- One more than the up-time since which a cluster's threads have all been quiet (R226), and since which it has had no work (R227). -/
  quietSince : Store Nat := {}
  idleSince : Store Nat := {}
deriving DecidableEq, Repr, Inhabited

/-! ## Host queues (R285 to R308) -/

/-- The Sarup side of a work request that has been read and not completed (R340, R341). -/
structure SarupReq where
  op : Nat
  conn : Nat := 0
  /-- Message number of its request on the connection. -/
  msgId : Nat := 0
  addr : Nat := 0
  /-- Bytes of READ_RESP placed. -/
  placed : Nat := 0
  value : Nat := 0
  /-- First PSN and number of packets of its request. -/
  psn : Nat := 0
  count : Nat := 0
  /-- Window of a REVOKE under way. -/
  revoke : Option Nat := none
  /-- The XPT message of a request from an engine queue (R360). -/
  msg : Option Msg := none
deriving DecidableEq, Repr, Inhabited

/-- A TX chain fetched and not released (R301). -/
structure TxChain where
  id : Nat
  /-- Slot of the EOP descriptor. -/
  index : Nat
  /-- Slots the chain takes. -/
  slots : Nat
  cookie : Nat
  len : Nat
  cqe : Bool
  /-- Frames, or the token, that have not ended. -/
  left : Nat
  token : Bool := false
  status : Nat := 0
  late : Bool := false
  clamped : Bool := false
  ignored : Bool := false
  ts : Nat := 0
  degraded : Bool := false
  tsKind : Nat := 0
  batch : Nat := 0
  sarup : Option SarupReq := none
deriving DecidableEq, Repr, Inhabited

/-- A completion ring's interrupt side (R306). -/
structure RingIrq where
  armed : Bool := false
  /-- Device times at which the completions from C to P were written, oldest first. -/
  times : List Nat := []
deriving DecidableEq, Repr, Inhabited

/-- A queue pair (R287 to R306), by its global number. -/
structure QueuePair where
  state : Nat := 0
  enable : Bool := false
  refused : Bool := false
  cfg : Word := 0x6666
  irq : Word := 0x0001000000000000
  base : Store Nat := {}
  err : Nat := 0
  errIndex : Nat := 0
  rxDrops : Nat := 0
  /-- Producer and consumer indexes of the four rings, free-running modulo 65,536: TX, RX, TX and RX completion. -/
  prod : Store Nat := {}
  cons : Store Nat := {}
  /-- Chains in slot order, and the number of the next. -/
  chains : List TxChain := []
  nextChain : Nat := 0
  txIrq : RingIrq := {}
  rxIrq : RingIrq := {}
deriving DecidableEq, Repr, Inhabited

/-- One function's network side beyond its registers. -/
structure FnState where
  /-- MSI-X table: address and data of each vector, the vectors that are not masked, and the PBA. -/
  vecAddr : Store Nat := {}
  vecData : Store Nat := {}
  vecOpen : List Nat := []
  pba : List Nat := []
  /-- Vectors whose messages wait for a Secure stream (R333). -/
  ideWait : List Nat := []
  /-- The TX queue served last (R289). -/
  lastQueue : Nat := 0
deriving DecidableEq, Repr, Inhabited

/-- Host queues. -/
structure HostState where
  pairs : Store QueuePair := {}
  fns : Store FnState := {}
deriving DecidableEq, Repr, Inhabited

/-! ## Telemetry (R420 to R439) -/

/-- A flow record waiting in its block (R430), before its timestamps are coded. -/
structure FlowRec where
  key : List Byte
  packets : Nat
  bytes : Nat
  first : Nat
  last : Nat
  flags : Nat
  reason : Nat
  source : Nat
deriving DecidableEq, Repr, Inhabited

/-- A compression request on a unit (R420): unit, message. -/
structure CmpJob where
  unit : Nat
  msg : Msg
  /-- Its unit has had an uncorrectable error: it ends with FAULT (R423). -/
  fault : Bool := false
deriving DecidableEq, Repr, Inhabited

/-- A histogram's counters, and its snapshot (R433, R434). -/
structure Histogram where
  counts : Store Nat := {}
  degraded : Nat := 0
  snap : Store Nat := {}
  snapTs : Nat := 0
  snapDegraded : Nat := 0
deriving DecidableEq, Repr, Inhabited

/-- Counters of a hart (R494): mcycle in tenths of a cycle, minstret, hpmcounter3 to hpmcounter31 and mhpmevent by number, and the
local interrupt that an overflow makes pending (Sscofpmf). -/
structure Hart where
  tenths : Nat := 0
  minstret : Nat := 0
  counter : Store Nat := {}
  event : Store Nat := {}
  lcofi : Bool := false
deriving DecidableEq, Repr, Inhabited

/-- Telemetry beyond its registers. -/
structure TelState where
  /-- The counters of the control cores' harts (R494). -/
  harts : Store Hart := {}
  /-- Cached pairs of each pipeline (R425), most recently used first: index, PACKETS half, BYTES half. -/
  cache : Store (List (Nat × Nat × Nat)) := {}
  /-- The open record block, up-time of its first record, and blocks closed (R430). -/
  block : List FlowRec := []
  blockAt : Nat := 0
  blocks : Nat := 0
  hists : Store Histogram := {}
  /-- Sketch counters: counter c of row r of bank b of pipeline p at ((p × 2 + b) × 4 + r) × 65,536 + c; and N of bank b. -/
  sketch : Store Nat := {}
  total : Store Nat := {}
  /-- A clear is under way, by pipeline (R437). -/
  clearing : List Nat := []
  jobs : List CmpJob := []
  /-- Counters with a sample pending, and those whose next record carries LOST (R490, R493). -/
  samplePending : List Nat := []
  sampleLost : List Nat := []
  ringLost : Bool := false
deriving DecidableEq, Repr, Inhabited


/-! ## PCIe host links (R309 to R333) -/

/-- The errors of the table *PCIe errors* (R328). -/
inductive AerError where
  | receiver | badTlp | badDllp | replayTimeout | replayRollover | correctedInternal | advisoryNonFatal | headerOverflow
  | dataLinkProtocol | flowControlProtocol | receiverOverflow | malformedTlp | poisonedTlp | completionTimeout
  | completerAbort | unexpectedCompletion | unsupportedRequest | uncorrectableInternal | ideCheckFailed | ideMisrouted
deriving DecidableEq, Repr, Inhabited

/-- The PCIe side of one function: its configuration space as far as the chapters act on it (R93, R320 to R328). -/
structure PcieFn where
  busMaster : Bool := false
  memSpace : Bool := false
  msixEnable : Bool := false
  msixMask : Bool := false
  d3hot : Bool := false
  /-- An FLR runs (R326): up-time at which it was requested. -/
  flr : Option Nat := none
  /-- AER status: the errors logged and not cleared. -/
  aer : List AerError := []
  /-- AER mask and errors made fatal or non-fatal against their default severity. -/
  aerMask : List AerError := []
  aerSwapped : List AerError := []
  /-- AER header log: bytes of the TLP of the first uncorrectable error logged. -/
  aerHeader : List Byte := []
  /-- 10-bit and 14-bit Tag Requester Enable (R314). -/
  tag10 : Bool := false
  tag14 : Bool := false
  /-- DOE (R331): the response waiting, and DOE Error. -/
  doeResponse : List Byte := []
  doeError : Bool := false
  /-- A secured SPDM session is open on the DOE of this PF; the ML-DSA-87 signature of its last signed response (R411). -/
  spdmSession : Bool := false
  spdmSignature : List Byte := []
deriving DecidableEq, Repr, Inhabited

/-- What an outstanding read is for, so that its end reaches its user (R315). -/
inductive ReadUse where
  /-- A chain of a network queue: function and local queue. -/
  | txDescriptors (f q : Nat)
  /-- RX buffer descriptors of a global queue. -/
  | rxDescriptors (q : Nat)
  /-- A command of an NVMe submission queue. -/
  | nvmeCommand (f sq : Nat)
  /-- The source, or the page list, of a DMA COPY. -/
  | copy (m : Msg)
  /-- Data that a Sarup connection reads for its request with a PSN. -/
  | sarup (conn psn : Nat)
deriving DecidableEq, Repr, Inhabited

/-- A non-posted request outstanding on a link (R314). -/
structure HostRead where
  tag : Nat
  fn : Nat
  use : ReadUse
  issued : Nat
deriving DecidableEq, Repr, Inhabited

/-- One host link beyond its registers. -/
structure HostLink where
  /-- PERST#[L] is asserted. -/
  perst : Bool := false
  reads : List HostRead := []
  /-- Void tags and the up-time at which each became void (R327). -/
  void : List (Nat × Nat) := []
  /-- The link is taken to Detect for a lane test, or held there (R470). -/
  heldDetect : Bool := false
  /-- Lanes excluded by retirement. -/
  excluded : List Nat := []
  /-- The function whose descriptors were fetched last (R289). -/
  lastFn : Nat := 0
  /-- MSI-X messages sent, newest first: function and vector (the host's view). -/
  msix : List (Nat × Nat) := []
  /-- Flit Logging of PF 0 (R328): corrected and uncorrectable flits, and the first flit error. -/
  flitsCorrected : Nat := 0
  flitsBad : Nat := 0
  flitFirst : Option LinkError := none
deriving DecidableEq, Repr, Inhabited

/-- All links and functions. -/
structure PcieState where
  links : Store HostLink := {}
  fns : Store PcieFn := {}
deriving DecidableEq, Repr, Inhabited


/-! ## Cipher engines and root of trust (R385 to R419) -/

/-- A key as the key table holds it (R393): ALG, USE, CLUSTERS and the key bits. -/
structure KeyEntry where
  alg : Nat
  use : Nat
  clusters : Nat
  material : List Byte
deriving DecidableEq, Repr, Inhabited

/-- A request on a lookaside core (R386). -/
structure CryptoJob where
  core : Nat
  msg : Msg
  /-- The key it read; none for HASH, or where R394 lets it use none. -/
  key : Option KeyEntry := none
  /-- Its core has reported a parity error: it ends with CRYPTO_FAULT (R390). -/
  fault : Bool := false
  /-- A long GCM_DEC whose tag has verified runs its second pass (R389). -/
  second : Bool := false
deriving DecidableEq, Repr, Inhabited

/-- A certificate of the boot ROM (R409): of the Alias key, 0, or of the time-signing key, 1, with a key of P-384 or ML-DSA-87. -/
structure Cert where
  subject : Nat
  pq : Bool
  key : List Byte
  /-- Measurements 0 to 5 at its issue. -/
  tcb : List Byte
  signature : List Byte
deriving DecidableEq, Repr, Inhabited

/-- Security state beyond registers. -/
structure SecState where
  /-- The key cache, most recently used first (R392). -/
  cache : List (Nat × KeyEntry) := []
  /-- The wrapped images written under the table key in force, and what they hold. -/
  images : Store (List Byte × KeyEntry) := {}
  /-- A DELETE that waits for the operations that read the key (R395). -/
  deleting : Option Nat := none
  jobs : List CryptoJob := []
  /-- Inline cores retired: unit (0 to 7 pipelines, 8 + L host links) and core. -/
  inlineRetired : List (Nat × Nat) := []
  /-- Inline units whose next frame or TLP is lost to a parity error (R391). -/
  faulty : List Nat := []
  /-- OTP: slot hashes, SERIAL, and whether UDS has been blown whole (R402, R412). -/
  slots : Store (List Byte) := {}
  serial : Nat := 0
  udsBlown : Bool := false
  /-- Nonces of the root-of-trust mailboxes with their up-times (R416). -/
  nonces : Store (List Byte × Nat) := {}
  /-- Rejected signed commands in a row, and up-time until which signed commands are refused. -/
  rejects : Store Nat := {}
  refuseUntil : Store Nat := {}
  /-- A DEBUG_UNLOCK that takes effect at the next reset that is not POR# (R413). -/
  debugNext : Bool := false
  /-- SVN of the images in force, by manifest kind (R407). -/
  svn : Store (Option Nat) := {}
  /-- The boot ROM waits for an image by mailbox (R405). -/
  waitsImage : Bool := false
  /-- A rollback command running: counter and VALUE (R407). -/
  rollback : Option (Nat × Nat) := none
  /-- CDI_0, and the secrets of the Alias and of the time-signing keys; empty while none is held (R408, R415). -/
  cdi0 : List Byte := []
  aliasSecret : List Byte := []
  timeSecret : List Byte := []
  /-- The certificates the boot ROM issued (R409), and the owner's DeviceID certificates, of the configuration block. -/
  certs : List Cert := []
  deviceCerts : List Byte := []
  /-- The ML-DSA-87 signature of the last signed SPDM response on each MCTP port (R411). -/
  mctpSignature : Store (List Byte) := {}
  /-- Responses sent on the MCTP ports, newest first: port and message (R410). -/
  mctp : List (Nat × List Byte) := []
  /-- IDE keys of each link unit's streams: keys, by 16 × link + 2 × slot + key set. -/
  ideKeys : Store (List Byte) := {}
deriving DecidableEq, Repr, Inhabited

/-! ## Mailboxes (R447 to R457) -/

/-- A message in a mailbox queue: its words, its sender's epoch at the post, whether the token unit sent it, and the device
time of the post. -/
structure MbxMsg where
  words : List Word
  epoch : Nat := 0
  token : Bool := false
  posted : Nat := 0
deriving DecidableEq, Repr, Inhabited

/-- The sender-side flags of MBX_STATUS, and DISCARD_COUNT. -/
structure MbxFlags where
  full : Bool := false
  timeout : Bool := false
  discarded : Bool := false
  count : Nat := 0
deriving DecidableEq, Repr, Inhabited

/-- A mailbox: its queues toward the manager and toward the other end, the flags of each side as sender, the epoch of a
function at the other end, its page's MBX_CTL and staged words, and token replies that wait for room. -/
structure Mailbox where
  toMgr : List MbxMsg := []
  toFar : List MbxMsg := []
  mgr : MbxFlags := {}
  far : MbxFlags := {}
  epoch : Nat := 0
  ctl : Word := 0
  staged : Store Word := {}
  replies : List (List Word) := []
deriving DecidableEq, Repr, Inhabited


/-! ## NVMe controllers (R363 to R384) -/

/-- Where a fetched command stands (R370): an admin command being carried out, a request that waits for an event (R378), an I/O command held by the ordering rules or
for want of a cluster, one in the ready queue of a cluster, one that a thread has taken. -/
inductive NvmStage where
  | admin | event | held | ready (c : Nat) | taken (t : Nat)
deriving DecidableEq, Repr, Inhabited

/-- A fetched command without a completion (R370). -/
structure NvmCmd where
  handle : Nat
  fn : Nat
  sq : Nat
  /-- Its number among the commands fetched from its queue. -/
  num : Nat
  /-- The 64 bytes of the submission entry. -/
  bytes : List Byte
  stage : NvmStage := .held
  /-- TS64 of the fetch and its degraded bit. -/
  ts : Nat := 0
  degraded : Bool := false
  /-- Namespace index of its NSID. -/
  ns : Nat := 0
  /-- A DMA of it has failed (R371): 1 a host error, 2 a bad PRP entry. -/
  failed : Nat := 0
deriving DecidableEq, Repr, Inhabited

/-- A submission queue. -/
structure NvmSq where
  base : Nat := 0
  size : Nat := 0
  head : Nat := 0
  tail : Nat := 0
  cq : Nat := 0
  /-- Commands fetched from it. -/
  fetched : Nat := 0
deriving DecidableEq, Repr, Inhabited

/-- A completion queue. -/
structure NvmCq where
  base : Nat := 0
  size : Nat := 0
  head : Nat := 0
  tail : Nat := 0
  vector : Nat := 0
  irq : Bool := false
  /-- The phase of the pass being written. -/
  phase : Bool := true
  /-- Completions that wait for a free entry: DW0, SQ, CID, status, and TS64 and degraded bit of the fetch. -/
  waiting : List (Nat × Nat × Nat × Nat × Nat × Bool) := []
deriving DecidableEq, Repr, Inhabited

/-- A controller. -/
structure NvmCtl where
  /-- CC, AQA, ASQ and ACQ as the host wrote them. -/
  cc : Nat := 0
  aqa : Nat := 0
  asq : Nat := 0
  acq : Nat := 0
  /-- CSTS: RDY, CFS, SHST. -/
  rdy : Bool := false
  cfs : Bool := false
  shst : Nat := 0
  sqs : Store NvmSq := {}
  cqs : Store NvmCq := {}
  /-- Features by identifier, and Coalescing Disable by vector. -/
  features : Store Nat := {}
  ivc : Store Nat := {}
  /-- Error Information entries, newest first, and how many were ever made. -/
  errors : List (List Byte) := []
  errCount : Nat := 0
  /-- Changed Namespace List. -/
  changed : List Nat := []
  /-- Event types reported and not yet read (R378), and a Namespace Attribute notice that waits for a request. -/
  masked : List Nat := []
  notice : Bool := false
  /-- Submission queue served last and the commands of its burst. -/
  last : Nat := 0
  burst : Nat := 0
deriving DecidableEq, Repr, Inhabited

/-- Storage front end. -/
structure NvmState where
  ctls : Store NvmCtl := {}
  /-- Fetched commands without a completion, in fetch order. -/
  cmds : List NvmCmd := []
  /-- Ready queues by cluster: handles, oldest first. -/
  ready : Store (List Nat) := {}
  /-- Generation of each handle slot. -/
  gens : Store Nat := {}
  /-- Namespace table: word w of entry n at 4n + w. -/
  ns : Store Nat := {}
  /-- Cluster that a namespace used last, plus 1. -/
  turns : Store Nat := {}
  /-- Sum of all DIRTY counts. -/
  dirty : Nat := 0
deriving DecidableEq, Repr, Inhabited


/-! ## Sarup (R334 to R362) -/

/-- What a Sarup packet carries besides its PSN and flags of the sending (R338). -/
structure SarupBody where
  op : Nat
  msgId : Nat := 0
  off : Nat := 0
  key : Nat := 0
  imm : Option Nat := none
  ts : Option Nat := none
  /-- HOLD instant, 0 none (R108). -/
  hold : Nat := 0
  payload : List Byte := []
deriving DecidableEq, Repr, Inhabited

/-- A message being cut into packets (R343): its data lie in a function's DMA space, in DDR, or in the message itself. -/
structure SarupMsg where
  body : SarupBody
  addr : Nat := 0
  len : Nat := 0
  /-- The function whose DMA space holds the data; none for DDR. -/
  fn : Option Nat := none
  /-- The data are `body.payload`, carried in one packet. -/
  fixed : Bool := false
  /-- Bytes cut so far; a packet has been cut. -/
  cut : Nat := 0
  begun : Bool := false
  launch : Nat := 0
  tx : Option TxRef := none
deriving DecidableEq, Repr, Inhabited

/-- A packet sent and not freed (R344, R345). -/
structure SarupPkt where
  psn : Nat
  first : Bool
  last : Bool
  body : SarupBody
  launch : Nat := 0
  tx : Option TxRef := none
  /-- Times sent, and device time and up-time of the last sending. -/
  sends : Nat := 0
  sentAt : Nat := 0
  sentUp : Nat := 0
  degraded : Bool := false
  /-- It has been sent again for three higher SACKs. -/
  fast : Bool := false
  /-- RNR refusals of its message, and up-time at which the message may be sent again (R349). -/
  refusals : Nat := 0
  rnrAt : Option Nat := none
deriving DecidableEq, Repr, Inhabited

/-- A message that is to be notified (R348). -/
structure SarupNote where
  msgId : Nat
  /-- 1 WRITE_IMM, 2 SEND. -/
  kind : Nat
  /-- PSN of its LAST packet, once that has come. -/
  last : Option Nat := none
  imm : Nat := 0
  ts : Nat := 0
  degraded : Bool := false
  hdrTs : Option Nat := none
  len : Nat := 0
  start : Nat := 0
  /-- SSN of a SEND. -/
  ssn : Nat := 0
  refused : Bool := false
deriving DecidableEq, Repr, Inhabited

/-- The buffers of a SEND whose length is known (R349); none where the SEND is longer than 16 buffers can hold. -/
structure SarupSend where
  ssn : Nat
  start : Nat
  bufs : List (Nat × Nat × Nat)
deriving DecidableEq, Repr, Inhabited

/-- A connection's streams (R343 to R351). PSNs count modulo 2^32. -/
structure SarupConn where
  /-- Acknowledged base, next PSN, next MSG_ID and next SSN of the stream sent. -/
  sendBase : Nat := 0
  sendNext : Nat := 0
  msgNext : Nat := 0
  ssnNext : Nat := 0
  /-- Messages not yet cut whole, and packets sent and not freed, oldest first. -/
  msgs : List SarupMsg := []
  out : List SarupPkt := []
  /-- Receive base B, and the PSNs received at or beyond it (R346). -/
  recvBase : Nat := 0
  got : List Nat := []
  /-- Accepted packets not yet acknowledged, and up-time of the first of them. -/
  ackCount : Nat := 0
  ackSince : Nat := 0
  notes : List SarupNote := []
  /-- SSN of the next SEND to take buffers, and the SENDs that have taken theirs. -/
  ssnRecv : Nat := 0
  sends : List SarupSend := []
  /-- FLUSHes not yet answered: PSN and MSG_ID (R351). -/
  flushes : List (Nat × Nat) := []
  /-- Up-time at which QUARANTINE was entered (R334). -/
  since : Nat := 0
deriving DecidableEq, Repr, Inhabited

/-- The transport unit beyond its registers. -/
structure XptState where
  /-- Context words (table *Connection context*): word w of connection i at 8i + w; unlisted ones hold the reset value. -/
  ctx : Store Nat := {}
  conns : Store SarupConn := {}
  /-- Contexts in the cache, most recently used first (R334). -/
  cache : List Nat := []
  /-- Packets that have reached the unit, with the global queue each came through, oldest first (R337). -/
  input : List (Nat × Packet) := []
  /-- The SEND that is taking buffers of a queue, by queue: connection and SSN, plus 1. -/
  filling : Store (Nat × Nat) := {}
  /-- Work requests posted through the XPT channel, oldest first, by thread (R360). -/
  posted : Store (List Msg) := {}
  /-- Window whose WIN_REVOKE is under way. -/
  revoking : Option Nat := none
deriving DecidableEq, Repr, Inhabited


/-! ## The whole -/

/-- The part's state. -/
structure State where
  /-- Every register and directly mapped memory, by `regCode`; unlisted ones hold their reset value. -/
  regs : Store Word := {}
  bus : BusState := {}
  modes : ModeState := {}
  gong : GongState := {}
  car : CarState := {}
  td : TimeDelivery := {}
  ports : Store PortState := {}
  hl : PcieState := {}
  net : NetState := {}
  tbl : TableState := {}
  tbe : TaborState := {}
  hq : HostState := {}
  tel : TelState := {}
  sec : SecState := {}
  mbx : Store Mailbox := {}
  nvm : NvmState := {}
  xpt : XptState := {}
  /-- AOCLK edges since the always-on domain powered up (R269, R278). -/
  edges : Nat := 0
  /-- DDR, byte by byte. -/
  ddr : Memory := {}
  /-- Host memory as the part's DMA sees it: byte `a` of host link `L` at `L * 2^64 + a`. -/
  host : Memory := {}
  /-- The model's own count of free values drawn (not the spec's). -/
  free : Nat := 0
  /-- The commands that wait, first in, first out. -/
  pending : List Instr := []
deriving DecidableEq, Repr

/-- Why a step stops with a fault: no step of this block does; the type has the one reason no meaning raises. -/
inductive Fault where
  /-- Raised by no meaning. Safe. -/
  | none
deriving DecidableEq, Repr

/-- Why a step is refused. -/
inductive Refusal where
  /-- A command without a meaning, by its mnemonic; raised by arms of `exec` alone. Safe. -/
  | notModelled (mnemonic : String)
deriving DecidableEq, Repr

/-- The key of a register: name, block number `n` and repeat `i`. Different names never share a key. -/
def regCode (r : RegName) (n i : Nat) : Nat := (r.ctorIdx * 2 ^ 20 + n % 2 ^ 20) * 2 ^ 20 + i % 2 ^ 20

/-- A register's value at reset (its code line); GONG_SEV of group 0 has field 6 fixed at 0b10 (R461). -/
def resetWord (r : RegName) (_n i : Nat) : Word :=
  if r = .GONG_SEV ∧ i = 0 then 0x5555555555556555 else BitVec.ofNat 64 r.layout.reset

/-- The machine right after reset: DAWN, with the always-on and boot PLLs locked (R51, R524). -/
def State.reset : State :=
  { regs := ⟨[(regCode .PWR_PLL_STATUS 0 0, 3)]⟩ }

end Sys2Proof.Machine
end

