-- ==== Sys2Proof/Machine/Ops.lean ====
section
/-! DEFINITION. The shared operations: registers and their fields, device time, Gong (R460 to R469). -/
namespace Sys2Proof.Machine

/-- What a command's meaning answers. -/
abbrev Out := Host.Outcome State Fault Refusal

/-! ## Registers -/

/-- The word register `r` holds, in block number `n` at repeat `i`. -/
def State.raw (s : State) (r : RegName) (n : Nat := 0) (i : Nat := 0) : Word :=
  s.regs.get (resetWord r n i) (regCode r n i)

/-- The state with register `r` holding `w`. -/
def State.setRaw (s : State) (r : RegName) (n i : Nat) (w : Word) : State :=
  { s with regs := s.regs.set (resetWord r n i) (regCode r n i) w }

/-- The value of a field. -/
def State.fld (s : State) (f : Field) (n : Nat := 0) (i : Nat := 0) : Nat := getBits (s.raw f.reg n i) f.hi f.lo

/-- A one-bit field reads 1. -/
def State.isSet (s : State) (f : Field) (n : Nat := 0) (i : Nat := 0) : Bool := s.fld f n i != 0

/-- The state with a field holding `v`. -/
def State.put (s : State) (f : Field) (v : Nat) (n : Nat := 0) (i : Nat := 0) : State :=
  s.setRaw f.reg n i (putBits (s.raw f.reg n i) f.hi f.lo v)

/-- A field as two's complement. -/
def State.int (s : State) (f : Field) (n : Nat := 0) (i : Nat := 0) : Int := signed (f.hi + 1 - f.lo) (s.fld f n i)

/-- A saturating count in a field grows by `d`. -/
def State.sat (s : State) (f : Field) (d : Nat) (n : Nat := 0) (i : Nat := 0) : State :=
  s.put f (satAdd (s.fld f n i) d (2 ^ (f.hi + 1 - f.lo) - 1)) n i

/-- A 64-bit counter register grows by `d` and wraps (R138, R167 and the like). -/
def State.bump (s : State) (r : RegName) (n i : Nat) (d : Nat := 1) : State :=
  s.setRaw r n i (s.raw r n i + BitVec.ofNat 64 d)

/-- A field of a written word. -/
def wfld (w : Word) (f : Field) : Nat := getBits w f.hi f.lo

/-- The LOCK field of the block that a register belongs to, where the block has one (R4, R7). -/
def lockField : Block → Option Field
  | .GLB => some GLB_LOCK.LOCK
  | .PWR => some PWR_LOCK.LOCK
  | .CAR => some CAR_LOCK.LOCK
  | .GONG => some GONG_LOCK.LOCK
  | .SEC => some SEC_LOCK.LOCK
  | .ETH => some ETH_LOCK.LOCK
  | .HL => some HL_LOCK.LOCK
  | .PPL => some PPL_LOCK.LOCK
  | .TBC => some TBC_LOCK.LOCK
  | .SCH => some SCH_LOCK.LOCK
  | .CRY => some CRY_LOCK.LOCK
  | .CMP => some CMP_LOCK.LOCK
  | .TBL => some TBL_LOCK.LOCK
  | .NVM => some NVM_LOCK.LOCK
  | .PMC => some PMC_LOCK.LOCK
  | .XPT => some XPT_LOCK.LOCK
  | .TBE | .SNR | .DDR | .MBX | .FNC => none

/-- LOCK of the block instance of register `r` is 1. -/
def State.locked (s : State) (r : RegName) (n : Nat) : Bool :=
  match lockField r.layout.block with
  | some f => s.isSet f n
  | none => false

/-- What a write of `w` leaves in a register that holds `old` (R4): RW and WO values are set, RWL while unlocked, W1C bits
cleared and W1S bits set by ones, all else kept. -/
def mergeWrite (l : Layout) (lockd : Bool) (old w : Word) : Word :=
  let m (x : Nat) : Word := BitVec.ofNat 64 x
  let setMask := m l.rw ||| m l.wo ||| (if lockd then 0 else m l.rwl)
  ((((old &&& ~~~setMask) ||| (w &&& setMask)) &&& ~~~(w &&& m l.w1c)) ||| (w &&& m l.w1s))

/-- The bits of a register that a read returns (R4): all but WO and RSVD. -/
def readMask (l : Layout) : Word := BitVec.ofNat 64 (l.ro ||| l.rw ||| l.rwl ||| l.w1c ||| l.w1s ||| l.rc)

/-- A write by the field access types alone (R4, R7). -/
def State.writeReg (s : State) (r : RegName) (n i : Nat) (w : Word) : State :=
  s.setRaw r n i (mergeWrite r.layout (s.locked r n) (s.raw r n i) w)

/-- Words of one bank of a pipeline's banked memories (R156); other registers have none. -/
def bankWords (r : RegName) : Nat :=
  match r with
  | .PPL_PARSE_STATE | .PPL_PARSE_TRANS => 1024
  | .PPL_KEY_PROF => 512
  | .PPL_STAGE_CFG => 12
  | _ => 0

/-- A register key is of a word of pipeline `p`'s bank 1. -/
def bankOne (p k : Nat) : Bool :=
  [RegName.PPL_PARSE_STATE, .PPL_PARSE_TRANS, .PPL_KEY_PROF, .PPL_STAGE_CFG].any fun r =>
    decide (regCode r p (bankWords r) ≤ k) && decide (k < regCode r p (2 * bankWords r))

/-- Free values of the boot ROM's program: its words in bank 1. -/
def algBootProgram : Nat := 183

/-- The word that the boot ROM's program has at a place of a banked memory: free in bank 1 of a pipeline it loaded (R166), zero elsewhere. -/
def State.romWord (s : State) (r : RegName) (p i : Nat) : Word :=
  if s.net.rom.contains p && bankWords r != 0 && i / bankWords r == 1 then
    BitVec.ofNat 64 (leNat (slice (Config.algorithm algBootProgram (natLe 8 (regCode r p i))) 0 8)) &&& BitVec.ofNat 64 (r.layout.rw)
  else 0

/-- A word of a pipeline's banked memories. -/
def State.progWord (s : State) (r : RegName) (p i : Nat) : Word := s.raw r p i ^^^ s.romWord r p i

/-- The RC fields of a register cleared after a read (R4, R6). -/
def State.clearRc (s : State) (r : RegName) (n i : Nat) : State :=
  s.setRaw r n i (s.raw r n i &&& ~~~(BitVec.ofNat 64 r.layout.rc))

/-! ## Modes -/

/-- The mode codes of R23. -/
def NIGHT : Nat := 0
def DAWN : Nat := 1
def DAY : Nat := 2
def NOON : Nat := 3
def EVENING : Nat := 4
def DUSK : Nat := 5
def TWILIGHT : Nat := 6
def MIDNIGHT : Nat := 7

/-- The current mode (R23). -/
def State.mode (s : State) : Nat := s.fld GLB_MODE.MODE

/-- DAY, NOON or EVENING: full service or deep idle. -/
def State.inService (s : State) : Bool := s.mode == DAY || s.mode == NOON || s.mode == EVENING

/-! ## Device time (R9, R52 to R55) -/

/-- Units of the counter in a nanosecond. -/
def perNs : Nat := 2 ^ 32
/-- Units of the counter in a second. -/
def perSec : Nat := 2 ^ 32 * 1000000000
/-- Units of the counter in a TS64 unit, a quarter-nanosecond. -/
def perQuarter : Nat := 2 ^ 30
/-- Units of the counter in 62.5 ps (R55). -/
def perPhase : Nat := 2 ^ 28

/-- Device time at the last AOCLK edge, in units of 2^-32 ns. -/
def State.now (s : State) : Nat := s.car.time

/-- Time since the always-on domain powered up, in the same units: 8 ns an AOCLK edge. Intervals are measured with it, since a step moves
device time and not it (log entry 47). -/
def State.up (s : State) : Nat := s.edges * (8 * perNs)

/-- TS64 of an instant: the floor in quarter-nanoseconds, 64 bits (R54). -/
def ts64Of (t : Nat) : Nat := t / perQuarter % 2 ^ 64

/-- TS64 of device time. -/
def State.ts64 (s : State) : Nat := ts64Of s.now

/-- Whole TAI seconds of device time. -/
def State.seconds (s : State) : Nat := s.now / perSec

/-- An instant `phase` × 62.5 ps after the last AOCLK edge (R55). -/
def State.at (s : State) (phase : Nat) : Nat := s.now + phase * perPhase

/-- `ms` milliseconds in units of the counter. -/
def ofMs (ms : Nat) : Nat := ms * 1000000 * perNs
/-- `us` microseconds in units of the counter. -/
def ofUs (us : Nat) : Nat := us * 1000 * perNs

/-- A sag is active on one of the rails of R44 common to every capture: VDD_CORE, VDD_SRAM or VDD_AON. -/
def State.sagCommon (s : State) : Bool := bits (s.fld PWR_SAG_STATUS.WARN_NOW) 2 0 != 0

/-- A timestamp captured now by an Ethernet SerDes carries the degraded bit (R44). -/
def State.sagEth (s : State) : Bool := s.sagCommon || bitOf (s.fld PWR_SAG_STATUS.WARN_NOW) 3

/-- A timestamp captured now by a PCIe SerDes carries the degraded bit (R44). -/
def State.sagPcie (s : State) : Bool := s.sagCommon || bitOf (s.fld PWR_SAG_STATUS.WARN_NOW) 4

/-! ## Requesters and functions -/

/-- Initiator code of a requester (R465). -/
def codeOf : Requester → Nat
  | .thread t => t
  | .function f => 0x400 + f
  | .hart h => 0xC20 + h
  | .jtag => 0xC51

/-- Initiator codes of the part's own units (R465). -/
def initCarillon : Nat := 0xC48
def initSec : Nat := 0xC49
def initTables : Nat := 0xC4A
def initSched : Nat := 0xC4B
def initXpt : Nat := 0xC4C
def initNvm : Nat := 0xC4D
def initCrypto : Nat := 0xC4E
def initCmp : Nat := 0xC4F
def initSnare : Nat := 0xC50
def initGong : Nat := 0xC52
def initNone : Nat := 0xFFF

/-- Link `l` exists (R309). -/
def State.linkExists (s : State) (l : Nat) : Bool := s.fld HL_LINK_CFG.WIDTH l != 0

/-- VF ceiling of a PF (R319): VF_NET for the network PF `2L`, VF_NVME for the NVMe PF `2L + 1`; 0 where the link does
not exist. -/
def State.vfCeiling (s : State) (pf : Nat) : Nat :=
  if s.linkExists (pf / 2) then
    s.fld (if pf % 2 = 0 then HL_LINK_CFG.VF_NET else HL_LINK_CFG.VF_NVME) (pf / 2)
  else 0

/-- base(f) of R319: the ceilings of all PFs below. -/
def State.vfBase (s : State) (pf : Nat) : Nat := ((List.range pf).map s.vfCeiling).sum

/-- The PF a function belongs to (R285, R319): itself for a PF; none for a pool VF that belongs to no PF. -/
def State.pfOf (s : State) (f : Nat) : Option Nat :=
  if f < 32 then some f
  else (List.range 32).find? fun pf => s.vfBase pf ≤ f - 32 && f - 32 < s.vfBase pf + s.vfCeiling pf

/-- The host link of a function. -/
def State.linkOf (s : State) (f : Nat) : Option Nat := (s.pfOf f).map (· / 2)

/-- The functions of PF `pf`: itself and the VFs of its ceiling. -/
def State.fnsOfPf (s : State) (pf : Nat) : List Nat :=
  pf :: (List.range (s.vfCeiling pf)).map fun k => 32 + s.vfBase pf + k

/-- Every function of host link `l`. -/
def State.fnsOfLink (s : State) (l : Nat) : List Nat := s.fnsOfPf (2 * l) ++ s.fnsOfPf (2 * l + 1)

/-- The number of a VF within its PF, counted from 0. -/
def State.vfNumber (s : State) (f : Nat) : Nat :=
  match s.pfOf f with
  | some pf => f - 32 - s.vfBase pf
  | none => 0

/-- A function is an NVMe function: an NVMe PF or a VF of one. -/
def State.isNvmeFn (s : State) (f : Nat) : Bool :=
  match s.pfOf f with
  | some pf => pf % 2 == 1
  | none => false

/-- VF Enable of a PF. -/
def State.vfEnabled (s : State) (pf : Nat) : Bool :=
  s.isSet (if pf % 2 = 0 then HL_SRIOV_STATUS.VFE_NET else HL_SRIOV_STATUS.VFE_NVME) (pf / 2)

/-- NumVFs of a PF. -/
def State.numVfs (s : State) (pf : Nat) : Nat :=
  s.fld (if pf % 2 = 0 then HL_SRIOV_STATUS.NUMVFS_NET else HL_SRIOV_STATUS.NUMVFS_NVME) (pf / 2)

/-- The PCIe side of a function. -/
def State.pcie (s : State) (f : Nat) : PcieFn := s.hl.fns.get {} f

/-- Updates the PCIe side of a function. -/
def State.onPcie (s : State) (f : Nat) (g : PcieFn → PcieFn) : State :=
  { s with hl := { s.hl with fns := s.hl.fns.modify {} f g } }

/-- A host link's state. -/
def State.hlink (s : State) (l : Nat) : HostLink := s.hl.links.get {} l

/-- Updates a host link's state. -/
def State.onLink (s : State) (l : Nat) (g : HostLink → HostLink) : State :=
  { s with hl := { s.hl with links := s.hl.links.modify {} l g } }

/-! ## Gong (R460 to R469) -/

/-- The severity of source `src` of group `g`; group 0 source 6 is fixed at non-fatal (R461). -/
def State.severity (s : State) (g src : Nat) : Nat :=
  if g = 0 ∧ src = 6 then 2 else s.fld (GONG_SEV.SEV src) 0 g

/-- The field of GONG_COUNT of a global source. -/
def countField (src : Nat) : Field := ⟨.GONG_COUNT, 16 * (src % 4) + 15, 16 * (src % 4)⟩

/-- The rank of an event among those of its cycle (R464): by severity, then the lowest source; an access flag comes after every source of
its severity. -/
def eventRank (sev src : Nat) (access : Bool) : Nat := 64 * sev + (if access then 0 else 32 - src)

/-- The record of group `g` holds an event of this cycle, an AOCLK edge, that the new event outranks (R464, log entry 160). -/
def State.outranks (s : State) (g src : Nat) (access : Bool) (sev : Nat) : Bool :=
  s.raw .GONG_FIRST_TS 0 g == BitVec.ofNat 64 s.ts64 &&
    decide (eventRank (s.fld GONG_FIRST_INFO.SEV 0 g) (s.fld GONG_FIRST_INFO.SOURCE 0 g) (s.isSet GONG_FIRST_INFO.ACCESS 0 g) < eventRank sev src access)

/-- The first-error record of group `g` takes an event, or MORE grows (R464). -/
def State.firstError (s : State) (g src : Nat) (access : Bool) (sev init typ addr : Nat) : State :=
  if s.isSet GONG_FIRST_INFO.VALID 0 g && !s.outranks g src access sev then s.sat GONG_FIRST_INFO.MORE 1 0 g
  else
    let more := if s.isSet GONG_FIRST_INFO.VALID 0 g then satAdd (s.fld GONG_FIRST_INFO.MORE 0 g) 1 (2 ^ 32 - 1) else 0
    let info := place 1 0 0 + place src 5 1 + place (b2n access) 6 6 + place sev 8 7 + place init 20 9 + place typ 23 21 + place more 63 32
    ((s.setRaw .GONG_FIRST_INFO 0 g (BitVec.ofNat 64 info)).setRaw .GONG_FIRST_ADDR 0 g (BitVec.ofNat 64 addr)).setRaw
      .GONG_FIRST_TS 0 g (BitVec.ofNat 64 s.ts64)

/-- The sources that the table *Isolation* names (R468), by group and source. -/
def isolates (g src : Nat) : Bool :=
  (14 ≤ g && g ≤ 17) || (g == 20 && (src ≤ 7 || (16 ≤ src && src ≤ 23))) || (g == 22 && src ≤ 15) ||
  (g == 23 && src ≤ 7) || (g == 28 && (src == 1 || src == 2 || src == 4 || src == 5))

/-- Group `g` gains a fatal condition (R468): its action is noted, to be performed when the step ends. An access flag
names no unit, so action 0b01 acts as 0b00 for it. A control-core cluster that is so held in reset takes its next epoch (R482). -/
def State.gainFatal (s : State) (g src : Nat) (access : Bool) : State :=
  let act := s.fld (GONG_FATAL_ACT.ACT g)
  if act = 1 then
    if access || !isolates g src then s
    else
      { s with gong := { s.gong with
        isolated := s.gong.isolated ++ [32 * g + src]
        coreEpochs := if g = 28 then s.gong.coreEpochs.modify 0 (if src < 3 then src else src - 3) fun e => (e + 1) % 16 else s.gong.coreEpochs } }
  else { s with gong := { s.gong with act := max s.gong.act act } }

/-- An error is logged in a function's AER, once (R328). -/
def State.logAer (s : State) (f : Nat) (e : AerError) : State :=
  s.onPcie f fun p => if e ∈ p.aer then p else { p with aer := p.aer ++ [e] }

/-- A fatal event of group `g` logs Uncorrectable Internal Error (R469): in PF 0 of the host link of the source, or of
every existing link while AER_ALL is 1. -/
def State.fatalAer (s : State) (g src : Nat) : State :=
  if 6 ≤ g ∧ g ≤ 9 then
    let l := 4 * (g - 6) + src / 8
    if s.linkExists l then s.logAer (2 * l) .uncorrectableInternal else s
  else if s.isSet GONG_CFG.AER_ALL then
    (List.range 16).foldl (fun t l => if t.linkExists l then t.logAer (2 * l) .uncorrectableInternal else t) s
  else s

/-- Source `src` of group `g` fires (R460, R461): it is counted; unless masked, its status bit is set and the
first-error record takes it; at fatal severity the group may gain a fatal condition (R468) and AER is logged (R469). -/
def State.fire (s : State) (g src : Nat) (addr : Nat := 0) (init : Nat := initNone) (typ : Nat := 0) : State :=
  let s := s.sat (countField (32 * g + src)) 1 0 ((32 * g + src) / 4)
  let sev := s.severity g src
  if sev = 0 then s
  else
    let was := bitOf (s.fld GONG_STATUS.SRC 0 g) src
    let s := (s.put ⟨.GONG_STATUS, src, src⟩ 1 0 g).firstError g src false sev init typ addr
    if sev = 3 then
      let s := s.fatalAer g src
      if was then s else s.gainFatal g src false
    else s

/-- The access-flag group of a device register address's block (R523). -/
def State.accessGroup (s : State) (b : Option (Block × Nat)) : Nat :=
  match b with
  | some (.GLB, _) | some (.PWR, _) | some (.GONG, _) => 0
  | some (.CAR, _) => 1
  | some (.ETH, n) => 2 + n / 8
  | some (.HL, n) => 6 + n / 4
  | some (.FNC, f) => match s.linkOf f with
    | some l => 6 + l / 4
    | none => 26
  | some (.PPL, p) => 10 + p / 2
  | some (.TBE, e) => 14 + e / 32
  | some (.TBC, c) => 14 + c / 4
  | some (.DDR, c) => 18 + c / 4
  | some (.CRY, _) => 20
  | some (.CMP, _) => 22
  | some (.SNR, _) => 23
  | some (.TBL, _) => 24
  | some (.SCH, _) => 25
  | some (.PMC, _) => 26
  | some (.NVM, _) | some (.XPT, _) => 27
  | some (.SEC, _) => 29
  | some (.MBX, _) => 30
  | none => 26

/-- The block and the instance an address falls in (R518); none for a reserved range. -/
def blockAt (addr : Nat) : Option (Block × Nat) :=
  (Block.all.find? fun b =>
    let (base, n, st) := b.place
    base ≤ addr && addr < base + n * st).map fun b =>
      let (base, _, st) := b.place
      (b, (addr - base) / st)

/-- The repeat index an offset within an instance has in a register: the digits of the repeats, outermost first. -/
def indexIn : List (Nat × Nat) → Nat → Nat → Option Nat
  | [], d, i => if d = 0 then some i else none
  | (n, st) :: rest, d, i => if d / st < n then indexIn rest (d % st) (i * n + d / st) else none

/-- A register that only instance 0 of its block has: in the others it reads zero and ignores writes (R136, R157). -/
def onlyFirst (r : RegName) : Bool := r == .PPL_GEN_GLOBAL || r == .ETH_SYNCE_SEL

/-- The register at a device register address (R3, R518): its name, block number and repeat. -/
def regAt (addr : Nat) : Option (RegName × Nat × Nat) :=
  match blockAt addr with
  | none => none
  | some (b, n) =>
    let (base, _, st) := b.place
    let off := (addr - base) % st
    RegName.all.findSome? fun r =>
      let l := r.layout
      if l.block = b ∧ l.off ≤ off then (indexIn l.dims (off - l.off) 0).map fun i => (r, n, i) else none

/-- The offset of a repeat index within the instance. -/
def offsetOf : List (Nat × Nat) → Nat → Nat
  | [], _ => 0
  | (n, st) :: rest, i =>
    let inner := (rest.map (·.1)).prod
    (i / inner % n) * st + offsetOf rest (i % inner)

/-- The device register address of a register (R3). -/
def addrOf (r : RegName) (n i : Nat) : Nat :=
  let (base, _, st) := r.layout.block.place
  base + n * st + r.layout.off + offsetOf r.layout.dims i

/-- How many repeats a register has. -/
def repeats (r : RegName) : Nat := (r.layout.dims.map (·.1)).prod

/-- A register named by name, block number and repeat exists. -/
def regExists (r : RegName) (n i : Nat) : Bool := n < r.layout.block.place.2.1 && i < repeats r

/-- The place of the addressed link among those of its group; 0 outside the groups of the host links (R469, R523). -/
def State.accessLink (s : State) (b : Option (Block × Nat)) : Nat :=
  match b with
  | some (.HL, n) => n % 4
  | some (.FNC, f) => ((s.linkOf f).getD 0) % 4
  | _ => 0

/-- An ineffective register access (R2, R463, R519) sets the flag of its block's group with the severity of GONG_ACCESS.SEV. -/
def State.accessError (s : State) (req : Requester) (addr : Nat) (write : Bool) : State :=
  let g := s.accessGroup (blockAt addr)
  let sev := s.fld GONG_ACCESS.SEV
  if sev = 0 then s
  else
    let was := bitOf (s.fld GONG_ACCESS.FLAG) g
    let s := (s.put ⟨.GONG_ACCESS, g, g⟩ 1).firstError g 0 true sev (codeOf req) (if write then 2 else 1) addr
    if sev = 3 then
      let s := s.fatalAer g (8 * s.accessLink (blockAt addr))
      if was then s else s.gainFatal g 0 true
    else s

/-- A status bit of a severity at or above `sev` is set. -/
def State.statusAtLeast (s : State) (sev : Nat) : Bool :=
  (List.range 32).any fun g => (List.range 32).any fun src =>
    bitOf (s.fld GONG_STATUS.SRC 0 g) src && decide (sev ≤ s.severity g src)

/-- FAULT# is asserted (R467, R47). -/
def State.faultPin (s : State) : Bool :=
  s.statusAtLeast 3 ||
  (s.fld GONG_ACCESS.FLAG != 0 && s.fld GONG_ACCESS.SEV == 3) ||
  ((List.range 32).any fun g => s.isSet GONG_FIRST_INFO.VALID 0 g && s.fld GONG_FIRST_INFO.SEV 0 g == 3) ||
  s.modes.hold == .thermal

/-- The Gong interrupt level (R466). -/
def State.gongIrq (s : State) : Bool :=
  s.statusAtLeast 2 || (s.fld GONG_ACCESS.FLAG != 0 && decide (2 ≤ s.fld GONG_ACCESS.SEV))

/-- GONG_CFG.TARGET, values above 23 acting as 0. -/
def State.gongTarget (s : State) : Nat := if 23 < s.fld GONG_CFG.TARGET then 0 else s.fld GONG_CFG.TARGET

/-- GONG_STATUS_SUM as it reads. -/
def State.statusSum (s : State) : Nat :=
  ((List.range 32).filter fun g => s.fld GONG_STATUS.SRC 0 g != 0).foldl (fun a g => a + 2 ^ g) 0 +
  place (b2n (s.fld GONG_ACCESS.FLAG != 0)) 32 32 +
  place (b2n ((List.range 32).any fun g => (List.range 32).any fun src =>
    bitOf (s.fld GONG_STATUS.SRC 0 g) src && s.severity g src == 2)) 33 33 +
  place (b2n (s.statusAtLeast 3)) 34 34 + place (b2n s.faultPin) 35 35

/-- A free word is drawn: its index is used up. -/
def State.drawn (s : State) : State := { s with free := s.free + 1 }

end Sys2Proof.Machine
end

