-- ==== Sys2Proof/Machine/CarOps.lean ====
section
/-! DEFINITION. Carillon's shared operations: the bound ε (R75 to R83), the choice of a source (R67 to R69), the servo's
states (R70, R71) and what a measurement does (R72, R73, R78). Times, offsets and bounds are in units of 2^-32 ns. -/
namespace Sys2Proof.Machine

/-! ## Servo states -/

/-- The servo states of R70. -/
def FREERUN : Nat := 0
def ACQUIRE : Nat := 1
def LOCKED : Nat := 2
def HOLDOVER : Nat := 3

/-- The servo state. -/
def State.servo (s : State) : Nat := s.fld CAR_STATUS.STATE
/-- HELD: Carillon holds a bound. -/
def State.held (s : State) : Bool := s.isSet CAR_STATUS.HELD

/-- A Carillon event (R89). -/
def State.carEvent (s : State) (e : Nat) : State := s.fire 1 e 0 initCarillon

/-- A slot's state. -/
def State.slot (s : State) (n : Nat) : CarSlot := s.car.slots.get {} n

/-- Updates a slot's state. -/
def State.onSlot (s : State) (n : Nat) (g : CarSlot → CarSlot) : State :=
  { s with car := { s.car with slots := s.car.slots.modify {} n g } }

/-- Carillon uses its own two inputs in place of the slots (R88): in DAWN, and in TWILIGHT until a slot has been enabled. -/
def State.dawnInputs (s : State) : Bool := s.mode == DAWN || (s.mode == TWILIGHT && !s.car.slotsUsed)

/-- In TWILIGHT the slots are used from the moment one is enabled (R88). -/
def State.latchSlots (s : State) : State :=
  { s with car := { s.car with
    slotsUsed := s.mode == TWILIGHT && (s.car.slotsUsed || (List.range 8).any fun n => s.isSet CAR_SRC_CFG.EN 0 n) } }

/-- KIND of a slot in force: 0 PTP, 1 GNSS, 2 PPS_IN, 3 none (R88: in DAWN slot 0 is GNSS and slot 1 PPS_IN). -/
def State.slotKind (s : State) (n : Nat) : Nat :=
  if s.dawnInputs then (if n = 0 then 1 else if n = 1 then 2 else 3) else s.fld CAR_SRC_CFG.KIND 0 n

/-- EN of a slot in force. -/
def State.slotEn (s : State) (n : Nat) : Bool :=
  if s.dawnInputs then
    (if n = 0 then s.isSet CAR_GNSS_PPS.EN else if n = 1 then s.isSet CAR_PPS_IN.EN else false)
  else s.isSet CAR_SRC_CFG.EN 0 n

/-- PRIORITY of a slot in force. -/
def State.slotPriority (s : State) (n : Nat) : Nat := if s.dawnInputs then n else s.fld CAR_SRC_CFG.PRIORITY 0 n

/-- LOCK_THRESH in force: 2 µs on the inputs of DAWN (R88). -/
def State.lockThresh (s : State) : Nat := (if s.dawnInputs then 2000 else s.fld CAR_SERVO_CFG.LOCK_THRESH) * perNs

/-- LOCK_COUNT, 0 acting as 1. -/
def State.lockCount (s : State) : Nat := max 1 (s.fld CAR_SERVO_CFG.LOCK_COUNT)

/-- LOSS_N, 0 acting as 1. -/
def State.lossN (s : State) : Nat := max 1 (s.fld CAR_SERVO_CFG.LOSS_N)

/-! ## ε -/

/-- Upper edge of the range a clockAccuracy value names, in femtoseconds; none where IEEE 1588 gives no upper edge.
PRESUMED (log entry 20): the encoding is IEEE 1588-2019's, 1 ps, 2.5 ps, 10 ps, 25 ps and so on to 1 s, then 10 s. -/
def accuracyFs (a : Nat) : Option Nat :=
  if a < 0x17 ∨ 0x30 < a then none
  else if a = 0x30 then some (10 ^ 16)
  else some ((if a % 2 = 1 then 1000 else 2500) * 10 ^ ((a - 0x17) / 2))

/-- ε_source of a slot (R75); none where it cannot be determined. -/
def State.epsSource (s : State) (n : Nat) : Option Nat :=
  if s.dawnInputs then some (4000 * perQuarter)
  else
    let budget := s.fld CAR_SRC_BUDGET.BUDGET 0 n * perQuarter
    if s.slotKind n = 0 then
      let declared := (accuracyFs (s.slot n).ds.accuracy).map fun fs =>
        ceilDiv (fs * perNs) 1000000 + (s.slot n).ds.steps * s.fld CAR_SRC_BUDGET.HOP_BUDGET 0 n * perQuarter
      match s.fld CAR_SRC_CFG.EPS_MODE 0 n with
      | 0 => declared
      | 1 => some budget
      | _ => declared.map fun d => max d budget
    else some budget

/-- The larger of PATH and FLOOR of a slot (R75); FLOOR on the inputs of DAWN (R88). -/
def State.pathFloor (s : State) (n : Nat) : Nat :=
  let floor := s.fld CAR_GRADE_FLOOR.FLOOR
  (if s.dawnInputs then floor else max (s.fld CAR_SRC_PATH.PATH 0 n) floor) * perQuarter

/-- ε_path of a slot: PATH or FLOOR, plus the magnitude of the last accepted θ (R75). -/
def State.epsPath (s : State) (n : Nat) : Nat := s.pathFloor n + (s.int CAR_LAST_MEAS.THETA).natAbs * perQuarter

/-- R, A and W in register units (R84, R528). -/
def State.oscillator (s : State) : Nat × Nat × Nat :=
  match s.fld CAR_OSC.CLASS with
  | 0 => (s.fld CAR_OSC_R.R, s.fld CAR_OSC_A.A, s.fld CAR_OSC_W.W)
  | 1 => (10000, 11574, 10000)
  | 2 => (100000, 115741, 50000)
  | 3 => (1000000, 1157407, 200000)
  | 4 => (10000000, 11574074, 1000000)
  | _ => (100000000, 115740741, 5000000)

/-- The rate and aging parts of ε_osc after `d`: R × d + ½ × A × d², rounded up. -/
def State.oscRate (s : State) (d : Nat) : Nat :=
  let (r, a, _) := s.oscillator
  ceilDiv (d * r) (10 ^ 15) + ceilDiv (a * d * d) (2 * 10 ^ 21 * perSec)

/-- The wander part of ε_osc: W × √d, rounded up. -/
def State.oscWander (s : State) (d : Nat) : Nat :=
  let (_, _, w) := s.oscillator
  ceilSqrt (ceilDiv (w * w * d * perNs) (10 ^ 21))

/-- ε_osc after `d` (R75). -/
def State.epsOsc (s : State) (d : Nat) : Nat := s.oscRate d + s.oscWander d

/-- The selected slot. -/
def State.selected (s : State) : Option Nat := if s.car.selected then some (s.fld CAR_STATUS.SRC) else none

/-- ε_fresh at `t`: the value of R75 for the selected slot; it exists only in LOCKED (R77). -/
def State.epsFresh (s : State) (t : Nat) : Option Nat :=
  if s.servo = LOCKED then
    match s.selected with
    | some n => (s.epsSource n).map fun e => e + s.epsPath n + s.epsOsc (t - s.car.tLast)
    | none => none
  else none

/-- The carried bound at `t` (R77). -/
def State.carryAt (s : State) (c : Carry) (t : Nat) : Nat :=
  c.eps + (s.epsOsc (t - c.tLast) - s.epsOsc (c.tC - c.tLast)) + c.dev.natAbs

/-- Published ε at `t` while HELD is 1: the smaller of ε_fresh and ε_carry (R77). -/
def State.epsAt (s : State) (t : Nat) : Option Nat :=
  if s.held then
    match s.epsFresh t, s.car.carry with
    | some f, some c => some (min f (s.carryAt c t))
    | some f, none => some f
    | none, some c => some (s.carryAt c t)
    | none, none => none
  else none

/-- Published ε now. -/
def State.eps (s : State) : Option Nat := s.epsAt s.now

/-- ε in quarter-nanoseconds, rounded up. -/
def quarters (e : Nat) : Nat := ceilDiv e perQuarter

/-- earliest, in units of 2^-32 ns, while a bound is held (R105). -/
def State.earliest (s : State) : Option Int := s.eps.map fun e => (s.now : Int) - (e : Int)

/-- The frequency term as an ADJ value (R73): truncated toward zero and held within the limits of R53. -/
def adjOf (f : Rat) : Int := clampInt (if 0 ≤ f then f.floor else f.ceil) (-3435973) 3435973

/-- ADJ in force. -/
def State.adj (s : State) : Int := s.int CAR_ADJ.ADJ

/-- Sets ADJ from an exact value, clamped; a value beyond the limit raises event 12 (R53). -/
def State.setAdj (s : State) (f : Rat) : State :=
  let t : Int := if 0 ≤ f then f.floor else f.ceil
  let s := s.put CAR_ADJ.ADJ (unsigned 32 (adjOf f))
  if t < -3435973 ∨ 3435973 < t then s.carEvent 12 else s

/-- The modes in which the bound is published (R16). -/
def publishMode (m : Nat) : Bool := m == DAWN || m == DAY || m == NOON || m == EVENING || m == TWILIGHT

/-- Whether the bound is published (R76, R88). -/
def State.publishes (s : State) : Bool :=
  s.held && publishMode s.mode &&
  !(s.dawnInputs && !((List.range 2).any fun n => s.isSet CAR_SRC_STATUS.USABLE 0 n))

/-! ## Publication (R80) -/

/-- CAR_EPS_BASE at `t` before rounding (R80): the slot's terms, or those of the carried bound, with two seconds of wander
ahead. -/
def State.baseAt (s : State) (t : Nat) : Option Nat :=
  let ahead (tLast : Nat) : Nat := s.oscRate (t - tLast) + s.oscWander (t - tLast + 2 * perSec)
  match s.isSet CAR_STATUS.CARRY, s.car.carry with
  | true, some c => some (c.eps + ahead c.tLast - s.epsOsc (c.tC - c.tLast) + c.dev.natAbs)
  | _, _ => match s.selected with
    | some n => (s.epsSource n).map fun e => e + s.epsPath n + ahead s.car.tLast
    | none => none

/-- CAR_EPS_GROWTH at `t`, in 2^-32 quarter-nanoseconds per second, rounded up (R80). -/
def State.growthAt (s : State) (t : Nat) : Nat :=
  let (r, a, _) := s.oscillator
  let (tLast, slew) := match s.isSet CAR_STATUS.CARRY, s.car.carry with
    | true, some c => (c.tLast, if c.hold then 0 else min (s.fld CAR_SERVO_LIMIT.SLEW_PPB) 100000)
    | _, _ => (s.car.tLast, 0)
  min (2 ^ 64 - 1) (ceilDiv (r * 4 * 2 ^ 32) (10 ^ 6) +
    ceilDiv (a * (t - tLast + 2 * perSec) * 4 * 2 ^ 32) (10 ^ 12 * perSec) + slew * 4 * 2 ^ 32)

/-- The published triple is written for now (R80): rounded up, saturating below all ones, all ones while UNSYNC. -/
def State.publishTriple (s : State) : State :=
  let s := s.setRaw .CAR_EPS_TIME 0 0 (BitVec.ofNat 64 s.ts64)
  let s := { s with car := { s.car with published := some s.now } }
  if s.isSet CAR_STATUS.UNSYNC then
    (s.setRaw .CAR_EPS_BASE 0 0 (BitVec.allOnes 64)).setRaw .CAR_EPS_GROWTH 0 0 0
  else
    let base := match s.baseAt s.now with
      | some b => min (2 ^ 64 - 2) (quarters b)
      | none => 2 ^ 64 - 2
    (s.setRaw .CAR_EPS_BASE 0 0 (BitVec.ofNat 64 base)).setRaw .CAR_EPS_GROWTH 0 0 (BitVec.ofNat 64 (s.growthAt s.now))

/-- UNSYNC follows R76; a change from 0 to 1 raises event 2, and the published triple then reads as unsynchronized. All ones in
CAR_EPS_BASE always mean UNSYNC (R80), so a change to 0 publishes a triple at once. -/
def State.setUnsync (s : State) : State :=
  if s.publishes then
    let was := s.isSet CAR_STATUS.UNSYNC
    let s := s.put CAR_STATUS.UNSYNC 0
    if was then s.publishTriple else s
  else
    let was := s.isSet CAR_STATUS.UNSYNC
    let s := ((s.put CAR_STATUS.UNSYNC 1).setRaw .CAR_EPS_BASE 0 0 (BitVec.allOnes 64)).setRaw .CAR_EPS_GROWTH 0 0 0
    if was then s else s.carEvent 2

/-- The bound goes on from `old`, the published ε just before (R77): the fresh bound where it is the smaller, else the
carried bound, which starts now if it did not run. When CARRY becomes 1, ADJ is held at the frequency term in force (R79). On a
switch from LOCKED to ACQUIRE that term is the one R73 loads on entry to ACQUIRE, from the ADJ then in force, phase term included:
the manual does not order the two (DESIGN CHOICE, log entry 168). -/
def State.rebound (s : State) (old : Option Nat) (oldTLast : Nat) : State :=
  if !s.held then ({ s with car := { s.car with carry := none } }).put CAR_STATUS.CARRY 0
  else
    let limit := match s.car.carry, old with
      | some c, _ => some (s.carryAt c s.now)
      | none, o => o
    let start : State :=
      match s.car.carry with
      | some _ => s
      | none =>
        ({ s with car := { s.car with carry := some { eps := old.getD 0, tC := s.now, tLast := oldTLast, adjF := adjOf s.car.freq } }
        }).setAdj s.car.freq
    match s.epsFresh s.now, limit with
    | some f, some l => if f ≤ l then ({ s with car := { s.car with carry := none } }).put CAR_STATUS.CARRY 0
        else start.put CAR_STATUS.CARRY 1
    | some _, none => ({ s with car := { s.car with carry := none } }).put CAR_STATUS.CARRY 0
    | none, _ => start.put CAR_STATUS.CARRY 1

/-- DEGRADED of CAR_STATUS (R83). -/
def State.setDegraded (s : State) : State :=
  s.put CAR_STATUS.DEGRADED (b2n (s.sagCommon || s.isSet CAR_STATUS.CARRY))

/-! ## Servo state changes -/

/-- The servo enters a state (R71): every change raises event 0, HOLDOVER event 1 as well; FREERUN sets HELD to 0, LOCKED
to 1; HOLDOVER holds ADJ at the frequency term; ACQUIRE takes the frequency term from ADJ (R73). -/
def State.enterServo (s : State) (st : Nat) : State :=
  let was := s.servo
  let s := s.put CAR_STATUS.STATE st
  let s := if st = FREERUN then s.put CAR_STATUS.HELD 0
    else if st = LOCKED then s.put CAR_STATUS.HELD 1
    else if st = HOLDOVER then s.setAdj s.car.freq
    else { s with car := { s.car with freq := s.adj, good := 0, bad := 0 } }
  let s := if st = LOCKED ∨ st = ACQUIRE then { s with car := { s.car with good := 0, bad := 0 } } else s
  if was = st then s else
    let s := s.carEvent 0
    if st = HOLDOVER then s.carEvent 1 else s

/-- The published ε checked against the EPS_LIMIT in force (R82): above it, event 10 and FREERUN. -/
def State.checkLimit (s : State) : State :=
  match s.eps with
  | some e => if s.car.limit * perNs < e then (s.carEvent 10).enterServo FREERUN else s
  | none => s

/-- CAR_LEAP_TIME from the flags and OFFSET of CAR_UTC (R85): none pending, or both set, leaves it at zero. -/
def State.leapTime (s : State) : Nat :=
  let off := s.int CAR_UTC.OFFSET
  let day : Int := ((s.seconds : Int) - off) / 86400 + 1
  match s.isSet CAR_UTC.LEAP61, s.isSet CAR_UTC.LEAP59 with
  | true, false => (day * 86400 + off).toNat
  | false, true => (day * 86400 + off - 1).toNat
  | _, _ => 0

/-- CAR_UTC's fields change to `v` (bits [18:0]) and CAR_LEAP_TIME follows; both flags set raise event 11 (R85). -/
def State.setUtc (s : State) (v : Nat) (fromPtp : Bool) : State :=
  let was := s.fld ⟨.CAR_UTC, 18, 0⟩
  let s := (s.put ⟨.CAR_UTC, 18, 0⟩ v).put CAR_UTC.FROM_PTP (b2n fromPtp)
  if was = v % 2 ^ 19 then s
  else
    let s := { s with car := { s.car with leapSecond := none } }
    let s := s.put CAR_LEAP_TIME.SEC s.leapTime
    if bits v 18 17 = 3 then s.carEvent 11 else s

/-- CAR_UTC follows the selected PTP slot's Announce, or what was last written (R86). -/
def State.followUtc (s : State) : State :=
  match s.selected with
  | some n =>
    let d := (s.slot n).ds
    if s.slotKind n = 0 ∧ d.utcValid then
      s.setUtc (place (unsigned 16 d.utcOffset) 15 0 + place 1 16 16 + place (b2n d.leap61) 17 17 + place (b2n d.leap59) 18 18) true
    else s.setUtc s.car.utcWritten false
  | none => s.setUtc s.car.utcWritten false

/-- The two parts of ε of the selected slot, in quarter-nanoseconds rounded up and saturating; those last shown while no slot is
selected (R75). -/
def State.epsParts (s : State) : Nat × Nat :=
  match s.selected with
  | some n => (min (2 ^ 32 - 1) (quarters ((s.epsSource n).getD (2 ^ 96))), min (2 ^ 32 - 1) (quarters (s.epsPath n)))
  | none => s.car.parts

/-- What follows every change in Carillon: the bound is carried on from what was published before (`before`), the limit of
R82 acts, and UNSYNC, DEGRADED, CAR_UTC and CAR_EPS_PARTS follow. -/
def State.carSettle (before s : State) : State :=
  let s := (s.rebound before.eps before.car.tLast).checkLimit
  let s := if s.held then s else ({ s with car := { s.car with carry := none } }).put CAR_STATUS.CARRY 0
  let s := s.setUnsync.setDegraded.followUtc
  { s with car := { s.car with parts := s.epsParts } }

/-! ## Choosing a source -/

/-- The keys of the IEEE 1588 dataset comparison, most significant first, with localPriority where a G.8275 profile
defines it (R68). PRESUMED (log entry 20). -/
def State.datasetKeys (s : State) (n : Nat) : List Nat :=
  let d := (s.slot n).ds
  let port := s.fld CAR_SRC_CFG.PORT 0 n
  let prof := s.fld CAR_PTP_PORT.PROFILE 0 port
  if prof = 3 ∨ prof = 4 then
    [d.clockClass, d.accuracy, d.variance, d.priority2, s.fld CAR_PTP_PORT.LOCAL_PRIORITY 0 port, d.identity, d.steps]
  else [d.priority1, d.clockClass, d.accuracy, d.variance, d.priority2, d.identity, d.steps]

/-- Lexicographic comparison of keys. -/
def keysLt : List Nat → List Nat → Option Bool
  | a :: as, b :: bs => if a < b then some true else if b < a then some false else keysLt as bs
  | _, _ => none

/-- Slot `a` comes before slot `b` under R68. -/
def State.slotBefore (s : State) (a b : Nat) : Bool :=
  let pa := s.slotPriority a
  let pb := s.slotPriority b
  if pa ≠ pb then decide (pa < pb)
  else
    let byDs := if s.slotKind a = 0 ∧ s.slotKind b = 0 then keysLt (s.datasetKeys a) (s.datasetKeys b) else none
    match byDs with
    | some r => r
    | none =>
      let ea := (s.epsSource a).getD 0
      let eb := (s.epsSource b).getD 0
      if ea ≠ eb then decide (ea < eb) else decide (a < b)

/-- The best usable slot (R68). -/
def State.bestSlot (s : State) : Option Nat :=
  ((List.range 8).filter fun n => s.isSet CAR_SRC_STATUS.USABLE 0 n).foldl
    (fun best n => match best with
      | none => some n
      | some b => if s.slotBefore n b then some n else some b) none

/-- The selected slot becomes `dest` (R69): event 3; a slot enters ACQUIRE while SERVO_EN is 1; no slot leads to HOLDOVER
while HELD is 1 and to FREERUN otherwise (R71). -/
def State.changeSlot (s : State) (dest : Option Nat) : State :=
  let s := (List.range 8).foldl (fun t n => t.put CAR_SRC_STATUS.SELECTED (b2n (dest == some n)) 0 n) s
  match dest with
  | some n =>
    let s := (({ s with car := { s.car with selected := true } }).put CAR_STATUS.SRC n).onSlot n
      fun c => { c with measured := false, betterSince := none }
    let s := (s.put CAR_SRC_STATUS.WTR 0 0 n).carEvent 3
    if s.isSet CAR_SERVO_CFG.SERVO_EN then s.enterServo ACQUIRE else s
  | none =>
    let s := ({ s with car := { s.car with selected := false } }).carEvent 3
    if s.servo = ACQUIRE ∨ s.servo = LOCKED then (if s.held then s.enterServo HOLDOVER else s.enterServo FREERUN) else s

/-- A slot's USABLE changes and the choice of R69 follows: the loss of the selected slot selects the next at once; a slot
that becomes usable is selected at once where none is, and starts the wait to restore where it is better and REVERT is 1. The
wait starts only as a slot becomes usable, as R69 has it: REVERT written, or a priority or dataset changed, while a better slot is
usable already starts none (DESIGN CHOICE, log entry 169). -/
def State.setUsable (s : State) (n : Nat) (u : Bool) : State :=
  if s.isSet CAR_SRC_STATUS.USABLE 0 n = u then s
  else
    let s := s.put CAR_SRC_STATUS.USABLE (b2n u) 0 n
    if u then
      match s.selected with
      | none => s.changeSlot s.bestSlot
      | some m =>
        if s.isSet CAR_SERVO_CFG.REVERT && s.slotBefore n m then
          (s.put CAR_SRC_STATUS.WTR 1 0 n).onSlot n fun c => { c with betterSince := some s.now }
        else s
    else
      let s := (s.put CAR_SRC_STATUS.WTR 0 0 n).onSlot n fun c => { c with betterSince := none }
      if s.selected = some n then s.changeSlot s.bestSlot else s

/-- Lanes of a port with a configuration word. -/
def cfgWidth (w : Word) : Nat := 2 ^ wfld w ETH_PORT_CFG.WIDTH

/-- Width of a port as configured. -/
def State.portWidth (s : State) (p : Nat) : Nat := cfgWidth (s.raw .ETH_PORT_CFG p)

/-- A SerDes PLL out of lock serves port `p` (R83). -/
def State.portPllLost (s : State) (p : Nat) : Bool :=
  (List.range (s.portWidth p)).any fun i => s.modes.lostSerdes.contains (p + i)

/-- The conditions of R67 that do not depend on measurements: EN, a known KIND, no exclusion (R78), no lost PLL (R83), ε_source
determined, a qualified master for PTP, TOD_VALID for PPS_IN (R65), and in TWILIGHT a PTP port of lanes 0 to 3 (R88). -/
def State.slotFit (s : State) (n : Nat) : Bool :=
  let k := s.slotKind n
  let c := s.slot n
  s.slotEn n && k != 3 && !c.excluded && (s.epsSource n).isSome && bitOf (s.fld PWR_PLL_STATUS.LOCKED) 0 &&
  (k != 0 || !s.portPllLost (s.fld CAR_SRC_CFG.PORT 0 n)) &&
  (k != 0 || (c.qualified && (s.mode != TWILIGHT || s.fld CAR_SRC_CFG.PORT 0 n < 4))) &&
  (k != 2 || s.isSet CAR_STATUS.TOD_VALID)

/-- A slot that no longer fits stops being usable. -/
def State.dropUnfit (s : State) (n : Nat) : State := if s.slotFit n then s else s.setUsable n false

/-! ## Measurements -/

/-- θ rounded away from zero to a whole quarter-nanosecond, held within 32 bits (R72). -/
def thetaQuarters (theta : Int) : Nat :=
  let q : Int := (quarters theta.natAbs : Int)
  unsigned 32 (clampInt (if theta < 0 then -q else q) (-2147483648) 2147483647)

/-- One more missing or rejected measurement of a slot; LOSS_N in a row make it unusable (R72). -/
def State.missOne (s : State) (n : Nat) : State :=
  let s := s.onSlot n fun c => { c with miss := c.miss + 1 }
  if s.lossN ≤ (s.slot n).miss then s.setUsable n false else s

/-- A rejected measurement (R72): REJECTS grows, ADJ is unchanged. -/
def State.rejectMeasurement (s : State) (n : Nat) : State := (s.sat CAR_SRC_STATUS.REJECTS 1 0 n).missOne n

/-- The frequency assist of a slot: the recovered clock of a PTP slot's port while locked (R66), or EXT10M_IN for PPS_IN
(R60). -/
def State.assisted (s : State) (n : Nat) : Bool :=
  if s.slotKind n = 0 then
    s.isSet CAR_SRC_CFG.SYNCE_ASSIST 0 n && s.isSet ETH_SYNCE.RECOV_EN (s.fld CAR_SRC_CFG.PORT 0 n) &&
    s.isSet ETH_SYNCE.RECOV_LOCK (s.fld CAR_SRC_CFG.PORT 0 n)
  else s.slotKind n = 2 && s.isSet CAR_PPS_IN.EXT10M

/-- The servo's update of R73 for θ after `dt` since the slot's previous measurement; `offset` is the assisting clock's
fractional offset in units of 2^-64. While the carried bound's 2 s hold runs, ADJ stays at the frequency term of t_c (R79). -/
def State.servoUpdate (s : State) (n : Nat) (theta : Int) (dt : Nat) (offset : Int) : State :=
  let unit (shift : Nat) : Rat := (theta * 2 ^ 35 : Int) / ((2 ^ shift * dt : Nat) : Rat)
  let assist := s.assisted n
  let freq : Rat := if assist then ((offset : Int) : Rat) / (2 ^ 29 : Nat) else s.car.freq - unit (s.fld CAR_SERVO_GAIN.KI_SHIFT)
  let slew : Rat := ((min (s.fld CAR_SERVO_LIMIT.SLEW_PPB) 100000 * 2 ^ 35 : Nat) : Rat) / (1000000000 : Nat)
  let raw : Rat := - unit (s.fld CAR_SERVO_GAIN.KP_SHIFT)
  let phase : Rat := if raw < -slew then -slew else if slew < raw then slew else raw
  let s := ({ s with car := { s.car with freq := freq } }).put CAR_STATUS.SYNCE_IN_USE (b2n (assist && s.slotKind n == 0))
  let holding := match s.car.carry with
    | some c => c.hold
    | none => false
  if holding then s else s.setAdj (freq + phase)

/-- The lock counters and the changes between ACQUIRE and LOCKED that they decide (R71). -/
def State.countLock (s : State) (theta : Int) : State :=
  let inside := decide (theta.natAbs ≤ s.lockThresh)
  let s := { s with car := { s.car with
    good := if inside then s.car.good + 1 else 0, bad := if inside then 0 else s.car.bad + 1 } }
  if s.servo = ACQUIRE ∧ s.lockCount ≤ s.car.good then s.enterServo LOCKED
  else if s.servo = LOCKED ∧ s.lockCount ≤ s.car.bad then s.enterServo ACQUIRE
  else s

/-- A conflict under R78 between θ and the bound held. -/
def State.conflicts (s : State) (n : Nat) (theta : Int) : Bool :=
  match s.eps, s.epsSource n with
  | some e, some src => decide (e + src + s.pathFloor n < theta.natAbs)
  | _, _ => false

/-- The measurement is taken: LAST_MEAS, TOD_VALID, a step in ACQUIRE while HELD is 0 and the servo's update (R57, R72, R73).
CAR_LAST_MEAS takes the θ of the selected slot only, since ε_path rests on it; R72 does not say whose (DESIGN CHOICE, log
entry 170). -/
def State.takeMeasurement (s : State) (n : Nat) (theta : Int) (t : Nat) (offset : Int) : State :=
  let prev := (s.slot n).tLast
  let first := !(s.slot n).measured
  let s := s.onSlot n fun c => { c with tLast := some t, theta := some theta, miss := 0, pllLost := false }
  let small := decide (theta.natAbs ≤ s.fld CAR_SERVO_CFG.STEP_THRESH * perNs)
  let s := if s.slotKind n != 2 && small then s.put CAR_STATUS.TOD_VALID 1 else s
  let s := if s.slotFit n then s.setUsable n true else s
  if s.selected ≠ some n then s
  else
    let s := (s.put CAR_LAST_MEAS.THETA (thetaQuarters theta)).onSlot n fun c => { c with measured := true }
    let s := { s with car := { s.car with tLast := t } }
    let s := if s.servo = ACQUIRE ∧ ¬ s.held ∧ ¬ small then { s with car := { s.car with steps := s.car.steps ++ [-theta] } } else s
    match prev with
    | some p => if first ∨ t ≤ p ∨ (s.servo ≠ ACQUIRE ∧ s.servo ≠ LOCKED) then s else s.servoUpdate n theta (t - p) offset
    | none => s

/-- The whole second of device time nearest to an instant. -/
def nearestSecond (t : Int) : Int := (t + perSec / 2) / perSec

/-- When the expected measurement that an instant `t` answers fell due (R72): the whole second of an edge, the arrival of a Sync. -/
def State.dueOf (s : State) (n : Nat) (t : Nat) : Nat :=
  match s.slotKind n with
  | 1 => (nearestSecond ((t : Int) - s.int CAR_GNSS_PPS.DELAY * perQuarter) * perSec).toNat
  | 2 => (nearestSecond ((t : Int) - s.int CAR_PPS_IN.DELAY * perQuarter) * perSec).toNat
  | _ => t

/-- Interval at which a slot expects measurements (R72): a second, or the Sync interval its time transmitter advertises. -/
def State.expects (s : State) (n : Nat) : Nat :=
  if s.slotKind n = 0 then max 1 (s.car.ports.get {} (s.fld CAR_SRC_CFG.PORT 0 n)).syncInterval else perSec

/-- What a conflict does with CONFLICT_ACT = 0 (R78): HELD becomes 0 and the servo goes on in ACQUIRE, whichever slot was measured
(for a slot that is not selected R78 does not say: DESIGN CHOICE, log entry 171). -/
def State.conflictDrops (s : State) : State :=
  let s := s.put CAR_STATUS.HELD 0
  if s.car.selected ∧ s.servo ≠ ACQUIRE then s.enterServo ACQUIRE else s

/-- A measurement θ of slot `n` taken at `t` (R72, R73, R78). A timestamp with the degraded bit is no evidence, so such a θ is
rejected and not held against the bound; the test of R78 comes before the jump test of R72, and a θ that fails both conflicts and
is rejected (the manual gives no order: DESIGN CHOICE, log entry 172). A θ that conflicts does not count toward LOCKED (R71). -/
def State.measure (s : State) (n : Nat) (theta : Int) (t : Nat) (degraded : Bool) (offset : Int) : State :=
  let c := s.slot n
  let jump := match c.theta with
    | some p => s.servo == LOCKED && s.selected == some n && decide (4 * s.lockThresh < (theta - p).natAbs)
    | none => false
  if c.excluded then s
  else
    let u := s.onSlot n fun c => { c with seen := some (s.dueOf n t) }
    let take (x : State) : State := if jump then x.rejectMeasurement n else x.takeMeasurement n theta t offset
    if degraded then State.carSettle s (u.rejectMeasurement n)
    else if s.held && s.conflicts n theta then
      let s1 := (u.put CAR_STATUS.CONFLICT 1).carEvent 4
      if s.isSet CAR_SERVO_CFG.CONFLICT_ACT then
        State.carSettle s ((s1.onSlot n fun c => { c with excluded := true }).setUsable n false)
      else
        let s2 : State := take s1.conflictDrops
        let s2 : State := { s2 with car := { s2.car with good := 0 } }
        State.carSettle s (if s2.car.selected ∨ s2.servo = FREERUN then s2 else s2.enterServo FREERUN)
    else if jump then State.carSettle s (u.rejectMeasurement n)
    else
      let v := u.takeMeasurement n theta t offset
      State.carSettle s (if v.selected = some n then v.countLock theta else v)

/-- Every slot that a condition holds of becomes unusable at once (R83). -/
def State.dropSlots (s : State) (p : Nat → Bool) : State :=
  (List.range 8).foldl (fun t n => if p n then (t.onSlot n fun c => { c with pllLost := true }).setUsable n false else t) s

/-! ## PTP ports and their masters -/

/-- One PTP port's exchange. -/
def State.ptp (s : State) (p : Nat) : PtpPort := s.car.ports.get {} p

/-- Updates one PTP port's exchange. -/
def State.onPtp (s : State) (p : Nat) (g : PtpPort → PtpPort) : State :=
  { s with car := { s.car with ports := s.car.ports.modify {} p g } }

/-- The PTP slots fed by port `p`. -/
def State.slotsOfPort (s : State) (p : Nat) : List Nat :=
  (List.range 8).filter fun n => s.slotEn n && s.slotKind n == 0 && s.fld CAR_SRC_CFG.PORT 0 n == p

/-- Keys of the dataset comparison between two masters of one port, whose localPriority is the same (R62, R68). PRESUMED (log
entry 20). -/
def PtpDataset.keys (d : PtpDataset) (profile : Nat) : List Nat :=
  if profile = 3 ∨ profile = 4 then [d.clockClass, d.accuracy, d.variance, d.priority2, d.identity, d.steps]
  else [d.priority1, d.clockClass, d.accuracy, d.variance, d.priority2, d.identity, d.steps]

/-- The best of the foreign masters that a port has qualified (R62, R67). -/
def State.bestMaster (s : State) (p : Nat) : Option ForeignMaster :=
  let profile := s.fld CAR_PTP_PORT.PROFILE 0 p
  ((s.ptp p).masters.filter (·.qualified)).foldl (fun best m => match best with
    | none => some m
    | some b => if keysLt (m.ds.keys profile) (b.ds.keys profile) = some true then some m else some b) none

/-- A PTP slot follows the best master of its port (R67): qualification, dataset and what CAR_SRC_STATUS shows of it. A qualified
slot that fits is usable unless its measurements are missing or a PLL is lost (R72, R83). -/
def State.followMaster (s : State) (n : Nat) : State :=
  if !(s.slotEn n && s.slotKind n == 0) then s
  else
    let m := s.bestMaster (s.fld CAR_SRC_CFG.PORT 0 n)
    let ds := (m.map (·.ds)).getD (s.slot n).ds
    let t := s.onSlot n fun c => { c with qualified := m.isSome, ds }
    let t := ((t.put CAR_SRC_STATUS.STEPS (min 255 ds.steps) 0 n).put CAR_SRC_STATUS.GM_CLASS ds.clockClass 0 n).put
      CAR_SRC_STATUS.GM_ACCURACY ds.accuracy 0 n
    if t.slotFit n then
      if (t.slot n).pllLost || decide (t.lossN ≤ (t.slot n).miss) then t else t.setUsable n true
    else t.setUsable n false

/-- Every slot of a port follows its best master. -/
def State.followMasters (s : State) (p : Nat) : State := (s.slotsOfPort p).foldl State.followMaster s

/-- Carillon at a change of mode: slots that no longer fit are dropped, and publication follows the mode (R16, R76, R88).
Between the inputs of DAWN and the slots, no slot of the other set stays selected; a bound held is carried on (R88). -/
def State.carModeChange (before s : State) : State :=
  let s := s.latchSlots
  let switched := before.dawnInputs != s.dawnInputs
  let s := if switched then
      let s := (List.range 8).foldl (fun t n => (t.put CAR_SRC_STATUS.USABLE 0 0 n).onSlot n fun c =>
        { c with tLast := none, theta := none, miss := 0, measured := false, seen := none }) s
      let s := if s.car.selected then s.changeSlot none else s
      if s.dawnInputs then s else (List.range 8).foldl State.followMaster s
    else (List.range 8).foldl (fun t n => t.dropUnfit n) s
  State.carSettle before s

/-! ## Port timestamps -/

/-- A port carries frames in the current mode: its link is up, and in DAWN and TWILIGHT it is one of ports 0 to 3; none in
NIGHT and MIDNIGHT (R121, R122). -/
def State.portCarries (s : State) (p : Nat) : Bool :=
  s.isSet ETH_PORT_STATUS.LINK p && s.mode != NIGHT && s.mode != MIDNIGHT &&
  ((s.mode != DAWN && s.mode != TWILIGHT) || decide (p < 4))

/-- Receive timestamp: T = C − RX_INT − RX_BOARD (R131), in units of 2^-32 ns. -/
def State.rxStamp (s : State) (p : Nat) (phase : Nat) : Int :=
  (s.at phase : Int) - (s.fld ETH_TS_INT.RX_INT p + s.int ETH_TS_BOARD.RX_BOARD p) * perPhase

/-- Transmit timestamp: T = C + TX_INT + TX_BOARD (R131). -/
def State.txStamp (s : State) (p : Nat) (phase : Nat) : Int :=
  (s.at phase : Int) + (s.fld ETH_TS_INT.TX_INT p + s.int ETH_TS_BOARD.TX_BOARD p) * perPhase

/-- A timestamp of port `p` captured now carries the degraded bit (R44, R132). -/
def State.portDegraded (s : State) (p : Nat) : Bool := s.sagEth || !s.isSet ETH_PORT_STATUS.TS_READY p

/-- delayAsymmetry of a port (R134). -/
def State.asym (s : State) (p : Nat) : Int := s.int ETH_TS_ASYM.ASYM p * perPhase

end Sys2Proof.Machine
end

