-- ==== Sys2Proof/Machine/FaultOps.lean ====
section
/-! DEFINITION. Units out of service (R468 to R473, R479): isolation, self-tests, retirement. -/
namespace Sys2Proof.Machine

/-- The unit of a source of the table *Isolation* is isolated. -/
def State.isolatedUnit (s : State) (g src : Nat) : Bool := s.gong.isolated.contains (32 * g + src)

/-- A unit of a KIND is under test, or waits for its test. -/
def State.underTest (s : State) (kind unit : Nat) : Bool :=
  (s.gong.running ++ s.gong.waiting).any fun u => u.kind == kind && u.unit == unit

/-- A unit of a KIND is retired. -/
def State.isRetired (s : State) (kind unit : Nat) : Bool := s.gong.retired.contains (kind, unit)

/-- Updates Gong's state. -/
def State.onGong (s : State) (g : GongState → GongState) : State := { s with gong := g s.gong }

/-- Bank of an SRAM row, and channel of a DDR row, in their identifiers. -/
def rowBank (u : Nat) : Nat := bits u 11 0
def rowChannel (u : Nat) : Nat := bits u 2 0

/-- A spare of an SRAM bank (2 each) or a map entry of a DDR channel (64 each) is taken, if one is free (R470, R472). -/
def State.takeSpare (s : State) (kind unit : Nat) : State × Bool :=
  if kind = 1 then
    let n := s.gong.sramSpares.get 0 (rowBank unit)
    if n < 2 then (s.onGong fun g => { g with sramSpares := g.sramSpares.set 0 (rowBank unit) (n + 1) }, true) else (s, false)
  else if kind = 2 then
    let n := s.gong.ddrSpares.get 0 (rowChannel unit)
    if n < 64 then (s.onGong fun g => { g with ddrSpares := g.ddrSpares.set 0 (rowChannel unit) (n + 1) }, true) else (s, false)
  else (s, false)

/-- The spare of a row is freed. -/
def State.freeSpare (s : State) (u : TestUnit) : State :=
  if !u.spare then s
  else if u.kind = 1 then s.onGong fun g => { g with sramSpares := g.sramSpares.modify 0 (rowBank u.unit) (· - 1) }
  else s.onGong fun g => { g with ddrSpares := g.ddrSpares.modify 0 (rowChannel u.unit) (· - 1) }

/-- A test begins now. A PCIe lane's link is held in Detect while its lane is tested. -/
def State.beginTest (s : State) (u : TestUnit) : State :=
  let r := s.takeSpare u.kind u.unit
  r.1.onGong fun g => { g with running := g.running ++ [{ u with spare := r.2 }] }

/-- An error of a unit starts its test (R470, R471): not while self-test is off, the unit is under test already, or it is
retired; at most 4 of a KIND run, and 64 more wait. -/
def State.startTest (s : State) (kind unit : Nat) : State :=
  if !s.isSet GONG_CFG.ST_EN || s.underTest kind unit || s.isRetired kind unit then s
  else
    let u : TestUnit := { kind, unit, ts := s.ts64 }
    if (s.gong.running.filter fun x => x.kind == kind).length < 4 then s.beginTest u
    else if (s.gong.waiting.filter fun x => x.kind == kind).length < 64 then s.onGong fun g => { g with waiting := g.waiting ++ [u] }
    else s.fire 27 6 0 initGong

/-- A lookaside core may be given work (R386, R468, R479). -/
def State.coreServes (s : State) (c : Nat) : Bool :=
  !bitOf (s.raw .CRY_RETIRED 0 (c / 64)).toNat (c % 64) && !s.underTest 6 c && !s.isolatedUnit 20 (c / 16)

/-- A compression unit may be given work (R420, R468, R479). -/
def State.cmpServes (s : State) (u : Nat) : Bool := !bitOf (s.fld CMP_STATUS.RETIRED) u && !s.underTest 8 u && !s.isolatedUnit 22 u

/-- A Snare scanner may be given packets (R468, R479). -/
def State.scannerServes (s : State) (n : Nat) : Bool := !s.isRetired 10 n && !s.underTest 10 n && !s.isolatedUnit 23 n

end Sys2Proof.Machine
end

