-- ==== Sys2Proof/Machine/TelOps.lean ====
section
/-! DEFINITION. Performance counters (R483 to R487), histograms (R432, R433), exact flow counters (R424, R425) and flow
records (R429 to R431), as the other chapters' steps use them. -/
namespace Sys2Proof.Machine

/-! ## DDR -/

/-- `n` bytes of DDR from `a`. -/
def State.ddrRead (s : State) (a n : Nat) : List Byte := Memory.readBytes s.ddr a n

/-- DDR with bytes written from `a` on. -/
def State.ddrWrite (s : State) (a : Nat) (bs : List Byte) : State := { s with ddr := Memory.writeBytes s.ddr a bs }

/-- A 64-bit little-endian value in DDR grows by `d`, modulo 2^64. -/
def State.ddrAdd (s : State) (a d : Nat) : State := s.ddrWrite a (natLe 8 (leNat (s.ddrRead a 8) + d))

/-- An address field whose bits [11:0] are ignored. -/
def page4k (a : Nat) : Nat := a / 4096 * 4096

/-- A field held within limits: a value outside acts as the nearer limit. -/
def within (v lo hi : Nat) : Nat := max lo (min v hi)

/-! ## Performance counters -/

/-- PMC indexes of R483: device counters, and the first counter of a pipeline, a cluster and an engine. -/
def pmcPipe (p : Nat) : Nat := 64 + 16 * p
def pmcCluster (c : Nat) : Nat := 192 + 8 * c
def pmcEngine (e : Nat) : Nat := 320 + 8 * e

/-- Counter `k` counts event `ev` now (R485). -/
def State.pmcCounts (s : State) (k ev : Nat) : Bool :=
  s.isSet PMC_CTR_CFG.EN 0 k && s.fld PMC_CTR_CFG.EVENT 0 k == ev && !s.isSet PMC_CFG.FREEZE

/-- An engine counter takes samples (R490). -/
def State.pmcSamples (s : State) (k : Nat) : Bool := decide (320 ≤ k) && s.isSet PMC_CTR_CFG.SAMPLE 0 k

/-- Counter `k` grows by `d` (R484, R490): a carry out of bit 47 sets OVF, and reloads and marks a sampling counter. -/
def State.pmcCarry (s : State) (k d : Nat) : State × Bool :=
  let v := s.fld PMC_CTR_VAL.COUNT 0 k + d
  if v < 2 ^ 48 then (s.put PMC_CTR_VAL.COUNT v 0 k, false)
  else
    let s := s.put PMC_CTR_VAL.OVF 1 0 k
    if s.pmcSamples k then
      let s := s.put PMC_CTR_VAL.COUNT (2 ^ 48 - 2 ^ min 47 (s.fld PMC_CTR_CFG.PERIOD_LOG2 0 k) + (v - 2 ^ 48)) 0 k
      if s.tel.samplePending.contains k then
        ({ s.sat PMC_SAMPLE_STATUS.LOST 1 with tel := { s.tel with sampleLost := s.tel.sampleLost ++ [k] } }, true)
      else ({ s with tel := { s.tel with samplePending := s.tel.samplePending ++ [k] } }, true)
    else (s.put PMC_CTR_VAL.COUNT (v - 2 ^ 48) 0 k, true)

/-- As `pmcCarry`, with the overflow counted by the device counters of event 0x30E (R484). -/
def State.pmcAdd : Nat → State → Nat → Nat → State
  | 0, s, k, d => (s.pmcCarry k d).1
  | n + 1, s, k, d =>
    let r := s.pmcCarry k d
    if r.2 then
      (List.range 64).foldl (fun t j => if j ≠ k ∧ t.pmcCounts j 0x30E then State.pmcAdd n t j 1 else t) r.1
    else r.1

/-- Event `ev` happens `d` times at the `n` counters from index `base`; `who` is the bit of THREADS it is tied to, if to
any (R485). -/
def State.pmcEvent (s : State) (base n ev : Nat) (who : Option Nat := none) (d : Nat := 1) : State :=
  (List.range n).foldl (fun t i =>
    let k := base + i
    let mine := match who with
      | some b => bitOf (t.fld PMC_CTR_CFG.THREADS 0 k) b
      | none => true
    if t.pmcCounts k ev && mine then State.pmcAdd 2 t k d else t) s

/-- A device event. -/
def State.devEvent (s : State) (ev : Nat) (d : Nat := 1) : State := s.pmcEvent 0 64 ev none d

/-- An event of pipeline `p`. -/
def State.pipeEvent (s : State) (p ev : Nat) (d : Nat := 1) : State := s.pmcEvent (pmcPipe p) 16 ev none d

/-- An event of cluster `c`, tied to an engine of it or to none. -/
def State.cluEvent (s : State) (c ev : Nat) (engine : Option Nat := none) : State := s.pmcEvent (pmcCluster c) 8 ev engine

/-- An event of thread `t` at its engine's counters. -/
def State.engEvent (s : State) (t ev : Nat) : State := s.pmcEvent (pmcEngine (t / 8)) 8 ev (some (t % 8))

/-! ## The harts' counters (R494) -/

/-- An event of a hart happens `d` times: each hpmcounter whose mhpmevent selects it adds, and one that passes 2^64 sets the overflow bit of
its mhpmevent, with the interrupt where that bit was clear (Sscofpmf). -/
def Hart.count (x : Hart) (ev d : Nat) : Hart :=
  (List.range 29).foldl (fun x i =>
    let k := i + 3
    let e := x.event.get 0 k
    if bits e 57 0 ≠ ev then x
    else
      let v := x.counter.get 0 k + d
      let x := { x with counter := x.counter.set 0 k (v % 2 ^ 64) }
      if v < 2 ^ 64 then x else { x with event := x.event.set 0 k (setBits e 63 63 1), lcofi := x.lcofi || !bitOf e 63 }) x

/-- An event of hart `h`. -/
def State.hartEvent (s : State) (h ev d : Nat) : State :=
  { s with tel := { s.tel with harts := s.tel.harts.modify {} h fun x => x.count ev d } }

/-- An access to device register space counts at the hart that makes it, with the cycles it stalls, which are free (R494). -/
def State.accessedBy (s : State) (req : Requester) : State :=
  match req with
  | .hart h => ((s.hartEvent h 0x403 1).hartEvent h 0x404 (Config.freeWord s.free).toNat).drawn
  | _ => s

/-- The control-core clusters 1 and 2 whose isolation stands are held in reset (R443, R468). -/
def State.coreIsolated (s : State) (n : Nat) : Bool := s.isolatedUnit 28 n || s.isolatedUnit 28 (n + 3)

/-- A hart of cluster `c` runs (R443): cluster 0 always, the others as RUN says, and not in DAWN and TWILIGHT, nor while isolated. -/
def State.coresRun (s : State) (c : Nat) : Bool :=
  c == 0 || (s.mode != DAWN && s.mode != TWILIGHT && bitOf (s.fld GLB_CC_CTL.RUN) (c - 1) && !s.coreIsolated c)

/-- One AOCLK edge of the harts: mcycle takes the cycles of CCLK, 2.6 GHz or, throttled, half of it (R38, R47), 20.8 of them an edge.
What a hart retires and how its accesses meet the L2 cache in the edge are free counts (log entry 95). -/
def State.hartEdge (s : State) : State :=
  if s.mode = NIGHT then s
  else
    let d := if s.isSet PWR_THERM.THROTTLE then 104 else 208
    let harts := (List.range 24).foldl (fun m h =>
      if s.coresRun (h / 8) then m.modify {} h fun (x : Hart) =>
        let x := { x with
          tenths := (x.tenths + d) % (10 * 2 ^ 64)
          minstret := (x.minstret + (Config.freeWord (s.free + h)).toNat % 2 ^ 16) % 2 ^ 64 }
        (x.count 0x401 ((Config.freeWord (s.free + 24 + h)).toNat % 2 ^ 16)).count 0x402 ((Config.freeWord (s.free + 48 + h)).toNat % 2 ^ 16)
      else m) s.tel.harts
    { s with free := s.free + 72, tel := { s.tel with harts } }

/-- A record is written to the sample ring, or dropped (R493). -/
def State.sampleRecord (s : State) (ts pc thread event flags insn : Nat) (addr : Nat) : State :=
  let lost := s.tel.ringLost
  let size := 2 ^ within (s.fld PMC_SAMPLE_CTL.LOG2) 8 24
  let prod := s.fld PMC_SAMPLE_CTL.PROD
  let used := (prod + 2 ^ 24 - s.fld PMC_SAMPLE_CTL.CONS) % 2 ^ 24
  if !s.isSet PMC_SAMPLE_CTL.EN || decide (size ≤ used) then
    { s.sat PMC_SAMPLE_STATUS.DROPPED 1 with tel := { s.tel with ringLost := true } }
  else
    let latency := min (Config.freeWord s.free).toNat (2 ^ 32 - 1)
    let flags := flags ||| (if lost then 2 else 0) ||| (if latency = 2 ^ 32 - 1 then 4 else 0)
    let rec' := natLe 8 ts ++ natLe 2 pc ++ natLe 2 thread ++ natLe 2 event ++ natLe 1 flags ++
      [0] ++ natLe 4 latency ++ natLe 4 insn ++ natLe 8 addr
    let s := (s.drawn.ddrWrite (page4k (s.fld PMC_SAMPLE_BASE.ADDR) + 32 * (prod % size)) rec').put PMC_SAMPLE_CTL.PROD (prod + 1)
    { s with tel := { s.tel with ringLost := false } }

/-! ## Histograms -/

/-- The counter of R433 that a latency of `d` quarter-nanoseconds falls in: edge i is 2^(i/16) ns in units of 2^-16 ns,
rounded to nearest, and d lies below it just when (2d' + 1)^16 ≤ 2^(i + 272) for d' = d in those units. -/
def histBucket (d : Nat) : Nat :=
  let d' := d * 2 ^ 14
  ((List.range 257).filter fun i => decide (2 ^ (i + 272) < (2 * d' + 1) ^ 16)).length

/-- A latency sample of a source (R432): recorded in every enabled histogram that takes it, or counted as DEGRADED. -/
def State.sample (s : State) (source arg : Nat) (start stop : Int) (degraded : Bool) : State :=
  (List.range 32).foldl (fun t h =>
    if t.isSet CMP_HIST_CFG.EN 0 h && t.fld CMP_HIST_CFG.SOURCE 0 h == source &&
        (t.fld CMP_HIST_CFG.ARG 0 h == 0xFFFF || t.fld CMP_HIST_CFG.ARG 0 h == arg) then
      { t with tel := { t.tel with hists := t.tel.hists.modify {} h fun x =>
        if degraded then { x with degraded := x.degraded + 1 }
        else { x with counts := x.counts.modify 0 (histBucket (stop - start).toNat) fun c => satAdd c 1 (2 ^ 32 - 1) } } }
    else t) s

/-! ## Exact flow counters -/

/-- DDR address of counter pair `i` (R424). -/
def State.pairAddr (s : State) (i : Nat) : Nat := page4k (s.fld CMP_FC_BASE.ADDR) + 16 * i

/-- A cached pair is added into DDR (R425). -/
def State.spill (s : State) (e : Nat × Nat × Nat) : State :=
  (((s.ddrAdd (s.pairAddr e.1) e.2.1).ddrAdd (s.pairAddr e.1 + 8) e.2.2)).bump .CMP_STAT 0 8

/-- The cached pairs of a pipeline. -/
def State.pairs (s : State) (p : Nat) : List (Nat × Nat × Nat) := s.tel.cache.get [] p

/-- Sets the cached pairs of a pipeline. -/
def State.setPairs (s : State) (p : Nat) (l : List (Nat × Nat × Nat)) : State :=
  { s with tel := { s.tel with cache := s.tel.cache.set [] p l } }

/-- A packet of `len` bytes is counted in pair `i` by pipeline `p` (R424, R425). -/
def State.countPair (s : State) (p i len : Nat) : State :=
  let old := s.pairs p
  let cur := (old.find? fun e => e.1 == i).getD (i, 0, 0)
  let e := (i, cur.2.1 + 1, cur.2.2 + len)
  let rest := old.filter fun x => x.1 != i
  if 2 ^ 31 ≤ e.2.1 ∨ 2 ^ 31 ≤ e.2.2 then (s.setPairs p rest).spill e
  else if rest.length < 16384 then s.setPairs p (e :: rest)
  else
    match rest.getLast? with
    | some last => (s.setPairs p (e :: rest.dropLast)).spill last
    | none => s.setPairs p [e]

/-- Every cached half of pair `i` is spilled, in all pipelines (R426). -/
def State.spillPair (s : State) (i : Nat) : State :=
  (List.range 8).foldl (fun t p =>
    match (t.pairs p).find? fun e => e.1 == i with
    | some e => (t.setPairs p ((t.pairs p).filter fun x => x.1 != i)).spill e
    | none => t) s

/-- Every cached pair is spilled (R426). -/
def State.spillAll (s : State) : State :=
  (List.range 8).foldl (fun t p => (t.pairs p).foldl State.spill (t.setPairs p [])) s

/-! ## Flow records -/

/-- The smallest shift K that brings every delta below 2^32 (R430). -/
def recShift (deltas : List Nat) : Nat := ((List.range 32).find? fun k => deltas.all fun d => decide (d / 2 ^ k < 2 ^ 32)).getD 31

/-- The 64 bytes of a record with its timestamps coded. -/
def recBytes (base k : Nat) (r : FlowRec) : List Byte :=
  slice r.key 0 16 ++ natLe 8 r.packets ++ natLe 8 r.bytes ++ natLe 4 ((r.first - base) / 2 ^ k) ++ natLe 4 ((r.last - base) / 2 ^ k) ++
    natLe 1 r.flags ++ natLe 1 r.reason ++ natLe 2 r.source ++ List.replicate 20 0

/-- The 4 KiB of a block (R430): its header and records. -/
def blockBytes (rs : List FlowRec) (seq : Nat) : List Byte :=
  let times := rs.flatMap fun r => [r.first, r.last]
  let base := times.foldl min (times.headD 0)
  let k := recShift (times.map (· - base))
  slice (natLe 8 base ++ natLe 1 k ++ natLe 1 rs.length ++ [0, 0] ++ natLe 4 seq ++ List.replicate 48 0 ++ rs.flatMap (recBytes base k)) 0 4096

/-- The open block closes (R430, R431): written at the ring's producer, or dropped with source 17. -/
def State.closeBlock (s : State) : State :=
  if s.tel.block = [] then s
  else
    let blk := blockBytes s.tel.block s.tel.blocks
    let s := { s with tel := { s.tel with block := [], blocks := s.tel.blocks + 1 } }
    let size := 2 ^ within (s.fld CMP_REC_CTL.LOG2) 4 20
    let prod := s.fld CMP_REC_CTL.PROD
    let used := (prod + 2 ^ 24 - s.fld CMP_REC_CTL.CONS) % 2 ^ 24
    if !s.isSet CMP_REC_CTL.EN || decide (size ≤ used) then (s.bump .CMP_STAT 0 10).fire 22 17 0 initCmp
    else (s.ddrWrite (page4k (s.fld CMP_REC_BASE.ADDR) + 4096 * (prod % size)) blk).put CMP_REC_CTL.PROD (prod + 1)

/-- A flow record joins the open block, which closes at 63 records (R430). -/
def State.flowRecord (s : State) (r : FlowRec) : State :=
  let s := s.bump .CMP_STAT 0 9
  let s := { s with tel := { s.tel with block := s.tel.block ++ [r], blockAt := if s.tel.block = [] then s.up else s.tel.blockAt } }
  if 63 ≤ s.tel.block.length then s.closeBlock else s

end Sys2Proof.Machine
end

