-- ==== Sys2Proof/Machine/TableOps.lean ====
section
/-! DEFINITION. Table memory, entries, lookups and the ordered port's operations (R169 to R187, R196 to R199). An entry is
held as the number its bytes spell, little-endian. -/
namespace Sys2Proof.Machine

/-! ## Entries -/

/-- The layouts an entry can have: with the header of R172, the LPM forms of R183, or the range form of R187. -/
inductive EntryForm where
  | headed | lpm4 | lpm6 | lpm6w | range
deriving DecidableEq, Repr

/-- VALID, GEN and ACTION of an entry. -/
def EntryForm.valid : EntryForm → Nat → Bool
  | .headed, e => bitOf e 0
  | .lpm4, e => bitOf e 50
  | .lpm6, e => bitOf e (64 + 18)
  | .lpm6w, e => bitOf e (128 + 18)
  | .range, e => bitOf e (64 + 34)

/-- Where GEN starts. -/
def EntryForm.genAt : EntryForm → Nat
  | .headed => 1
  | .lpm4 => 48
  | .lpm6 => 64 + 16
  | .lpm6w => 128 + 16
  | .range => 64 + 32

/-- Where VALID lies. -/
def EntryForm.validAt : EntryForm → Nat
  | .headed => 0
  | .lpm4 => 50
  | .lpm6 => 64 + 18
  | .lpm6w => 128 + 18
  | .range => 64 + 34

/-- Where ACTION starts. -/
def EntryForm.actionAt : EntryForm → Nat
  | .headed => 8
  | .lpm4 => 32
  | .lpm6 => 64
  | .lpm6w => 128
  | .range => 64

/-- The GEN bits of an entry. -/
def EntryForm.gen (f : EntryForm) (e : Nat) : Nat := bits e (f.genAt + 1) f.genAt

/-- The action index of an entry. -/
def EntryForm.action (f : EntryForm) (e : Nat) : Nat := bits e (f.actionAt + 15) f.actionAt

/-- The key of an entry whose key has `kb` bytes. -/
def EntryForm.key (f : EntryForm) (kb e : Nat) : Nat :=
  match f with
  | .headed => bits e (64 + 8 * kb - 1) 64
  | .lpm4 => bits e 31 0
  | .lpm6 => bits e 63 0
  | .lpm6w => bits e 127 0
  | .range => bits e 63 0

/-- The entry with its VALID, GEN or ACTION changed. -/
def EntryForm.setValid (f : EntryForm) (e v : Nat) : Nat := setBits e f.validAt f.validAt v
def EntryForm.setGen (f : EntryForm) (e v : Nat) : Nat := setBits e (f.genAt + 1) f.genAt v
def EntryForm.setAction (f : EntryForm) (e v : Nat) : Nat := setBits e (f.actionAt + 15) f.actionAt v

/-- Fields of the header of R172. -/
def entHit (e : Nat) : Bool := bitOf e 3
def entMiss (e : Nat) : Nat := bits e 5 4
def entStatic (e : Nat) : Bool := bitOf e 6
def entLearned (e : Nat) : Bool := bitOf e 7
def entVersion (e : Nat) : Nat := bits e 47 24
def entPriority (e : Nat) : Nat := bits e 63 48

/-- Source and ingress TS64 of a learned entry (R188). -/
def entSource (e : Nat) : Nat := bits e (8 * 18 - 1) (8 * 16)
def entTs (e : Nat) : Nat := bits e (8 * 32 - 1) (8 * 24)

/-! ## Tables -/

/-- Bytes of an entry of a table with a header (R171): SLOT 0b00, 0b01, 0b10. -/
def State.entrySize (s : State) (t : Nat) : Nat := 32 * 2 ^ s.fld TBL_T_CFG.SLOT 0 t

/-- Key bytes an entry of that size has room for (R171). -/
def State.keyRoom (s : State) (t : Nat) : Nat :=
  match s.fld TBL_T_CFG.SLOT 0 t with
  | 0 => 24
  | 1 => 56
  | _ => 64

/-- KEY_BYTES; 0 acts as 1. -/
def State.keyBytes (s : State) (t : Nat) : Nat := max 1 (s.fld TBL_T_CFG.KEY_BYTES 0 t)

/-- One hashed structure: a table's two ways, the subtable of an LPM length or of a wildcard tuple, or the flow tier. -/
structure Cuckoo where
  table : Nat
  form : EntryForm
  size : Nat
  /-- Buckets per way, and the address of the first byte of each way. -/
  buckets : Nat
  base0 : Nat
  base1 : Nat
  kb : Nat
  tier : Bool := false
  /-- PRIORITY is an entry's own: those of a wildcard table (R172). -/
  wild : Bool := false
  /-- The subtable, and the buckets of the subtables before it, which LOCATION counts on from. -/
  sub : Nat := 0
  before : Nat := 0
deriving DecidableEq, Repr

/-- The flow tier is in use and is table `t` (R196). -/
def State.isTier (s : State) (t : Nat) : Bool :=
  s.isSet TBL_T_CFG.TIER 0 t && s.isSet TBL_FLOW_CFG.EN && s.fld TBL_FLOW_CFG.TABLE == t

/-- Buckets per way of the flow tier. -/
def State.tierBuckets (s : State) : Nat := min 33554432 (s.fld TBL_FLOW_BUCKETS.BUCKETS)

/-- The form of the subtable of prefix length `17 + k`. -/
def State.subForm (s : State) (t k : Nat) : EntryForm :=
  if s.fld TBL_T_CFG.SLOT 0 t = 0 then .lpm4 else if 17 + k ≤ 64 then .lpm6 else .lpm6w

/-- Bytes of an entry of a form. -/
def EntryForm.bytes (f : EntryForm) (headed : Nat) : Nat :=
  match f with
  | .headed => headed
  | .lpm4 => 8
  | .lpm6 | .range => 16
  | .lpm6w => 32

/-- A TBL_SUB descriptor: BASE0, BASE1, BLOCKS. -/
def State.subDesc (s : State) (i : Nat) : Nat × Nat × Nat :=
  let w := s.raw .TBL_SUB 0 i
  (getBits w 9 0, getBits w 19 10, getBits w 28 20)

/-- The hashed structure of a table: for LPM and wildcard tables that of descriptor `sub`, else the table's own. -/
def State.cuckoo (s : State) (t sub : Nat) : Cuckoo :=
  let kind := s.fld TBL_T_CFG.KIND 0 t
  if s.isTier t then
    let base := page4k (s.fld TBL_FLOW_BASE.ADDR)
    { table := t, form := .headed, size := 64, buckets := s.tierBuckets, base0 := base, base1 := base + s.tierBuckets * 256
      kb := s.keyBytes t, tier := true }
  else if kind = 1 ∨ kind = 2 then
    let form := if kind = 1 then s.subForm t sub else .headed
    let size := form.bytes (s.entrySize t)
    let first := s.fld TBL_T_WAYS.SUB_BASE 0 t
    let (b0, b1, n) := s.subDesc (first + sub)
    { table := t, form, size, buckets := n * (65536 / size) / 4, base0 := b0 * 65536, base1 := b1 * 65536, kb := s.keyBytes t
      wild := kind == 2, sub
      before := ((List.range sub).map fun k =>
        let f := if kind = 1 then s.subForm t k else .headed
        (s.subDesc (first + k)).2.2 * (65536 / f.bytes (s.entrySize t)) / 4).sum }
  else
    let size := s.entrySize t
    { table := t, form := .headed, size, buckets := s.fld TBL_T_WAYS.BLOCKS 0 t * (65536 / size) / 4
      base0 := s.fld TBL_T_WAYS.BASE0 0 t * 65536, base1 := s.fld TBL_T_WAYS.BASE1 0 t * 65536, kb := s.keyBytes t }

/-- Owner of a block (R169). -/
def State.blockOwner (s : State) (b : Nat) : Nat :=
  let o := s.fld (TBL_BLOCK_MAP.OWNER (b % 16)) 0 (b / 16)
  if o ≤ 9 then o else 0xF

/-- Descriptors of TBL_SUB a table uses: those of an LPM or wildcard table. -/
def State.subCount (s : State) (t : Nat) : Nat :=
  if !s.isSet TBL_T_CFG.MODE 0 t && (s.fld TBL_T_CFG.KIND 0 t == 1 || s.fld TBL_T_CFG.KIND 0 t == 2) then s.fld TBL_T_WAYS.SUB_COUNT 0 t else 0

/-- Runs of blocks a table names: first block and length. -/
def State.tableRuns (s : State) (t : Nat) : List (Nat × Nat) :=
  let n := s.fld TBL_T_WAYS.BLOCKS 0 t
  let b0 := s.fld TBL_T_WAYS.BASE0 0 t
  let b1 := s.fld TBL_T_WAYS.BASE1 0 t
  let subs := (List.range (s.fld TBL_T_WAYS.SUB_COUNT 0 t)).flatMap fun k =>
    let (x, y, m) := s.subDesc (s.fld TBL_T_WAYS.SUB_BASE 0 t + k)
    if m = 0 then [] else [(x, m), (y, m)]
  if s.isSet TBL_T_CFG.MODE 0 t then [(b0, n)]
  else match s.fld TBL_T_CFG.KIND 0 t with
    | 0 => [(b0, n), (b1, n)]
    | 1 => (b0, if s.fld TBL_T_CFG.SLOT 0 t = 0 then 16 else 32) :: subs
    | 2 => subs
    | _ => [(b0, 1)]

/-- A table is usable (R170): BLOCKS is 0 neither in TBL_T_WAYS nor in a descriptor the table uses (log entry 180). -/
def State.usable (s : State) (t : Nat) : Bool :=
  if s.isTier t then decide (0 < s.tierBuckets) && decide (s.keyBytes t ≤ 16)
  else
    let runs := s.tableRuns t
    let kind := s.fld TBL_T_CFG.KIND 0 t
    let mode := s.isSet TBL_T_CFG.MODE 0 t
    (!(kind == 0 || kind == 2 || mode) || decide (s.keyBytes t ≤ s.keyRoom t)) &&
    s.fld TBL_T_WAYS.BLOCKS 0 t != 0 &&
    ((List.range (s.subCount t)).all fun k => (s.subDesc (s.fld TBL_T_WAYS.SUB_BASE 0 t + k)).2.2 != 0) &&
    runs.all fun r => decide (r.1 + r.2 ≤ 640) &&
      (List.range r.2).all fun i => s.blockOwner (r.1 + i) == s.fld TBL_T_CFG.SET 0 t

/-- A table other than a direct-indexed one is not served in DAWN and TWILIGHT (R182). -/
def State.tableServes (s : State) (t : Nat) : Bool := (s.mode != DAWN && s.mode != TWILIGHT) || s.isSet TBL_T_CFG.MODE 0 t

/-! ## Table memory -/

/-- Free values of the boot ROM's tables: the bytes of an entry's ACTION. -/
def algBootEntry : Nat := 182

/-- A byte of the boot ROM's tables 0 and 1 (R182): every entry is valid with GEN = 0b11 and has an ACTION, which is free. -/
def romByte (a : Nat) : Byte :=
  if a % 32 = 0 then 0x07 else if a % 32 ≤ 2 then (Config.algorithm algBootEntry (natLe 4 a)).headD 0 else 0

/-- How the boot ROM's tables change bytes from `a` on; its own inverse. -/
def State.overRom (s : State) (a : Nat) (bs : List Byte) : List Byte :=
  if s.tbl.rom then bs.zipIdx.map fun b => if a + b.2 < 2 ^ 20 then b.1 ^^^ romByte (a + b.2) else b.1 else bs

/-- Bytes of table memory. -/
def State.tblRead (s : State) (a n : Nat) : List Byte := s.overRom a (Memory.readBytes s.tbl.mem a n)

/-- Bytes written to table memory. -/
def State.tblWrite (s : State) (a : Nat) (bs : List Byte) : State :=
  { s with tbl := { s.tbl with mem := Memory.writeBytes s.tbl.mem a (s.overRom a bs) } }

/-! ## Places -/

/-- A place of a hashed structure. -/
inductive Spot where
  | slot (way bucket i : Nat)
  | stash (j : Nat)
deriving DecidableEq, Repr

/-- LOCATION in the READ_SLOT format: [31] stash, [30] way, [29:2] bucket, [1:0] slot; a stash place is its number. -/
def Spot.code (before : Nat) : Spot → Nat
  | .slot w b i => w * 2 ^ 30 + (before + b) % 2 ^ 28 * 4 + i
  | .stash j => 2 ^ 31 + j

/-- Address of the first byte of a slot. -/
def Cuckoo.addr (c : Cuckoo) (w b i : Nat) : Nat := (if w = 0 then c.base0 else c.base1) + (4 * b + i) * c.size

/-- The entry at a place. -/
def State.entry (s : State) (c : Cuckoo) : Spot → Nat
  | .slot w b i =>
    if c.tier then leNat (s.ddrRead (c.addr w b i) c.size) else leNat (s.tblRead (c.addr w b i) c.size)
  | .stash j => s.tbl.stash.get 0 (8 * c.table + j)

/-- An entry that the learned entries of the device count (R189). -/
def Cuckoo.learned (c : Cuckoo) (e : Nat) : Bool := c.form == .headed && bitOf e 0 && entLearned e

/-- The state with an entry at a place; the learned entries follow (R189). -/
def State.setEntry (s : State) (c : Cuckoo) (p : Spot) (e : Nat) : State :=
  let n := s.tbl.learned + b2n (c.learned e) - b2n (c.learned (s.entry c p))
  let s := if n = s.tbl.learned then s else { s with tbl := { s.tbl with learned := n } }
  match p with
  | .slot w b i =>
    if c.tier then s.ddrWrite (c.addr w b i) (natLe c.size e) else s.tblWrite (c.addr w b i) (natLe c.size e)
  | .stash j => { s with tbl := { s.tbl with stash := s.tbl.stash.set 0 (8 * c.table + j) e } }

/-- The bytes of a key as the hash takes them (R173): KEY_BYTES of it, or the prefix as an LPM entry holds it. -/
def Cuckoo.hashBytes (c : Cuckoo) (key : Nat) : List Byte :=
  match c.form with
  | .headed => natLe c.kb key
  | .lpm4 => natLe 4 key
  | .lpm6 | .range => natLe 8 key
  | .lpm6w => natLe 16 key

/-- The bucket of way `w` for a key (R173). -/
def State.bucket (s : State) (c : Cuckoo) (w key : Nat) : Nat :=
  let seed := if w = 0 then s.fld TBL_T_SEED.SEED0 0 c.table else s.fld TBL_T_SEED.SEED1 0 c.table
  crc32c seed (c.hashBytes key) * c.buckets / 2 ^ 32

/-- The candidates of a key in the order of R174. -/
def State.candidates (s : State) (c : Cuckoo) (key : Nat) : List Spot :=
  let b0 := s.bucket c 0 key
  let b1 := s.bucket c 1 key
  [.slot 0 b0 0, .slot 0 b0 1, .slot 0 b0 2, .slot 0 b0 3, .slot 1 b1 0, .slot 1 b1 1, .slot 1 b1 2, .slot 1 b1 3,
   .stash 0, .stash 1, .stash 2, .stash 3, .stash 4, .stash 5, .stash 6, .stash 7]

/-- The place belongs to the structure: a slot does, and a stash place that holds an entry of its subtable. -/
def State.owns (s : State) (c : Cuckoo) : Spot → Bool
  | .slot .. => true
  | .stash j => s.tbl.stashSub.get 0 (8 * c.table + j) == c.sub + 1

/-- A valid entry with the key is at the place. -/
def State.matches (s : State) (c : Cuckoo) (key : Nat) (p : Spot) : Bool :=
  let e := s.entry c p
  s.owns c p && c.form.valid e && c.form.key c.kb e == key

/-- Every place that holds the key. -/
def State.holders (s : State) (c : Cuckoo) (key : Nat) : List Spot := (s.candidates c key).filter (s.matches c key)

/-- The first candidate of generation `g` with the key (R172, R174). -/
def State.probe (s : State) (c : Cuckoo) (key g : Nat) : Option Spot :=
  (s.holders c key).find? fun p => bitOf (c.form.gen (s.entry c p)) g

/-! ## The flow cache (R197) -/

/-- The set of the flow cache that a key selects: M[19:0]. -/
def State.cacheSet (s : State) (key : List Byte) : Nat :=
  Config.flowPermutation (s.raw .TBL_T_SEED 0 (s.fld TBL_FLOW_CFG.TABLE)).toNat (leNat (slice key 0 16)) % 2 ^ 20

/-- The cached line of a key. -/
def State.cached (s : State) (key : List Byte) : Option CacheLine :=
  (s.tbl.cache.get [] (s.cacheSet key)).find? fun l => l.key == key

/-- The lines of a key's set replaced. -/
def State.onCacheSet (s : State) (key : List Byte) (f : List CacheLine → List CacheLine) : State :=
  { s with tbl := { s.tbl with cache := s.tbl.cache.modify [] (s.cacheSet key) f } }

/-- A lookup uses a key's line: it becomes the most recently used of its set (R197). -/
def State.cacheUse (s : State) (key : List Byte) : State :=
  s.onCacheSet key fun ls => ls.filter (fun l => l.key == key) ++ ls.filter fun l => l.key != key

/-- HIT of a key's entry in DDR is set (R199). -/
def State.tierHit (s : State) (key : List Byte) : State :=
  let c := s.cuckoo (s.fld TBL_FLOW_CFG.TABLE) 0
  match s.holders c (leNat key) with
  | p :: _ => s.setEntry c p (setBits (s.entry c p) 3 3 1)
  | [] => s

/-- A line enters the cache as the most recently used of its set; a third line leaves, writing HIT back (R197, R199). -/
def State.cacheFill (s : State) (line : CacheLine) : State :=
  let old := (s.tbl.cache.get [] (s.cacheSet line.key)).filter fun l => l.key != line.key
  let out := old.drop 1
  let s := s.onCacheSet line.key fun _ => line :: old.take 1
  out.foldl (fun t l => if l.hit then t.tierHit l.key else t) s

/-- What DDR holds for a key, as a line; a key absent from the tier has ACTION 0xFFFF. -/
def State.tierLine (s : State) (key : List Byte) : CacheLine :=
  let c := s.cuckoo (s.fld TBL_FLOW_CFG.TABLE) 0
  match s.holders c (leNat key) with
  | p :: _ => { key, action := c.form.action (s.entry c p), gen := c.form.gen (s.entry c p) }
  | [] => { key, action := 0xFFFF, gen := 3 }

/-- The cached copy of a key follows a write of the tier (R197). -/
def State.cacheUpdate (s : State) (key : List Byte) : State :=
  match s.cached key with
  | some l =>
    let n := s.tierLine key
    s.onCacheSet key fun ls => ls.map fun x => if x.key == key then { n with hit := l.hit && n.action != 0xFFFF } else x
  | none => s

/-! ## Changing entries -/

/-- ENTRIES and STASH of a table follow. -/
def State.countEntries (s : State) (t : Nat) (d : Int) : State :=
  let v : Int := s.fld TBL_T_STATUS.ENTRIES 0 t + d
  s.put TBL_T_STATUS.ENTRIES (min v.toNat (2 ^ 24 - 1)) 0 t

/-- STASH reads the stash places in use. -/
def State.countStash (s : State) (t : Nat) : State :=
  s.put TBL_T_STATUS.STASH (((List.range 8).filter fun j => s.tbl.stashSub.get 0 (8 * t + j) != 0).length) 0 t

/-- A stash place is marked with the subtable of its entry, or as empty. -/
def State.markStash (s : State) (c : Cuckoo) (p : Spot) (used : Bool) : State :=
  match p with
  | .slot .. => s
  | .stash j =>
    { s with tbl := { s.tbl with stashSub := s.tbl.stashSub.set 0 (8 * c.table + j) (if used then c.sub + 1 else 0) } }.countStash c.table

/-- An entry becomes the occupant of a place (R172): VALID, and in a headed entry VERSION one more than the place had. -/
def State.occupy (s : State) (c : Cuckoo) (p : Spot) (e : Nat) : State :=
  let v := entVersion (s.entry c p) + 1
  let e := c.form.setValid e 1
  (s.setEntry c p (if c.form = .headed then setBits e 47 24 v else e)).markStash c p true

/-- A place's entry is removed: VALID is cleared, and VERSION counts the change of occupant (R172); a stash place becomes empty. -/
def State.vacate (s : State) (c : Cuckoo) (p : Spot) : State :=
  let e := c.form.setValid (s.entry c p) 0
  (s.setEntry c p (if c.form = .headed then setBits e 47 24 (entVersion e + 1) else e)).markStash c p false

/-- An arriving entry has HIT 1 and MISS 0 (R176). -/
def fresh (c : Cuckoo) (e : Nat) : Nat := if c.form = .headed then setBits (setBits e 3 3 1) 5 4 0 else e

/-- A move of R177: the destination takes the entry with HIT = 1, and the source's VALID is cleared. -/
def State.moveEntry (s : State) (c : Cuckoo) (src dst : Spot) : State :=
  let e := s.entry c src
  let e := if c.form = .headed then setBits e 3 3 1 else e
  ((s.occupy c dst e).vacate c src).bump .TBL_STAT 0 1

/-- The first slot of a bucket with no valid entry. -/
def State.freeSlot (s : State) (c : Cuckoo) (w b : Nat) : Option Spot :=
  ([0, 1, 2, 3].map fun i => Spot.slot w b i).find? fun p => !c.form.valid (s.entry c p)

/-- The round-robin victim of a bucket, skipping slots on the path (R176); the pointer moves past it. -/
def State.victim (s : State) (c : Cuckoo) (w b : Nat) (path : List Spot) : State × Option Spot :=
  let k := c.addr w b 0 * 2 + (if c.tier then 1 else 0)
  let from_ := s.tbl.victim.get 0 k
  match ([0, 1, 2, 3].map fun i => (from_ + i) % 4).find? fun i => !path.contains (.slot w b i) with
  | some i => ({ s with tbl := { s.tbl with victim := s.tbl.victim.set 0 k ((i + 1) % 4) } }, some (.slot w b i))
  | none => (s, none)

/-- The path search of R176, `n` moves at most: the path found, oldest first, and the free slot at its end. -/
def State.findPath (s : State) (c : Cuckoo) : Nat → Nat → Nat → List Spot → State × Option (List Spot × Spot)
  | 0, _, _, _ => (s, none)
  | n + 1, w, b, path =>
    match s.victim c w b path with
    | (s', none) => (s', none)
    | (s', some p) =>
      let w' := 1 - w
      let b' := s'.bucket c w' (c.form.key c.kb (s'.entry c p))
      match s'.freeSlot c w' b' with
      | some dst => (s', some (path ++ [p], dst))
      | none => State.findPath s' c n w' b' (path ++ [p])

/-- The moves along a path, last first; each slot moves to the place the one after it left. -/
def State.movePath (s : State) (c : Cuckoo) : List Spot → Spot → State
  | [], _ => s
  | p :: rest, dst => (State.movePath s c rest dst).moveEntry c p (rest.headD dst)

/-- RESULT codes of TBL_CMD_STATUS. -/
def resOk : Nat := 0
def resStashed : Nat := 1
def resFull : Nat := 2
def resExists : Nat := 3
def resNotFound : Nat := 4
def resBadTable : Nat := 5
def resBadIndex : Nat := 6

/-- The first stash place that is empty. -/
def State.freeStash (s : State) (t : Nat) : Option Nat := (List.range 8).find? fun j => s.tbl.stashSub.get 0 (8 * t + j) == 0

/-- The insertion algorithm of R176 with the stash of R178: the new state, RESULT and LOCATION. -/
def State.cuckooPlace (s : State) (c : Cuckoo) (e : Nat) : State × Nat × Nat :=
  let key := c.form.key c.kb e
  let e := fresh c e
  let ok (s : State) (p : Spot) : State × Nat × Nat :=
    (((s.occupy c p e).countEntries c.table 1).bump .TBL_STAT 0 0, resOk, p.code c.before)
  match s.freeSlot c 0 (s.bucket c 0 key), s.freeSlot c 1 (s.bucket c 1 key) with
  | some p, _ => ok s p
  | none, some p => ok s p
  | none, none =>
    let w := s.tbl.rrWay.get 0 c.table % 2
    let s := { s with tbl := { s.tbl with rrWay := s.tbl.rrWay.set 0 c.table ((w + 1) % 2) } }
    match s.findPath c 32 w (s.bucket c w key) [] with
    | (s, some (path, dst)) => ok (s.movePath c path dst) (path.headD dst)
    | (s, none) =>
      match s.freeStash c.table with
      | some j =>
        let first := s.fld TBL_T_STATUS.STASH 0 c.table == 0
        let s := (((s.occupy c (.stash j) e).countEntries c.table 1).bump .TBL_STAT 0 2).bump .TBL_STAT 0 0
        (if first then (s.put TBL_T_STATUS.REHASH 1 0 c.table).fire 24 1 0 initTables else s, resStashed, (Spot.stash j).code 0)
      | none => ((s.bump .TBL_STAT 0 3).fire 24 2 0 initTables, resFull, 0)

/-- The tier's cached copy of an entry's key follows, where the structure is the tier. -/
def State.followTier (s : State) (c : Cuckoo) (key : Nat) : State := if c.tier then s.cacheUpdate (natLe 16 key) else s

/-- INSERT (R176, R179): EXISTS where the key is held with an overlapping GEN; the tier holds one entry per key (R199). -/
def State.insertEntry (s : State) (c : Cuckoo) (e : Nat) : State × Nat × Nat :=
  let key := c.form.key c.kb e
  if (s.holders c key).any fun p => c.tier || (c.form.gen (s.entry c p) &&& c.form.gen e) != 0 then (s, resExists, 0)
  else
    let r := s.cuckooPlace c e
    (r.1.followTier c key, r.2)

/-- A stash entry moves into a slot that a delete freed (R178): the lowest stash place with that bucket among its
candidates. -/
def State.unstash (s : State) (c : Cuckoo) (freed : Spot) : State :=
  match freed with
  | .slot w b _ =>
    if c.form.valid (s.entry c freed) then s
    else match (List.range 8).find? fun j =>
        let e := s.entry c (.stash j)
        s.owns c (.stash j) && s.bucket c w (c.form.key c.kb e) == b with
      | some j => s.moveEntry c (.stash j) freed
      | none => s
  | .stash _ => s

/-- An entry is removed from a place: counts follow, and a stash entry may take the slot. -/
def State.removeEntry (s : State) (c : Cuckoo) (p : Spot) : State :=
  let e := s.entry c p
  let s := (s.vacate c p).countEntries c.table (-1)
  (s.unstash c p).followTier c (c.form.key c.kb e)

/-- The flow record of a tier entry (R428, R429). -/
def tierRecord (e reason : Nat) : FlowRec :=
  let at_ (o n : Nat) : Nat := bits e (8 * (o + n) - 1) (8 * o)
  { key := natLe 16 (at_ 8 16), packets := at_ 32 8, bytes := at_ 40 8, first := at_ 24 8, last := max (at_ 24 8) (at_ 48 8)
    flags := at_ 60 1, reason, source := at_ 62 2 }

/-- RECORD_EN of a tier entry. -/
def tierRecords (e : Nat) : Bool := bitOf e (8 * 61)

/-- UPDATE (R179): the entry with the key and an overlapping GEN takes ACTION, GEN, STATIC and PRIORITY. -/
def State.updateEntry (s : State) (c : Cuckoo) (e : Nat) : State × Nat × Nat :=
  let key := c.form.key c.kb e
  let all := s.holders c key
  let meets (p : Spot) : Bool := (c.form.gen (s.entry c p) &&& c.form.gen e) != 0
  match all.filter meets with
  | [] => (s, resNotFound, 0)
  | [p] =>
    let old := s.entry c p
    let n := c.form.setGen (c.form.setAction old (c.form.action e)) (c.form.gen e)
    let n := if c.form = .headed then setBits (setBits n 6 6 (b2n (entStatic e))) 63 48 (entPriority e) else n
    ((s.setEntry c p n).followTier c key, resOk, p.code c.before)
  | _ => (s, resExists, 0)

/-- The first place that holds the key with a GEN bit in a mask. -/
def State.genHolder (s : State) (c : Cuckoo) (key mask : Nat) : Option Spot :=
  (s.holders c key).find? fun p => (c.form.gen (s.entry c p) &&& mask) != 0

/-- GEN bits are cleared in the entries with the key, `n` of them at most; one left with none is removed (R179). Each is found where the
removals before it, and the stash entries they moved (R178), have left it. -/
def State.clearGens (s : State) (c : Cuckoo) (key mask : Nat) : Nat → State
  | 0 => s
  | n + 1 =>
    match s.genHolder c key mask with
    | none => s
    | some p =>
      let e := s.entry c p
      let g := c.form.gen e &&& (3 - mask % 4)
      let t := if g = 0 then (if c.tier ∧ tierRecords e then s.flowRecord (tierRecord e 4) else s).removeEntry c p
        else (s.setEntry c p (c.form.setGen e g)).followTier c key
      State.clearGens t c key mask n

/-- DELETE (R179): GEN bits are cleared in every entry with the key, and an entry left with none is removed. -/
def State.deleteEntry (s : State) (c : Cuckoo) (key mask : Nat) : State × Nat × Nat :=
  match s.genHolder c key mask with
  | none => (s, resNotFound, 0)
  | some p => (s.clearGens c key mask 16, resOk, p.code c.before)

/-! ## Range tables (R187) -/

/-- Address of range entry `i`. -/
def State.rangeAddr (s : State) (t i : Nat) : Nat := s.fld TBL_T_WAYS.BASE0 0 t * 65536 + 16 * i

/-- Range entry `i`. -/
def State.rangeEntry (s : State) (t i : Nat) : Nat := leNat (s.tblRead (s.rangeAddr t i) 16)

/-- The state with range entry `i`. -/
def State.setRange (s : State) (t i e : Nat) : State := s.tblWrite (s.rangeAddr t i) (natLe 16 e)

/-- The entry that a value hits: the highest PRIORITY, the lowest index on ties. -/
def State.rangeHit (s : State) (t v g : Nat) : Option Nat :=
  (List.range 1024).foldl (fun best i =>
    let e := s.rangeEntry t i
    if EntryForm.range.valid e && bitOf (EntryForm.range.gen e) g && decide (bits e 31 0 ≤ v) && decide (v ≤ bits e 63 32) then
      match best with
      | some b => if bits (s.rangeEntry t b) (64 + 31) (64 + 16) < bits e (64 + 31) (64 + 16) then some i else best
      | none => some i
    else best) none

/-- Range entries holding the bounds of an image. -/
def State.rangeHolders (s : State) (t key : Nat) : List Nat :=
  (List.range 1024).filter fun i => EntryForm.range.valid (s.rangeEntry t i) && bits (s.rangeEntry t i) 63 0 == key

/-! ## Lookups -/

/-- What a lookup answers. -/
inductive Found where
  | hit (action : Nat) (mark : Option Hit)
  | miss
  /-- The flow cache misses; the packet waits for a fetch (R198). -/
  | park
deriving DecidableEq, Repr

/-- Entries per block of a direct-indexed table (R171, R181). -/
def State.perBlock (s : State) (t : Nat) : Nat := 65536 / s.entrySize t

/-- The cell that a direct-indexed table has for an index, as a place. -/
def State.directSpot (s : State) (t i : Nat) : Option (Cuckoo × Spot) :=
  if i < s.fld TBL_T_WAYS.BLOCKS 0 t * s.perBlock t then some (s.cuckoo t 0 |> fun c => { c with form := .headed, size := s.entrySize t, base0 := s.fld TBL_T_WAYS.BASE0 0 t * 65536, tier := false, wild := false, sub := 0, before := 0 }, .slot 0 (i / 4) (i % 4))
  else none

/-- The mask of wildcard tuple `j` (R186), as a number over 64 bytes. -/
def State.tupleMask (s : State) (t j : Nat) : Nat :=
  leNat (wordBytes ((List.range 8).map fun w => s.raw .TBL_MASK 0 (8 * (s.fld TBL_T_WAYS.MASK_BASE 0 t + j) + w)))

/-- The wildcard candidate of highest PRIORITY; lower tuples and earlier places win ties (R186). -/
def State.wildHit (s : State) (t key g : Nat) : Option (Cuckoo × Spot) :=
  (List.range (min 16 (s.fld TBL_T_WAYS.SUB_COUNT 0 t))).foldl (fun best j =>
    let c := s.cuckoo t j
    match s.probe c ((key &&& s.tupleMask t j) % 2 ^ (8 * c.kb)) g with
    | some p => match best with
      | some (bc, bp) => if entPriority (s.entry bc bp) < entPriority (s.entry c p) then some (c, p) else best
      | none => some (c, p)
    | none => best) none

/-- Bits of the address an LPM table matches: 32 or 128. -/
def State.lpmWidth (s : State) (t : Nat) : Nat := if s.fld TBL_T_CFG.SLOT 0 t = 0 then 32 else 128

/-- Address of first-stage entry `j` of copy `g` (R183). -/
def State.firstAddr (s : State) (t g j : Nat) : Nat :=
  s.fld TBL_T_WAYS.BASE0 0 t * 65536 + (g * 65536 + j) * (if s.lpmWidth t = 32 then 8 else 16)

/-- First-stage entry `j` of copy `g`. -/
def State.firstStage (s : State) (t g j : Nat) : Nat :=
  leNat (s.tblRead (s.firstAddr t g j) (if s.lpmWidth t = 32 then 8 else 16))

/-- A prefix of an address as its subtable's entries hold it: host bits zero, an IPv6 address in two words, upper first. -/
def prefixKey (w len addr : Nat) : Nat :=
  let p := addr / 2 ^ (w - len) * 2 ^ (w - len)
  if w = 32 then p
  else if len ≤ 64 then p / 2 ^ 64
  else p / 2 ^ 64 + p % 2 ^ 64 * 2 ^ 64

/-- What an LPM search found: its action, the entry it stands in, and the bytes of that entry. -/
structure LpmHit where
  action : Nat
  entry : Nat
  size : Nat
deriving DecidableEq, Repr

/-- The LPM search of R184 over lengths `len` down to 17, and then the first-stage entry. -/
def State.lpmSearch (s : State) (t g addr fs : Nat) : Nat → Option LpmHit
  | 0 => if bits fs 15 0 = 0xFFFF then none else some { action := bits fs 15 0, entry := fs, size := if s.lpmWidth t = 32 then 8 else 16 }
  | n + 1 =>
    let len := 17 + n
    if bitOf fs (16 + n) then
      let c := s.cuckoo t n
      match s.probe c (prefixKey (s.lpmWidth t) len addr) g with
      | some p => some { action := c.form.action (s.entry c p), entry := s.entry c p, size := c.size }
      | none => State.lpmSearch s t g addr fs n
    else State.lpmSearch s t g addr fs n

/-- The LPM lookup of a key's bytes under generation `g` (R183, R184). -/
def State.lpmLookup (s : State) (t g : Nat) (bytes : List Byte) : Option LpmHit :=
  let w := s.lpmWidth t
  let addr := beNat (slice (slice bytes 0 (s.keyBytes t)) 0 (w / 8))
  s.lpmSearch t g addr (s.firstStage t g (addr / 2 ^ (w - 16))) (w - 16)

/-- A lookup of an enabled, usable table under generation `g` with the bytes of a key (R173, R174, R181 to R187, R197). -/
def State.lookupTable (s : State) (t g : Nat) (bytes : List Byte) : Found :=
  let bytes := slice bytes 0 (s.keyBytes t)
  let key := leNat bytes
  let mark (c : Cuckoo) (p : Spot) : Found :=
    .hit (c.form.action (s.entry c p)) (some { table := t, loc := p.code c.before, version := entVersion (s.entry c p) })
  if s.isSet TBL_T_CFG.MODE 0 t then
    match s.directSpot t (beNat (slice bytes 0 2)) with
    | some (c, p) =>
      let e := s.entry c p
      if c.form.valid e && bitOf (c.form.gen e) g then mark c p else .miss
    | none => .miss
  else if s.isTier t then
    let k := slice bytes 0 16
    match s.cached k with
    | some l => if l.action != 0xFFFF && bitOf l.gen g then .hit l.action (some { table := t, loc := 0, version := 0, key := k }) else .miss
    | none => .park
  else match s.fld TBL_T_CFG.KIND 0 t with
    | 0 =>
      let c := s.cuckoo t 0
      match s.probe c key g with
      | some p => mark c p
      | none => .miss
    | 1 => match s.lpmLookup t g bytes with
      | some h => .hit h.action none
      | none => .miss
    | 2 => match s.wildHit t (leNat (slice bytes 0 64)) g with
      | some (c, p) => mark c p
      | none => .miss
    | _ => match s.rangeHit t (beNat (slice bytes 0 4)) g with
      | some i => .hit (EntryForm.range.action (s.rangeEntry t i)) none
      | none => .miss

/-- Lengths that the LPM search of R184 probes, from `17 + n` down to its hit. -/
def State.lpmProbes (s : State) (t g addr fs : Nat) : Nat → Nat
  | 0 => 0
  | n + 1 =>
    if bitOf fs (16 + n) then
      match s.probe (s.cuckoo t n) (prefixKey (s.lpmWidth t) (17 + n) addr) g with
      | some _ => 1
      | none => 1 + State.lpmProbes s t g addr fs n
    else State.lpmProbes s t g addr fs n

/-- PCLK cycles that a lookup holds its stage beyond the first (R184): a first-stage entry that names `n` lengths takes ceil(n / 4). -/
def State.lpmExtra (s : State) (t g : Nat) (bytes : List Byte) : Nat :=
  if s.isSet TBL_T_CFG.MODE 0 t || s.fld TBL_T_CFG.KIND 0 t != 1 then 0
  else
    let w := s.lpmWidth t
    let fs := s.firstStage t g (beNat (slice (slice bytes 0 (s.keyBytes t)) 0 (w / 8)) / 2 ^ (w - 16))
    ceilDiv ((List.range (w - 16)).filter fun i => bitOf fs (16 + i)).length 4 - 1

/-- Table reads of a lookup, both buckets of every probe counted (event 0x280 of R485). -/
def State.tableReads (s : State) (t g : Nat) (bytes : List Byte) : Nat :=
  if s.isSet TBL_T_CFG.MODE 0 t then 1
  else match s.fld TBL_T_CFG.KIND 0 t with
    | 1 =>
      let w := s.lpmWidth t
      let addr := beNat (slice (slice bytes 0 (s.keyBytes t)) 0 (w / 8))
      1 + 2 * s.lpmProbes t g addr (s.firstStage t g (addr / 2 ^ (w - 16))) (w - 16)
    | 2 => 2 * min 16 (s.fld TBL_T_WAYS.SUB_COUNT 0 t)
    | 3 => 1
    | _ => 2

/-- The place a LOCATION code names in a table: a stash place, with the structure of its entry, or a slot of the structure whose buckets
it falls in. -/
def State.spotOf (s : State) (t code : Nat) : Option (Cuckoo × Spot) :=
  let subs := match s.fld TBL_T_CFG.KIND 0 t with
    | 1 | 2 => s.fld TBL_T_WAYS.SUB_COUNT 0 t
    | _ => 1
  if bitOf code 31 then some (s.cuckoo t (s.tbl.stashSub.get 0 (8 * t + code % 8) - 1), .stash (code % 8))
  else
    let b := bits code 29 2
    (List.range subs).findSome? fun k =>
      let c := s.cuckoo t k
      if c.before ≤ b ∧ b < c.before + c.buckets then some (c, .slot (bits code 30 30) (b - c.before) (code % 4)) else none

/-- The hit port (R180, R199): HIT is set if the place still holds the recorded VERSION; else the hit is discarded and
counted. A flow-tier hit sets HIT in the cache, or in DDR where the line has left. -/
def State.setHit (s : State) (h : Hit) : State :=
  if h.key ≠ [] then
    match s.cached h.key with
    | some _ => s.onCacheSet h.key fun ls => ls.map fun x => if x.key == h.key then { x with hit := true } else x
    | none => s.tierHit h.key
  else
    let spot := if s.isSet TBL_T_CFG.MODE 0 h.table then s.directSpot h.table (bits h.loc 29 0) else s.spotOf h.table h.loc
    match spot with
    | some (c, p) =>
      let e := s.entry c p
      if entVersion e = h.version then s.setEntry c p (setBits e 3 3 1) else s.bump .TBL_STAT 0 16
    | none => s.bump .TBL_STAT 0 16

/-- A BAD_TABLE event (R170, R182, R200). -/
def State.badTable (s : State) : State := (s.bump .TBL_STAT 0 15).fire 24 8 0 initTables

/-! ## Commands -/

/-- What a table command answers: RESULT, LOCATION, and the entry that READ_SLOT and FIND return. -/
structure TableAnswer where
  result : Nat
  loc : Nat := 0
  entry : Option Nat := none
  /-- Bytes of the entry. -/
  size : Nat := 0
deriving DecidableEq, Repr

/-- LEARNED is the learning unit's to write (R172). -/
def unlearned (e : Nat) : Nat := setBits e 7 7 0

/-- Range entry commands (the spec gives a range table no placement rule; log entry 24): INSERT takes the lowest free
index. -/
def State.rangeCommand (s : State) (t op index mask image : Nat) : State × TableAnswer :=
  let e := image % 2 ^ 128
  let f := EntryForm.range
  let hs := s.rangeHolders t (bits e 63 0)
  match op with
  | 1 =>
    if hs.any fun i => (f.gen (s.rangeEntry t i) &&& f.gen e) != 0 then (s, { result := resExists })
    else match (List.range 1024).find? fun i => !f.valid (s.rangeEntry t i) with
      | some i => (((s.setRange t i (f.setValid e 1)).countEntries t 1).bump .TBL_STAT 0 0, { result := resOk, loc := i })
      | none => ((s.bump .TBL_STAT 0 3).fire 24 2 0 initTables, { result := resFull })
  | 2 => match hs.filter fun i => (f.gen (s.rangeEntry t i) &&& f.gen e) != 0 with
    | [] => (s, { result := resNotFound })
    | [i] => (s.setRange t i (f.setValid e 1), { result := resOk, loc := i })
    | _ => (s, { result := resExists })
  | 3 => match hs.filter fun i => (f.gen (s.rangeEntry t i) &&& mask) != 0 with
    | [] => (s, { result := resNotFound })
    | i0 :: rest => ((i0 :: rest).foldl (fun x i =>
        let g := f.gen (x.rangeEntry t i) &&& (3 - mask % 4)
        if g = 0 then (x.setRange t i (f.setValid (x.rangeEntry t i) 0)).countEntries t (-1)
        else x.setRange t i (f.setGen (x.rangeEntry t i) g)) s, { result := resOk, loc := i0 })
  | 4 => if bits index 29 0 < 1024 ∧ !bitOf index 31 then (s, { result := resOk, loc := index, entry := some (s.rangeEntry t (bits index 29 0)), size := 16 })
    else (s, { result := resBadIndex })
  | _ => match hs with
    | i :: _ => (s, { result := resOk, loc := i, entry := some (s.rangeEntry t i), size := 16 })
    | [] => (s, { result := resNotFound })

/-- The entry that an image gives: LEARNED 0, and PRIORITY zero but in a wildcard table (R172). -/
def Cuckoo.given (c : Cuckoo) (image : Nat) : Nat :=
  let e := image % 2 ^ (8 * c.size)
  if c.form ≠ .headed then e else if c.wild then unlearned e else setBits (unlearned e) 63 48 0

/-- Commands of a hashed structure. -/
def State.cuckooCommand (s : State) (c : Cuckoo) (op mask image : Nat) : State × TableAnswer :=
  let e := c.given image
  match op with
  | 1 =>
    let r := s.insertEntry c (if c.tier then setBits e (8 * 32 - 1) (8 * 24) s.ts64 else e)
    (r.1, { result := r.2.1, loc := r.2.2 })
  | 2 =>
    let r := s.updateEntry c e
    (r.1, { result := r.2.1, loc := r.2.2 })
  | 3 =>
    let r := s.deleteEntry c (c.form.key c.kb e) mask
    (r.1, { result := r.2.1, loc := r.2.2 })
  | _ => match s.holders c (c.form.key c.kb e) with
    | p :: _ => (s, { result := resOk, loc := p.code c.before, entry := some (s.entry c p), size := c.size })
    | [] => (s, { result := resNotFound })

/-- WRITE_INDEX of an entry image (R172, R181): VALID as the image gives it, VERSION one more. -/
def State.writeDirect (s : State) (c : Cuckoo) (p : Spot) (image : Nat) : State :=
  let old := s.entry c p
  let e := fresh c (c.given image)
  let d : Int := b2n (c.form.valid e) - b2n (c.form.valid old)
  (s.setEntry c p (setBits e 47 24 (entVersion old + 1))).countEntries c.table d

/-- A table command (R170, R175 to R187): `index` is TBL_CMD.INDEX, which also names the subtable of an LPM or wildcard
table (log entry 23), `mask` GEN_MASK, `image` the entry image. -/
def State.tableCommand (s : State) (op t index mask image : Nat) : State × TableAnswer :=
  if !s.usable t then (s.badTable, { result := resBadTable })
  else if s.isSet TBL_T_CFG.MODE 0 t then
    let key := beNat (slice (slice (natLe 8 (bits image 127 64)) 0 (s.keyBytes t)) 0 2)
    match op with
    | 5 => match s.directSpot t index with
      | some (c, p) => (s.writeDirect c p image, { result := resOk, loc := index })
      | none => (s, { result := resBadIndex })
    | 6 => match s.directSpot t key with
      | some (c, p) => (s, { result := resOk, loc := key, entry := some (s.entry c p), size := c.size })
      | none => (s, { result := resBadIndex })
    | _ => (s.badTable, { result := resBadTable })
  else
    let kind := s.fld TBL_T_CFG.KIND 0 t
    match op with
    | 5 =>
      if kind = 1 then
        let n := if s.lpmWidth t = 32 then 8 else 16
        let a := s.firstAddr t (bits index 16 16) (bits index 15 0)
        (s.tblWrite a (natLe n image), { result := resOk, loc := index })
      else (s.badTable, { result := resBadTable })
    | 4 =>
      if kind = 3 ∧ !s.isTier t then s.rangeCommand t op index mask image
      else match s.spotOf t index with
        | some (c, p) => (s, { result := resOk, loc := index, entry := some (s.entry c p), size := c.size })
        | none => (s, { result := resBadIndex })
    | _ =>
      if kind = 3 ∧ !s.isTier t then s.rangeCommand t op index mask image
      else
        let sub := if s.isTier t ∨ kind = 0 then 0 else index % 128
        if (kind = 1 ∨ kind = 2) ∧ !s.isTier t ∧ s.fld TBL_T_WAYS.SUB_COUNT 0 t ≤ sub then (s, { result := resBadIndex })
        else s.cuckooCommand (s.cuckoo t sub) op mask image

end Sys2Proof.Machine
end

