-- ==== Sys2Proof/Machine/TaborOps.lean ====
section
/-! DEFINITION. Threads, packet slots, credits, events, channel messages and memory spaces of the Tabor engines (R202 to
R224), as the instructions, the channels and the dispatcher use them. -/
namespace Sys2Proof.Machine

/-! ## Threads and clusters -/

/-- A thread's state. -/
def State.thread (s : State) (t : Nat) : Thread := s.tbe.threads.get {} t

/-- Updates a thread. -/
def State.onThread (s : State) (t : Nat) (g : Thread → Thread) : State :=
  { s with tbe := { s.tbe with threads := s.tbe.threads.modify {} t g } }

/-- Cluster and engine (TBE instance) of a thread (R202). -/
def clusterOf (t : Nat) : Nat := t / 64
def engineOf (t : Nat) : Nat := t / 8

/-- The threads of a cluster and of an engine. -/
def threadsOf (c : Nat) : List Nat := (List.range 64).map (64 * c + ·)
def threadsOfEngine (e : Nat) : List Nat := (List.range 8).map (8 * e + ·)

/-- Cluster states (R204). -/
def EMPTY : Nat := 0
def LOADED : Nat := 1
def RUNNING : Nat := 2
def DRAINING : Nat := 3
def DRAINED : Nat := 4

/-- STATE and EPOCH of a cluster. -/
def State.cluster (s : State) (c : Nat) : Nat := s.fld TBC_STATUS.STATE c
def State.epoch (s : State) (c : Nat) : Nat := s.fld TBC_STATUS.EPOCH c

/-- The cluster runs its threads: RUNNING, DRAINING or DRAINED. -/
def State.clusterRuns (s : State) (c : Nat) : Bool := decide (RUNNING ≤ s.cluster c)

/-- A cluster's Gong source `k` (R228). -/
def State.clusterEvent (s : State) (c k : Nat) (t : Nat := initNone) : State := s.fire (14 + c / 4) (8 * (c % 4) + k) 0 t

/-- A write to TBC or TBE is refused: source 7 of the cluster. -/
def State.refuseTbc (s : State) (c : Nat) (t : Nat := initNone) : State := (s.put TBC_CTL.REFUSED 1 c).clusterEvent c 7 t

/-- The thread waits: in WFE or TWAIT, or parked. -/
def Thread.waits (x : Thread) : Bool :=
  match x.mode with
  | .wfe _ | .twait _ | .parked => true
  | _ => false

/-- The engines' clock runs: in DAY and NOON, and in DUSK where the mode left had it on (R27, R524). -/
def State.engineClock (s : State) : Bool :=
  s.mode == DAY || s.mode == NOON || (s.mode == DUSK && (s.modes.left == DAY || s.modes.left == NOON))

/-- A domain is awake: 0 to 15 clusters, 16 to 23 cipher groups, 24 to 39 compression units, 40 to 47 Snare scanners. -/
def State.domainAwake (s : State) (d : Nat) : Bool := bitOf (s.raw .PWR_DOMAIN_STATUS).toNat d

/-- A domain's bit of PWR_DOMAIN_STATUS. -/
def State.setDomain (s : State) (d : Nat) (on : Bool) : State := s.put ⟨.PWR_DOMAIN_STATUS, d, d⟩ (b2n on)

/-- The engine takes work: enabled and not retired, in a cluster that is RUNNING (R163, R207). -/
def State.engineTakes (s : State) (e : Nat) : Bool :=
  s.isSet TBE_CTL.EN e && !s.isSet TBE_CTL.RETIRED e && s.cluster (e / 8) == RUNNING && s.engineClock

/-- A gated cluster wakes (R35, R227, R229), where the engines' clock runs; in EVENING it waits for the return to DAY (R32). -/
def State.wakeCluster (s : State) (c : Nat) : State :=
  if s.domainAwake c || !s.engineClock then s
  else ((s.setDomain c true).bump .TBC_STAT c 9).cluEvent c 0x105

/-! ## Retirement -/

/-- Where instruction memory and data memory of a cluster start in `TaborState.mem`. -/
def imemBase (c : Nat) : Nat := 2 * c * 2 ^ 18
def dmemBase (c : Nat) : Nat := (2 * c + 1) * 2 ^ 18

/-- The instruction word at an index of a cluster's instruction memory (R234). -/
def State.instrAt (s : State) (c pc : Nat) : Nat := leNat (Memory.readBytes s.tbe.mem (imemBase c + 4 * (pc % 65536)) 4)

/-- Sample records of the counters with a sample pending that count the thread (R490, R491). -/
def State.samples (s : State) (t pc word addr : Nat) (trapped : Bool) : State :=
  let e := engineOf t
  (List.range 8).foldl (fun u i =>
    let k := pmcEngine e + i
    if u.tel.samplePending.contains k && bitOf (u.fld PMC_CTR_CFG.THREADS 0 k) (t % 8) then
      let lost := u.tel.sampleLost.contains k
      let u := { u with tel := { u.tel with samplePending := u.tel.samplePending.filter (· != k)
                                            sampleLost := u.tel.sampleLost.filter (· != k) } }
      u.sampleRecord u.ts64 pc (t + u.epoch (clusterOf t) * 1024) (u.fld PMC_CTR_CFG.EVENT 0 k + i * 4096)
        (b2n trapped + 2 * b2n lost) word addr
    else u) s

/-- A thread that STEP let go halts again (R225). -/
def State.endStep (s : State) (t : Nat) : State :=
  if (s.thread t).step then
    (s.onThread t fun x => { x with step := false, halted := true, haltAt := s.up }).bump .TBC_STAT (clusterOf t) 10
  else s

/-- An instruction retires: its count, its event, its samples. -/
def State.retire (s : State) (t pc word addr : Nat) : State :=
  let s := s.onThread t fun x => { x with done := x.done + 1 }
  ((s.engEvent t 0x002).samples t pc word addr false).endStep t

/-- A thread of cluster `c` stops waiting: QUIET clears, and the detector starts anew (R226), as does the time without work (R227). -/
def State.stirred (s : State) (c : Nat) : State :=
  let s := s.put TBC_STATUS.QUIET 0 c
  { s with tbe := { s.tbe with quietSince := s.tbe.quietSince.set 0 c 0, idleSince := s.tbe.idleSince.set 0 c 0 } }

/-- A thread goes on after a wait: QUIET of its cluster clears (R226) and its watchdog starts anew. -/
def State.goesOn (s : State) (t : Nat) (g : Thread → Thread) : State :=
  (s.stirred (clusterOf t)).onThread t fun x => g { x with mode := .run, busySince := s.up }

/-- A thread as it starts (R205): g1 its ID and the other registers zero, no event pending, no trap vector. -/
def Thread.started (x : Thread) (t : Nat) : Thread :=
  { x with g := (Store.set 0 {} 1 (BitVec.ofNat 64 t)), epend := 0, tvec := 0, inTrap := false, done := 0 }

/-- A general register; g0 reads zero (R230). -/
def Thread.reg (x : Thread) (n : Nat) : Word := if n = 0 then 0 else x.g.get 0 n

/-- A write of a general register; a write to g0 is discarded. -/
def Thread.setReg (x : Thread) (n : Nat) (v : Word) : Thread := if n = 0 then x else { x with g := x.g.set 0 n v }

/-- The wait of a thread ends where its condition holds (R222, R254, R205): WFE writes EPEND & EMASK to rd; a parked thread
starts at ENTRY. -/
def State.checkWait (s : State) (t : Nat) : State :=
  let x := s.thread t
  if x.halted then s
  else match x.mode with
    | .wfe rd =>
      let v := x.epend &&& x.emask
      if v ≠ 0 then
        (s.goesOn t fun x => { x.setReg rd (BitVec.ofNat 64 v) with pc := (x.pc + 1) % 65536 }).retire t x.pc (s.instrAt (clusterOf t) x.pc) 0
      else s
    | .parked =>
      if (x.epend &&& s.fld TBC_START_MASK.MASK (clusterOf t)) ≠ 0 ∧ s.isSet TBE_CTL.EN (engineOf t) then
        s.goesOn t fun x => { x.started t with pc := s.fld TBC_ENTRY.ENTRY (clusterOf t) }
      else s
    | _ => s

/-- Bits of the pending set (R221). -/
def evChan : Nat := 0
def evTimer : Nat := 1
def evTime : Nat := 2
def evSev : Nat := 3
def evPkt : Nat := 4
def evMbx : Nat := 5

/-- An event of a thread (R221, R227, R255): discarded while its cluster is EMPTY or LOADED; it wakes a gated cluster and
ends a wait it satisfies. -/
def State.event (s : State) (t bit : Nat) : State :=
  if !s.clusterRuns (clusterOf t) then s
  else ((s.wakeCluster (clusterOf t)).onThread t fun x => { x with epend := x.epend ||| 2 ^ bit }).checkWait t

/-! ## Shares (R208) -/

/-- The dynamic slots and credits of an engine not in use. -/
def State.dynSlotsFree (s : State) (e : Nat) : Nat :=
  32 - 8 * s.fld TBC_SHARE.STATIC_SLOTS (e / 8) - ((threadsOfEngine e).map fun t => (s.thread t).dynSlots).sum
def State.dynCreditsFree (s : State) (e : Nat) : Nat :=
  64 - 8 * s.fld TBC_SHARE.STATIC_CREDITS (e / 8) - ((threadsOfEngine e).map fun t => (s.thread t).dynCredits).sum

/-- OUTSTANDING: messages of a thread that await a response (R231). -/
def Thread.outstanding (x : Thread) : Nat := x.outMem + x.outQueue

/-- Credits a thread has in use: messages awaiting a response, prefetches, and unread responses. -/
def Thread.credits (x : Thread) : Nat := x.outstanding + x.prefetches + x.unread.length

/-- A slot is free for the thread: of its static share, or of the dynamic pool. -/
def State.slotFree (s : State) (t : Nat) : Bool :=
  let x := s.thread t
  decide (x.slots.length - x.dynSlots < s.fld TBC_SHARE.STATIC_SLOTS (clusterOf t)) || decide (0 < s.dynSlotsFree (engineOf t))

/-- A credit is free for the thread. -/
def State.creditFree (s : State) (t : Nat) : Bool :=
  let x := s.thread t
  decide (x.credits - x.dynCredits < s.fld TBC_SHARE.STATIC_CREDITS (clusterOf t)) || decide (0 < s.dynCreditsFree (engineOf t))

/-- The lowest slot number of the engine that no thread holds. -/
def State.freeSlotNum (s : State) (e : Nat) : Option Nat :=
  (List.range 32).find? fun n => !(threadsOfEngine e).any fun t => (s.thread t).slots.any fun x => x.num == n

/-- The thread takes a slot for a packet (R208, R212, R233); the slot of a packet assigned to it becomes current while none is. -/
def State.giveSlot (s : State) (t : Nat) (x : Slot) : State :=
  let static := decide ((s.thread t).slots.length - (s.thread t).dynSlots < s.fld TBC_SHARE.STATIC_SLOTS (clusterOf t))
  s.onThread t fun y => { y with
    slots := y.slots ++ [x], cur := if x.made then y.cur else y.cur.or (some x.num), dynSlots := y.dynSlots + b2n (!static) }

/-- The thread gives a slot up (R208, R233): it returns to the static share first, and the oldest slot still held becomes
current where the current one went. -/
def State.takeSlot (s : State) (t n : Nat) : State :=
  s.onThread t fun y =>
    let rest := y.slots.filter fun x => x.num != n
    { y with
      slots := rest
      cur := if y.cur = some n then rest.head?.map (·.num) else y.cur
      dynSlots := if y.slots.length - y.dynSlots = 0 then y.dynSlots - 1 else y.dynSlots }

/-- The thread can take another packet (R209). -/
def State.takesPacket (s : State) (t : Nat) : Bool :=
  let x := s.thread t
  !x.halted && x.mode != .faulted && x.mode != .idle && s.slotFree t

/-- The engine can take a packet (R163, R209). -/
def State.engineRoom (s : State) (e : Nat) : Bool := s.engineTakes e && (threadsOfEngine e).any s.takesPacket

/-- The thread waits with PKT in its mask. -/
def State.waitsForPacket (s : State) (t : Nat) : Bool :=
  let x := s.thread t
  match x.mode with
  | .wfe _ => bitOf x.emask evPkt
  | .parked => bitOf (s.fld TBC_START_MASK.MASK (clusterOf t)) evPkt
  | _ => false

/-- The thread of an engine that a packet goes to (R209). -/
def State.packetThread (s : State) (e : Nat) : Option Nat :=
  let able := (threadsOfEngine e).filter s.takesPacket
  (able.find? s.waitsForPacket).or able.head?

/-- A packet is assigned to an engine with room (R209). -/
def State.assign (s : State) (e pool : Nat) (p : Packet) : State :=
  match s.packetThread e, s.freeSlotNum e with
  | some t, some n =>
    let s := (s.wakeCluster (e / 8)).giveSlot t
      { num := n, pkt := p, win := Memory.writeBytes {} 0x500 (p.bytes.take 0x3B00), len := min p.bytes.length 0x3B00
        pool := some pool, at_ := s.now }
    let s := (s.bump .TBC_STAT (e / 8) 4).cluEvent (e / 8) 0x101
    s.event t evPkt
  | _, _ => s

/-! ## Memory spaces (R211 to R213, R243, R244) -/

/-- Data-memory address of local or shared space: local space of thread i of the cluster from 2 KiB × i, shared space from
128 KiB (log entry 25). -/
def localAddr (t a : Nat) : Nat := dmemBase (clusterOf t) + 2048 * (t % 64) + a
def sharedAddr (t a : Nat) : Nat := dmemBase (clusterOf t) + 131072 + a

/-- Address of an offset in local (false) or shared (true) space. -/
def spaceAddr (shared : Bool) (t a : Nat) : Nat := if shared then sharedAddr t a else localAddr t a

/-- Bytes of local or shared space of a thread. -/
def State.threadRead (s : State) (t : Nat) (shared : Bool) (a n : Nat) : List Byte := Memory.readBytes s.tbe.mem (spaceAddr shared t a) n

/-- Writes bytes in local or shared space of a thread. -/
def State.threadWrite (s : State) (t : Nat) (shared : Bool) (a : Nat) (bs : List Byte) : State :=
  { s with tbe := { s.tbe with mem := Memory.writeBytes s.tbe.mem (spaceAddr shared t a) bs } }

/-- Bytes of local or shared space. -/
def spaceSize (shared : Bool) : Nat := if shared then 131072 else 2048

/-- `n` bytes at an offset lie within local or shared space. -/
def spaceHolds (shared : Bool) (a n : Nat) : Bool := decide (a + n ≤ spaceSize shared)

/-- The thread's current slot. -/
def Thread.current (x : Thread) : Option Slot := x.cur.bind fun n => x.slots.find? fun y => y.num == n

/-- Updates the slot of a thread with a number. -/
def Thread.onSlot (x : Thread) (n : Nat) (g : Slot → Slot) : Thread :=
  { x with slots := x.slots.map fun y => if y.num == n then g y else y }

/-- A byte of the packet window (R212): PHV bytes 384 to 511 below 0x80, the frame's bytes from 0x400 on; bytes past the
frame's end read zero. -/
def Slot.byte (x : Slot) (a : Nat) : Byte :=
  if a < 0x80 then x.pkt.phv.getD (384 + a) 0
  else if x.start + x.len ≤ a then 0
  else Memory.read x.win a

/-- A byte written to the packet window. -/
def Slot.setByte (x : Slot) (a : Nat) (b : Byte) : Slot :=
  if a < 0x80 then { x with pkt := { x.pkt with phv := overwrite x.pkt.phv (384 + a) [b] } }
  else { x with win := Memory.write x.win a b }

/-- `n` bytes at an address lie within a space, and may be stored where a store is asked (R211, R212, R243). -/
def State.inSpace (s : State) (t : Nat) (x : Thread) (space addr n : Nat) (store : Bool) : Bool :=
  let c := clusterOf t
  match space with
  | 0 => spaceHolds false addr n
  | 1 => spaceHolds true addr n
  | 2 => x.current.isSome && ((decide (addr + n ≤ 0x80) && (!store || decide (0x40 ≤ addr))) || (decide (0x400 ≤ addr) && decide (addr + n ≤ 0x4000)))
  | 3 => !store && decide (addr < 2 ^ 26) && decide (addr % 65536 + n ≤ 65536) && decide (addr / 65536 < 640) &&
      decide (s.blockOwner (addr / 65536) ≤ 7) && bitOf (s.fld TBC_TBL_SETS.SETS c) (s.blockOwner (addr / 65536))
  | k => decide (addr + n ≤ page4k (s.fld TBC_DDR_WIN_SIZE.SIZE c (k - 4))) && (!store || s.isSet TBC_DDR_WIN_SIZE.WRITE c (k - 4))

/-- DDR address of a window offset. -/
def State.windowAddr (s : State) (c k a : Nat) : Nat := page4k (s.fld TBC_DDR_WIN_BASE.BASE c k) + a

/-- The bytes a thread reads of DDR: its own posted stores lie over what the others see (R245). -/
def State.ddrSeen (s : State) (t a n : Nat) : List Byte :=
  (s.tbe.posted.filter fun x => x.thread == t).foldl (fun bs x =>
    bs.zipIdx.map fun b => if x.addr ≤ a + b.2 ∧ a + b.2 < x.addr + x.bytes.length then x.bytes.getD (a + b.2 - x.addr) 0 else b.1) (s.ddrRead a n)

/-- A thread's store to DDR is posted. -/
def State.post (s : State) (t a : Nat) (bs : List Byte) : State :=
  { s with tbe := { s.tbe with posted := s.tbe.posted ++ [{ thread := t, addr := a, bytes := bs }] } }

/-- The posted stores reach DDR, oldest first; at every AOCLK edge (log entry 161). -/
def State.drainPosted (s : State) : State :=
  let u := s.tbe.posted.foldl (fun u x => u.ddrWrite x.addr x.bytes) s
  { u with tbe := { u.tbe with posted := [] } }

/-- The bytes a load reads. -/
def State.loadBytes (s : State) (t : Nat) (x : Thread) (space addr n : Nat) : List Byte :=
  match space with
  | 0 => s.threadRead t false addr n
  | 1 => s.threadRead t true addr n
  | 2 => match x.current with
    | some y => (List.range n).map fun i => y.byte (addr + i)
    | none => []
  | 3 => s.tblRead addr n
  | k => s.ddrSeen t (s.windowAddr (clusterOf t) (k - 4) addr) n

/-- The state after a store. -/
def State.storeBytes (s : State) (t : Nat) (space addr : Nat) (bs : List Byte) : State :=
  match space with
  | 0 => s.threadWrite t false addr bs
  | 1 => s.threadWrite t true addr bs
  | 2 => s.onThread t fun x => match x.cur with
    | some n => x.onSlot n fun y => (bs.foldl (fun (a : Slot × Nat) b => (a.1.setByte a.2 b, a.2 + 1)) (y, addr)).1
    | none => x
  | 3 => s
  | k => (s.post t (s.windowAddr (clusterOf t) (k - 4) addr) bs).devEvent 0x304

/-- The frame a slot holds, as it would be sent. -/
def Slot.frame (x : Slot) : List Byte := (List.range x.len).map fun i => x.byte (x.start + i)

/-! ## Messages and responses (R214 to R216) -/

/-- Fields of a message header. -/
def Msg.header (m : Msg) : Word := m.words.headD 0
def Msg.channel (m : Msg) : Nat := getBits m.header 7 0
def Msg.op (m : Msg) : Nat := getBits m.header 15 8
def Msg.len (m : Msg) : Nat := getBits m.header 19 16
def Msg.tag (m : Msg) : Nat := getBits m.header 31 24
def Msg.respAddr (m : Msg) : Nat := getBits m.header 48 32
def Msg.respShared (m : Msg) : Bool := getBits m.header 21 21 != 0

/-- Word `i` of a message; words it does not have read zero. -/
def Msg.word (m : Msg) (i : Nat) : Word := if i < m.len then m.words.getD i 0 else 0

/-- Where the response goes. -/
def Msg.respMem (m : Msg) : Option (Bool × Nat) := if getBits m.header 20 20 = 1 then some (m.respShared, m.respAddr) else none

/-- The message at a place of the list in flight, if a target may take it now: no earlier message of its thread to its
channel waits (R252), and it is of the channel and operation named. -/
def State.message (s : State) (place channel op : Nat) : Option Msg :=
  match s.tbe.msgs[place]? with
  | none => none
  | some m =>
    if m.channel = channel ∧ m.op = op ∧
        !(s.tbe.msgs.take place).any fun e => e.thread == m.thread && e.channel == m.channel then some m else none

/-- A message leaves the list. -/
def State.takeMsg (s : State) (place : Nat) : State := { s with tbe := { s.tbe with msgs := s.tbe.msgs.eraseIdx place } }

/-- A response is sent (R216): STATUS, DETAIL and further words; and with it an entry that lands at RESP_ADDR, behind a header that lands
there too (R219, log entry 162). -/
def State.respond (s : State) (m : Msg) (status : Nat) (detail : Nat := 0) (more : List Word := []) (entry : List Byte := []) : State :=
  let len := 1 + more.length
  let h := place m.channel 7 0 + place status 15 8 + place len 19 16 + place m.tag 31 24 + place detail 63 32
  { s with tbe := { s.tbe with resps := s.tbe.resps ++
    [{ thread := m.thread, epoch := m.epoch, channel := m.channel, mem := m.respMem, words := BitVec.ofNat 64 h :: more
       entry, entryAt := (m.respShared, m.respAddr + (if m.respMem.isSome then 8 else 0)) }] } }

/-- A thread gives a credit back, to its static share first (R208, R216). -/
def Thread.returnCredit (x : Thread) : Thread :=
  { x with dynCredits := if x.credits - x.dynCredits = 0 then x.dynCredits - 1 else x.dynCredits }

/-- A response lands (R216, R482): in memory with its credit returned, or in the response queue; one of an old epoch is
dropped with source 4 of group 26. CHAN is set, and TARGET_ABSENT fires the cluster's source 6. -/
def State.land (s : State) (r : Resp) : State :=
  let c := clusterOf r.thread
  if r.epoch ≠ s.epoch c then s.fire 26 4
  else
    let s := if getBits (r.words.headD 0) 15 8 = 1 then s.clusterEvent c 6 r.thread else s
    let s := s.threadWrite r.thread r.entryAt.1 r.entryAt.2 (r.entry.take (spaceSize r.entryAt.1 - r.entryAt.2))
    let s := match r.mem with
      | some (sh, a) => (s.threadWrite r.thread sh a (wordBytes r.words)).onThread r.thread fun x =>
          let y := x.returnCredit
          { y with outMem := y.outMem - 1 }
      | none => s.onThread r.thread fun x => { x with outQueue := x.outQueue - 1, unread := x.unread ++ [r.words] }
    s.event r.thread evChan

/-- The thread at whose engine's counters and cluster's sources an event of a requester counts. -/
def Msg.epochOk (s : State) (m : Msg) : Bool := m.epoch == s.epoch (clusterOf m.thread)

end Sys2Proof.Machine
end

