-- ==== Sys2Proof/Machine/QueueOps.lean ====
section
/-! DEFINITION. Host memory as the part's DMA reaches it, MSI-X, queue pairs, completions and halts (R286 to R307). -/
namespace Sys2Proof.Machine

/-! ## Host memory -/

/-- The link's requests may be issued as far as IDE goes: IDE_REQ is 0, or a stream is Secure (R333). -/
def State.ideOpen (s : State) (l : Nat) : Bool := !s.isSet HL_LINK_CTL.IDE_REQ l || s.fld HL_IDE_STATUS.STATE l != 0

/-- A function's requests reach the host now: its link is up, it may master the bus, it is not in FLR or D3hot, the mode lets
the part issue requests, and IDE does not hold them (R316, R325, R326, R333). -/
def State.dmaOk (s : State) (f : Nat) : Bool :=
  match s.linkOf f with
  | some l => s.isSet HL_LINK_STATUS.UP l && (s.pcie f).busMaster && (s.pcie f).flr.isNone && !(s.pcie f).d3hot &&
      s.mode != NIGHT && s.mode != MIDNIGHT && s.ideOpen l
  | none => false

/-- Requests of a kind that the link of a function has issued grow by `n`: 1 reads, 2 writes (R329). -/
def State.linkCount (s : State) (f k n : Nat) : State :=
  match s.linkOf f with
  | some l => s.bump .HL_STAT l k n
  | none => s

/-- A memory request of a function's host for one of its BARs arrives (R319, R486). -/
def State.hostTlp (s : State) (f : Nat) : State := (s.linkCount f 0 1).devEvent 0x30A

/-- Where byte `a` of a function's DMA space lies in `State.host`. -/
def State.hostAddr (s : State) (f a : Nat) : Nat := (s.linkOf f).getD 0 * 2 ^ 64 + a % 2 ^ 64

/-- `n` bytes of a function's DMA space. -/
def State.hostRead (s : State) (f a n : Nat) : List Byte := Memory.readBytes s.host (s.hostAddr f a) n

/-- Bytes written to a function's DMA space, counted as one write request (log entry 29). -/
def State.hostWrite (s : State) (f a : Nat) (bs : List Byte) : State :=
  ({ s with host := Memory.writeBytes s.host (s.hostAddr f a) bs }).linkCount f 2 1

/-! ## What a host reaches -/

/-- A function is in a reset of R323: PERST# or a link that is down, or an FLR. -/
def State.fnInReset (s : State) (f : Nat) : Bool :=
  match s.linkOf f with
  | some l => (s.hlink l).perst || !s.isSet HL_LINK_STATUS.UP l || (s.pcie f).flr.isSome
  | none => true

/-- A VF is one that its PF's host has enabled; a PF always is (R320). -/
def State.fnEnabled (s : State) (f : Nat) : Bool :=
  f < 32 || match s.pfOf f with
    | some pf => s.vfEnabled pf && decide (s.vfNumber f < s.numVfs pf)
    | none => false

/-- A function exists on its link: a PF, or a VF that its host has enabled. -/
def State.fnPresent (s : State) (f : Nat) : Bool := (s.pfOf f).isSome && (s.linkOf f).any s.linkExists && s.fnEnabled f

/-- A function takes memory requests: present on its link, out of reset and D3hot, Memory Space Enable set. -/
def State.takesMemory (s : State) (l f : Nat) : Bool :=
  s.linkOf f == some l && s.fnPresent f && !s.fnInReset f && (s.pcie f).memSpace && !(s.pcie f).d3hot

/-- A host's write reaches a register of a function: its link is up, it takes memory requests, and the mode lets BARs answer (R316). -/
def State.hostReaches (s : State) (f : Nat) : Bool :=
  (s.linkOf f).any (fun l => s.takesMemory l f) && s.mode != NIGHT && s.mode != MIDNIGHT

/-! ## Non-posted requests (R314, R315, R328) -/

/-- The error is correctable. -/
def AerError.correctable : AerError → Bool
  | .receiver | .badTlp | .badDllp | .replayTimeout | .replayRollover | .correctedInternal | .advisoryNonFatal | .headerOverflow => true
  | _ => false

/-- The errors, in the order of the table. -/
def aerErrors : List AerError :=
  [.receiver, .badTlp, .badDllp, .replayTimeout, .replayRollover, .correctedInternal, .advisoryNonFatal, .headerOverflow,
    .dataLinkProtocol, .flowControlProtocol, .receiverOverflow, .malformedTlp, .poisonedTlp, .completionTimeout, .completerAbort,
    .unexpectedCompletion, .unsupportedRequest, .uncorrectableInternal, .ideCheckFailed, .ideMisrouted]

/-- Default severity fatal. -/
def AerError.fatal : AerError → Bool
  | .dataLinkProtocol | .flowControlProtocol | .receiverOverflow | .malformedTlp | .uncorrectableInternal => true
  | _ => false

/-- The error concerns a TLP, whose header AER may log. -/
def AerError.hasHeader : AerError → Bool
  | .malformedTlp | .poisonedTlp | .completerAbort | .unexpectedCompletion | .unsupportedRequest | .ideCheckFailed | .ideMisrouted => true
  | _ => false

/-- An error is logged in a function (R328), and the link's source for its class is raised (R329). The header of the first uncorrectable error of
a TLP is logged; its bytes come from the wire and are free (log entry 2). -/
def State.pcieError (s : State) (f : Nat) (e : AerError) : State :=
  match s.linkOf f with
  | none => s
  | some l =>
    let fatal := e.fatal != (s.pcie f).aerSwapped.contains e
    let k := if e.correctable then 1 else if fatal then 3 else 2
    let first := e.hasHeader && (s.pcie f).aerHeader == [] && !(s.pcie f).aerMask.contains e
    let s := if first then (s.onPcie f fun p => { p with aerHeader := Config.freeBytes s.free 56 }).drawn else s
    let s := s.logAer f e
    if s.linkExists l then s.fire (6 + l / 4) (8 * (l % 4) + k) else s

/-- The error that a failed completion logs; none for a good one. -/
def cplError : CplStatus → Option AerError
  | .success => none
  | .unsupported => some .unsupportedRequest
  | .abort => some .completerAbort
  | .poisoned => some .poisonedTlp

/-- A read of the use that `p` picks is outstanding for a function. -/
def State.readPending (s : State) (f : Nat) (p : ReadUse → Bool) : Bool :=
  match s.linkOf f with
  | some l => (s.hlink l).reads.any fun r => p r.use
  | none => false

/-- Tags that a function may use on its link, as the host has enabled them (R314). -/
def State.maxTags (s : State) (l f : Nat) : Nat :=
  if s.isSet HL_LINK_STATUS.FLIT l && (s.pcie f).tag14 then 4096 else if (s.pcie f).tag10 then 768 else 256

/-- A read is issued under the lowest free tag; with none free it waits. -/
def State.issueRead (s : State) (f : Nat) (u : ReadUse) : State :=
  match s.linkOf f with
  | none => s
  | some l =>
    let k := s.hlink l
    match (List.range (s.maxTags l f)).find? fun g => !(k.reads.any fun r => r.tag == g) && !(k.void.any fun v => v.1 == g) with
    | none => s
    | some g => (s.onLink l fun k => { k with reads := k.reads ++ [{ tag := g, fn := f, use := u, issued := s.up }] }).linkCount f 1 1

/-! ## Functions and their vectors -/

/-- A function's network side. -/
def State.fn (s : State) (f : Nat) : FnState := s.hq.fns.get {} f

/-- Updates a function's network side. -/
def State.onFn (s : State) (f : Nat) (g : FnState → FnState) : State :=
  { s with hq := { s.hq with fns := s.hq.fns.modify {} f g } }

/-- Queue pairs and vectors of a function; none while VALID is 0 (R288). -/
def State.qpCount (s : State) (f : Nat) : Nat := if s.isSet FNC_RES_CTL.VALID f then s.fld FNC_RES_QP.QP_COUNT f else 0
def State.vecCount (s : State) (f : Nat) : Nat := if s.isSet FNC_RES_CTL.VALID f then s.fld FNC_RES_VEC.VEC_COUNT f else 0

/-- A function's MSI-X messages may be issued now, IDE apart (R316, R325, R326); `mbx`: one of the root-of-trust mailbox, which MIDNIGHT
lets go. -/
def State.canSignal (s : State) (f : Nat) (mbx : Bool) : Bool :=
  match s.linkOf f with
  | some l => s.isSet HL_LINK_STATUS.UP l && (s.pcie f).busMaster && (s.pcie f).flr.isNone && !(s.pcie f).d3hot &&
      s.mode != NIGHT && (mbx || s.mode != MIDNIGHT)
  | none => false

/-- The MSI-X message of a vector goes out, or its PBA bit is set while it is masked (R306, R307). One that IDE holds waits (R333); one
that may not be issued is lost (R325). -/
def State.msix (s : State) (f v : Nat) (mbx : Bool := false) : State :=
  let p := s.pcie f
  if !p.msixEnable then s
  else if p.msixMask || !(s.fn f).vecOpen.contains v then s.onFn f fun x => if x.pba.contains v then x else { x with pba := x.pba ++ [v] }
  else if !s.canSignal f mbx then s
  else if !(s.linkOf f).any s.ideOpen then s.onFn f fun x => if x.ideWait.contains v then x else { x with ideWait := x.ideWait ++ [v] }
  else
    let s := s.onFn f fun x => { x with pba := x.pba.filter (· != v) }
    let s := s.hostWrite f ((s.fn f).vecAddr.get 0 v) (natLe 4 ((s.fn f).vecData.get 0 v))
    match s.linkOf f with
    | some l => s.onLink l fun k => { k with msix := (f, v) :: k.msix }
    | none => s

/-- MSI-X messages that waited for a Secure stream of link `l` go out once one is (R333). -/
def State.releaseIde (s : State) (l : Nat) : State :=
  if !s.ideOpen l then s
  else (s.hq.fns.keys.filter fun f => s.linkOf f == some l && (s.fn f).ideWait != []).foldl (fun t f =>
    let vs := (t.fn f).ideWait
    vs.foldl (fun u v => u.msix f v) (t.onFn f fun x => { x with ideWait := [] })) s

/-- A network function signals local vector `v`; one at or above VEC_COUNT sends nothing and is counted (R307). -/
def State.signal (s : State) (f v : Nat) : State :=
  if v < s.vecCount f then s.msix f v else s.bump .FNC_FN_STAT f 5

/-! ## Queue pairs -/

/-- STATE codes of a queue (R303). -/
def DISABLED : Nat := 0
def ACTIVE : Nat := 1
def STOPPING : Nat := 2
def HALTED : Nat := 3

/-- Completion and halt codes of R300. -/
def stOk : Nat := 0
def stBadDesc : Nat := 1
def stDmaError : Nat := 2
def stDropped : Nat := 3
def stPortDown : Nat := 4
def stHoldExpired : Nat := 5
def stTooFar : Nat := 6
def stStopped : Nat := 7
def stTokenUnsync : Nat := 8
def stTokenBusy : Nat := 9
def stTokenNotAvailable : Nat := 10
def stBadDoorbell : Nat := 11
def stBmeOff : Nat := 13

/-- A queue pair, by its global number. -/
def State.pair (s : State) (g : Nat) : QueuePair := s.hq.pairs.get {} g

/-- Updates a queue pair. -/
def State.onPair (s : State) (g : Nat) (h : QueuePair → QueuePair) : State :=
  { s with hq := { s.hq with pairs := s.hq.pairs.modify {} g h } }

/-- Global number of local queue `q` (R287). -/
def State.globalQueue (s : State) (f q : Nat) : Nat := s.fld FNC_RES_QP.QP_BASE f + q

/-- The binding of a global queue to the transport (R335): SARUP, and the thread of an engine queue (R360). -/
def State.bindWord (s : State) (g : Nat) : Nat := (s.raw .XPT_QP_BIND 0 g).toNat
def State.isSarup (s : State) (g : Nat) : Bool := bitOf (s.bindWord g) 0
def State.engineThread (s : State) (g : Nat) : Option Nat :=
  if s.isSarup g && bitOf (s.bindWord g) 1 then some (bits (s.bindWord g) 11 2) else none

/-- Bytes of a queue's memory: the function's DMA space, or DDR for an engine queue (R360; log entry 39). -/
def State.queueRead (s : State) (f g a n : Nat) : List Byte :=
  if (s.engineThread g).isSome then s.ddrRead (a % 2 ^ 40) n else s.hostRead f a n
def State.queueWrite (s : State) (f g a : Nat) (bs : List Byte) : State :=
  if (s.engineThread g).isSome then s.ddrWrite (a % 2 ^ 40) bs else s.hostWrite f a bs

/-- A queue's memory can be reached now. -/
def State.queueReach (s : State) (f g : Nat) : Bool := (s.engineThread g).isSome || s.dmaOk f

/-- The function that owns a global queue, with the local number. -/
def State.queueOwner (s : State) (g : Nat) : Option (Nat × Nat) :=
  ((List.range 2080).find? fun f => s.isSet FNC_RES_CTL.VALID f && decide (s.fld FNC_RES_QP.QP_BASE f ≤ g) &&
    decide (g < s.fld FNC_RES_QP.QP_BASE f + s.fld FNC_RES_QP.QP_COUNT f)).map fun f => (f, g - s.fld FNC_RES_QP.QP_BASE f)

/-- Entries of ring `r` (0 TX, 1 RX, 2 TX completion, 3 RX completion): 2^n with n held within 6 to 15. -/
def QueuePair.size (q : QueuePair) (r : Nat) : Nat := 2 ^ within (getBits q.cfg (4 * r + 3) (4 * r)) 6 15

/-- Bytes of an entry of ring `r` (R290). -/
def entryBytes (r : Nat) : Nat := if r = 1 then 16 else 32

/-- Producer and consumer indexes of ring `r`. -/
def QueuePair.P (q : QueuePair) (r : Nat) : Nat := q.prod.get 0 r
def QueuePair.C (q : QueuePair) (r : Nat) : Nat := q.cons.get 0 r

/-- Entries the ring holds: P − C modulo 65,536. -/
def QueuePair.used (q : QueuePair) (r : Nat) : Nat := (q.P r + 65536 - q.C r) % 65536

/-- The ring is full. -/
def QueuePair.full (q : QueuePair) (r : Nat) : Bool := decide (q.size r ≤ q.used r)

/-- Address of entry `i` of ring `r` (R290). -/
def QueuePair.slotAddr (q : QueuePair) (r i : Nat) : Nat := q.base.get 0 r + entryBytes r * (i % q.size r)

/-- Index arithmetic modulo 65,536. -/
def idx (i : Nat) : Nat := i % 65536

/-- An armed ring fires its vector when its pending completions reach COUNT (R306). -/
def State.checkIrq (s : State) (f g : Nat) (rx : Bool) : State :=
  let q := s.pair g
  let irq := if rx then q.rxIrq else q.txIrq
  let count := max 1 (getBits q.irq 55 48)
  if irq.armed && decide (count ≤ irq.times.length) then
    let s := s.onPair g fun q => if rx then { q with rxIrq := { q.rxIrq with armed := false } } else { q with txIrq := { q.txIrq with armed := false } }
    s.signal f (if rx then getBits q.irq 26 16 else getBits q.irq 10 0)
  else s

/-- A completion (words 0 to 3, PHASE still clear) is written to ring `r` as one aligned write, with PHASE of its pass
(R300), and the ring's interrupt is checked. -/
def State.writeCompletion (s : State) (f g r : Nat) (w0 w1 w2 w3 : Nat) : State :=
  let q := s.pair g
  let p := q.P r
  let phase := 1 - p / q.size r % 2
  let s := s.queueWrite f g (q.slotAddr r p) (natLe 8 w0 ++ natLe 8 w1 ++ natLe 8 (w2 + phase * 2 ^ 63) ++ natLe 8 w3)
  let s := s.onPair g fun q => { q with prod := q.prod.set 0 r (idx (p + 1)) }
  let s := s.onPair g fun q =>
    if r = 3 then { q with rxIrq := { q.rxIrq with times := q.rxIrq.times ++ [s.now] } }
    else { q with txIrq := { q.txIrq with times := q.txIrq.times ++ [s.now] } }
  s.checkIrq f g (r = 3)

/-- Word 2 of a completion, without PHASE. -/
def complWord2 (index len status : Nat) (degraded late clamped ignored : Bool) (nbuf kind tsKind : Nat) : Nat :=
  place index 15 0 + place len 35 16 + place status 43 36 + place (b2n degraded) 44 44 + place (b2n late) 45 45 +
    place (b2n clamped) 46 46 + place (b2n ignored) 47 47 + place nbuf 51 48 + place kind 52 52 + place tsKind 53 53

/-- Word 2 of a Sarup completion, without PHASE (R342). -/
def sarupWord2 (index status op kind : Nat) (degraded late hasTs : Bool) (len : Nat) : Nat :=
  place index 15 0 + place status 23 16 + place op 27 24 + place kind 28 28 + place (b2n degraded) 29 29 + place (b2n late) 30 30 +
    place (b2n hasTs) 31 31 + place len 62 32

/-- TS64 now and its degraded bit as sampled in the AOCLK domain (R44). -/
def State.stampNow (s : State) : Nat × Bool := (s.ts64, s.sagCommon)

/-! ## Ends of frames -/

/-- A Sarup packet has left the part, or has been dropped in it: its timer runs from now (R345). -/
def State.sarupSent (s : State) (p : Packet) : State :=
  match p.sarup with
  | none => s
  | some r => { s with xpt := { s.xpt with conns := s.xpt.conns.modify {} r.conn fun c =>
      { c with out := c.out.map fun x => if x.psn == r.psn then { x with sentAt := s.now, sentUp := s.up, degraded := s.sagCommon } else x } } }

/-- A packet of a Sarup request ends (R341, R342): the request completes when its last packet has first left its port, or when one
of its packets is discarded by HOLD, LAUNCH or a stop; a packet dropped on its way is sent again. -/
def TxChain.sarupEnds (c : TxChain) (p : Packet) (status ts : Nat) (degraded : Bool) : TxChain :=
  if c.left = 0 ∨ status = stDropped ∨ status = stPortDown then c
  else
    let c := { c with late := c.late || p.late }
    if status ≠ stOk then { c with left := 0, status, ts, degraded }
    else if p.sarup.any fun r => r.last then { c with left := 0, ts, degraded }
    else c

/-- A frame of a TX chain ends with a status, a timestamp and its kind (R301): the chain's completion takes them, the timestamp from its
last segment; a non-zero status stays. -/
def State.endFrame (s : State) (p : Packet) (status ts : Nat) (degraded : Bool) (tsKind : Nat) : State :=
  let s := s.sarupSent p
  match p.tx with
  | none => s
  | some r => s.onPair r.queue fun q => { q with chains := q.chains.map fun c =>
      if c.id == r.chain && c.sarup.isSome then c.sarupEnds p status ts degraded
      else if c.id == r.chain then
        let c := { c with left := c.left - 1, status := if c.status = 0 then status else c.status, late := c.late || p.late
                          clamped := c.clamped || p.clamped, ignored := c.ignored || p.ignored }
        if r.last then { c with ts, degraded, tsKind } else c
      else c }

/-- A frame dropped before it was selected: DROPPED or another status at the given instant (R300). -/
def State.dropFrame (s : State) (p : Packet) (status : Nat) : State :=
  let t := s.stampNow
  s.endFrame p status t.1 t.2 1

/-- A frame discarded after its selection carries that selection's instant (R300). -/
def State.dropSelected (s : State) (p : Packet) (status : Nat) : State := s.endFrame p status p.selTs.1 p.selTs.2 1

/-- Frames of a queue waiting in the HOLD logic or a launch calendar are discarded with QUEUE_STOPPED (R303). -/
def State.stopHeld (s : State) (g : Nat) : State :=
  let mine (p : Packet) : Bool := p.tx.any fun r => r.queue == g
  let s := (List.range 52).foldl (fun t k =>
    let l := t.net.holds.get [] k
    let t := { t with net := { t.net with holds := t.net.holds.set [] k (l.filter fun h => !mine h.pkt) } }
    (l.filter fun h => mine h.pkt).foldl (fun u h => u.dropSelected h.pkt stStopped) t) s
  (List.range 32).foldl (fun t k =>
    let l := t.net.calendar.get [] k
    let t := { t with net := { t.net with calendar := t.net.calendar.set [] k (l.filter fun p => !mine p) } }
    (l.filter mine).foldl (fun u p => u.dropSelected p stStopped) t) s

/-- The host link's Gong source `k` (R329). -/
def State.linkEvent (s : State) (l k : Nat) (addr : Nat := 0) : State :=
  if s.linkExists l then s.fire (6 + l / 4) (8 * (l % 4) + k) addr else s

/-- A queue enters HALTED (R304): ERR, ERR_INDEX, one error completion in the failing direction's ring, the ERR_VEC
message and the link's queue-halt source. A second error changes nothing. -/
def State.haltQueue (s : State) (g err index : Nat) (rx : Bool) : State :=
  match s.queueOwner g with
  | none => s
  | some (f, _) =>
    if (s.pair g).state ≠ ACTIVE then s
    else
      let s := s.onPair g fun q => { q with state := HALTED, err, errIndex := index }
      let s := s.bump .FNC_FN_STAT f 4
      let r := if rx then 3 else 2
      let t := s.stampNow
      let w2 := if s.isSarup g then sarupWord2 index err 0 (b2n rx) t.2 false false 0
        else complWord2 index 0 err t.2 false false false 0 (b2n rx) 1
      let s := if (s.pair g).full r || !s.queueReach f g || err == stBmeOff then s else s.writeCompletion f g r t.1 0 w2 0
      let s := s.signal f (s.fld FNC_FN_INFO.ERR_VEC f)
      let s := match s.linkOf f with
        | some l => s.linkEvent l 4
        | none => s
      s.stopHeld g

/-! ## Receive -/

/-- An RX buffer: address, length, cookie; none where LEN or a reserved bit is bad (R299). -/
def State.rxBuffer (s : State) (f g i : Nat) : Option (Nat × Nat × Nat) :=
  let d := s.queueRead f g ((s.pair g).slotAddr 1 i) 16
  let w1 := leNat (d.drop 8)
  let len := bits w1 13 0
  if len < 128 ∨ bits w1 15 14 ≠ 0 then none else some (leNat (d.take 8), len, bits w1 63 16)

/-- The posted buffers that `need` bytes fill, in ring order, at most `n` more; `none` inside marks a bad descriptor. -/
def State.gather (s : State) (f g : Nat) : Nat → Nat → Nat → List (Option (Nat × Nat × Nat))
  | 0, _, _ => []
  | n + 1, i, need =>
    match s.rxBuffer f g i with
    | none => [none]
    | some b => if need ≤ b.2.1 then [some b] else some b :: State.gather s f g n (idx (i + 1)) (need - b.2.1)

/-- Bytes that a list of buffers holds. -/
def bufferBytes (l : List (Option (Nat × Nat × Nat))) : Nat := (l.map fun b => (b.map (·.2.1)).getD 0).sum

/-- What the queue can do with a frame of `n` bytes: take it, wait, drop it for more than 16 buffers, or find a bad
descriptor (R299, R302). -/
inductive RxFit where
  | takes (bufs : List (Nat × Nat × Nat)) | waits | tooMany | bad (index : Nat)
deriving DecidableEq, Repr

/-- R302 for an ACTIVE queue. -/
def State.rxFit (s : State) (f g n : Nat) : RxFit :=
  let q := s.pair g
  if q.full 3 || !s.dmaOk f then .waits
  else
    let l := s.gather f g (min 16 (q.used 1)) (q.C 1) n
    match l.findIdx? (·.isNone) with
    | some k => .bad (idx (q.C 1 + k))
    | none =>
      if n ≤ bufferBytes l then .takes (l.filterMap id)
      else if l.length = 16 then .tooMany else .waits

/-- Data written into buffers in ring order. -/
def State.fillBuffers (s : State) (f : Nat) : List (Nat × Nat × Nat) → List Byte → State
  | [], _ => s
  | b :: rest, bs => State.fillBuffers (s.hostWrite f b.1 (bs.take b.2.1)) f rest (bs.drop b.2.1)

/-- A frame is delivered (R299, R300): its data, then its RX completion, whose TS_KIND no rule gives: a free value (log entry 2). -/
def State.rxDeliver (s : State) (f g : Nat) (p : Packet) (bufs : List (Nat × Nat × Nat)) : State :=
  let c := (s.pair g).C 1
  let s := (s.linkCount f 1 bufs.length).fillBuffers f bufs p.bytes
  let s := s.onPair g fun q => { q with cons := q.cons.set 0 1 (idx (c + bufs.length)) }
  let phv (o n : Nat) : Nat := leNat (slice p.phv o n)
  let status := phv 397 1
  let w1 := place ((bufs.headD (0, 0, 0)).2.2) 47 0 + place p.source 63 48
  let w3 := place (phv 400 4) 31 0 + place (onesSum (p.bytes.drop 14)) 47 32 + place (bits status 3 0) 51 48 +
    place (bits status 4 4) 52 52 + place (bits status 5 5) 53 53
  let kind := bits (Config.freeWord s.free).toNat 0 0
  let s := s.drawn.bump .FNC_FN_STAT f 2
  s.writeCompletion f g 3 p.ts w1 (complWord2 c p.bytes.length stOk p.degraded p.late false false bufs.length 1 kind) w3

/-! ## Transmit completions -/

/-- A chain's completion is to be written (R301): CQE, a non-zero status, a flag, or a token; of a Sarup request, CQE, a non-zero
status, an OPEN, or an engine queue, which is answered for each (R341, R360). -/
def TxChain.reports (c : TxChain) : Bool :=
  match c.sarup with
  | some r => c.cqe || c.status != 0 || r.op == 7 || r.msg.isSome
  | none => c.cqe || c.status != 0 || c.late || c.clamped || c.ignored || c.token

/-- Bytes that a Sarup request has moved: those placed of a READ, the word of an atomic, all of a WRITE or SEND that ends well. -/
def TxChain.moved (c : TxChain) (r : SarupReq) : Nat :=
  if r.op = 3 then r.placed else if c.status = 0 ∧ r.op < 6 then c.len else 0

/-- The words of a Sarup completion of the send side, without PHASE (R342). -/
def TxChain.sarupWords (c : TxChain) (r : SarupReq) : Nat × Nat × Nat × Nat :=
  (c.ts, place c.cookie 31 0 + place r.conn 49 32, sarupWord2 c.index c.status r.op 0 c.degraded c.late false (c.moved r), r.value)

/-- The completion of a chain is written, or answered to its thread. -/
def State.reportChain (s : State) (f g : Nat) (c : TxChain) : State :=
  match c.sarup with
  | some r =>
    let w := c.sarupWords r
    match r.msg with
    | some m => s.respond m (16 + c.status) 0 ([w.1, w.2.1, w.2.2.1, w.2.2.2].map (BitVec.ofNat 64))
    | none => s.writeCompletion f g 2 w.1 w.2.1 w.2.2.1 w.2.2.2
  | none =>
    s.writeCompletion f g 2 c.ts c.cookie
      (complWord2 c.index c.len c.status c.degraded c.late c.clamped c.ignored 0 0 c.tsKind) (if c.token then place c.batch 51 0 else 0)

/-- The oldest chain of a queue whose frames have all ended leaves, with its completion where it reports one (R301); a full
completion ring holds it back, and a HALTED queue writes none (R303). -/
def State.releaseChain (s : State) (f g : Nat) : Option State :=
  match (s.pair g).chains with
  | [] => none
  | c :: rest =>
    if c.left ≠ 0 then none
    else if ((s.pair g).state = HALTED ∧ !(c.sarup.any fun r => r.msg.isSome)) ∨ !c.reports then some (s.onPair g fun q => { q with chains := rest })
    else if !(c.sarup.any fun r => r.msg.isSome) && ((s.pair g).full 2 || !s.dmaOk f) then none
    else some ((s.onPair g fun q => { q with chains := rest }).reportChain f g c)

end Sys2Proof.Machine
end

