-- ==== Sys2Proof/Machine/MbxOps.lean ====
section
/-! DEFINITION. Mailboxes (R447 to R456): posts, pops, absence, wakes, resets at either end, and the token unit's replies. -/
namespace Sys2Proof.Machine

/-- A mailbox. -/
def State.mbox (s : State) (m : Nat) : Mailbox := s.mbx.get {} m

/-- Updates a mailbox. -/
def State.onMbox (s : State) (m : Nat) (g : Mailbox → Mailbox) : State := { s with mbx := s.mbx.modify {} m g }

/-- The modes in which mailbox `m` is available (R447). -/
def State.mbxAvailable (s : State) (m : Nat) : Bool :=
  if m < 2096 then s.inService || s.mode == DUSK || (decide (m < 32) && s.mode == TWILIGHT)
  else decide (m < 2104) && s.mode != NIGHT

/-- The groups of lanes that link `l` occupies hold group `g` (R309). -/
def State.holdsGroup (s : State) (l g : Nat) : Bool :=
  s.linkExists l && decide (l ≤ g) && decide (g < l + 2 ^ (s.fld HL_LINK_CFG.WIDTH l - 1))

/-- The host link of the manager PF (R311). -/
def State.mgrLink (s : State) : Option Nat :=
  match (List.range 16).find? fun l => s.holdsGroup l (s.fld GLB_STRAPS.MGR_LINK) with
  | some l => some l
  | none => if s.linkExists 0 then some 0 else none

/-- The manager PF (R311). -/
def State.mgrPf (s : State) : Option Nat := s.mgrLink.map (2 * ·)

/-- A function does not receive (R450). -/
def State.fnAbsent (s : State) (f : Nat) : Bool := s.fnInReset f || !s.fnEnabled f || !(s.pcie f).busMaster

/-- The receiver of the messages of mailbox `m` is absent (R450). Toward `toMgr` lie the manager and, in mailbox 2,097, the manager PF;
away from them the other end, and SEC, which is never absent. -/
def State.mbxAbsent (s : State) (m : Nat) (toMgr : Bool) : Bool :=
  if m = 2097 then toMgr && s.mgrPf.all s.fnAbsent
  else if 2098 ≤ m then false
  else if toMgr then !s.isSet MBX_MGR_CTL.READY
  else if m < 2080 then s.fnAbsent m
  else if m < 2096 then s.cluster (m - 2080) == EMPTY || s.cluster (m - 2080) == LOADED
  else false

/-- Current epoch of the manager (true) or of the other end (R454). -/
def State.mbxEpoch (s : State) (m : Nat) (mgr : Bool) : Nat :=
  if mgr then (if m = 2097 then (s.mgrPf.map fun f => (s.mbox f).epoch).getD 0 else s.fld MBX_MGR_CTL.EPOCH)
  else if m < 2080 then (s.mbox m).epoch
  else if m < 2096 then s.epoch (m - 2080)
  else 0

/-- TIMEOUT_MS, TARGET and IRQ_EN of MBX_MCFG. -/
def State.mbxTimeout (s : State) (m : Nat) : Nat := max 1 (getBits (s.raw .MBX_MCFG 0 m) 15 0)
def State.mbxTarget (s : State) (m : Nat) : Nat :=
  let t := getBits (s.raw .MBX_MCFG 0 m) 20 16
  if 23 < t then 0 else t
def State.mbxIrq (s : State) (m : Nat) : Bool := getBits (s.raw .MBX_MCFG 0 m) 21 21 == 1

/-- The queue toward the manager, or toward the other end. -/
def Mailbox.queue (b : Mailbox) (toMgr : Bool) : List MbxMsg := if toMgr then b.toMgr else b.toFar

/-- Replaces that queue. -/
def Mailbox.setQueue (b : Mailbox) (toMgr : Bool) (l : List MbxMsg) : Mailbox :=
  if toMgr then { b with toMgr := l } else { b with toFar := l }

/-- Updates the flags of the sender into that queue. -/
def Mailbox.onFlags (b : Mailbox) (toMgr : Bool) (g : MbxFlags → MbxFlags) : Mailbox :=
  if toMgr then { b with far := g b.far } else { b with mgr := g b.mgr }

/-- The flags of the sender into that queue. -/
def Mailbox.flags (b : Mailbox) (toMgr : Bool) : MbxFlags := if toMgr then b.far else b.mgr

/-- Free words of a queue of 8. -/
def roomOf (l : List MbxMsg) : Nat := 8 - (l.map fun x => x.words.length).sum

/-- MSI-X vectors of a function, network (R287) or NVMe (R365); none while VALID is 0. -/
def State.fnVectors (s : State) (f : Nat) : Nat :=
  if s.isNvmeFn f then (if s.isSet NVM_FN_RES.VALID 0 f then s.fld NVM_FN_RES.VEC_COUNT 0 f else 0) else s.vecCount f

/-- The MSI-X message of a function whose page holds `ctl` in MBX_CTL; `rot` for the root-of-trust mailbox. -/
def State.mbxMsix (s : State) (f : Nat) (ctl : Word) (rot : Bool := false) : State :=
  if getBits ctl 0 0 = 0 then s
  else if getBits ctl 11 1 < s.fnVectors f then s.msix f (getBits ctl 11 1) rot
  else s.bump .MBX_STAT 0 9

/-- The wake of a post (R452). -/
def State.mbxWake (s : State) (m : Nat) (toMgr : Bool) : State :=
  if m = 2097 then
    match toMgr, s.mgrPf with
    | true, some f => s.mbxMsix f (s.mbox m).ctl true
    | _, _ => s
  else if 2098 ≤ m then s
  else if toMgr then
    if s.mbxIrq m then s.put GLB_CC_IRQ.MBX 1 0 (s.mbxTarget m) else s
  else if m < 2080 then s.mbxMsix m (s.mbox m).ctl
  else if m = 2096 then s
  else
    let c := m - 2080
    (threadsOf c).foldl (fun t th => if bitOf (t.fld TBC_MBX_THREADS.THREADS c) (th % 64) then t.event th evMbx else t) ((s.wakeCluster c).cluEvent c 0x107)

/-- A message joins a queue, with its sender's epoch, and wakes the receiver (R448, R452, R454). -/
def State.mbxQueue (s : State) (m : Nat) (toMgr : Bool) (words : List Word) (token : Bool) : State :=
  let e := if token then s.mbxEpoch m true else s.mbxEpoch m (!toMgr)
  let s := s.onMbox m fun b => b.setQueue toMgr (b.queue toMgr ++ [{ words, epoch := e, token, posted := s.up }])
  ((s.bump .MBX_STAT 0 0).devEvent 0x30C).mbxWake m toMgr

/-- TIMEOUT is set for the sender into a queue (R450, R451), with its counter and source. -/
def State.mbxSetTimeout (s : State) (m : Nat) (toMgr : Bool) : State :=
  ((s.onMbox m fun b => b.onFlags toMgr fun g => { g with timeout := true }).bump .MBX_STAT 0 5).fire 30 0

/-- How a post ends. -/
inductive PostEnd where
  | queued | full | absent | ignored
deriving DecidableEq, Repr

/-- A post of `len` of the staged words toward the manager or the other end (R448, R450). -/
def State.mbxPost (s : State) (m : Nat) (toMgr : Bool) (words : List Word) (len : Nat) : State × PostEnd :=
  if len = 0 ∨ 8 < len then (s.bump .MBX_STAT 0 6, .ignored)
  else if s.mbxAbsent m toMgr then (((s.mbxSetTimeout m toMgr).bump .MBX_STAT 0 3).fire 30 2, .absent)
  else if roomOf ((s.mbox m).queue toMgr) < len ∨ (!toMgr ∧ (s.mbox m).replies ≠ []) then
    (((s.onMbox m fun b => b.onFlags toMgr fun g => { g with full := true }).bump .MBX_STAT 0 2).fire 30 2, .full)
  else (s.mbxQueue m toMgr ((List.range len).map fun i => words.getD i 0) false, .queued)

/-- A token reply that waits goes ahead into an empty queue (R456). -/
def State.mbxDeliver (s : State) (m : Nat) : State :=
  let b := s.mbox m
  match b.replies with
  | r :: rest => if b.toFar = [] then (s.onMbox m fun b => { b with replies := rest }).mbxQueue m false r true else s
  | [] => s

/-- A POP (R449): the head message leaves; the room may let a waiting token reply in. -/
def State.mbxPop (s : State) (m : Nat) (toMgr : Bool) : State :=
  match (s.mbox m).queue toMgr with
  | [] => s
  | _ :: rest =>
    let s := (s.onMbox m fun b => b.setQueue toMgr rest).bump .MBX_STAT 0 1
    if toMgr then s else s.mbxDeliver m

/-- The receiver of a queue is reset (R453): what is unread is discarded and the sender learns of it. -/
def State.mbxDiscard (s : State) (m : Nat) (toMgr : Bool) : State :=
  let n := ((s.mbox m).queue toMgr).length
  if n = 0 then s
  else
    let s := s.onMbox m fun b => (b.setQueue toMgr []).onFlags toMgr fun g =>
      { g with discarded := true, count := satAdd g.count n 255 }
    (s.bump .MBX_STAT 0 4 n).fire 30 1

/-- The other end of a function's mailbox is reset (R453, R454, R456): the queue toward it is discarded with any waiting token
reply, its staged words and MBX_CTL clear, and its epoch rises. The manager PF's root-of-trust mailbox follows it. -/
def State.mbxResetFn (s : State) (f : Nat) : State :=
  let s := if s.mgrPf = some f then (s.mbxDiscard 2097 true).onMbox 2097 fun b => { b with ctl := 0, staged := {} } else s
  (s.mbxDiscard f false).onMbox f fun b => { b with epoch := (b.epoch + 1) % 16, ctl := 0, staged := {}, replies := [] }

/-- A token reply enters the queue toward function `f`, or waits for its 8 words (R456). -/
def State.mbxReply (s : State) (f : Nat) (words : List Word) : State :=
  (s.onMbox f fun b => { b with replies := b.replies ++ [words] }).mbxDeliver f

end Sys2Proof.Machine
end

