-- ==== Sys2Proof/Machine/NvmOps.lean ====
section
/-! DEFINITION. The storage front end (R363 to R381): controllers and their queues, fetched commands, attachments, data
buffers, and the end of a command. Layouts and codes that chapter 14 takes from the NVMe specification are PRESUMED (log
entry 33). -/
namespace Sys2Proof.Machine

/-! ## Parts of the state -/

/-- The front end, updated. -/
def State.onNvm (s : State) (g : NvmState → NvmState) : State := { s with nvm := g s.nvm }

/-- A function's controller. -/
def State.nvmCtl (s : State) (f : Nat) : NvmCtl := s.nvm.ctls.get {} f

/-- Updates a controller. -/
def State.onCtl (s : State) (f : Nat) (g : NvmCtl → NvmCtl) : State :=
  s.onNvm fun n => { n with ctls := n.ctls.modify {} f g }

/-- A controller's queues. -/
def NvmCtl.sq (c : NvmCtl) (q : Nat) : NvmSq := c.sqs.get {} q
def NvmCtl.cq (c : NvmCtl) (q : Nat) : NvmCq := c.cqs.get {} q

/-- Updates a submission or a completion queue. -/
def State.onSq (s : State) (f q : Nat) (g : NvmSq → NvmSq) : State := s.onCtl f fun c => { c with sqs := c.sqs.modify {} q g }
def State.onCq (s : State) (f q : Nat) (g : NvmCq → NvmCq) : State := s.onCtl f fun c => { c with cqs := c.cqs.modify {} q g }

/-- I/O queue pairs and vectors of a controller; none while VALID is 0 (R365). -/
def State.nvmPairs (s : State) (f : Nat) : Nat := if s.isSet NVM_FN_RES.VALID 0 f then s.fld NVM_FN_RES.QP_COUNT 0 f else 0
def State.nvmVectors (s : State) (f : Nat) : Nat := if s.isSet NVM_FN_RES.VALID 0 f then s.fld NVM_FN_RES.VEC_COUNT 0 f else 0

/-- CC.EN, and the memory page size of CC.MPS, held within 4 to 64 KiB. -/
def NvmCtl.enabled (c : NvmCtl) : Bool := bitOf c.cc 0
def NvmCtl.page (c : NvmCtl) : Nat := 2 ^ (12 + min 4 (bits c.cc 10 7))

/-- Double word `i` of a command. -/
def NvmCmd.dw (m : NvmCmd) (i : Nat) : Nat := leNat (slice m.bytes (4 * i) 4)
def NvmCmd.opcode (m : NvmCmd) : Nat := bits (m.dw 0) 7 0
def NvmCmd.cid (m : NvmCmd) : Nat := bits (m.dw 0) 31 16
def NvmCmd.nsid (m : NvmCmd) : Nat := m.dw 1
def NvmCmd.prp1 (m : NvmCmd) : Nat := leNat (slice m.bytes 24 8)
def NvmCmd.prp2 (m : NvmCmd) : Nat := leNat (slice m.bytes 32 8)
def NvmCmd.slba (m : NvmCmd) : Nat := leNat (slice m.bytes 40 8)
/-- Blocks of a command, one more than NLB. -/
def NvmCmd.blocks (m : NvmCmd) : Nat := bits (m.dw 12) 15 0 + 1
/-- The ordered marker (R374). -/
def NvmCmd.ord (m : NvmCmd) : Bool := bitOf (m.dw 2) 31

/-- The command with a handle; none where the handle is void. -/
def State.nvmCmd (s : State) (h : Nat) : Option NvmCmd := s.nvm.cmds.find? fun m => m.handle == h

/-- Updates the command with a handle. -/
def State.onCmd (s : State) (h : Nat) (g : NvmCmd → NvmCmd) : State :=
  s.onNvm fun n => { n with cmds := n.cmds.map fun m => if m.handle == h then g m else m }

/-- A storage counter (R384). -/
def State.nvmStat (s : State) (i : Nat) (d : Nat := 1) : State := s.bump .NVM_STAT 0 i d

/-! ## Namespaces and attachments (R366) -/

/-- Word `w` of namespace entry `n`. -/
def State.nsWord (s : State) (n w : Nat) : Nat := s.nvm.ns.get 0 (4 * n + w)

/-- NSZE, LBA4K and the block size of a namespace. -/
def State.nsSize (s : State) (n : Nat) : Nat := bits (s.nsWord n 0) 47 0
def State.ns4k (s : State) (n : Nat) : Bool := bitOf (s.nsWord n 0) 48
def State.blockSize (s : State) (n : Nat) : Nat := if s.ns4k n then 4096 else 512

/-- Start of the attachment array, and the address of attachment (f, k). -/
def State.attachBase (s : State) : Nat := page4k (s.fld NVM_ATTACH_BASE.ADDR)
def State.attachAddr (s : State) (f k : Nat) : Nat := s.attachBase + 8 * (256 * f + k - 1)

/-- The 8 bytes of attachment (f, k); 0 for an NSID outside 1 to 256. -/
def State.attachment (s : State) (f k : Nat) : Nat := if k = 0 ∨ 256 < k then 0 else leNat (s.ddrRead (s.attachAddr f k) 8)

/-- Fields of an attachment. -/
def attNs (a : Nat) : Nat := bits a 11 0
def attached (a : Nat) : Bool := bitOf a 12
def attDefer (a : Nat) : Bool := bitOf a 13
def attDirty (a : Nat) : Nat := bits a 47 16

/-- An attachment is written. -/
def State.setAttachment (s : State) (f k a : Nat) : State := s.ddrWrite (s.attachAddr f k) (natLe 8 a)

/-- The attachments whose bytes in DDR are not all zero, as (f, k). -/
def State.attachments (s : State) : List (Nat × Nat) :=
  let b := s.attachBase
  ((s.ddr.keys.filter fun a => decide (b ≤ a) && decide (a < b + 8 * 256 * 2080)).map fun a => ((a - b) / 2048, (a - b) / 8 % 256 + 1)).dedup

/-- Namespaces attached to a controller, as NSIDs in rising order. -/
def State.activeNsids (s : State) (f : Nat) : List Nat :=
  ((List.range 256).map (· + 1)).filter fun k => attached (s.attachment f k)

/-- A command of attachment (f, k) is outstanding: an I/O command of the controller naming the NSID. -/
def State.attBusy (s : State) (f k : Nat) : Bool :=
  s.nvm.cmds.any fun m => m.fn == f && m.sq != 0 && m.nsid == k

/-! ## Completions (R369, R372) -/

/-- Status of a completion: SCT, SC and DNR as NVMe lays them out, without the phase bit. -/
def nvmStatus (sct sc : Nat) (dnr : Bool := false) : Nat := place sc 7 0 + place sct 10 8 + place (b2n dnr) 14 14

/-- Status codes. -/
def ncOk : Nat := nvmStatus 0 0
def ncBadOpcode : Nat := nvmStatus 0 0x01
def ncBadField : Nat := nvmStatus 0 0x02
def ncTransfer : Nat := nvmStatus 0 0x04
def ncInternal : Nat := nvmStatus 0 0x06
def ncAborted : Nat := nvmStatus 0 0x07
def ncSqDeleted : Nat := nvmStatus 0 0x08
def ncBadNs : Nat := nvmStatus 0 0x0B
def ncSequence : Nat := nvmStatus 0 0x0C
def ncPrpOffset : Nat := nvmStatus 0 0x13
def ncLbaRange : Nat := nvmStatus 0 0x80
def ncBadCq : Nat := nvmStatus 1 0x00
def ncBadQid : Nat := nvmStatus 1 0x01
def ncBadQsize : Nat := nvmStatus 1 0x02
def ncAbortLimit : Nat := nvmStatus 1 0x03
def ncAerLimit : Nat := nvmStatus 1 0x05
def ncBadVector : Nat := nvmStatus 1 0x08
def ncBadDeletion : Nat := nvmStatus 1 0x0C
def ncDeferred : Nat := nvmStatus 7 0xC0

/-- The queue has a free entry. -/
def NvmCq.room (q : NvmCq) : Bool := q.size != 0 && (q.tail + 1) % q.size != q.head

/-- One completion entry is written at the tail, and its interrupt sent (R372); the latency of the command is sampled (R432). -/
def State.postCqe (s : State) (f q : Nat) (e : Nat × Nat × Nat × Nat × Nat × Bool) : State :=
  let (dw0, sq, cid, status, ts, degraded) := e
  let c := (s.nvmCtl f).cq q
  let dw2 := (s.nvmCtl f).sq sq |>.head
  let s := s.hostWrite f (c.base + 16 * c.tail)
    (natLe 4 dw0 ++ natLe 4 0 ++ natLe 4 (dw2 % 65536 + sq * 65536) ++ natLe 4 (cid + place (b2n c.phase) 16 16 + place status 31 17))
  let s := s.onCq f q fun c => { c with tail := (c.tail + 1) % c.size, phase := if c.tail + 1 = c.size then !c.phase else c.phase }
  let s := s.sample 4 f ts (s.ts64 : Int) (degraded || s.sagCommon)
  if c.irq && decide (c.vector < s.nvmVectors f) then s.msix f c.vector else s

/-- Completions that wait are written while there is room and requests may go out. -/
def State.postWaiting (s : State) (f q : Nat) : Nat → State
  | 0 => s
  | n + 1 =>
    let c := (s.nvmCtl f).cq q
    match c.waiting with
    | e :: rest => if c.room && s.dmaOk f then State.postWaiting ((s.onCq f q fun c => { c with waiting := rest }).postCqe f q e) f q n else s
    | [] => s

/-- A completion goes to a queue: discarded and counted in MIDNIGHT (R369) or while Bus Master Enable is 0 (R325), lost with
the link, else behind those that wait for room. -/
def State.complete (s : State) (f q : Nat) (e : Nat × Nat × Nat × Nat × Nat × Bool) : State :=
  if s.mode = MIDNIGHT then s.nvmStat 5
  else if !(s.pcie f).busMaster then s.linkCount f 9 1
  else match s.linkOf f with
    | none => s
    | some l =>
      if !s.isSet HL_LINK_STATUS.UP l || ((s.nvmCtl f).cq q).size == 0 then s
      else (s.onCq f q fun c => { c with waiting := c.waiting ++ [e] }).postWaiting f q (((s.nvmCtl f).cq q).waiting.length + 1)

/-- A command ends with its one completion (R18, R381): it leaves the front end and its handle is void. A failed transfer
decides the status (R371). -/
def State.endCmd (s : State) (m : NvmCmd) (status : Nat) (dw0 : Nat := 0) : State :=
  let status := match m.failed with
    | 0 => status
    | 1 => ncTransfer
    | _ => ncPrpOffset
  let s := s.onNvm fun n =>
    { n with cmds := n.cmds.filter fun x => x.handle != m.handle
             ready := match m.stage with
               | .ready c => n.ready.modify [] c fun l => l.filter (· != m.handle)
               | _ => n.ready }
  s.complete m.fn ((s.nvmCtl m.fn).sq m.sq).cq (dw0, m.sq, m.cid, status, m.ts, m.degraded)

/-- Every command that `p` picks ends with a status, each counted (R368, R369, R379). -/
def State.endCmds (s : State) (p : NvmCmd → Bool) (status counter : Nat) : State :=
  (s.nvm.cmds.filter p).foldl (fun t m => (t.endCmd m status).nvmStat counter) s

/-- The commands of a controller end under R368. -/
def State.endController (s : State) (f : Nat) : State := s.endCmds (fun m => m.fn == f) ncSqDeleted 4

/-- RDY of a disabled controller clears once its non-posted requests have ended (R368). -/
def State.rdyFalls (s : State) (f : Nat) : State :=
  if (s.nvmCtl f).rdy && !(s.nvmCtl f).enabled && !(s.readPending f fun _ => true) then s.onCtl f fun c => { c with rdy := false } else s

/-- A controller reset leaves AQA, ASQ and ACQ as they are, and RDY until it falls (R368, R374, R376). -/
def State.nvmReset (s : State) (f cc : Nat) : State :=
  (s.onCtl f fun c => { cc, aqa := c.aqa, asq := c.asq, acq := c.acq, rdy := c.rdy }).rdyFalls f

/-- A function is reset (R323): its commands have ended; the controller is as at reset. -/
def State.nvmFnReset (s : State) (f : Nat) : State := s.onNvm fun n => { n with ctls := n.ctls.set {} f {} }

/-! ## Asynchronous events (R366, R378) -/

/-- The oldest Asynchronous Event Request outstanding. -/
def State.aer (s : State) (f : Nat) : Option NvmCmd :=
  s.nvm.cmds.find? fun m => m.fn == f && m.sq == 0 && m.stage == .event

/-- An event is reported where a request is outstanding and the type is unmasked; the type is then masked until its log page
is read. -/
def State.nvmEvent (s : State) (f typ info log : Nat) : State :=
  match s.aer f with
  | some m =>
    if (s.nvmCtl f).masked.contains typ then s
    else (s.endCmd m ncOk (typ + info * 256 + log * 65536)).onCtl f fun c => { c with masked := c.masked ++ [typ] }
  | none => s

/-- Type Notice and Vendor Specific. -/
def aeNotice : Nat := 2
def aeVendor : Nat := 7

/-- The notice that waits goes out with the next request. -/
def State.sendNotice (s : State) (f : Nat) : State :=
  if (s.nvmCtl f).notice && (s.aer f).isSome && !(s.nvmCtl f).masked.contains aeNotice then
    (s.nvmEvent f aeNotice 0 4).onCtl f fun c => { c with notice := false }
  else s

/-- An NSID joins the Changed Namespace List, with a notice where the host has enabled it (R366). -/
def State.nsChanged (s : State) (f k : Nat) : State :=
  let on := bitOf ((s.nvmCtl f).features.get 0 0x0B) 8
  (s.onCtl f fun c => { c with changed := (if c.changed.contains k then c.changed else c.changed ++ [k]).mergeSort, notice := c.notice || on }).sendNotice f

/-! ## Deferred errors (R378) -/

/-- An Error Information entry of a deferred error: error count, NSID, LBA, and block count as Command Specific
Information. -/
def errorEntry (count k slba blocks : Nat) : List Byte :=
  natLe 8 count ++ natLe 2 0xFFFF ++ natLe 2 0xFFFF ++ natLe 2 0 ++ natLe 2 0xFFFF ++ natLe 8 slba ++ natLe 4 k ++ natLe 4 0 ++
    natLe 8 blocks ++ List.replicate 24 0

/-- A deferred write error of an attachment is recorded. -/
def State.deferError (s : State) (f k slba blocks : Nat) : State :=
  let s := s.setAttachment f k (setBits (s.attachment f k) 13 13 1)
  let s := s.onCtl f fun c =>
    { c with errCount := c.errCount + 1, errors := (errorEntry (c.errCount + 1) k slba blocks :: c.errors).take 64 }
  (s.fire 27 25 0 initNvm).nvmEvent f aeVendor 0x80 1

/-- When DUSK ends by FORCE and the part returns to DAY, every dirty attachment gets a DEFER of unknown range. -/
def State.deferAll (s : State) : State :=
  if s.nvm.dirty = 0 then s
  else s.attachments.foldl (fun t a => if attDirty (t.attachment a.1 a.2) = 0 then t else t.deferError a.1 a.2 0 0) s

/-- The DIRTY count of an attachment becomes `v`. -/
def State.setDirty (s : State) (f k v : Nat) : State :=
  let a := s.attachment f k
  (s.onNvm fun n => { n with dirty := n.dirty + v - attDirty a }).setAttachment f k (setBits a 47 16 v)

/-! ## Ordering (R373, R374) -/

/-- Feature 0xC0 bit 0 of a controller. -/
def State.ordOn (s : State) (f : Nat) : Bool := bitOf ((s.nvmCtl f).features.get 0 0xC0) 0

/-- Read, Write, Compare, Write Zeroes. -/
def hasRange (op : Nat) : Bool := op == 2 || op == 1 || op == 5 || op == 8

/-- The later command conflicts with the earlier one. -/
def nvmConflict (c e : NvmCmd) : Bool :=
  c.nsid == e.nsid &&
    ((hasRange c.opcode && hasRange e.opcode && decide (c.slba < e.slba + e.blocks) && decide (e.slba < c.slba + c.blocks)) ||
      c.opcode == 9 || e.opcode == 9 || (c.opcode == 0 && (e.opcode == 1 || e.opcode == 8)))

/-- The ordering rules allow a command to be dispatched: no earlier command of its queue without a completion stands before it. -/
def State.mayDispatch (s : State) (c : NvmCmd) : Bool :=
  let on := s.ordOn c.fn
  (s.nvm.cmds.filter fun e => e.fn == c.fn && e.sq == c.sq && decide (e.num < c.num)).all fun e =>
    !nvmConflict c e && !(on && (c.ord || e.ord))

/-- The RUNNING cluster of a namespace that takes the next command, in ascending order each in turn (R370). -/
def State.nextCluster (s : State) (n : Nat) : Option Nat :=
  let l := (List.range 16).filter fun c => bitOf (s.nsWord n 1) c && s.cluster c == RUNNING
  let last := s.nvm.turns.get 0 n
  (l.find? fun c => decide (last ≤ c)).or l.head?

/-- SEV for the threads of NVM_WAKE of a cluster. -/
def State.wakeStorage (s : State) (c : Nat) : State :=
  (List.range 64).foldl (fun t i => if bitOf (s.fld NVM_WAKE.THREADS 0 c) i then t.event (64 * c + i) evSev else t) s

/-- A command enters the ready queue of its namespace's next cluster, which is woken where the queue was empty. -/
def State.toReady (s : State) (m : NvmCmd) : State :=
  match s.nextCluster m.ns with
  | none => s.onCmd m.handle fun x => { x with stage := .held }
  | some c =>
    let was := s.nvm.ready.get [] c
    let s := (s.onCmd m.handle fun x => { x with stage := .ready c }).onNvm fun n =>
      { n with ready := n.ready.set [] c (was ++ [m.handle]), turns := n.turns.set 0 m.ns (c + 1) }
    if was = [] then s.wakeStorage c else s

/-- An I/O command of an opcode that is held and that the ordering rules allow is dispatched. -/
def State.dispatchCmd (s : State) (h : Nat) (p : NvmCmd → Bool) : State :=
  match s.nvmCmd h with
  | some m => if m.sq ≠ 0 ∧ m.stage = .held ∧ p m ∧ s.mayDispatch m then s.toReady m else s
  | none => s

/-- A cluster is reset (R379): commands its threads hold end with Internal Error, and those in its ready queue move on. -/
def State.nvmClusterReset (s : State) (c : Nat) : State :=
  let mine (m : NvmCmd) : Bool := match m.stage with
    | .taken t => m.sq != 0 && clusterOf t == c
    | _ => false
  let s := (s.nvm.cmds.filter mine).foldl (fun t m => ((t.endCmd m ncInternal).nvmStat 6).fire 27 26 0 initNvm) s
  let l := s.nvm.ready.get [] c
  let s := s.onNvm fun n => { n with ready := n.ready.set [] c [] }
  l.foldl (fun t h => match t.nvmCmd h with
    | some m => t.toReady m
    | none => t) s

/-! ## Data buffers (R363, R371) -/

/-- The pages of a data buffer after the first, from a PRP list: pages `n`, entries left in the current list page before its
last. The pointer to a further list stands in the last entry of a full list page. None marks a bad entry. -/
def State.prpList (s : State) (f page : Nat) : Nat → Nat → Option (List Nat)
  | 0, _ => some []
  | n + 1, at_ =>
    let e := leNat (s.hostRead f at_ 8)
    if at_ % 8 ≠ 0 then none
    else if at_ % page = page - 8 ∧ n ≠ 0 then
      -- the last entry of the page is a pointer to the next list page, whose first entry is read in its place
      let e2 := leNat (s.hostRead f e 8)
      if e % page ≠ 0 ∨ e2 % page ≠ 0 then none else (State.prpList s f page n (e + 8)).map (e2 :: ·)
    else if e % page ≠ 0 then none
    else (State.prpList s f page n (at_ + 8)).map (e :: ·)

/-- The segments (address, bytes) of a command's data buffer of `len` bytes; none where a PRP entry is bad. -/
def State.prpSegments (s : State) (m : NvmCmd) (len : Nat) : Option (List (Nat × Nat)) :=
  let page := (s.nvmCtl m.fn).page
  let first := min len (page - m.prp1 % page)
  let rest := len - first
  let pages : Option (List Nat) :=
    if rest = 0 then some []
    else if rest ≤ page then (if m.prp2 % page = 0 then some [m.prp2] else none)
    else s.prpList m.fn page (ceilDiv rest page) m.prp2
  if m.prp1 % 4 ≠ 0 then none
  else pages.map fun l => (m.prp1, first) :: l.zipIdx.map fun p => (p.1, min page (rest - page * p.2))

/-- Address of byte `o` in a list of segments. -/
def segAddr : List (Nat × Nat) → Nat → Nat
  | [], _ => 0
  | (a, n) :: rest, o => if o < n then a + o else segAddr rest (o - n)

/-- The runs (address, bytes) of a span of a buffer. -/
def segRuns : List (Nat × Nat) → Nat → Nat → List (Nat × Nat)
  | [], _, _ => []
  | (a, n) :: rest, o, len =>
    if len = 0 then []
    else if n ≤ o then segRuns rest (o - n) len
    else (a + o, min len (n - o)) :: segRuns rest 0 (len - min len (n - o))

/-- Bytes read from, and written to, runs of a function's DMA space. -/
def State.readRuns (s : State) (f : Nat) (l : List (Nat × Nat)) : List Byte := l.flatMap fun r => s.hostRead f r.1 r.2
def State.writeRuns (s : State) (f : Nat) : List (Nat × Nat) → List Byte → State
  | [], _ => s
  | r :: rest, bs => State.writeRuns (s.hostWrite f r.1 (bs.take r.2)) f rest (bs.drop r.2)

/-- Bytes of the data buffer of an I/O command (R370); Flush and Write Zeroes have none. -/
def State.bufferLen (s : State) (m : NvmCmd) : Nat :=
  if m.opcode = 1 ∨ m.opcode = 2 ∨ m.opcode = 5 then m.blocks * s.blockSize m.ns
  else if m.opcode = 9 then (bits (m.dw 10) 7 0 + 1) * 16
  else 0

/-- Data of an admin command goes to its buffer; a bad PRP entry fails it. -/
def State.adminData (s : State) (m : NvmCmd) (bs : List Byte) : State × Bool :=
  match s.prpSegments m bs.length with
  | none => (s, false)
  | some l => (s.writeRuns m.fn (l.filter fun r => r.2 != 0) bs, true)

/-! ## The checks of R370 -/

/-- Bits of each double word that the NVM command set reserves, by opcode; FUSE and PSDT must be zero, since fused commands
and SGLs are not supported. ORD is never reserved. -/
def reservedBits (op : Nat) : List Nat :=
  let common := [0xFF00, 0, 0x7FFFFFFF, 0xFFFFFFFF, 0, 0, 0, 0, 0, 0]
  common ++ match op with
    | 0 => [0xFFFFFFFF, 0xFFFFFFFF, 0xFFFFFFFF, 0xFFFFFFFF, 0xFFFFFFFF, 0xFFFFFFFF]
    | 1 => [0, 0, 0x02F00000, 0xFFFFFF00, 0, 0]
    | 2 => [0, 0, 0x02FF0000, 0xFFFFFF00, 0, 0]
    | 5 => [0, 0, 0x02FF0000, 0xFFFFFFFF, 0, 0]
    | 8 => [0, 0, 0x00FF0000, 0xFFFFFFFF, 0, 0]
    | _ => [0xFFFFFF00, 0xFFFFFFF8, 0xFFFFFFFF, 0xFFFFFFFF, 0xFFFFFFFF, 0xFFFFFFFF]

/-- A reserved field of an I/O command is not zero. -/
def NvmCmd.badReserved (m : NvmCmd) : Bool := (reservedBits m.opcode).zipIdx.any fun r => (m.dw r.2 &&& r.1) != 0

/-- I/O and admin opcodes of the table *NVMe support*. -/
def ioOpcode (op : Nat) : Bool := op == 0 || op == 1 || op == 2 || op == 5 || op == 8 || op == 9
def adminOpcode (op : Nat) : Bool :=
  op == 0 || op == 1 || op == 2 || op == 4 || op == 5 || op == 6 || op == 8 || op == 9 || op == 0x0A || op == 0x0C

/-- The check of R370 that an I/O command fails first, as its status. -/
def State.ioCheck (s : State) (m : NvmCmd) : Option Nat :=
  if hasRange m.opcode && decide (s.nsSize m.ns < m.slba + m.blocks) then some ncLbaRange
  else if decide (2 ^ 21 < s.bufferLen m) then some ncBadField
  else if m.badReserved then some ncBadField
  else none

/-! ## DMA COPY (R371) -/

/-- Fields of a COPY message. -/
def Msg.srcKind (m : Msg) : Nat := getBits (m.word 1) 3 0
def Msg.dstKind (m : Msg) : Nat := getBits (m.word 1) 7 4
def Msg.copyLen (m : Msg) : Nat := getBits (m.word 1) 63 32
def Msg.copyHandle (m : Msg) : Nat := getBits (m.word 4) 31 0

/-- `n` bytes at an address lie within a kind (R371): a space of R243, or the buffer of a command. -/
def State.kindHolds (s : State) (t kind addr n : Nat) (store : Bool) (c : Option NvmCmd) : Bool :=
  if kind = 8 then match c with
    | some c => decide (addr + n ≤ s.bufferLen c)
    | none => true
  else decide (kind < 8) && s.inSpace t (s.thread t) kind addr n store

/-- The bytes read from a kind; none where a PRP entry is bad. -/
def State.kindRead (s : State) (t kind addr n : Nat) (c : Option NvmCmd) : Option (List Byte) :=
  if kind = 8 then c.bind fun c => (s.prpSegments c (s.bufferLen c)).map fun l => s.readRuns c.fn (segRuns l addr n)
  else some (s.loadBytes t (s.thread t) kind addr n)

/-- Bytes written to a kind; none where a PRP entry is bad. -/
def State.kindWrite (s : State) (t kind addr : Nat) (bs : List Byte) (c : Option NvmCmd) : Option State :=
  if kind = 8 then c.bind fun c => (s.prpSegments c (s.bufferLen c)).map fun l => s.writeRuns c.fn (segRuns l addr bs.length) bs
  else some (s.storeBytes t kind addr bs)

/-- What a COPY finds before it moves data: the response status it ends with, or none where it may go on. -/
def State.copyCheck (s : State) (m : Msg) : Option Nat :=
  let host := m.srcKind == 8 || m.dstKind == 8
  let c := if host then s.nvmCmd m.copyHandle else none
  if m.srcKind == 8 && m.dstKind == 8 || m.copyLen == 0 || decide (2 ^ 21 < m.copyLen) then some 18
  else if host && c.isNone then some 17
  else if !s.kindHolds m.thread m.srcKind (m.word 2).toNat m.copyLen false c || !s.kindHolds m.thread m.dstKind (m.word 3).toNat m.copyLen true c then some 18
  else none

/-- A host error of a COPY: the command is marked failed, and source 27 raised. -/
def State.copyFails (s : State) (m : Msg) (why : Nat) : State :=
  ((s.onCmd m.copyHandle fun c => { c with failed := if c.failed = 0 then why else c.failed }).fire 27 27 0 initNvm).respond m 16

/-- The data of a COPY move. -/
def State.copyMove (s : State) (m : Msg) : State :=
  match s.copyCheck m with
  | some e => (if e = 17 then s.nvmStat 11 else s).respond m e
  | none =>
    let c := s.nvmCmd m.copyHandle
    match s.kindRead m.thread m.srcKind (m.word 2).toNat m.copyLen c with
    | none => s.copyFails m 2
    | some bs => match s.kindWrite m.thread m.dstKind (m.word 3).toNat bs c with
      | none => s.copyFails m 2
      | some t => (t.nvmStat 10 m.copyLen).respond m 0

/-- A COPY of a command's buffer needs reads of the host: its data, or a page list. -/
def State.copyReads (s : State) (m : Msg) : Bool :=
  match s.nvmCmd m.copyHandle with
  | some c => m.srcKind == 8 || (m.dstKind == 8 && decide ((s.nvmCtl c.fn).page < s.bufferLen c - min (s.bufferLen c) ((s.nvmCtl c.fn).page - c.prp1 % (s.nvmCtl c.fn).page)))
  | none => false

end Sys2Proof.Machine
end

