-- ==== Sys2Proof/Machine/CryptoOps.lean ====
section
/-! DEFINITION. Keys (R392 to R396) and the inline cipher work on frames: ESP and TLS (R397 to R399), MACsec (R128, R129,
R400). The algorithms themselves are those of other standards (log entry 21). -/
namespace Sys2Proof.Machine

/-! ## Algorithms by number -/

def algGcmSeal : Nat := 1
def algGcmOpen : Nat := 2
def algGmac : Nat := 3
def algXtsEnc : Nat := 4
def algXtsDec : Nat := 5
def algCmac : Nat := 6
/-- The hashes of *CRYPTO message* HASH h are 16 + h, their HMACs 32 + h. -/
def algHash : Nat := 16
def algHmac : Nat := 32
def algKeyWrap : Nat := 40
def algKeyUnwrap : Nat := 41
def algEcdsa : Nat := 42
def algMlDsa : Nat := 43
def algZstdC : Nat := 48
def algZstdD : Nat := 49
def algDeflC : Nat := 50
def algDeflD : Nat := 51

/-- Fields put one after the other, each led by its length, as an algorithm's input. -/
def framed (parts : List (List Byte)) : List Byte := parts.flatMap fun p => natLe 8 p.length ++ p

/-- What an algorithm gives, cut or zero-filled to the length the standard gives it. -/
def algo (n : Nat) (parts : List (List Byte)) (len : Nat) : List Byte := slice (Config.algorithm n (framed parts)) 0 len

/-- Whether an algorithm accepts. -/
def algoOk (n : Nat) (parts : List (List Byte)) : Bool := Config.accepts n (framed parts)

/-- AES-GCM: ciphertext and 16-byte tag. -/
def gcmSeal (key nonce aad plain : List Byte) : List Byte := algo algGcmSeal [key, nonce, aad, plain] (plain.length + 16)

/-- AES-GCM decryption of ciphertext and tag; none where the tag does not verify. -/
def gcmOpen (key nonce aad ct : List Byte) : Option (List Byte) :=
  if 16 ≤ ct.length ∧ algoOk algGcmOpen [key, nonce, aad, ct] then some (algo algGcmOpen [key, nonce, aad, ct] (ct.length - 16)) else none

/-- The bytewise exclusive-or of two strings of one length. -/
def xorBytes (a b : List Byte) : List Byte := List.zipWith (· ^^^ ·) a b

/-! ## Keys -/

/-- Key bytes of an ALG (R393). -/
def keyLength (alg : Nat) : Nat :=
  match alg with
  | 0 => 16
  | 1 | 2 | 5 => 32
  | _ => 64

/-- DDR address of key table entry `i` (R392). -/
def State.keyAddr (s : State) (i : Nat) : Nat := page4k (s.fld CRY_KEY_BASE.ADDR) + 128 * i

/-- Updates security state. -/
def State.onSec (s : State) (g : SecState → SecState) : State := { s with sec := g s.sec }

/-- The key at an index, from the key cache, or fetched from DDR and unwrapped (R392). The image last wrapped for the index
under the table key in force unwraps; an empty entry holds no key; any other fails to unwrap, and raises source 17. The cache
replaces the least recently used key (log entry 26). -/
def State.readKey (s : State) (i : Nat) : State × Option KeyEntry :=
  match s.sec.cache.find? fun e => e.1 == i with
  | some e => (s.onSec fun x => { x with cache := e :: x.cache.filter fun y => y.1 != i }, some e.2)
  | none =>
    let s := s.bump .CRY_STAT 0 8
    let img := s.ddrRead (s.keyAddr i) 128
    let known := (Store.look s.sec.images.entries i).filter fun w => w.1 == img
    match known with
    | some w => (s.onSec fun x => { x with cache := (i, w.2) :: x.cache.take 16383 }, some w.2)
    | none => (if img.all (· == 0) then s else s.fire 21 17 0 initCrypto, none)

/-- The use bits of a key (R394). -/
def useEnc : Nat := 0
def useDec : Nat := 1
def useMac : Nat := 2
def useInline : Nat := 3

/-- The AES-GCM key of an inline use: ALG AES-128 or AES-256, INLINE set (R394); BAD_KEY is counted. -/
def State.inlineKey (s : State) (i : Nat) : State × Option (List Byte) :=
  let r := s.readKey i
  match r.2 with
  | some k => if k.alg ≤ 1 ∧ bitOf k.use useInline then (r.1, some (k.material.take (keyLength k.alg))) else (r.1.bump .CRY_STAT 0 3, none)
  | none => (r.1.bump .CRY_STAT 0 3, none)

/-- Unrolled cores of an inline unit (R385): 8 in a pipeline's, 12 in a host link's. -/
def unitCores (u : Nat) : Nat := if u < 8 then 8 else 12

/-- Identifier of core `c` of inline unit `u` among units under test (R470). -/
def inlineTest (u c : Nat) : Nat := u + 32 * c

/-- An inline unit has a core that works and is not under test, the unit is not isolated, the part is not in MIDNIGHT, and no
parity error strikes the frame now in it (R391, R415, R468, R470). -/
def State.unitWorks (s : State) (u : Nat) : Bool :=
  ((List.range (unitCores u)).any fun c => !s.sec.inlineRetired.contains (u, c) && !s.underTest 7 (inlineTest u c)) &&
    !(decide (u < 8) && s.isolatedUnit 20 (16 + u)) && s.mode != MIDNIGHT && !s.sec.faulty.contains u

/-! ## SAs -/

/-- Word `w` of SA `i`. -/
def State.saWord (s : State) (i w : Nat) : Nat := leNat (s.ddrRead (page4k (s.fld CRY_SA_BASE.ADDR) + 64 * i + 8 * w) 8)

/-- SA `i` with word `w` changed. -/
def State.setSa (s : State) (i w v : Nat) : State := s.ddrWrite (page4k (s.fld CRY_SA_BASE.ADDR) + 64 * i + 8 * w) (natLe 8 v)

/-- R397's test of an SA for a unit, a kind and a direction, and for the sender of a host frame. -/
def State.saFits (s : State) (i unit kind dir : Nat) (p : Packet) : Bool :=
  let w := s.saWord i 0
  s.isSet CRY_CFG.EN && bits w 1 0 == kind && bits w 2 2 == dir && bits w 5 3 == unit &&
    (p.tx.isNone || bits w 18 7 == p.source % 4096 || bits w 18 7 == 0xFFF)

/-- The SA word of a packet: USER bytes 24 to 27 (R397). -/
def Packet.saUse (p : Packet) : Nat := leNat (slice p.phv 472 4)

/-- Offset of the first header with an identity. -/
def Packet.header (p : Packet) (id : Nat) : Option Nat := (p.hdrs.find? fun h => h.1 == id).map (·.2)

/-- An inline drop that no other counter names (R391, R398; log entry 27). -/
def State.inlineDrop (s : State) : State := s.bump .CRY_STAT 0 9

/-- A frame that unit `u` cannot carry is dropped and counted; a parity error of its core is thereby past (R391). -/
def State.inlineFault (s : State) (u : Nat) : State := s.inlineDrop.onSec fun x => { x with faulty := x.faulty.filter (· != u) }

/-- The 64-bit sequence number that 32 received bits stand for, given the highest accepted (RFC 4303; PRESUMED, log entry
20); none where it would lie before zero. -/
def fullSequence (esn : Bool) (top low : Nat) : Option Nat :=
  if !esn then some low
  else
    let th := top / 2 ^ 32
    let tl := top % 2 ^ 32
    if 63 ≤ tl then (if tl - 63 ≤ low then some (th * 2 ^ 32 + low) else some ((th + 1) * 2 ^ 32 + low))
    else if tl + 2 ^ 32 - 63 ≤ low then (if th = 0 then none else some ((th - 1) * 2 ^ 32 + low))
    else some (th * 2 ^ 32 + low)

/-- ESP decryption in pipeline `pipe` (R398): the packet with plaintext in place and DECRYPTED set; none turns the verdict
into drop. -/
def State.espDecrypt (s : State) (pipe : Nat) (p : Packet) : State × Option Packet :=
  let i := p.saUse % 65536
  match p.header (s.fld CRY_CFG.ESP_HDR_ID) with
  | none => (s.bump .CRY_STAT 0 6, none)
  | some h =>
    if !s.saFits i pipe 1 1 p then (s.bump .CRY_STAT 0 6, none)
    else if !s.unitWorks pipe then (s.inlineFault pipe, none)
    else
      let w0 := s.saWord i 0
      let esn := bitOf w0 6
      let top := s.saWord i 2
      let win := s.saWord i 3
      let spi := beNat (slice p.bytes h 4)
      if spi ≠ bits (s.saWord i 1) 31 0 ∨ p.bytes.length < h + 32 then (s.bump .CRY_STAT 0 6, none)
      else match fullSequence esn top (beNat (slice p.bytes (h + 4) 4)) with
        | none => (s.bump .CRY_STAT 0 5, none)
        | some q =>
          if q ≤ top ∧ (64 ≤ top - q ∨ bitOf win (top - q)) then (s.bump .CRY_STAT 0 5, none)
          else
            let r := s.inlineKey (bits w0 39 20)
            match r.2 with
            | none => (r.1, none)
            | some k =>
              let nonce := natLe 4 (bits (s.saWord i 1) 63 32) ++ slice p.bytes (h + 8) 8
              let aad := slice p.bytes h 4 ++ (if esn then natBe 8 q else natBe 4 q)
              match gcmOpen k nonce aad (p.bytes.drop (h + 16)) with
              | none => (r.1.bump .CRY_STAT 0 4, none)
              | some plain =>
                let t := if top < q then (r.1.setSa i 2 q).setSa i 3 ((win * 2 ^ (q - top) + 1) % 2 ^ 64)
                  else r.1.setSa i 3 (win ||| 2 ^ (top - q))
                (t, some { p with bytes := overwrite p.bytes (h + 16) plain, phv := overwrite p.phv 472 (natLe 4 (p.saUse ||| 2 ^ 29)) })

/-- ESP encryption in a unit (R398); none drops the frame. -/
def State.espEncrypt (s : State) (i : Nat) (p : Packet) : State × Option Packet :=
  match p.header (s.fld CRY_CFG.ESP_HDR_ID) with
  | none => (s.bump .CRY_STAT 0 6, none)
  | some h =>
    let w0 := s.saWord i 0
    let w1 := s.saWord i 1
    if beNat (slice p.bytes h 4) ≠ bits w1 31 0 ∨ p.bytes.length < h + 32 then (s.bump .CRY_STAT 0 6, none)
    else
      let q := s.saWord i 2
      let esn := bitOf w0 6
      if (if esn then q = 2 ^ 64 - 1 else 2 ^ 32 ≤ q) then (s.inlineDrop.fire 21 19 0 initCrypto, none)
      else
        let r := s.inlineKey (bits w0 39 20)
        match r.2 with
        | none => (r.1, none)
        | some k =>
          let aad := slice p.bytes h 4 ++ (if esn then natBe 8 q else natBe 4 q)
          let plain := slice p.bytes (h + 16) (p.bytes.length - h - 32)
          let ct := gcmSeal k (natLe 4 (bits w1 63 32) ++ natBe 8 q) aad plain
          (r.1.setSa i 2 (q + 1), some { p with bytes := overwrite p.bytes (h + 4) (natBe 4 q ++ natBe 8 q ++ ct) })

/-- The records of a TLS payload encrypted, each in place (R399); none where they do not fill it exactly. -/
def tlsRecords (key iv : List Byte) : Nat → List Byte → Option (List Byte × Nat)
  | 0, _ => none
  | n + 1, bs =>
    if bs = [] then some ([], 0)
    else
      let len := beNat (slice bs 3 2)
      if bs.headD 0 ≠ 0x17 ∨ beNat (slice bs 1 2) ≠ 0x0303 ∨ len < 17 ∨ 16640 < len ∨ bs.length < 5 + len then none
      else
        let head := bs.take 5
        let nonce := xorBytes iv (List.replicate 4 0 ++ slice bs (5 + len - 16) 8)
        let ct := gcmSeal key nonce head (slice bs 5 (len - 16))
        match tlsRecords key iv n (bs.drop (5 + len)) with
        | some (rest, c) => some (head ++ ct ++ rest, c + 1)
        | none => none

/-- TLS encryption in a unit (R399); none drops the frame. -/
def State.tlsEncrypt (s : State) (i : Nat) (p : Packet) : State × Option Packet :=
  match p.header (s.fld CRY_CFG.TCP_HDR_ID) with
  | none => (s.bump .CRY_STAT 0 6, none)
  | some h =>
    let o := h + 4 * bits (beNat (slice p.bytes (h + 12) 1)) 7 4
    let r := s.inlineKey (bits (s.saWord i 0) 39 20)
    match r.2 with
    | none => (r.1, none)
    | some k =>
      let iv := natLe 8 (s.saWord i 4) ++ natLe 4 (bits (s.saWord i 1) 63 32)
      match tlsRecords k iv (p.bytes.length + 1) (p.bytes.drop o) with
      | some (bs, c) => (r.1.bump .CRY_STAT 0 7 c, some { p with bytes := overwrite p.bytes o bs })
      | none => (r.1, none)

/-- The inline transmit work of a frame in `unit` (R397): by its host SA, or by USER bytes 24 to 27 with ENCRYPT set. -/
def State.inlineEncrypt (s : State) (unit : Nat) (p : Packet) : State × Option Packet :=
  let use : Option (Option Nat × Nat) := match p.sa with
    | some (kind, i) => some (some kind, i)
    | none => if bitOf p.saUse 30 then some (none, p.saUse % 65536) else none
  match use with
  | none => (s, some p)
  | some (kind, i) =>
    let k := kind.getD (bits (s.saWord i 0) 1 0)
    if (k ≠ 1 ∧ k ≠ 2) ∨ !s.saFits i unit k 0 p then (s.bump .CRY_STAT 0 6, none)
    else if !s.unitWorks unit then (s.inlineFault unit, none)
    else if k = 1 then s.espEncrypt i p else s.tlsEncrypt i p

/-! ## MACsec (R128, R129, R400; the SecTAG of IEEE 802.1AE-2018 is PRESUMED, log entry 20) -/

/-- Word `w` of channel `c` of port `p`. -/
def State.macsec (s : State) (p c w : Nat) : Nat := (s.raw .CRY_MACSEC 0 (1056 * p + 32 * c + w)).toNat

/-- A channel word changed. -/
def State.setMacsec (s : State) (p c w v : Nat) : State := s.setRaw .CRY_MACSEC 0 (1056 * p + 32 * c + w) (BitVec.ofNat 64 v)

/-- Confidentiality offset in force. -/
def State.macsecOffset (s : State) (p : Nat) : Nat :=
  match s.fld ETH_MACSEC_CTL.OFFSET p with
  | 1 => 30
  | 2 => 50
  | _ => 0

/-- The suite uses extended packet numbers. -/
def State.macsecXpn (s : State) (p : Nat) : Bool := decide (2 ≤ s.fld ETH_MACSEC_CTL.CIPHER p)

/-- The nonce of association `a` of channel `c` for packet number `pn`. -/
def State.macsecNonce (s : State) (p c a pn : Nat) : List Byte :=
  if s.macsecXpn p then
    let salt := natBe 12 (s.macsec p c (4 + 4 * a) + bits (s.macsec p c (5 + 4 * a)) 31 0 * 2 ^ 64)
    xorBytes salt (natBe 4 (bits (s.macsec p c (2 + 4 * a)) 63 32) ++ natBe 8 pn)
  else natBe 8 (s.macsec p c 0) ++ natBe 4 pn

/-- The unit key of an association, whose length the suite gives. -/
def State.macsecKey (s : State) (p c a : Nat) : State × Option (List Byte) :=
  let r := s.inlineKey (bits (s.macsec p c (2 + 4 * a)) 19 0)
  (r.1, r.2.filter fun k => k.length == if s.fld ETH_MACSEC_CTL.CIPHER p % 2 = 0 then 16 else 32)

/-- What MACsec makes of a received frame of port `p` in octet unit `u`: the frame passed on, or none where it is dropped
(R129). A frame without a SecTAG passes only while VALIDATE is 0, and is counted. -/
def State.macsecRx (s : State) (p : Nat) (bs : List Byte) : State × Option (List Byte) :=
  let drop (t : State) : State × Option (List Byte) := ((t.bump .ETH_STAT p 6).fire (2 + p / 8) (4 * (p % 8) + 2), none)
  if beNat (slice bs 12 2) ≠ 0x88E5 then
    if s.isSet ETH_MACSEC_CTL.VALIDATE p then drop s else (s.bump .ETH_STAT p 7, some bs)
  else if !s.unitWorks (p / 8) then drop (s.inlineFault (p / 8))
  else
    let tci := (bs.getD 14 0).toNat
    let a := tci % 4
    let explicit := bitOf tci 5
    let tag := if explicit then 16 else 8
    let sci := if explicit then beNat (slice bs 20 8) else beNat (slice bs 6 6) * 65536 + 1
    let low := beNat (slice bs 16 4)
    match ((List.range 32).map (· + 1)).find? fun c => bitOf (s.macsec p c 1) 32 && s.macsec p c 0 == sci with
    | none => drop s
    | some c =>
      if !bitOf (s.macsec p c (2 + 4 * a)) 20 then drop s
      else
        let next := s.macsec p c (3 + 4 * a)
        let pn := if s.macsecXpn p then
            (if low < next % 2 ^ 32 ∧ 2 ^ 31 ≤ next % 2 ^ 32 - low then (next / 2 ^ 32 + 1) * 2 ^ 32 + low else next / 2 ^ 32 * 2 ^ 32 + low)
          else low
        if pn = 0 ∨ (bitOf (s.macsec p c 1) 33 ∧ pn < next) ∨ bs.length < 12 + tag + 16 then drop s
        else
          let r := s.macsecKey p c a
          match r.2 with
          | none => drop r.1
          | some k =>
            let body := bs.drop (12 + tag)
            let clear := if bitOf tci 3 then min (s.macsecOffset p) (body.length - 16) else body.length - 16
            match gcmOpen k (s.macsecNonce p c a pn) (bs.take (12 + tag) ++ body.take clear) (body.drop clear) with
            | none => drop r.1
            | some plain =>
              let keep := max next (pn + 1 - bits (s.macsec p c 1) 31 0)
              (r.1.setMacsec p c (3 + 4 * a) keep, some (bs.take 12 ++ body.take clear ++ plain))

/-- A frame protected on transmit by port `p` in unit P(g + 4) (R128, R400); none sends nothing. -/
def State.macsecTx (s : State) (p : Nat) (bs : List Byte) : State × Option (List Byte) :=
  let a := bits (s.macsec p 0 1) 35 34
  let pn := s.macsec p 0 (3 + 4 * a)
  let xpn := s.macsecXpn p
  let wraps := if xpn then pn == 2 ^ 64 - 1 else decide (2 ^ 32 - 1 ≤ pn)
  if !s.unitWorks (4 + p / 8) then (s.inlineFault (4 + p / 8), none)
  else if !bitOf (s.macsec p 0 1) 32 || !bitOf (s.macsec p 0 (2 + 4 * a)) 20 then (s.inlineDrop, none)
  else if wraps then (s.inlineDrop.fire 21 18 0 initCrypto, none)
  else
    let r := s.macsecKey p 0 a
    match r.2 with
    | none => (r.1, none)
    | some k =>
      let body := bs.drop 12
      let clear := min (s.macsecOffset p) body.length
      let sl := if body.length < 48 then body.length else 0
      let head := bs.take 12 ++ natBe 2 0x88E5 ++ natBe 1 (0x2C + a) ++ natBe 1 sl ++ natBe 4 pn ++ natBe 8 (s.macsec p 0 0)
      let ct := gcmSeal k (s.macsecNonce p 0 a pn) (head ++ body.take clear) (body.drop clear)
      let t := r.1.setMacsec p 0 (3 + 4 * a) (pn + 1)
      let at_ := if xpn then 0xC000000000000000 else 0xC0000000
      (if pn + 1 = at_ then t.fire 21 18 0 initCrypto else t, some (head ++ body.take clear ++ ct))

end Sys2Proof.Machine
end

