-- ==== Sys2Proof/Machine/PipeOps.lean ====
section
/-! DEFINITION. What a pipeline does to a packet: the parse (R141 to R146), flow hash (R147), match stages and actions
(R148 to R151), policers (R278 to R280), the verdict (R153) and its effects, sequencing and the reorder stage (R162 to R165),
and admission to the scheduler (R262, R263). -/
namespace Sys2Proof.Machine

/-! ## Packets -/

/-- The length of a frame from the destination address through the FCS. -/
def Packet.len (p : Packet) : Nat := p.bytes.length + 4

/-- A pipeline's state. -/
def State.pipe (s : State) (p : Nat) : Pipeline := s.net.pipes.get {} p

/-- Updates a pipeline. -/
def State.onPipe (s : State) (p : Nat) (g : Pipeline → Pipeline) : State :=
  { s with net := { s.net with pipes := s.net.pipes.modify {} p g } }

/-- Pipeline `p`'s Gong source `k` (R167). -/
def State.pipeSource (s : State) (p k : Nat) : State := s.fire (10 + p / 2) (8 * (p % 2) + k)

/-- A pipeline joins a feed's queue: 0 its octet or engines, 1 loopback, 2 + L host link L (R139). -/
def State.feed (s : State) (p k : Nat) (x : Packet) : State :=
  s.onPipe p fun q => { q with feeds := q.feeds.modify [] k fun l => l ++ [x] }

/-- Every walk in progress: parked, resumed, held at the verdict, and at Snare. -/
def State.walks (s : State) : List Walk :=
  s.net.snare ++ s.net.pipes.vals.flatMap fun q => q.parked ++ q.resumed ++ q.held.toList

/-- Every frame in the packet buffer. -/
def State.buffered (s : State) : List Packet :=
  s.walks.map (·.pkt) ++
  s.net.pipes.vals.flatMap (fun q => q.feeds.vals.flatten ++ q.reorder.vals.flatten.filterMap (·.ready)) ++
  s.net.queues.vals.flatten ++ s.net.holds.vals.flatten.map (·.pkt) ++ s.net.calendar.vals.flatten ++ s.net.txq.vals.flatten

/-- Bytes of the packet buffer in use. -/
def State.occupancy (s : State) : Nat := (s.buffered.map Packet.len).sum

/-- Bytes of the packet buffer: 96 MiB, less 2 MiB for each enabled sketch (R435). -/
def State.bufferBytes (s : State) : Nat :=
  (96 - 2 * ((List.range 8).filter fun p => s.isSet CMP_SK_CFG.EN 0 p).length) * 2 ^ 20

/-- Bytes of the packet buffer held by frames from port `p`, of a priority or of all (R125). -/
def State.portOccupancy (s : State) (p : Nat) (prio : Option Nat) : Nat :=
  ((s.buffered.filter fun x => x.inPort.any fun i => i.1 == p && prio.all (· == i.2)).map Packet.len).sum

/-- OLD_COUNT (R157): packets of the other generation that have not passed their final verdict. -/
def State.oldCount (s : State) (p : Nat) : Nat :=
  (s.walks.filter fun w => w.pkt.pipe == p && w.pkt.gen != s.fld PPL_GEN.ACTIVE p).length

/-! ## Parse (R141 to R146) -/

/-- field(o, b, n) of R144: `n` bits, big-endian, from `b` bits after byte `o`. -/
def bitField (bs : List Byte) (o b n : Nat) : Nat :=
  let i := 8 * o + b
  let first := i / 8
  let count := (i + n + 7) / 8 - first
  beNat (slice bs first count) / 2 ^ (8 * (first + count) - (i + n)) % 2 ^ n

/-- What one iteration of the parser did: the header it pushed, PHV bytes it wrote, the end of its header, and its extract
commands ignored. -/
structure ParseIter where
  hdr : Option (Nat × Nat)
  writes : List (Nat × Byte)
  stop : Nat
  ignored : Nat
deriving DecidableEq, Repr

/-- The nine extract commands of a state applied to a header at `off` of `len` bytes (R142, R144). -/
def extracts (words : List Nat) (bs : List Byte) (off len : Nat) : List (Nat × Byte) × Nat :=
  let cmds := words.flatMap fun w => [bits w 20 0, bits w 41 21, bits w 62 42]
  (cmds.flatMap fun c =>
    let src := bits c 7 0
    let dst := bits c 20 12
    if 384 ≤ dst then []
    else (List.range (bits c 11 8 + 1)).filterMap fun i =>
      if dst + i < 384 then some (dst + i, if src + i < len then bs.getD (off + src + i) 0 else 0) else none,
   (cmds.filter fun c => decide (384 ≤ bits c 20 12) && bits c 20 12 != 0x1FF).length)

/-- Parse status codes (R145). -/
def psOk : Nat := 0
def psUnknown : Nat := 1
def psTruncated : Nat := 2
def psTooDeep : Nat := 3
def psWindow : Nat := 4
def psSteps : Nat := 5

/-- Word `w` of parse state `n` of bank `b` (R142). -/
def State.parseWord (s : State) (p b n w : Nat) : Nat := (s.progWord .PPL_PARSE_STATE p (1024 * b + 4 * n + w)).toNat

/-- The transition taken from state `n` with key `k` (R143). -/
def State.transition (s : State) (p b n k : Nat) : Option Nat :=
  ((List.range 1024).map fun i => (s.progWord .PPL_PARSE_TRANS p (1024 * b + i)).toNat).findSome? fun t =>
    let mask := bits t 39 24
    if bitOf t 48 ∧ bits t 7 0 = n ∧ k &&& mask = bits t 23 8 &&& mask then some (bits t 47 40) else none

/-- A header is a fragment (R144). -/
def isFragment (kind : Nat) (bs : List Byte) (off : Nat) : Bool :=
  match kind with
  | 1 => let w := beNat (slice bs (off + 6) 2); bitOf w 13 || bits w 12 0 != 0
  | 2 => true
  | _ => false

/-- What a parse gives: status, FRAG, the iterations in order, and the last iteration of the outermost IP region. -/
structure Parse where
  status : Nat
  frag : Bool
  iters : List ParseIter
  ipEnd : Option Nat
  ipStart : Option Nat
deriving DecidableEq, Repr

/-- The loop of R144: `fuel` iterations are left, `it` have run. -/
def State.parseGo (s : State) (p b : Nat) (bs : List Byte) :
    Nat → Nat → Nat → Nat → Nat → Option Nat → Option Nat → Bool → List ParseIter → Parse
  | 0, _, _, _, _, ipEnd, ipStart, _, acc => ⟨psSteps, false, acc, ipEnd, ipStart⟩
  | fuel + 1, it, st, off, depth, ipEnd, ipStart, ipOpen, acc =>
    let w := s.parseWord p b st 0
    let id := bits w 7 0
    let stop (c : Nat) : Parse := ⟨c, false, acc, ipEnd, ipStart⟩
    let lenBits := bits w 48 45
    let len := (if lenBits = 0 then 0 else bitField bs off (bits w 44 33) lenBits * 2 ^ bits w 51 49) + bits w 60 52
    let keyBits := min 16 (bits w 32 28)
    let accept := bitOf w 12
    if depth = 16 ∧ id ≠ 0 then stop psTooDeep
    else if 512 < off + len then stop psWindow
    else if bs.length < off + len then stop psTruncated
    else if !accept ∧ bs.length < off + (bits w 27 16 + keyBits + 7) / 8 then stop psTruncated
    else
      let ex := extracts [s.parseWord p b st 1, s.parseWord p b st 2, s.parseWord p b st 3] bs off len
      let acc := acc ++ [⟨if id = 0 then none else some (id, off), ex.1, off + len, ex.2⟩]
      let depth := if id = 0 then depth else depth + 1
      let open' := if bitOf w 8 ∧ ipEnd = none then true else if ipOpen ∧ !bitOf w 9 then false else ipOpen
      let ipStart := if bitOf w 8 ∧ ipEnd = none then some off else ipStart
      let ipEnd := if open' then some it else ipEnd
      if isFragment (bits w 11 10) bs off then ⟨psOk, true, acc, ipEnd, ipStart⟩
      else if accept then ⟨psOk, false, acc, ipEnd, ipStart⟩
      else match s.transition p b st (bitField bs off (bits w 27 16) keyBits) with
        | none => ⟨psUnknown, false, acc, ipEnd, ipStart⟩
        | some next => State.parseGo s p b bs fuel (it + 1) next (off + len) depth ipEnd ipStart open' acc

/-- The key that a profile forms from a PHV (R148): its enabled selectors in order. -/
def State.profileKey (s : State) (p b n : Nat) (phv : List Byte) : List Byte :=
  ((List.range 64).map fun j => bits (s.progWord .PPL_KEY_PROF p (512 * b + 16 * n + j / 4)).toNat (16 * (j % 4) + 15) (16 * (j % 4))).filterMap
    fun sel => if bitOf sel 15 then some (phv.getD (bits sel 8 0) 0) else none

/-- A packet parsed under its generation (R141, R144 to R147): PHV, headers, payload; and the extract commands ignored. -/
def State.parsePacket (s : State) (p : Nat) (x : Packet) : Packet × Nat × Bool × Nat :=
  let r := s.parseGo p x.gen x.bytes 64 0 0 0 0 none none false []
  let cut := match r.frag, r.ipEnd with
    | true, some n => n + 1
    | _, _ => r.iters.length
  let kept := r.iters.take cut
  let base := (kept.flatMap (·.writes)).foldl (fun b w => overwrite b w.1 [w.2]) (List.replicate 384 (0 : Byte))
  let base := ((r.iters.drop cut).flatMap (·.writes)).foldl (fun b w => overwrite b w.1 [0]) base
  let hdrs := kept.filterMap (·.hdr)
  let status := r.status + place (b2n r.frag) 4 4 + place (b2n r.frag) 5 5 + place (b2n x.degraded) 6 6
  let stack := hdrs.flatMap fun h => natLe 1 h.1 ++ natLe 1 (h.2 / 2)
  let metadata (hash : Nat) : List Byte :=
    natLe 8 x.ts ++ natLe 2 x.source ++ natLe 2 x.queue ++ natLe 1 (x.gen + 2 * x.loops) ++ natLe 1 status ++ natLe 2 hdrs.length ++
      natLe 4 hash ++ natLe 2 (hash % 4096) ++ slice stack 0 42 ++ List.replicate 64 0
  let hash := crc32c (s.fld PPL_HASH_CFG.SEED p) (s.profileKey p x.gen (s.fld PPL_HASH_CFG.HASH_PROF p) (base ++ metadata 0))
  ({ x with phv := base ++ metadata hash, hdrs, ip := r.ipStart, payload := (kept.getLast?.map (·.stop)).getD 0 },
    r.status, r.frag, (r.iters.map (·.ignored)).sum)

/-- FLOW_HASH and DOMAIN of a parsed packet. -/
def Packet.hash (x : Packet) : Nat := leNat (slice x.phv 400 4)
def Packet.domain (x : Packet) : Nat := x.hash % 4096

/-! ## Actions (R150, R151) -/

/-- Word `w` of action entry `i` of pipeline `p`. -/
def State.action (s : State) (p i w : Nat) : Nat := s.net.actions.get 0 ((p * 65536 + i) * 4 + w)

/-- A side action past the limit of its kind (R151). -/
def State.limited (s : State) (p : Nat) : State := (s.bump .PPL_STAT p 8).pipeSource p 7
/-- BAD_ACTION is counted. -/
def State.badAction (s : State) (p : Nat) : State := (s.bump .PPL_STAT p 7).pipeSource p 7

/-- A side action joins its list up to a limit. -/
def State.side {α : Type} (s : State) (p : Nat) (l : List α) (x : Option α) (limit : Nat) : State × List α :=
  match x with
  | none => (s, l)
  | some v => if l.length < limit then (s, l ++ [v]) else (s.limited p, l)

/-- Action entry `i` is executed for a walk (R150, R151). -/
def State.doAction (s : State) (p i : Nat) (w : Walk) : State × Walk :=
  if i = 0xFFFF then (s, w)
  else
    let w0 := s.action p i 0
    let w1 := s.action p i 1
    let w2 := s.action p i 2
    let w3 := s.action p i 3
    let w := if bitOf w3 38 then
        { w with pkt := { w.pkt with phv := overwrite w.pkt.phv (448 + bits w3 5 0 / 4 * 4) (natLe 4 (bits w3 37 6)) } }
      else w
    let v := bits w0 1 0
    let w := if v = 1 ∨ v = 2 then { w with verdict := v, destKind := bits w0 4 2, dest := bits w0 27 8, prio := bits w0 30 28 } else w
    let (s, counters) := s.side p w.counters (if bits w2 23 0 = 0xFFFFFF then none else some (bits w2 23 0)) 4
    let pol := bits w2 39 24
    let (s, policers) := if pol = 0xFFFF then (s, w.policers)
      else if 8192 ≤ pol then (s.badAction p, w.policers)
      else s.side p w.policers (some (pol, bitOf w2 40)) 2
    let ck := bits w1 1 0
    let (s, copies) := s.side p w.copies (if ck = 0 then none else some (ck, bits w1 21 2, bits w0 30 28)) 2
    let mk := bits w1 23 22
    let (s, mirrors) := s.side p w.mirrors (if mk = 1 ∨ mk = 2 then some (mk, bits w1 29 24) else none) 2
    let (s, rewrites) := s.side p w.rewrites (if bits w2 51 41 = 0 then none else some (0, bits w2 51 41)) 4
    let (s, rewrites) := s.side p rewrites (if bits w2 62 52 = 0 then none else some (1, bits w2 62 52)) 4
    let s := if bitOf w1 30 ∧ w.scan.isSome then s.limited p else s
    (s, { w with
      counters, policers, copies, mirrors, rewrites
      scan := if bitOf w1 30 then w.scan.or (some (bits w1 35 31)) else w.scan
      tsReq := w.tsReq || bitOf w2 63
      learn := w.learn || bitOf w3 39 })

/-! ## Match stages (R149, R170, R180 to R182, R197, R198) -/

/-- PPL_STAGE_CFG of stage `k` in bank `b`. -/
def State.stageCfg (s : State) (p b k : Nat) : Nat := (s.progWord .PPL_STAGE_CFG p (12 * b + k)).toNat

/-- A stage's predicate (R149). -/
def stageHolds (cfg : Nat) (w : Walk) : Bool :=
  let arg := bits cfg 31 24
  let status := (w.pkt.phv.getD 397 0).toNat
  match bits cfg 23 20 with
  | 0 => true
  | 1 => w.last == some true
  | 2 => w.last != some true
  | 3 => w.pkt.hdrs.any fun h => h.1 == arg
  | 4 => !w.pkt.hdrs.any fun h => h.1 == arg
  | 5 => status % 16 == arg % 16
  | 6 => bitOf (w.pkt.phv.getD (448 + arg / 8) 0).toNat (arg % 8)
  | 7 => bitOf status 4 == bitOf arg 0
  | _ => false

/-- The stage reads its table (R170, R182, R196): pipeline among the set's readers, the flow tier being every pipeline's; kinds equal, no
lower stage of the bank names the table, and in DAWN and TWILIGHT a direct-indexed table. -/
def State.stageReads (s : State) (p b k : Nat) : Bool :=
  let cfg := s.stageCfg p b k
  let t := bits cfg 11 4
  (s.isTier t || bitOf (s.fld TBL_SET_CFG.READERS 0 (s.fld TBL_T_CFG.SET 0 t)) p) && bits cfg 2 1 == s.fld TBL_T_CFG.KIND 0 t &&
    !((List.range k).any fun j => bitOf (s.stageCfg p b j) 0 && bits (s.stageCfg p b j) 11 4 == t) &&
    s.tableServes t && s.usable t

/-- How an executed stage ends: its action, or a wait for a flow-tier fetch. -/
inductive StageEnd where
  | act (i : Nat) (hit : Option Bool) (mark : Option Hit)
  | park
deriving DecidableEq, Repr

/-- The key of a flow-tier lookup with the bytes of a key, as the cache holds it. -/
def State.tierKey (s : State) (t : Nat) (bytes : List Byte) : List Byte := slice (slice bytes 0 (s.keyBytes t)) 0 16

/-- A lookup found a line of the flow cache: its use and its event are noted (R197). -/
def State.tierUsed (s : State) (p t : Nat) (bytes : List Byte) : State :=
  if s.isTier t then (((s.cacheUse (s.tierKey t bytes)).bump .TBL_STAT 0 12).pipeEvent p 0x282) else s

/-- The lookup of an executed stage. A lookup of the flow tier that misses its cache parks the packet, unless the miss queue
is full and BUSY_ACT names an action (R198). -/
def State.stageLookup (s : State) (p b k : Nat) (w : Walk) : State × StageEnd :=
  let cfg := s.stageCfg p b k
  let t := bits cfg 11 4
  let miss := bits cfg 47 32
  let key := s.profileKey p b (bits cfg 16 12) w.pkt.phv
  if !s.isSet TBL_T_CFG.EN 0 t then (s, .act miss (some false) none)
  else if !s.stageReads p b k then (s.badTable, .act miss (some false) none)
  else
    let s := (s.pipeEvent p 0x280 (s.tableReads t w.pkt.gen key)).pipeEvent p 0x205 (s.lpmExtra t w.pkt.gen key)
    match s.lookupTable t w.pkt.gen key with
    | .hit a m => (s.tierUsed p t key, .act a (some true) m)
    | .miss => (s.tierUsed p t key, .act miss (some false) none)
    | .park =>
      if 2048 ≤ (s.pipe p).parked.length ∧ s.fld TBL_FLOW_CFG.BUSY_ACT ≠ 0xFFFF then
        ((s.bump .TBL_STAT 0 14).fire 24 6 0 initTables, .act (s.fld TBL_FLOW_CFG.BUSY_ACT) none none)
      else (s, .park)

/-- A fetch for a key starts unless one is outstanding (R198). -/
def State.fetchKey (s : State) (key : List Byte) : State :=
  if s.tbl.fetches.contains key then s
  else ({ s with tbl := { s.tbl with fetches := s.tbl.fetches ++ [key] } }).bump .TBL_STAT 0 13

/-- A pipeline's fetch. -/
def State.startFetch (s : State) (p : Nat) (key : List Byte) : State :=
  if s.tbl.fetches.contains key then s else (s.fetchKey key).pipeEvent p 0x283

/-- The stages from the walk's on (R149), at most `n` of them; true where the packet parks. -/
def State.runStages (s : State) (p : Nat) : Nat → Walk → State × Walk × Bool
  | 0, w => (s, { w with stage := 12 }, false)
  | n + 1, w =>
    if 12 ≤ w.stage then (s, w, false)
    else
      let b := w.pkt.gen
      let cfg := s.stageCfg p b w.stage
      if !bitOf cfg 0 || !stageHolds cfg w then State.runStages s p n { w with stage := w.stage + 1 }
      else
        let w := { w with lookups := w.lookups + 1, pkt := { w.pkt with lookupAt := w.pkt.lookupAt.or (some s.up) } }
        match s.stageLookup p b w.stage w with
        | (s, .park) =>
          let t := bits cfg 11 4
          let key := s.tierKey t (s.profileKey p b (bits cfg 16 12) w.pkt.phv)
          (s.startFetch p key, { w with table := t, key }, true)
        | (s, .act i hit mark) =>
          let r := s.doAction p i { w with last := hit.or w.last, hits := w.hits ++ mark.toList }
          let w0 := r.1.action p i 0
          let next := if i ≠ 0xFFFF ∧ bitOf w0 31 then 12
            else if i ≠ 0xFFFF ∧ bitOf w0 32 ∧ w.stage < bits w0 36 33 then min 12 (bits w0 36 33)
            else w.stage + 1
          State.runStages r.1 p n { r.2 with stage := next }

/-! ## Policers (R278 to R280) -/

/-- Word `w` of policer `i`. -/
def State.policerWord (s : State) (p i w : Nat) : Nat := (s.raw .PPL_POLICER p (4 * i + w)).toNat

/-- The signed OVERHEAD of a profile (R270). -/
def State.overhead (s : State) (prof : Nat) : Int := max (-32) (signed 7 (s.fld SCH_OVH.OVERHEAD 0 prof))

/-- A policer's buckets now, in 10⁻⁶ bytes (R278, R269). -/
def State.policerNow (s : State) (p i : Nat) : PolicerState :=
  let x := s.net.policers.get {} (8192 * p + i)
  let d := s.edges - x.edge
  let w1 := s.policerWord p i 1
  let w2 := s.policerWord p i 2
  let cbs := bits w2 23 0 * 1000000
  let ebs := bits w2 47 24 * 1000000
  if bits (s.policerWord p i 0) 1 0 = 2 then
    { tc := min cbs (x.tc + d * bits w1 31 0), te := min ebs (x.te + d * bits w1 63 32), edge := s.edges }
  else
    let c := x.tc + d * bits w1 31 0
    { tc := min cbs c, te := min ebs (x.te + (c - cbs)), edge := s.edges }

/-- Colours. -/
def green : Nat := 0
def yellow : Nat := 1
def red : Nat := 2

/-- Policer `i` colours and charges a packet of `len` bytes; `pre` is the colour given before, green where it runs
colour-blind (RFC 2697, RFC 2698). -/
def State.police (s : State) (p i len pre : Nat) : State × Nat :=
  let mode := bits (s.policerWord p i 0) 1 0
  if mode = 0 ∨ mode = 3 then (s, green)
  else
    let x := s.policerNow p i
    let b := ((len : Int) + s.overhead (bits (s.policerWord p i 0) 5 2)).toNat * 1000000
    let col := if mode = 1 then
        (if pre = green ∧ b ≤ x.tc then green else if pre ≤ yellow ∧ b ≤ x.te then yellow else red)
      else (if pre = red ∨ x.te < b then red else if pre = yellow ∨ x.tc < b then yellow else green)
    let x := if mode = 1 then
        (if col = green then { x with tc := x.tc - b } else if col = yellow then { x with te := x.te - b } else x)
      else (if col = green then { x with tc := x.tc - b, te := x.te - b } else if col = yellow then { x with te := x.te - b } else x)
    ({ s with net := { s.net with policers := s.net.policers.set {} (8192 * p + i) x } }, col)

/-- What the policers of a packet decide: drop, red among them, PRIO and DSCP replaced. -/
structure Policed where
  drop : Bool := false
  red : Bool := false
  prio : Option Nat := none
  dscp : Option Nat := none
  colour : Nat := 0
deriving DecidableEq, Repr

/-- The policers of a walk in stage order (R279, R280, R153). -/
def State.policeAll (s : State) (p len : Nat) (l : List (Nat × Bool)) : State × Policed :=
  l.foldl (fun (acc : State × Policed) q =>
    let r := acc.1.police p q.1 len acc.2.colour
    let w0 := s.policerWord p q.1 0
    let d := { acc.2 with colour := r.2 }
    (r.1, if q.2 then d
      else if r.2 = red then { d with drop := true, red := true }
      else if r.2 = yellow then
        { d with drop := d.drop || bitOf w0 7, dscp := if bitOf w0 14 then some (bits w0 13 8) else d.dscp
                 prio := if bitOf w0 18 then some (bits w0 17 15) else d.prio }
      else d)) (s, {})

/-! ## Admission to the scheduler (R261 to R263) -/

/-- SCH_DEST_MAP entry of a destination (R262): VALID and GROUP; a capture ring has none. -/
def State.destGroup (s : State) (d : Dest) : Option Nat :=
  let look (i : Nat) : Option Nat :=
    let e := bits (s.raw .SCH_DEST_MAP 0 (i / 4)).toNat (16 * (i % 4) + 15) (16 * (i % 4))
    if bitOf e 15 then some (bits e 12 0) else none
  match d with
  | .rx q => if q < 32768 then look q else none
  | .port p => if p < 32 then look (32768 + p) else none
  | .pool n => if n < 16 then look (32800 + n) else none
  | .core c => if c < 24 then look (32816 + c) else none
  | .loop t => if t < 8 then look (32840 + t) else none
  | .capture _ | .outbound _ => none

/-- The L2 node that serves a destination (R261). -/
def State.destNode (s : State) (d : Dest) : Option Nat :=
  match d with
  | .port p => some p
  | .rx q => (s.queueOwner q).bind fun o => (s.linkOf o.1).map (32 + ·)
  | .pool _ => some 48
  | .loop _ => some 49
  | .capture _ => some 50
  | .outbound _ => none
  | .core _ => some 51

/-- Fields of SCH_GROUP and SCH_L1. -/
def State.groupWord (s : State) (g w : Nat) : Nat := (s.raw .SCH_GROUP 0 (2 * g + w)).toNat
def State.l1Word (s : State) (n : Nat) : Nat := (s.raw .SCH_L1 0 n).toNat
def State.groupParent (s : State) (g : Nat) : Nat := bits (s.groupWord g 0) 11 0
def State.l1Parent (s : State) (n : Nat) : Nat := bits (s.l1Word n) 5 0

/-- Frames of a scheduler queue, and of the eight queues of a group. -/
def State.squeue (s : State) (k : Nat) : List Packet := s.net.queues.get [] k
def State.groupFrames (s : State) (g : Nat) : List Packet := (List.range 8).flatMap fun q => s.squeue (8 * g + q)

/-- Why a frame is not admitted. -/
inductive Turned where
  | noGroup | badGroup | limit | congestion | mirrorKib | poolFull
deriving DecidableEq, Repr

/-- R262 and R263 for a frame, its destination, the group named for it and the queue of the group. -/
def State.admits (s : State) (x : Packet) (g : Option Nat) (prio : Nat) : Except Turned Nat :=
  match g with
  | none => .error .noGroup
  | some g =>
    let l1 := s.groupParent g
    if !bitOf (s.groupWord g 0) 12 || !bitOf (s.l1Word l1) 6 then .error .noGroup
    else if s.destNode x.dest ≠ some (s.l1Parent l1) then .error .badGroup
    else
      let isPool := match x.dest with
        | .pool n => some n
        | _ => none
      if isPool.any fun n => s.fld PPL_POOL_CFG.CLUSTERS x.pipe n == 0 || decide (4096 ≤ (s.groupFrames g).length) then .error .poolFull
      else if bits (s.groupWord g 1) 39 24 * 1024 ≤ ((s.squeue (8 * g + prio)).map Packet.len).sum then .error .limit
      else if s.bufferBytes < s.occupancy + x.len then .error .congestion
      else if x.copy ≠ 0 ∧ s.fld SCH_BUF_CFG.MIRROR_KIB * 1024 ≤ s.occupancy then .error .mirrorKib
      else .ok (8 * g + prio)

/-- The counters and sources of a frame turned away (R284, R283, R163). -/
def State.countTurned (s : State) (p : Nat) : Turned → State
  | .noGroup => (s.bump .SCH_STAT 0 6).fire 25 3 0 initSched
  | .badGroup => (s.bump .SCH_STAT 0 5).fire 25 3 0 initSched
  | .limit => s.bump .SCH_STAT 0 2
  | .congestion => (s.bump .SCH_STAT 0 3).fire 25 1 0 initSched
  | .mirrorKib => s.bump .SCH_STAT 0 4
  | .poolFull => (s.bump .PPL_STAT p 12).pipeSource p 5

/-- A frame enters a queue, or is turned away: then its host chain learns of it. True where it entered. -/
def State.enqueue (s : State) (x : Packet) (g : Option Nat) (prio : Nat) : State × Bool :=
  match s.admits x g prio with
  | .ok k => ({ s with net := { s.net with queues := s.net.queues.modify [] k fun l => l ++ [{ x with l0 := k }] } }, true)
  | .error e => ((s.countTurned x.pipe e).dropFrame x stDropped, false)

/-- The group that the USER word of bytes 28 to 31 names for a primary destination (R262). -/
def Packet.namedGroup (x : Packet) : Option Nat :=
  let w := leNat (slice x.phv 476 4)
  if bitOf w 31 then some (bits w 12 0) else none

/-! ## The reorder stage (R162 to R165) -/

/-- Reorder entries of a pipeline in use. -/
def Pipeline.inUse (q : Pipeline) : Nat := (q.reorder.vals.map List.length).sum

/-- TIMEOUT_US in force, in units of the counter. -/
def State.reorderTimeout (s : State) (p : Nat) : Nat := ofUs (within (s.fld PPL_REORDER_CFG.TIMEOUT_US p) 1 1000)

/-- A packet takes a reorder entry and the next sequence number of its domain (R162). -/
def State.sequence (s : State) (p : Nat) (x : Packet) (deadline : Option Nat) : State × Packet :=
  let d := x.domain
  let n := (s.pipe p).nextSeq.get 0 d
  let s := s.onPipe p fun q => { q with
    nextSeq := q.nextSeq.set 0 d ((n + 1) % 65536)
    reorder := q.reorder.modify [] d fun l => l ++ [{ seq := n, deadline }] }
  (s.pipeEvent p 0x208, { x with seq := some (d, n) })

/-- The deadline of a sequenced packet starts, at its dispatch (R164). -/
def State.startDeadline (s : State) (x : Packet) : State :=
  match x.seq with
  | none => s
  | some (d, n) => s.onPipe x.pipe fun q => { q with reorder := q.reorder.modify [] d fun l => l.map fun e =>
      if e.seq == n then { e with deadline := some (s.up + s.reorderTimeout x.pipe) } else e }

/-- A packet leaves the reorder stage: it goes to its destination, and gives a sample of source 2 (R432). -/
def State.leaveReorder (s : State) (x : Packet) : State :=
  let q (t : Nat) : Int := (t / perQuarter : Nat)
  let s := s.sample 2 x.pipe (q x.verdictAt) (q s.now) s.sagCommon
  match x.dest with
  | .outbound o => s.feed o 0 { x with seq := none }
  | _ => (s.enqueue { x with seq := none } (x.namedGroup.or (s.destGroup x.dest)) (x.l0 % 8)).1

/-- The entries at the head of a domain that are done leave in order, at most `n`. -/
def State.flushDomain (s : State) (p d : Nat) : Nat → State
  | 0 => s
  | n + 1 =>
    match (s.pipe p).reorder.get [] d with
    | [] => s
    | e :: rest =>
      match e.ready with
      | some x => State.flushDomain ((s.onPipe p fun q => { q with reorder := q.reorder.set [] d rest }).leaveReorder x) p d n
      | none => s

/-- A sequence number is released: with the packet returned, which leaves in its turn, or without one, and then its entry is free at once
(R165); a number skipped before is late (R164). -/
def State.releaseSeq (s : State) (p d n : Nat) (x : Option Packet) : State :=
  let l := (s.pipe p).reorder.get [] d
  if l.any fun e => e.seq == n then
    let rest := match x with
      | some y => l.map fun e => if e.seq == n then { e with ready := some y } else e
      | none => l.filter fun e => e.seq != n
    let s := s.onPipe p fun q => { q with reorder := q.reorder.set [] d rest }
    s.flushDomain p d (l.length + 1)
  else
    let s := s.onPipe p fun q => { q with skipped := q.skipped.modify [] d fun k => k.filter (· != n) }
    match x with
    | none => s
    | some y =>
      if s.isSet PPL_REORDER_CFG.LATE_ACT p then ((s.bump .PPL_STAT p 15).pipeSource p 3).dropFrame y stDropped
      else ((s.bump .PPL_STAT p 14).pipeSource p 3).leaveReorder { y with late := true }

/-- A sequenced packet is dropped: its number is released (R163, R165). -/
def State.dropSeq (s : State) (x : Packet) : State :=
  match x.seq with
  | some (d, n) => s.releaseSeq x.pipe d n none
  | none => s

/-! ## The verdict (R153) -/

/-- The named counters advance (R424). -/
def State.countAll (s : State) (p : Nat) (w : Walk) : State := w.counters.foldl (fun t i => t.countPair p i w.pkt.len) s

/-- A table takes what is learned (R181, R188): enabled with LEARN_EN, usable, an exact-match table with KEY_BYTES = 8 and SLOT = 0b00, and not
direct-indexed. -/
def State.learns (s : State) (t : Nat) : Bool :=
  s.isSet TBL_T_CFG.EN 0 t && s.isSet TBL_T_LEARN.LEARN_EN 0 t && s.fld TBL_T_CFG.KIND 0 t == 0 && !s.isSet TBL_T_CFG.MODE 0 t &&
    s.keyBytes t == 8 && s.fld TBL_T_CFG.SLOT 0 t == 0 && s.usable t

/-- A LEARN submission (R188, R189): discarded where the pipeline has no learning table, and in DAWN and TWILIGHT (R182). -/
def State.submitLearn (s : State) (p : Nat) (x : Packet) : State :=
  let t := s.fld (TBL_LEARN_PPL.TABLE p)
  if t = 0xFF ∨ !s.learns t ∨ s.mode = DAWN ∨ s.mode = TWILIGHT then s
  else if 65536 ≤ s.tbl.learn.length then (s.bump .TBL_STAT 0 9).fire 24 4 0 initTables
  else
    let key := slice x.phv (448 + s.fld TBL_T_LEARN.FID_OFF 0 t) 2 ++ slice x.bytes 6 6
    let src := if p < 4 then x.source else 0x1000 + x.source % 4096
    { s with tbl := { s.tbl with learn := s.tbl.learn ++ [{ table := t, key, src, ts := x.ts }] } }

/-- The record state of a flow-tier entry follows a forwarded packet (R428). -/
def State.tierCount (s : State) (x : Packet) (key : List Byte) : State :=
  let c := s.cuckoo (s.fld TBL_FLOW_CFG.TABLE) 0
  match s.holders c (leNat key) with
  | [] => s
  | spot :: _ =>
    let e := s.entry c spot
    if !tierRecords e then s
    else
      let at_ (o n : Nat) : Nat := bits e (8 * (o + n) - 1) (8 * o)
      let put (e o n v : Nat) : Nat := setBits e (8 * (o + n) - 1) (8 * o) v
      let off := s.fld CMP_REC_CFG.FLAGS_OFF
      let f := (x.phv.getD off 0).toNat
      let e' := put (put (put (put e 32 8 (at_ 32 8 + 1)) 40 8 (at_ 40 8 + x.len)) 48 8 (max (at_ 48 8) x.ts)) 62 2 x.source
      let e' := if off = 0x1FF then e'
        else put (put e' 60 1 (at_ 60 1 ||| f)) 61 1 (at_ 61 1 ||| (if bitOf f 0 ∨ bitOf f 2 then 2 else 0))
      s.setEntry c spot e'

/-- The heavy-hitter sketch takes a forwarded packet (R435). -/
def State.sketch (s : State) (p : Nat) (x : Packet) : State :=
  if !s.isSet CMP_SK_CFG.EN 0 p then s
  else
    let bank := s.fld CMP_SK_CFG.ACTIVE 0 p
    let key := s.profileKey p x.gen (s.fld CMP_SK_CFG.PROF 0 p) x.phv
    let d := if s.isSet CMP_SK_CFG.MODE 0 p then x.len else 1
    let seeds := [s.fld CMP_SK_SEED01.SEED0 0 p, s.fld CMP_SK_SEED01.SEED1 0 p, s.fld CMP_SK_SEED23.SEED2 0 p, s.fld CMP_SK_SEED23.SEED3 0 p]
    let s := (seeds.zipIdx).foldl (fun t sr =>
      let k := ((2 * p + bank) * 4 + sr.2) * 65536 + crc32c sr.1 key % 65536
      { t with tel := { t.tel with sketch := t.tel.sketch.modify 0 k fun c => satAdd c d (2 ^ 32 - 1) } }) s
    { s with tel := { s.tel with total := s.tel.total.modify 0 (2 * p + bank) fun n => (n + d) % 2 ^ 64 } }

/-- The destination an action names; none where the kind is none of R150's or the number names nothing. -/
def destOf (kind n : Nat) : Option Dest :=
  match kind with
  | 0 => if n < 32 then some (.port n) else none
  | 1 => if n < 32768 then some (.rx n) else none
  | 2 => if n < 16 then some (.pool n) else none
  | 3 => if n < 24 then some (.core n) else none
  | 4 => if n < 8 then some (.loop n) else none
  | _ => none

/-- A copy or mirror enters its queue (R262, R263); true where it did. -/
def State.enqueueCopy (s : State) (x : Packet) (dest : Dest) (g : Option Nat) (prio : Nat) : State × Bool :=
  s.enqueue { x with dest, tx := none, sarup := none, inPort := none, seq := none, hold := 0, launch := 0, sa := none, rewrites := [], dscp := none
                     tsReq := false } g prio

/-- The copies of a packet (R150, R262). -/
def State.makeCopies (s : State) (w : Walk) (x : Packet) : State :=
  w.copies.foldl (fun t c =>
    match destOf c.1 c.2.1 with
    | some d => (t.enqueueCopy { x with copy := 1 } d (t.destGroup d) c.2.2).1
    | none => t.badAction x.pipe) s

/-- The mirrors of a packet, of the frame as it entered the pipeline (R273). -/
def State.makeMirrors (s : State) (w : Walk) (x : Packet) : State :=
  w.mirrors.foldl (fun t m =>
    let kind := t.fld SCH_SESSION.KIND 0 m.2
    let target := t.fld SCH_SESSION.TARGET 0 m.2
    if kind ≠ m.1 ∨ (kind = 2 ∧ 7 < target) then t.badAction x.pipe
    else
      let trunc := t.fld SCH_SESSION.TRUNC 0 m.2
      let bs := if trunc = 0 then x.bytes else x.bytes.take (max 64 trunc)
      let r := t.enqueueCopy { x with copy := 2, session := m.2, origLen := x.len, bytes := bs }
        (if kind = 1 then .port target else .capture target) (some (t.fld SCH_SESSION.GROUP 0 m.2)) (t.fld SCH_SESSION.PRIO 0 m.2)
      if r.2 then r.1.bump .SCH_STAT 0 7 else r.1) s

/-- The walk's verdict is drop: only the named counters advance (R153). -/
def State.verdictDrop (s : State) (p : Nat) (w : Walk) (stat : Option Nat) : State :=
  let s := match stat with
    | some k => s.bump .PPL_STAT p k
    | none => s
  (((s.countAll p w).pipeEvent p 0x207).dropSeq w.pkt).dropFrame w.pkt stDropped

/-- The final verdict of a packet whose decryption, if any, is done: `seen` is the frame as it entered the pipeline. -/
def State.verdict (s : State) (p : Nat) (w : Walk) (seen : Packet) : State :=
  if w.verdict ≠ 2 then s.verdictDrop p w (some 5)
  else match destOf w.destKind w.dest with
  | none => (s.badAction p).verdictDrop p w none
  | some dest =>
    let r := s.policeAll p seen.len w.policers
    let s := r.1
    if r.2.drop then s.verdictDrop p w (some (if r.2.red then 6 else 5))
    else
      let s := (s.countAll p w).pipeEvent p 0x206
      let s := w.hits.foldl State.setHit s
      let s := (w.hits.filter fun h => h.key != []).foldl (fun t h => t.tierCount seen h.key) s
      let s := s.sketch p w.pkt
      let s := if w.learn then s.submitLearn p w.pkt else s
      let prio := r.2.prio.getD w.prio
      let x := { w.pkt with dest, l0 := prio, rewrites := w.rewrites, dscp := r.2.dscp, tsReq := w.tsReq, verdictAt := s.now }
      let t : State := match x.seq, dest with
        | some (d, n), .pool _ =>
          let e := s.enqueue x (x.namedGroup.or (s.destGroup dest)) prio
          if e.2 then e.1 else e.1.releaseSeq p d n none
        | some (d, n), _ => s.releaseSeq p d n (some x)
        | none, .pool _ =>
          if p < 4 then
            let q := s.sequence p x none
            let e := q.1.enqueue q.2 (x.namedGroup.or (s.destGroup dest)) prio
            if e.2 then e.1 else e.1.dropSeq q.2
          else (s.enqueue x (x.namedGroup.or (s.destGroup dest)) prio).1
        | none, _ => (s.enqueue x (x.namedGroup.or (s.destGroup dest)) prio).1
      (t.makeCopies w w.pkt).makeMirrors w { w.pkt with bytes := seen.bytes }

/-- DEFAULT_ACT is executed where no action set a verdict (R151), once. -/
def State.defaultAct (s : State) (p : Nat) (w : Walk) : State × Walk :=
  if w.verdict = 0 ∧ w.stage < 13 then
    let r := s.doAction p (s.fld PPL_CFG.DEFAULT_ACT p) w
    (r.1, { r.2 with stage := 13 })
  else (s, w)

/-- The final verdict: DEFAULT_ACT where no action set one (R151), decryption (R398), then the effects (R153). -/
def State.finalVerdict (s : State) (p : Nat) (w : Walk) : State :=
  let a := s.defaultAct p w
  let w := a.2
  if bitOf w.pkt.saUse 31 then
    let r := a.1.espDecrypt p w.pkt
    match r.2 with
    | some x => r.1.verdict p { w with pkt := x } w.pkt
    | none => r.1.verdictDrop p w (some 5)
  else a.1.verdict p w w.pkt

/-- The verdict stage cannot take a sequenced packet: all 16,384 reorder entries are in use (R162). -/
def State.verdictWaits (s : State) (p : Nat) (w : Walk) : Bool :=
  decide (p < 4) && w.pkt.seq.isNone && w.verdict == 2 && w.destKind == 2 && decide (16384 ≤ (s.pipe p).inUse)

/-- The Snare image in force for a rule set (R521). -/
def State.ruleImage (s : State) (r : Nat) : Option Nat :=
  (s.net.images.find? fun i => i.ruleSet == r && !i.old).map (·.num)

/-- The verdict stage takes a packet whose verdict is known, or holds it until a reorder entry is free (R162). -/
def State.atVerdict (s : State) (p : Nat) (w : Walk) : State :=
  if s.verdictWaits p w then s.onPipe p fun q => { q with held := some w } else s.finalVerdict p w

/-- A walk whose scan was skipped, or that asked for none, gets its verdict; the scan that DEFAULT_ACT asks for is skipped too. -/
def State.skipScan (s : State) (p : Nat) (w : Walk) : State :=
  let a := s.defaultAct p { w with scan := none, pkt := { w.pkt with scanSkipped := true } }
  a.1.atVerdict p { a.2 with scan := none }

/-- The end of classification: to Snare, held at the verdict, or the final verdict (R159, R160, R162). -/
def State.endWalk (s : State) (p : Nat) (w : Walk) : State :=
  let a := if w.scan.isNone then s.defaultAct p w else (s, w)
  let s := a.1
  let w := a.2
  match w.scan with
  | none => s.atVerdict p w
  | some n =>
    if 16384 ≤ s.net.snare.length then
      let s := s.bump .PPL_STAT p 11
      if s.isSet PPL_SCAN_PROF.FULL_ACT p n then s.verdictDrop p { w with scan := none, pkt := { w.pkt with scanSkipped := true } } none
      else s.skipScan p w
    else if p < 4 ∧ 16384 ≤ (s.pipe p).inUse then s.onPipe p fun q => { q with held := some w }
    else
      let r := if p < 4 then s.sequence p w.pkt (some (s.up + s.reorderTimeout p)) else (s, w.pkt)
      let w := { w with pkt := r.2, image := (s.ruleImage (s.fld PPL_SCAN_PROF.RULE_SET p n)).getD 0 }
      let s := ((r.1.bump .PPL_STAT p 10).pipeEvent p 0x20A)
      { s with net := { s.net with snare := s.net.snare ++ [w] } }

/-- A packet joins its pipeline's miss queue, whose last place raises the source of a full queue (R198, R200). -/
def State.parkWalk (s : State) (p : Nat) (w : Walk) : State :=
  let s := s.onPipe p fun q => { q with parked := q.parked ++ [w] }
  if (s.pipe p).parked.length = 2048 then s.fire 24 6 0 initTables else s

/-- A packet has not reached its verdict 10 ms after its first lookup (R180). -/
def State.stale (s : State) (w : Walk) : Bool := w.pkt.lookupAt.any fun t => decide (t + ofMs 10 ≤ s.up)

/-- A stale packet is dropped before its verdict, and counted (R180). -/
def State.dropStale (s : State) (w : Walk) : State :=
  ((((s.bump .TBL_STAT 0 17).fire 24 9 0 initTables).pipeEvent w.pkt.pipe 0x281 w.lookups).dropSeq w.pkt).dropFrame w.pkt stDropped

/-- The packet at a place of a pipeline's parked, resumed and held ones leaves. -/
def State.takeWalk (s : State) (p i : Nat) : State :=
  s.onPipe p fun q =>
    let a := q.parked.length
    let b := a + q.resumed.length
    if i < a then { q with parked := q.parked.eraseIdx i }
    else if i < b then { q with resumed := q.resumed.eraseIdx (i - a) }
    else { q with held := none }

/-- A walk goes on from its stage, and parks or ends. -/
def State.goWalk (s : State) (p : Nat) (w : Walk) : State :=
  match s.runStages p 12 w with
  | (s, w, true) => s.parkWalk p w
  | (s, w, false) => s.endWalk p w

/-! ## The program of the boot ROM (R166; log entry 41) -/

/-- What the boot ROM's program finds in a frame: parse status, FRAG, the outer VLAN ID, where the outer IP header starts, where the
last header ends, and the bytes hashed. -/
structure BootParse where
  status : Nat
  frag : Bool := false
  vlan : Nat := 0
  ip : Option Nat := none
  stop : Nat := 0
  key : List Byte := []
deriving DecidableEq, Repr

/-- A VLAN tag's EtherType. -/
def isTag (t : Nat) : Bool := t == 0x8100 || t == 0x88A8

/-- The L4 header behind an IP header: TCP or UDP, whose ports join the hash; none of a fragment. -/
def bootL4 (b : BootParse) (bs : List Byte) (proto l4 : Nat) : BootParse :=
  let len := if proto = 6 then 20 else 8
  if b.frag then b
  else if proto ≠ 6 ∧ proto ≠ 17 then { b with status := psUnknown }
  else if bs.length < l4 + len then { b with status := psTruncated }
  else { b with stop := l4 + len, key := b.key ++ slice bs l4 4 }

/-- The parse of a frame: Ethernet, up to two VLAN tags, IPv4 or IPv6, TCP or UDP. -/
def bootParse (bs : List Byte) : BootParse :=
  let ty (o : Nat) : Nat := beNat (slice bs o 2)
  let tags := if isTag (ty 12) then (if isTag (ty 16) then 2 else 1) else 0
  let l3 := 14 + 4 * tags
  let vlan := if tags = 0 then 0 else bits (ty 14) 11 0
  let b : BootParse := { status := psOk, vlan, stop := l3 }
  if bs.length < l3 then { b with status := psTruncated, stop := 0 }
  else if ty (l3 - 2) = 0x0800 then
    let len := 4 * ((bs.getD l3 0).toNat % 16)
    if bs.length < l3 + max 20 len then { b with status := psTruncated }
    else bootL4 { b with ip := some l3, stop := l3 + len, key := slice bs (l3 + 12) 8, frag := isFragment 1 bs l3 } bs
      (bs.getD (l3 + 9) 0).toNat (l3 + len)
  else if ty (l3 - 2) = 0x86DD then
    if bs.length < l3 + 40 then { b with status := psTruncated }
    else bootL4 { b with ip := some l3, stop := l3 + 40, key := slice bs (l3 + 8) 32 } bs (bs.getD (l3 + 6) 0).toNat (l3 + 40)
  else { b with status := psUnknown }

/-- Free values of the program: the arrangement of addresses and ports that its flow hash covers, and the PRIO of its actions. -/
def algBootKey : Nat := 180
def algBootPrio : Nat := 181

/-- A packet classified by the boot ROM's program: from P0 to a queue of a network PF by VLAN and hash, from P4 to a port by TX queue.
The PHV fields it extracts and its header identities are free. -/
def State.bootWalk (s : State) (p : Nat) (x : Packet) : State × Walk × BootParse :=
  let b := bootParse x.bytes
  let status := b.status + place (b2n b.frag) 4 4 + place (b2n b.frag) 5 5 + place (b2n x.degraded) 6 6
  let hash := crc32c (s.fld PPL_HASH_CFG.SEED p) (Config.algorithm algBootKey b.key)
  let phv := slice (Config.freeBytes s.free 384) 0 384 ++ natLe 8 x.ts ++ natLe 2 x.source ++ natLe 2 x.queue ++
    natLe 1 (x.gen + 2 * x.loops) ++ natLe 1 status ++ slice (Config.freeBytes (s.free + 1) 2) 0 2 ++ natLe 4 hash ++ natLe 2 (hash % 4096) ++
    slice (Config.freeBytes (s.free + 2) 42) 0 42 ++ List.replicate 64 0
  let l := if b.vlan = 0 then s.fld GLB_STRAPS.MGR_LINK else b.vlan % 16
  let y := { x with phv, hdrs := [], ip := b.ip, payload := b.stop, lookupAt := some s.up }
  let w : Walk :=
    { pkt := y, stage := 12, last := some true, lookups := 1, verdict := 2, destKind := if p < 4 then 1 else 0
      dest := if p < 4 then 8 * l + hash % 8 else x.queue % 4, prio := leNat (slice (Config.algorithm algBootPrio [BitVec.ofNat 8 p]) 0 1) % 8 }
  (s.drawn.drawn.drawn, w, b)

/-- The boot ROM's program runs in pipeline `p` under generation `g`, and its table is in service. -/
def State.bootRuns (s : State) (p g : Nat) : Bool := s.net.boot.contains p && g == 1 && s.isSet TBL_T_CFG.EN 0 (p / 4)

end Sys2Proof.Machine
end

