-- ==== Sys2Proof/Machine/ResetOps.lean ====
section
/-! DEFINITION. The reset of a Tabor cluster (R207, R379, R453), and isolation (R468). -/
namespace Sys2Proof.Machine

/-- A packet that a reset cluster held is released as ENGINE_LOST (R165). -/
def State.loseSlot (s : State) (x : Slot) : State :=
  let s := if x.pkt.seq.isSome then s.bump .PPL_STAT x.pkt.pipe 16 else s
  (s.dropSeq x.pkt).dropSelected x.pkt stDropped

/-- A thread of a reset cluster: its registers stay, all it was doing is gone; HALT holds. -/
def Thread.afterReset (x : Thread) : Thread :=
  { x with mode := .idle, step := false, emask := 0, epend := 0, inTrap := false, timer := none, staging := {}, staged := 0
           slots := [], cur := none, outMem := 0, outQueue := 0, prefetches := 0, ident := none, unread := [], dynCredits := 0, dynSlots := 0 }

/-- RESET of a cluster (R207): its threads stop, what they hold is released, its mailbox and its storage commands are dealt with,
its epoch rises, and it is LOADED. -/
def State.clusterReset (s : State) (c : Nat) : State :=
  let held := (threadsOf c).flatMap fun t => (s.thread t).slots
  let s := (threadsOf c).foldl (fun u t => u.onThread t Thread.afterReset) s
  let s := held.foldl State.loseSlot s
  let s := (s.mbxDiscard (2080 + c) false).nvmClusterReset c
  let s := s.put TBC_STATUS.EPOCH ((s.epoch c + 1) % 16) c
  (s.put TBC_STATUS.QUIET 0 c).put TBC_STATUS.STATE LOADED c

/-- The cluster is isolated: a source of its group and place has its unit isolated (R468). -/
def State.clusterIsolated (s : State) (c : Nat) : Bool :=
  (List.range 8).any fun k => s.isolatedUnit (14 + c / 4) (8 * (c % 4) + k)

/-- The harts of control-core cluster 1 or 2 are held in reset: none waits and none debugs (R443). -/
def State.holdCores (s : State) (c : Nat) : State :=
  (s.put ⟨.GLB_CC_STATUS, 8 * c + 7, 8 * c⟩ 0).put ⟨.GLB_CC_STATUS, 8 * c + 31, 8 * c + 24⟩ 0

/-- Clusters whose isolation was gained and which have not been reset for it; isolated control-core clusters are held in reset. -/
def State.isolateClusters (s : State) : State :=
  let s := (List.range 16).foldl (fun t c =>
    if t.clusterIsolated c && t.cluster c != LOADED then t.clusterReset c else t) s
  [1, 2].foldl (fun t c => if t.coreIsolated c then t.holdCores c else t) s

end Sys2Proof.Machine
end

