-- ==== Sys2Proof/Machine/Settle.lean ====
section
/-! DEFINITION. What ends a step: device resets (R48, R90, R473, R526, R527) and the fatal actions that the step's events
gained (R468). -/
namespace Sys2Proof.Machine

/-- The reset is a POR# or supply reset, which relatches straps and clears what warm resets keep. -/
def ResetSource.cold : ResetSource → Bool
  | .por | .supply | .aon => true
  | _ => false

/-- Registers that fuses hold: they never change by a reset. -/
def fuseRegs : List RegName := [.GLB_IDENT, .SEC_LIFECYCLE, .SEC_SLOT_STATUS, .SEC_ROLLBACK, .ETH_TS_INT, .PWR_AVS]

/-- Registers that every device reset keeps: CAR but for its LOCK (R90), the straps (R50), the always-on fields of R526. -/
def alwaysKept : List RegName :=
  (RegName.all.filter fun r => r.layout.block = .CAR ∧ r ≠ .CAR_LOCK) ++ [.GLB_STRAPS, .PWR_SAG_STATUS, .PWR_PLL_STATUS, .PWR_THERM]

/-- Registers that watchdog, manager and fatal resets keep besides (R473, R527). -/
def warmKept : List RegName :=
  [.GONG_FIRST_INFO, .GONG_FIRST_ADDR, .GONG_FIRST_TS, .GONG_COUNT, .GONG_RETIRE_LOG, .GLB_RESET_CAUSE]

/-- The registers kept across a reset. -/
def keptRegs (src : ResetSource) : List Nat :=
  (fuseRegs ++ (if src = .aon then [] else alwaysKept) ++ (if src.cold then [] else warmKept)).map (·.ctorIdx)

/-- The device resets that this part has performed at the present edge of AOCLK: they meet in one cycle (R26, log entry 160). -/
def State.metResets (s : State) : List ResetSource :=
  match s.modes.met with
  | some m => if m.edge = s.edges then m.sources else []
  | none => []

/-- The bit of GLB_RESET_CAUSE that a source sets; a thermal shutdown and a NIGHT entered from DUSK set theirs at the POR# that ends them. -/
def ResetSource.causeBit : ResetSource → Nat
  | .por => 1
  | .supply => 2
  | .watchdog => 4
  | .manager _ => 8
  | .fatal _ => 16
  | .aon => 64
  | .thermal | .dusk => 0

/-- Place of a source in *Device reset sources* (R26, R48). -/
def ResetSource.order : ResetSource → Nat
  | .por => 0
  | .supply => 1
  | .watchdog => 2
  | .manager _ => 3
  | .fatal _ => 4
  | _ => 5

/-- GLB_RESET_CAUSE after a reset (R527). Resets that meet in one cycle are one reset, which sets the bit of each (R26). -/
def causeAfter (s : State) (src : ResetSource) : Word :=
  let old := s.raw .GLB_RESET_CAUSE
  let met := s.metResets
  let warm : Word :=
    let w := old ||| BitVec.ofNat 64 src.causeBit
    if met = [] then putBits w 15 8 (satAdd (getBits old 15 8) 1 255) else w
  let bits : Word := met.foldl (fun w x => w ||| BitVec.ofNat 64 x.causeBit) (BitVec.ofNat 64 src.causeBit)
  match src with
  | .por => bits ||| BitVec.ofNat 64 (place (b2n s.modes.thermalRecord) 5 5 + place (b2n s.modes.duskRecord) 7 7)
  | .supply => bits
  | .aon => 64
  | .watchdog | .manager _ | .fatal _ => warm
  | .thermal => if met.contains .por then old ||| 32 else old
  | .dusk => old

/-- The target that decides the mode after a reset is that of the source listed first among those that met (R26). -/
def State.resetTarget (s : State) (src : ResetSource) : Bool :=
  let first := s.metResets.foldl (fun a b => if b.order < a.order then b else a) src
  match first with
  | .manager t | .fatal t => t
  | _ => false

/-- The mode a reset leads to (R48, R24): MIDNIGHT on a RETIRED part, TWILIGHT by strap or by target, else DAWN. -/
def State.nextMode (s : State) (twilight : Bool) : Nat :=
  if s.fld SEC_LIFECYCLE.STATE = 3 then MIDNIGHT
  else if twilight ∨ s.fld GLB_STRAPS.BOOT_SRC = 3 then TWILIGHT
  else DAWN

/-- What holds the part in NIGHT after a reset. A hold that only POR# or VDD_AON ends stays (R30, R46, R47). -/
def holdAfter (was : NightHold) (src : ResetSource) : NightHold :=
  match src with
  | .aon => .aonDown
  | .por => if was = .aonDown then .aonDown else .porLow
  | src =>
    if was = .no ∨ was = .supply then
      match src with
      | .supply => .supply
      | .thermal => .thermal
      | .dusk => .dusk
      | _ => .no
    else was

/-- End of the watchdog period that runs; PERIOD 0 is 1 (R49). -/
def State.wdogDue (s : State) : Nat := s.modes.wdogSince + ofMs (max 1 (s.fld GLB_WDOG_CTL.PERIOD))

/-- The second expiry of the watchdog is due (R49). -/
def State.wdogExpires (s : State) : Bool :=
  s.isSet GLB_WDOG_CTL.EN && s.modes.wdogSecond && decide (s.wdogDue ≤ s.up) && s.mode != NIGHT

/-- Mode state after a reset: the always-on records, the pins and the rails stay. -/
def State.modesAfter (s : State) (src : ResetSource) : ModeState :=
  let ended := src == .por || src == .aon
  { hold := holdAfter s.modes.hold src
    thermalRecord := !ended && (s.modes.thermalRecord || (src == .thermal && !s.metResets.contains .por))
    duskRecord := !ended && (s.modes.duskRecord || src == .dusk)
    announce := s.modes.announce ++ (if src = .por ∧ s.modes.thermalRecord then [5] else []) ++ (if src = .supply then [8] else [])
    lostSerdes := s.modes.lostSerdes
    porLow := s.modes.porLow
    lowRails := s.modes.lowRails
    sags := s.modes.sags
    met := some { edge := s.edges, sources := s.metResets ++ [src]
                  reachable := if s.metResets = [] then s.mode != NIGHT else s.modes.met.any (·.reachable)
                  wdogDue := if s.metResets = [] then s.wdogExpires else s.modes.met.any (·.wdogDue) }
    avsFails := if src.cold then 0 else s.modes.avsFails }

/-- SEC after a reset: the fuses stay. A DEBUG_UNLOCK waits for a reset that is not POR# (R413). -/
def State.secAfter (s : State) (src : ResetSource) : SecState :=
  { slots := s.sec.slots, serial := s.sec.serial, udsBlown := s.sec.udsBlown, debugNext := s.sec.debugNext && (src == .por || src == .aon) }

/-- DEBUG_UNLOCKED after a reset (R413); its event. -/
def State.unlockAfter (s : State) (before : State) (src : ResetSource) : State :=
  let t := s.put SEC_LIFECYCLE.DEBUG_OPEN 0
  if src = .por ∨ src = .aon then t.put SEC_LIFECYCLE.DEBUG_UNLOCKED 0
  else if before.sec.debugNext then (t.put SEC_LIFECYCLE.DEBUG_UNLOCKED 1).fire 29 5 0 initSec
  else t

/-- PWR_AVS after a reset (R526, R513): the setpoint is a fuse; REQUEST_MV and ACK_ERR start again at a POR# or supply reset. -/
def State.avsAfter (s : State) (src : ResetSource) : State :=
  if src.cold then (s.put PWR_AVS.REQUEST_MV 750).put PWR_AVS.ACK_ERR 0 else s

/-- A rollback command that the reset interrupts leaves its counter at a free value from the old one to VALUE (R407, log entry 2). -/
def State.rollbackCut (s : State) (before : State) : State :=
  match before.sec.rollback with
  | some (c, v) =>
    let old := s.fld (SEC_ROLLBACK.COUNTER c)
    (s.put (SEC_ROLLBACK.COUNTER c) (old + (Config.freeWord s.free).toNat % (v - old + 1))).drawn
  | none => s

/-- A device reset (R48): everything goes to its reset value but what the reset keeps; the mode is NIGHT. A warm reset
ends by itself, so the transition to the next mode runs; a cold one waits for its cause to end. Host memory, the pins and
the commands waiting are not the part's. The holding registers of R8 and the copies of R56 stay with the CAR registers they belong to
(R90), but for a loss of VDD_AON; R8 itself does not say (DESIGN CHOICE, log entry 166). -/
def State.deviceReset (s : State) (src : ResetSource) : State :=
  let kept := keptRegs src
  let base : State :=
    { State.reset with
      regs := s.regs.keep fun k => kept.contains (k / 2 ^ 40)
      bus := if src = .aon then {} else s.bus
      host := s.host
      ddr := s.ddr
      pending := s.pending
      free := s.free
      car := if src = .aon then {} else s.car
      gong := if src.cold then {} else { retiredCount := s.gong.retiredCount }
      hl := { links := ⟨s.hl.links.entries.filterMap fun e => if e.2.perst then some (e.1, { perst := true }) else none⟩ }
      modes := s.modesAfter src
      sec := s.secAfter src }
  let base := (((base.setRaw .GLB_RESET_CAUSE 0 0 (causeAfter s src)).avsAfter src).unlockAfter s src).rollbackCut s
  let ends := src != .por && src != .supply && src != .aon && base.modes.hold == .no
  let b := ((base.put GLB_MODE.MODE NIGHT).put GLB_MODE.TRANSIT (b2n ends)).put GLB_MODE.REQ (base.nextMode (s.resetTarget src))
  let b := b.put PWR_PLL_STATUS.LOCKED (if src = .aon then 0 else s.fld PWR_PLL_STATUS.LOCKED % 2)
  State.carModeChange s ((List.range 16).foldl (fun t l => (t.put CAR_LINK_STATUS.PTM_ON 0 0 l).put CAR_LINK_STATUS.MAPPED 0 0 l) b)

/-- The fatal action gained in this step is performed (R468): a fatal-error reset, or isolation, which resets a cluster that is
not LOADED yet. -/
def State.settle (s : State) : State :=
  let a := s.gong.act
  if a ≠ 0 then ({ s with gong := { s.gong with act := 0 } }).deviceReset (.fatal (a = 3))
  else if s.gong.isolated = [] then s
  else s.isolateClusters

/-- A meaning's answer: the next state, with the step's fatal actions performed. -/
def done (s : State) : Out := .next s.settle

end Sys2Proof.Machine
end

