-- ==== Sys2Proof/Machine/Carillon.lean ====
section
/-! DEFINITION. The commands and events of the Carillon time core (03_carillon_time_core). -/
namespace Sys2Proof.Machine

/-- A Carillon command's end: the bound is carried on and the step's actions are performed. -/
def carDone (before s : State) : Out := done (State.carSettle before s)

/-! ## Stepping -/

/-- Signed nanoseconds of CAR_STEP_NS. -/
def stepNs (w : Word) : Int := signed 32 (wfld w CAR_STEP_NS.NS)

/-- Whether a write of CAR_STEP_NS is accepted (R57): HELD is 0 and the magnitude is at most 999,999,999. -/
def State.stepAccepted (s : State) (w : Word) : Bool := !s.held && decide ((stepNs w).natAbs ≤ 999999999)

/-- STEP_WRITE (R57): the step SEC × 10⁹ + NS is applied at the next AOCLK edge, or refused with STEP_REFUSED and event 6. -/
def execStepWrite (_req : Requester) (w : Word) (s : State) : Out :=
  if s.mode = NIGHT then .next s else
  if s.stepAccepted w then
    let step : Int := (s.int CAR_STEP_SEC.SEC * 1000000000 + stepNs w) * perNs
    .next { s with car := { s.car with steps := s.car.steps ++ [step] } }
  else done ((s.put CAR_STATUS.STEP_REFUSED 1).carEvent 6)

/-- CHECKER_MISMATCH (R59): event 13, HELD 0 and FREERUN; the counter keeps running. -/
def execCheckerMismatch (s : State) : Out := carDone s ((s.carEvent 13).enterServo FREERUN)

/-! ## PTP ports -/

/-- A condition of R62 that holds a PTP port off. -/
def State.ptpBlocked (s : State) (p : Nat) : Bool :=
  s.isSet CAR_PTP_PORT.ROLE 0 p &&
  (s.fld CAR_PTP_IDENTITY.IDENTITY == 0 || decide (4 < s.fld CAR_PTP_PORT.PROFILE 0 p) || s.fld CAR_PTP_PORT.TRANSPORT 0 p == 3)

/-- A PTP port becomes held off, with event 14 once, or is released and listens (R62). -/
def State.checkHeldOff (s : State) (p : Nat) : State :=
  let t :=
    if s.ptpBlocked p then
      if (s.ptp p).heldOff then s else (s.onPtp p fun _ => { heldOff := true }).carEvent 14
    else if !s.isSet CAR_PTP_PORT.ROLE 0 p then s.onPtp p fun _ => {}
    else if (s.ptp p).heldOff then s.onPtp p fun _ => { since := s.up }
    else s
  t.followMasters p

/-- A write of CAR_PTP_PORT (R62): a change of role, profile, domain or transport starts the port's exchange anew. -/
def State.writePtpPort (s : State) (p : Nat) (w : Word) : State :=
  let u := s.writeReg .CAR_PTP_PORT 0 p w
  let key (x : State) : Nat × Nat × Nat × Nat :=
    (x.fld CAR_PTP_PORT.ROLE 0 p, x.fld CAR_PTP_PORT.PROFILE 0 p, x.fld CAR_PTP_PORT.DOMAIN 0 p, x.fld CAR_PTP_PORT.TRANSPORT 0 p)
  (if key s = key u then u else u.onPtp p fun q => { heldOff := q.heldOff, since := s.up }).checkHeldOff p

/-! ## PPS and GNSS -/

/-- A PPS input's state: 0 PPS_IN, 1 GNSS_PPS. -/
def State.ppsIn (s : State) (k : Nat) : PpsInput := s.car.pps.get {} k

/-- Updates a PPS input. -/
def State.onPps (s : State) (k : Nat) (g : PpsInput → PpsInput) : State :=
  { s with car := { s.car with pps := s.car.pps.modify {} k g } }

/-- The slots of a kind: 1 GNSS, 2 PPS_IN. -/
def State.slotsOfKind (s : State) (k : Nat) : List Nat := (List.range 8).filter fun n => s.slotEn n && s.slotKind n == k

/-- DELAY of a PPS input, in units of 2^-32 ns. -/
def State.ppsDelay (s : State) (gnss : Bool) : Int :=
  (if gnss then s.int CAR_GNSS_PPS.DELAY else s.int CAR_PPS_IN.DELAY) * perQuarter

/-- WINDOW_NS of a PPS input. -/
def State.ppsWindow (s : State) (gnss : Bool) : Nat :=
  if gnss then s.fld CAR_GNSS_PPS.WINDOW_NS else s.fld CAR_PPS_IN.WINDOW_NS

/-- Offset of a captured edge from the instant the counter predicts for it, N + DELAY (R63). -/
def State.edgeOffset (s : State) (gnss : Bool) (t : Nat) : Int :=
  let u : Int := t - s.ppsDelay gnss
  u - nearestSecond u * perSec

/-- An edge passes the window test of R63. -/
def State.edgeAccepted (s : State) (gnss : Bool) (t : Nat) : Bool :=
  (s.ppsIn (b2n gnss)).free || decide ((s.edgeOffset gnss t).natAbs ≤ s.ppsWindow gnss * perNs)

/-- θ of a PPS_IN edge (R65, R72): the edge names the second nearest to the counter's own value at it. -/
def State.ppsTheta (s : State) (t : Nat) : Int := (t : Int) - (nearestSecond t * perSec + s.ppsDelay false)

/-- θ of a GNSS edge captured at `t` whose second is `sec` (R72). -/
def State.gnssTheta (s : State) (t : Nat) (sec : Int) : Int := (t : Int) - (sec * perSec + s.ppsDelay true)

/-- PPS_EDGE (R60, R63 to R65, R72): the captured edge of the polarity that FALLING selects is accepted or rejected; a PPS_IN edge
is measured against the nearest second, a GNSS edge against a sentence held for it (ASSOC = 0) or still to come (ASSOC = 1). -/
def execPpsEdge (gnss falling : Bool) (phase : Fin 128) (freq10m : Int) (s : State) : Out :=
  let k := b2n gnss
  if !(if gnss then s.isSet CAR_GNSS_PPS.EN else s.isSet CAR_PPS_IN.EN) ||
      falling != (if gnss then s.isSet CAR_GNSS_PPS.FALLING else s.isSet CAR_PPS_IN.FALLING) then .next s
  else
    let t := s.at phase
    let inp := s.ppsIn k
    let slots := s.slotsOfKind (if gnss then 1 else 2)
    if !s.edgeAccepted gnss t then
      let n := inp.rejected + 1
      let s1 := s.onPps k fun q => { q with rejected := n, free := decide (4 ≤ n) }
      let s1 := slots.foldl (fun x m => (x.onSlot m fun c => { c with seen := some (s.dueOf m t) }).rejectMeasurement m) s1
      carDone s (s1.carEvent (if gnss then 8 else 7))
    else
      let assoc := s.isSet CAR_NMEA.ASSOC
      let named := if assoc then none else inp.held
      let told := gnss && !assoc && named.isNone
      let late := gnss && assoc && inp.last.isSome && !inp.paired && !inp.told
      let s1 := s.onPps k fun q => { q with
        free := false, rejected := 0, last := some t, degraded := s.sagCommon, paired := named.isSome, heard := false, told, held := none }
      let s1 := if late then s1.carEvent 9 else s1
      let s1 := if told then s1.carEvent 9 else s1
      if gnss then
        match named with
        | some sec => carDone s (slots.foldl (fun x m => x.measure m (s.gnssTheta t sec) t s.sagCommon 0) s1)
        | none => carDone s s1
      else if s.isSet CAR_STATUS.TOD_VALID then
        carDone s (slots.foldl (fun x m => x.measure m (s.ppsTheta t) t s.sagCommon freq10m) s1)
      else carDone s s1

/-- NMEA_SENTENCE (R60, R64): a valid sentence within 900 ms of the last accepted edge names that edge's second (ASSOC = 1) or
the next one's (ASSOC = 0); an invalid one raises event 9. At another rate than BAUD's the receiver takes no sentence, and an edge
takes the first of several. -/
def execNmeaSentence (sentence : NmeaSentence) (s : State) : Out :=
  if !s.isSet CAR_NMEA.EN || sentence.baud.val != s.fld CAR_NMEA.BAUD then .next s
  else if !sentence.checksumOk || (sentence.rmc && !sentence.statusA) then done (s.carEvent 9)
  else
    let inp := s.ppsIn 1
    match inp.last with
    | none => .next s
    | some t =>
      if ofMs 900 < s.now - t || inp.heard then .next s
      else
        let sec : Int := sentence.utc + s.int CAR_UTC.OFFSET
        if s.isSet CAR_NMEA.ASSOC then
          let s1 := s.onPps 1 fun q => { q with paired := true, heard := true }
          carDone s ((s.slotsOfKind 1).foldl (fun x m => x.measure m (s.gnssTheta t sec) t inp.degraded 0) s1)
        else .next (s.onPps 1 fun q => { q with heard := true, held := some sec.toNat })

/-- An accepted GNSS edge whose sentence has not come within 900 ms raises event 9 (R64, ASSOC = 1). -/
def State.nmeaMissing (s : State) : State :=
  let inp := s.ppsIn 1
  match inp.last with
  | some t =>
    if s.isSet CAR_NMEA.ASSOC ∧ ¬ inp.paired ∧ ¬ inp.told ∧ t + ofMs 900 < s.now then
      (s.onPps 1 fun q => { q with told := true }).carEvent 9
    else s
  | none => s

/-- NMEA_HOLD_EXPIRY (R64): a held sentence is discarded when the next edge has not been accepted within 1 s + WINDOW_NS. -/
def execNmeaHoldExpiry (s : State) : Out :=
  match (s.ppsIn 1).held, (s.ppsIn 1).last with
  | some _, some t =>
    if t + perSec + s.ppsWindow true * perNs < s.now then .next (s.onPps 1 fun q => { q with held := none }) else .next s
  | _, _ => .next s

/-- MEASUREMENT_MISSING (R72): none has been accepted or rejected for the measurement expected after the last one, and the next
falls due. -/
def execMeasurementMissing (n : Fin 8) (s : State) : Out :=
  match (s.slot n).seen with
  | some due =>
    if s.slotEn n ∧ due + 2 * s.expects n ≤ s.now then
      carDone s ((s.onSlot n fun c => { c with seen := some (due + s.expects n) }).missOne n)
    else .next s
  | none => .next s

/-- WTR_EXPIRY (R69): a better slot that has stayed usable for WTR_S becomes selected while REVERT is 1. -/
def execWtrExpiry (n : Fin 8) (s : State) : Out :=
  match (s.slot n).betterSince, s.selected with
  | some since, some m =>
    if s.isSet CAR_SERVO_CFG.REVERT ∧ s.isSet CAR_SRC_STATUS.USABLE 0 n ∧ s.slotBefore n m ∧
        since + s.fld CAR_SERVO_CFG.WTR_S * perSec ≤ s.now then
      carDone s (s.changeSlot (some n))
    else .next s
  | _, _ => .next s

/-! ## Register writes with a row of their own -/

/-- SERVO_DISABLE (R71, R74): the write of CAR_SERVO_CFG is applied; with SERVO_EN 0 the servo goes to FREERUN. While CAR_LOCK
is set SERVO_EN keeps its value (R4). -/
def execServoDisable (_req : Requester) (w : Word) (s : State) : Out :=
  if s.mode = NIGHT then .next s else
  let s1 := s.writeReg .CAR_SERVO_CFG 0 0 w
  if s1.isSet CAR_SERVO_CFG.SERVO_EN then .next s1 else carDone s (s1.enterServo FREERUN)

/-- SRC_PATH_WRITE (R22, R75): a PATH below FLOOR is stored as FLOOR and raises event 5; after CAR_LOCK it is ignored. -/
def execSrcPathWrite (_req : Requester) (n : Fin 8) (w : Word) (s : State) : Out :=
  if s.mode = NIGHT then .next s else
  if s.locked .CAR_SRC_PATH 0 then .next s
  else if wfld w CAR_SRC_PATH.PATH < s.fld CAR_GRADE_FLOOR.FLOOR then
    carDone s ((s.put CAR_SRC_PATH.PATH (s.fld CAR_GRADE_FLOOR.FLOOR) 0 n).carEvent 5)
  else carDone s (s.put CAR_SRC_PATH.PATH (wfld w CAR_SRC_PATH.PATH) 0 n)

/-- A write of CAR_SRC_CFG (R67, R78): EN = 1 also clears an exclusion; a slot given another KIND or PORT starts anew, with nothing
of its former input; a slot that no longer fits stops being usable; a PTP slot follows the best master of its port. -/
def State.writeSrcCfg (s : State) (n : Nat) (w : Word) : State :=
  let s1 := s.writeReg .CAR_SRC_CFG 0 n w
  let s1 := if s1.isSet CAR_SRC_CFG.EN 0 n then s1.onSlot n fun c => { c with excluded := false, miss := 0 } else s1
  let s1 := if s.dawnInputs then State.carModeChange s s1 else s1
  if s1.dawnInputs then s1
  else
    let moved := s.fld CAR_SRC_CFG.KIND 0 n != s1.fld CAR_SRC_CFG.KIND 0 n || s.fld CAR_SRC_CFG.PORT 0 n != s1.fld CAR_SRC_CFG.PORT 0 n
    let s2 := if moved then (s1.onSlot n fun c => { excluded := c.excluded }).setUsable n false else s1
    let s2 := s2.followMaster n
    if s2.slotFit n then s2 else s2.setUsable n false

/-- SRC_ENABLE_WRITE (R78): the slot is enabled and an exclusion is cleared. -/
def execSrcEnableWrite (_req : Requester) (n : Fin 8) (w : Word) (s : State) : Out := if s.mode = NIGHT then .next s else carDone s (s.writeSrcCfg n w)

/-! ## Publication, leap seconds, outputs -/

/-- EPS_PUBLISH (R80, R82): a microsecond after the last, the triple is published, and a bound above EPS_LIMIT ends in FREERUN. -/
def execEpsPublish (s : State) : Out :=
  if s.car.published.all fun t => decide (t + ofUs 1 ≤ s.now) then carDone s ((State.carSettle s s).publishTriple) else .next s

/-- CARRY_HOLD_END (R79): two seconds after CARRY became 1, the phase term acts again. -/
def execCarryHoldEnd (s : State) : Out :=
  match s.car.carry with
  | some c =>
    if s.isSet CAR_STATUS.CARRY ∧ c.tC + 2 * perSec ≤ s.now then
      .next { s with car := { s.car with carry := some { c with hold := false } } }
    else .next s
  | none => .next s

/-- LEAP_APPLY (R85): at CAR_LEAP_TIME OFFSET changes by one, event 11 is raised, and LEAP59 clears at once. -/
def execLeapApply (s : State) : Out :=
  let at_ := s.fld CAR_LEAP_TIME.SEC
  if at_ = 0 ∨ s.seconds < at_ then .next s
  else
    let up := s.isSet CAR_UTC.LEAP61
    let off := s.int CAR_UTC.OFFSET + (if up then 1 else -1)
    let s1 := ((s.put CAR_UTC.OFFSET (unsigned 16 off)).put CAR_UTC.APPLIED 1).put CAR_LEAP_TIME.SEC 0
    let s1 := if up then { s1 with car := { s1.car with leapSecond := some at_ } } else s1.put CAR_UTC.LEAP59 0
    let s1 := if s1.isSet CAR_UTC.FROM_PTP then s1.onSlot (s1.fld CAR_STATUS.SRC) fun c =>
        { c with ds := { c.ds with utcOffset := off, leap59 := c.ds.leap59 && up } }
      else { s1 with car := { s1.car with utcWritten := s1.fld ⟨.CAR_UTC, 18, 0⟩ } }
    done (s1.carEvent 11)

/-- LEAP_FLAG_CLEAR (R85): at the end of the inserted second LEAP61 clears. -/
def execLeapFlagClear (s : State) : Out :=
  match s.car.leapSecond with
  | some sec =>
    if sec + 1 ≤ s.seconds then
      let s1 := s.put CAR_UTC.LEAP61 0
      let s1 := if s1.isSet CAR_UTC.FROM_PTP then s1.onSlot (s1.fld CAR_STATUS.SRC) fun c => { c with ds := { c.ds with leap61 := false } }
        else { s1 with car := { s1.car with utcWritten := s1.fld ⟨.CAR_UTC, 18, 0⟩ } }
      .next { s1 with car := { s1.car with leapSecond := none } }
    else .next s
  | none => .next s

/-- Device time + CAR_PPS_OUT.OFFSET (R87). -/
def State.ppsOutTime (s : State) : Nat := ((s.now : Int) + s.int CAR_PPS_OUT.OFFSET * perQuarter).toNat

/-- PPS_OUT_EDGE (R87): device time + OFFSET has reached a whole second since the AOCLK edge before. With EN and not squelched,
PPS_OUT rose at that instant and stays high for WIDTH_US; once for each second. -/
def execPpsOutEdge (s : State) : Out :=
  let x := s.ppsOutTime
  let since := x % perSec
  if s.isSet CAR_PPS_OUT.EN ∧ ¬ (s.isSet CAR_PPS_OUT.SQUELCH ∧ s.isSet CAR_STATUS.UNSYNC) ∧
      (since : Int) < 8 * perNs + s.adj ∧ s.car.ppsSecond ≠ some (x / perSec) then
    .next { s with car := { s.car with
      ppsUntil := s.now - since + ofUs (max 1 (s.fld CAR_PPS_OUT.WIDTH_US)), ppsEdges := s.car.ppsEdges + 1
      ppsSecond := some (x / perSec) } }
  else .next s

/-- Level of PPS_OUT; low in NIGHT (R501). -/
def State.ppsOutPin (s : State) : Bool :=
  s.mode != NIGHT && s.isSet CAR_PPS_OUT.EN && !(s.isSet CAR_PPS_OUT.SQUELCH && s.isSet CAR_STATUS.UNSYNC) && decide (s.now < s.car.ppsUntil)

/-- EXT10M_OUT carries 10 MHz (R87); it is low in NIGHT (R501). -/
def State.ext10mRuns (s : State) : Bool :=
  s.mode != NIGHT && s.isSet CAR_PPS_OUT.EXT10M_EN && !(s.isSet CAR_PPS_OUT.SQUELCH && s.isSet CAR_STATUS.UNSYNC)

/-- Level of EXT10M_OUT (R87): 10 MHz synthesized from the counter, rising with PPS_OUT; high for the first half of each period,
the middle of the duty cycles that R505 allows (DESIGN CHOICE, log entry 173). -/
def State.ext10mPin (s : State) : Bool := s.ext10mRuns && decide (s.ppsOutTime % (100 * perNs) < 50 * perNs)

end Sys2Proof.Machine
end

