-- ==== Sys2Proof/Machine/LookOps.lean ====
section
/-! DEFINITION. Requests on lookaside cipher cores (R386 to R390, R394) and compression units (R420 to R423). -/
namespace Sys2Proof.Machine

/-! ## Messages whose operation no channel defines -/

/-- The channel defines the operation (R218 to R220, R370, R371, R386, R420, R359, R457). -/
def opKnown (channel op : Nat) : Bool :=
  match channel with
  | 0 => decide (1 ≤ op) && decide (op ≤ 5)
  | 1 => decide (1 ≤ op) && decide (op ≤ 7)
  | 2 => true
  | 3 => decide (1 ≤ op) && decide (op ≤ 7)
  | 4 => decide (1 ≤ op) && decide (op ≤ 4)
  | 5 => decide (1 ≤ op) && decide (op ≤ 2)
  | 6 => decide (1 ≤ op) && decide (op ≤ 4)
  | 7 => op == 1
  | 8 => decide (1 ≤ op) && decide (op ≤ 3)
  | _ => false

/-- A message of a channel whose operation the channel does not define is answered BAD_REQ by CRYPTO and CMP, and REFUSED by
the others (log entry 36). -/
def State.stray (s : State) (place channel : Nat) : State :=
  match s.tbe.msgs[place]? with
  | none => s
  | some m =>
    if m.channel = channel ∧ !opKnown channel m.op ∧ !(s.tbe.msgs.take place).any fun e => e.thread == m.thread && e.channel == channel then
      (s.takeMsg place).respond m (if channel = 3 ∨ channel = 4 then 19 else 2)
    else s

/-- No earlier message of the channel waits: the block takes its requests in arrival order (R386, R420). -/
def State.firstOf (s : State) (place channel : Nat) : Bool := !(s.tbe.msgs.take place).any fun e => e.channel == channel

/-! ## Lookaside cipher cores -/

/-- Fields of a CRYPTO message. -/
def Msg.cKey (m : Msg) : Nat := getBits (m.word 1) 19 0
def Msg.cSrcKind (m : Msg) : Nat := getBits (m.word 1) 23 20
def Msg.cDstKind (m : Msg) : Nat := getBits (m.word 1) 27 24
def Msg.cLen (m : Msg) : Nat := getBits (m.word 1) 63 32
def Msg.cSrc (m : Msg) : Nat := (m.word 2).toNat
def Msg.cDst (m : Msg) : Nat := (m.word 3).toNat
def Msg.cAad (m : Msg) : Nat := getBits (m.word 4) 15 0
def Msg.cHash (m : Msg) : Nat := getBits (m.word 4) 19 16
def Msg.cUnit (m : Msg) : Nat := getBits (m.word 4) 31 24
def Msg.cHandle (m : Msg) : Nat := getBits (m.word 7) 31 0
def Msg.cHost (m : Msg) : Bool := m.cSrcKind == 8 || m.cDstKind == 8

/-- Operations of channel 3. -/
def opGcmEnc : Nat := 1
def opGcmDec : Nat := 2
def opXtsEnc : Nat := 3
def opXtsDec : Nat := 4
def opCmac : Nat := 5
def opHash : Nat := 6
def opHmac : Nat := 7

/-- Digest bytes of a hash code. -/
def digestLen (h : Nat) : Nat := if h % 3 = 0 then 32 else if h % 3 = 1 then 48 else 64

/-- Bytes read at SRC and written at DST by a request (R386). -/
def Msg.cReads (m : Msg) : Nat :=
  if m.op = opGcmEnc then m.cAad + m.cLen else if m.op = opGcmDec then m.cAad + m.cLen + 16 else m.cLen
def Msg.cWrites (m : Msg) : Nat :=
  if m.op = opGcmEnc then m.cLen + 16 else if m.op ≤ opXtsDec then m.cLen else if m.op = opCmac then 16 else digestLen m.cHash

/-- A GCM_DEC of more than 65,536 bytes runs in two passes (R389). -/
def Msg.cLong (m : Msg) : Bool := m.op == opGcmDec && decide (65536 < m.cLen)

/-- A field, kind, length, bound or overlap is forbidden (R386, R389). -/
def State.cryptoBad (s : State) (m : Msg) (c : Option NvmCmd) : Bool :=
  let xts := m.op == opXtsEnc || m.op == opXtsDec
  (m.cSrcKind == 8 && m.cDstKind == 8) ||
    (xts && (m.cLen == 0 || decide (m.cUnit < 9) || decide (16 < m.cUnit) || m.cLen % 2 ^ m.cUnit != 0)) ||
    (m.op == opHash && decide (5 < m.cHash)) || (m.op == opHmac && decide (2 < m.cHash)) ||
    !s.kindHolds m.thread m.cSrcKind m.cSrc m.cReads false c || !s.kindHolds m.thread m.cDstKind m.cDst m.cWrites true c ||
    (m.cLong && m.cSrcKind == m.cDstKind && m.cSrc != m.cDst && decide (m.cSrc < m.cDst + m.cWrites) && decide (m.cDst < m.cSrc + m.cReads))

/-- The key may be used by the request (R394). -/
def keyAllows (m : Msg) (k : KeyEntry) : Bool :=
  let alg : Bool := if m.op = opXtsEnc ∨ m.op = opXtsDec then k.alg == 2 || k.alg == 3
    else if m.op = opHmac then k.alg == 4 else decide (k.alg ≤ 1)
  let use := if m.op = opGcmEnc ∨ m.op = opXtsEnc then useEnc else if m.op = opGcmDec ∨ m.op = opXtsDec then useDec else useMac
  alg && bitOf k.use use && bitOf k.clusters (clusterOf m.thread)

/-- A response of the CRYPTO channel, counted (R419). -/
def State.cryptoRespond (s : State) (m : Msg) (status : Nat) (detail : Nat := 0) : State :=
  let s := s.bump .CRY_STAT 0 0
  let s := if status = 16 then s.bump .CRY_STAT 0 1 else if status = 17 then s.bump .CRY_STAT 0 2
    else if status = 18 then s.bump .CRY_STAT 0 3 else s
  s.respond m status detail

/-- A gated domain wakes for work, where the engines' clock runs (R32, R35). -/
def State.wakeDomain (s : State) (d : Nat) : State := if s.engineClock then s.setDomain d true else s

/-- The lowest core that serves and is free. -/
def State.freeCore (s : State) : Option Nat :=
  (List.range 128).find? fun c => s.coreServes c && !s.sec.jobs.any fun j => j.core == c

/-- A request of channel 3 is checked and starts on a free core; with none free, or no clock, it waits (R386). -/
def State.startCrypto (s : State) (place op : Nat) : State :=
  match s.message place 3 op with
  | none => s.stray place 3
  | some m =>
    match s.freeCore with
    | none => s
    | some core =>
      if !s.firstOf place 3 || !s.engineClock then s
      else
        let s := s.takeMsg place
        let c := if m.cHost then s.nvmCmd m.cHandle else none
        if !s.isSet CRY_CFG.EN then s.respond m 2
        else if s.cryptoBad m c then s.cryptoRespond m 19
        else if m.cHost && c.isNone then s.cryptoRespond m 21
        else
          let r := if op = opHash then (s, none) else s.readKey m.cKey
          let s := r.1
          if op ≠ opHash ∧ !r.2.any (keyAllows m) then s.cryptoRespond m 18
          else ((s.devEvent 0x305).wakeDomain (16 + core / 16)).onSec fun x => { x with jobs := x.jobs ++ [{ core, msg := m, key := r.2 }] }

/-- What a request computes from the bytes read; none where a tag does not verify. -/
def cryptoResult (m : Msg) (key : List Byte) (src : List Byte) : Option (List Byte) :=
  let nonce := natLe 8 (m.word 5).toNat ++ natLe 4 (getBits (m.word 6) 31 0)
  let unit := natLe 8 (m.word 5).toNat ++ natLe 1 m.cUnit
  if m.op = opGcmEnc then some (gcmSeal key nonce (src.take m.cAad) (src.drop m.cAad))
  else if m.op = opGcmDec then gcmOpen key nonce (src.take m.cAad) (src.drop m.cAad)
  else if m.op = opXtsEnc then some (algo algXtsEnc [key, unit, src] m.cLen)
  else if m.op = opXtsDec then some (algo algXtsDec [key, unit, src] m.cLen)
  else if m.op = opCmac then some (algo algCmac [key, src] 16)
  else if m.op = opHash then some (algo (algHash + m.cHash) [src] (digestLen m.cHash))
  else some (algo (algHmac + m.cHash) [key, src] (digestLen m.cHash))

/-- The bytes of a job's key that its algorithm uses. -/
def CryptoJob.keyBytes (j : CryptoJob) : List Byte :=
  match j.key with
  | some k => k.material.take (keyLength k.alg)
  | none => []

/-- A job leaves its core. -/
def State.dropJob (s : State) (j : CryptoJob) : State := s.onSec fun x => { x with jobs := x.jobs.filter fun y => y.core != j.core }

/-- The destination of a second pass is zeroed (R389). -/
def State.zeroDst (s : State) (j : CryptoJob) : State :=
  if !j.second then s
  else (s.kindWrite j.msg.thread j.msg.cDstKind j.msg.cDst (List.replicate j.msg.cWrites 0) (s.nvmCmd j.msg.cHandle)).getD s

/-- A job ends without a result. -/
def State.failJob (s : State) (j : CryptoJob) (status : Nat) (detail : Nat := 0) : State :=
  ((s.dropJob j).zeroDst j).cryptoRespond j.msg status detail

/-- A host access of a lookaside or compression request fails (R387, R423): the command is marked failed. -/
def State.markFailed (s : State) (h why : Nat) : State :=
  s.onCmd h fun c => { c with failed := if c.failed = 0 then why else c.failed }

/-- A job ends, or the first pass of a long GCM_DEC does (R387 to R390). -/
def State.finishCrypto (s : State) (j : CryptoJob) (reply : CplStatus) : State :=
  let m := j.msg
  let c := if m.cHost then s.nvmCmd m.cHandle else none
  if j.fault then s.failJob j 17
  else if m.cHost && c.isNone then s.failJob j 21
  else
    let f := (c.map (·.fn)).getD 0
    match (if m.cHost then cplError reply else none) with
    | some e => ((s.pcieError f e).markFailed m.cHandle 1).failJob j 20
    | none =>
      if m.cHost && !s.dmaOk f then (s.markFailed m.cHandle 1).failJob j 20
      else match s.kindRead m.thread m.cSrcKind m.cSrc m.cReads c with
        | none => (s.markFailed m.cHandle 2).failJob j 20
        | some src => match cryptoResult m j.keyBytes src with
          | none => s.failJob j 16 (b2n j.second)
          | some out =>
            if m.cLong && !j.second then s.onSec fun x => { x with jobs := x.jobs.map fun y => if y.core == j.core then { y with second := true } else y }
            else match s.kindWrite m.thread m.cDstKind m.cDst out c with
              | none => (s.markFailed m.cHandle 2).failJob j 20
              | some t => (t.dropJob j).cryptoRespond m 0

/-- Entry to MIDNIGHT ends the running requests with LOCKDOWN (R415). -/
def State.lockdownJobs (s : State) : State := s.sec.jobs.foldl (fun t j => t.failJob j 22) s

/-! ## Compression units -/

/-- Fields of a CMP message. -/
def Msg.zSrcKind (m : Msg) : Nat := getBits (m.word 1) 3 0
def Msg.zDstKind (m : Msg) : Nat := getBits (m.word 1) 7 4
def Msg.zLen (m : Msg) : Nat := getBits (m.word 1) 63 32
def Msg.zDstLen (m : Msg) : Nat := getBits (m.word 4) 31 0
def Msg.zHandle (m : Msg) : Nat := getBits (m.word 5) 31 0
def Msg.zHost (m : Msg) : Bool := m.zSrcKind == 8 || m.zDstKind == 8

/-- The request compresses. -/
def Msg.zPacks (m : Msg) : Bool := m.op == 1 || m.op == 3

/-- The bound on the output of a compression (R421). -/
def Msg.zBound (m : Msg) : Nat := m.zLen + ceilDiv m.zLen 1000 + (if m.op = 1 then 32 else 8)

/-- A field, kind, length or bound is forbidden (R420, R421); CSUM and SIZE belong to ZSTD_C alone. -/
def State.cmpBad (s : State) (m : Msg) (c : Option NvmCmd) : Bool :=
  (m.zSrcKind == 8 && m.zDstKind == 8) || m.zLen == 0 || (m.zPacks && decide (2 ^ 24 < m.zLen)) || getBits (m.word 1) 31 12 != 0 ||
    (m.zPacks && decide (m.zDstLen < m.zBound)) ||
    !s.kindHolds m.thread m.zSrcKind (m.word 2).toNat m.zLen false c || !s.kindHolds m.thread m.zDstKind (m.word 3).toNat m.zDstLen true c

/-- A CMP response (R420, R423, R439): OUT and IN. -/
def State.cmpRespond (s : State) (m : Msg) (status out used : Nat) (detail : Nat := 0) : State :=
  let s := if status = 0 then s.bump .CMP_STAT 0 0 else if status = 17 then s.bump .CMP_STAT 0 5
    else if status = 16 ∨ status = 18 then s.bump .CMP_STAT 0 6 else if status = 22 then s.bump .CMP_STAT 0 7 else s
  s.respond m status detail [BitVec.ofNat 64 (out + used * 2 ^ 32)]

/-- The lowest unit that serves and is free. -/
def State.freeUnit (s : State) : Option Nat :=
  (List.range 16).find? fun u => s.cmpServes u && !s.tel.jobs.any fun j => j.unit == u

/-- A request of channel 4 is checked and starts on a free unit; with none free, or no clock, it waits (R420). -/
def State.startCmp (s : State) (place op : Nat) : State :=
  match s.message place 4 op with
  | none => s.stray place 4
  | some m =>
    match s.freeUnit with
    | none => s
    | some u =>
      if !s.firstOf place 4 || !s.engineClock then s
      else
        let s := s.takeMsg place
        let c := if m.zHost then s.nvmCmd m.zHandle else none
        if !s.isSet CMP_CFG.EN then s.respond m 2
        else if s.cmpBad m c then s.cmpRespond m 19 0 0
        else if m.zHost && c.isNone then s.cmpRespond m 21 0 0
        else
          let s := (s.devEvent 0x306).wakeDomain (24 + u)
          { s with tel := { s.tel with jobs := s.tel.jobs ++ [{ unit := u, msg := m }] } }

/-- What the formats of R421 and R422 leave to their RFCs (log entry 21): further answers of the algorithms of a unit. -/
def algZstdOptions : Nat := 52
def algZstdSum : Nat := 53
def algUsed : Nat := 54
def algStored : Nat := 55

/-- What a unit makes of its input: STATUS, DETAIL, the bytes written, and the input consumed. -/
def cmpResult (m : Msg) (src : List Byte) : Nat × Nat × List Byte × Nat :=
  let opts := natLe 4 (getBits (m.word 1) 11 8)
  if m.op = 1 then (0, 0, (Config.algorithm algZstdC (framed [opts, src])).take m.zBound, m.zLen)
  else if m.op = 3 then (0, 0, (Config.algorithm algDeflC (framed [opts, src])).take m.zBound, m.zLen)
  else
    let zstd := m.op == 2
    let a := if zstd then algZstdD else algDeflD
    let out := Config.algorithm a (framed [src])
    let used := leNat ((Config.algorithm algUsed (framed [natLe 1 m.op, src])).take 4) % (m.zLen + 1)
    if zstd && !algoOk algZstdOptions [src] then (18, 0, out.take m.zDstLen, used)
    else if zstd && !algoOk algZstdSum [src] then (17, 1, out.take m.zDstLen, used)
    else if !algoOk a [src] then (17, 0, out.take m.zDstLen, used)
    else if m.zDstLen < out.length then (16, 0, out.take m.zDstLen, used)
    else (0, 0, out, if zstd then m.zLen else used)

/-- A job leaves its unit. -/
def State.dropCmp (s : State) (j : CmpJob) : State :=
  { s with tel := { s.tel with jobs := s.tel.jobs.filter fun y => y.unit != j.unit } }

/-- A compression request ends (R421 to R423). -/
def State.finishCmp (s : State) (j : CmpJob) (reply : CplStatus) : State :=
  let m := j.msg
  let c := if m.zHost then s.nvmCmd m.zHandle else none
  let s := s.dropCmp j
  if j.fault then s.cmpRespond m 22 0 0
  else if m.zHost && c.isNone then s.cmpRespond m 21 0 0
  else
    let f := (c.map (·.fn)).getD 0
    match (if m.zHost then cplError reply else none) with
    | some e => ((s.pcieError f e).markFailed m.zHandle 1).cmpRespond m 20 0 0
    | none =>
      if m.zHost && !s.dmaOk f then (s.markFailed m.zHandle 1).cmpRespond m 20 0 0
      else match s.kindRead m.thread m.zSrcKind (m.word 2).toNat m.zLen c with
        | none => (s.markFailed m.zHandle 2).cmpRespond m 20 0 0
        | some src =>
          let (status, detail, out, used) := cmpResult m src
          match s.kindWrite m.thread m.zDstKind (m.word 3).toNat out c with
          | none => (s.markFailed m.zHandle 2).cmpRespond m 20 0 0
          | some t =>
            let t := if m.zPacks then ((t.bump .CMP_STAT 0 1 m.zLen).bump .CMP_STAT 0 2 out.length).bump .CMP_STAT 0 4
                (leNat ((Config.algorithm algStored (framed [natLe 1 m.op, src])).take 4) % (ceilDiv m.zLen 131072 + 1))
              else t.bump .CMP_STAT 0 3 out.length
            t.cmpRespond m status out.length used detail

end Sys2Proof.Machine
end

