-- ==== Sys2Proof/Machine/SchedOps.lean ====
section
/-! DEFINITION. The scheduler: shapers (R269 to R272), selection (R264, R265), egress rewrite (R275 to R277), rings in DDR
(R274, R446), and what a selected frame does at each output (R105 to R110, R163, R299). -/
namespace Sys2Proof.Machine

/-! ## Shapers -/

/-- RATE, BURST and PROFILE of shaper entry `e`. -/
def State.shaperWord (s : State) (e : Nat) : Nat := (s.raw .SCH_SHAPER 0 (2 * e)).toNat

/-- The token count of a shaper now, in 10⁻⁶ bytes: RATE kb/s is RATE such units an AOCLK edge, clamped at BURST (R269). -/
def State.tokens (s : State) (e : Nat) : Int :=
  let b := s.net.shapers.get {} e
  let w := s.shaperWord e
  min ((bits w 55 32 * 1000000 : Nat) : Int) (b.tokens + ((bits w 31 0 * (s.edges - b.edge) : Nat) : Int))

/-- A shaper lets a frame pass: RATE 0, or a count of at least zero. -/
def State.shaperOpen (s : State) (e : Nat) : Bool := bits (s.shaperWord e) 31 0 == 0 || decide (0 ≤ s.tokens e)

/-- L of R269 for a frame of `len` bytes under an overhead profile: at least 1. -/
def State.charge (s : State) (prof len : Nat) : Nat := (max 1 ((len : Int) + s.overhead prof)).toNat

/-- L under the profile of shaper `e`. -/
def State.shaperCharge (s : State) (e len : Nat) : Nat := s.charge (bits (s.shaperWord e) 59 56) len

/-- A shaper's count becomes `v` now. -/
def State.setTokens (s : State) (e : Nat) (v : Int) : State :=
  { s with net := { s.net with shapers := s.net.shapers.set {} e { tokens := v, edge := s.edges } } }

/-- A shaper is debited for a frame; one that is off never is (R269). -/
def State.debit (s : State) (e len : Nat) : State :=
  if bits (s.shaperWord e) 31 0 = 0 then s else s.setTokens e (s.tokens e - ((s.shaperCharge e len * 1000000 : Nat) : Int))

/-! ## Egress rewrite (R275 to R277, R280) -/

/-- A frame being rewritten: its bytes, where each header of the stack lies now, and where the outermost IP header does. -/
structure Rewrite where
  bytes : List Byte
  hdrs : List (Nat × Option Nat)
  ip : Option Nat
  skips : Nat := 0
  ttl : Bool := false
deriving DecidableEq, Repr

/-- A 16-bit word of a header changed from `m` to `m'` in its checksum at `at_` (incremental update). -/
def fixChecksum (bs : List Byte) (at_ m m' : Nat) : List Byte :=
  let c := beNat (slice bs at_ 2)
  let sum := (0xFFFF - c) + (0xFFFF - m) + m'
  let sum := sum % 65536 + sum / 65536
  let sum := sum % 65536 + sum / 65536
  overwrite bs at_ (natBe 2 (0xFFFF - sum))

/-- The IPv4 header checksum of a header at `h` computed anew over its IHL. -/
def ipv4Checksum (bs : List Byte) (h : Nat) : List Byte :=
  let n := 4 * ((bs.getD h 0).toNat % 16)
  let z := overwrite bs (h + 10) [0, 0]
  overwrite z (h + 10) (natBe 2 (checksum (slice z h n)))

/-- One modify command (R276), with the PHV. -/
def Rewrite.command (r : Rewrite) (phv : List Byte) (c : Nat) : Rewrite :=
  let op := bits c 3 0
  let off := bits c 15 8
  let len := bits c 19 16 + 1
  let imm := bits c 63 32
  match (r.hdrs[bits c 7 4]?).bind (·.2) with
  | none => { r with skips := r.skips + 1 }
  | some h =>
    match op with
    | 1 => if 4 < len then r else { r with bytes := overwrite r.bytes (h + off) (natBe len imm) }
    | 2 => { r with bytes := overwrite r.bytes (h + off) (slice phv (bits c 28 20) len) }
    | 3 => { r with bytes := r.bytes.drop h, hdrs := r.hdrs.map fun x => (x.1, x.2.bind fun o => if o < h then none else some (o - h))
                    ip := r.ip.bind fun o => if o < h then none else some (o - h) }
    | 4 =>
      let v := (r.bytes.getD (h + off) 0).toNat
      if v ≤ 1 then { r with ttl := true }
      else
        let w := h + off / 2 * 2
        let m := beNat (slice r.bytes w 2)
        let bs := overwrite r.bytes (h + off) [BitVec.ofNat 8 (v - 1)]
        { r with bytes := if imm % 2 = 1 then fixChecksum bs (h + 10) m (beNat (slice bs w 2)) else bs }
    | 5 => { r with bytes := ipv4Checksum r.bytes h }
    | _ => { r with skips := r.skips + 1 }

/-- A modify program: its commands up to the first END. -/
def Rewrite.program (phv : List Byte) : List Nat → Rewrite → Rewrite
  | [], r => r
  | c :: rest, r => if bits c 3 0 = 0 then r else if r.ttl then r else Rewrite.program phv rest (r.command phv c)

/-- A template prepended and fixed (R277); `hash` is FLOW_HASH. -/
def Rewrite.template (r : Rewrite) (words : List Nat) (hash : Nat) : Rewrite :=
  let w0 := words.headD 0
  let n := min 120 (bits w0 6 0)
  if n = 0 then r
  else
    let bs := (words.drop 1).flatMap (natLe 8) |>.take n
    let bs := bs ++ r.bytes
    let l3 := bits w0 14 8
    let l4 := bits w0 22 16
    let bs := if bitOf w0 27 then overwrite bs l4 (natBe 2 (hash % 16384 ||| 0xC000)) else bs
    let bs := if bitOf w0 26 then overwrite (overwrite bs (l4 + 4) (natBe 2 (bs.length - l4))) (l4 + 6) [0, 0] else bs
    let bs := if bitOf w0 25 then overwrite bs (l3 + 4) (natBe 2 (bs.length - l3 - 40)) else bs
    let bs := if bitOf w0 24 then ipv4Checksum (overwrite bs (l3 + 2) (natBe 2 (bs.length - l3))) l3 else bs
    { r with bytes := bs, hdrs := r.hdrs.map fun x => (x.1, x.2.map (· + n)), ip := r.ip.map (· + n) }

/-- The DSCP of the IP header at `h` set to `d` (R280). -/
def setDscp (bs : List Byte) (h d : Nat) : List Byte :=
  let b0 := (bs.getD h 0).toNat
  let b1 := (bs.getD (h + 1) 0).toNat
  if b0 / 16 = 4 then
    let m := beNat (slice bs h 2)
    let bs := overwrite bs (h + 1) [BitVec.ofNat 8 (4 * d + b1 % 4)]
    fixChecksum bs (h + 10) m (beNat (slice bs h 2))
  else overwrite bs h [BitVec.ofNat 8 (b0 / 16 * 16 + d / 4), BitVec.ofNat 8 (d % 4 * 64 + b1 % 64)]

/-- The rewrites of a frame applied in stage order (R275), then a policer's DSCP. -/
def State.rewritten (s : State) (x : Packet) : Rewrite :=
  let r0 : Rewrite := { bytes := x.bytes, hdrs := x.hdrs.map fun h => (h.1, some h.2), ip := x.ip }
  let r := x.rewrites.foldl (fun r w =>
    if r.ttl then r
    else if w.1 = 0 then Rewrite.program x.phv ((List.range 8).map fun c => (s.raw .SCH_MODIFY 0 (8 * w.2 + c)).toNat) r
    else r.template ((List.range 16).map fun c => (s.raw .SCH_TEMPLATE 0 (16 * w.2 + c)).toNat) x.hash) r0
  match x.dscp, r.ip with
  | some d, some h => { r with bytes := setDscp r.bytes h d }
  | _, _ => r

/-- MAX_FRAME in force. -/
def State.maxFrame (s : State) (p : Nat) : Nat := within (s.fld ETH_MAC_CFG.MAX_FRAME p) 1518 9728

/-- The frame as it leaves egress rewrite; none where it is dropped (R276, R277), with the counts. -/
def State.egress (s : State) (x : Packet) : State × Option Packet :=
  let r := s.rewritten x
  let skip (t : State) : State := (t.bump .SCH_STAT 0 11).fire 25 4 0 initSched
  let s := (List.range r.skips).foldl (fun t _ => skip t) s
  if r.ttl then ((s.bump .SCH_STAT 0 10).fire 25 4 0 initSched, none)
  else
    let big : Bool := match x.dest with
      | .port p => decide (s.maxFrame p < r.bytes.length + 4)
      | _ => false
    if big ∧ x.rewrites ≠ [] then (skip s, none)
    else (s, some { x with bytes := r.bytes, hdrs := r.hdrs.filterMap fun h => h.2.map fun o => (h.1, o), ip := r.ip })

/-- Length of a frame as it leaves egress rewrite. -/
def State.egressLen (s : State) (x : Packet) : Nat := (s.rewritten x).bytes.length + 4

/-! ## Eligibility (R264, R267, R106, R109) -/

/-- The modes in which the part sends and obeys pause and PFC (R124). -/
def State.obeysPause (s : State) : Bool := s.inService || s.mode == DUSK

/-- A received XOFF or pause is in force on port `p`: a priority, or 8 for the whole port (R126, R267). One received is obeyed only
while its kind is: 802.3x pause never while a bit of PFC_EN is 1 (R124). -/
def State.pausedBy (s : State) (p k : Nat) : Bool :=
  s.obeysPause && decide (s.up < (s.ports.get {} p).paused.get 0 k) &&
  if k = 8 then s.isSet ETH_MAC_CFG.PAUSE_RX p && s.fld ETH_MAC_CFG.PFC_EN p == 0 else bitOf (s.fld ETH_MAC_CFG.PFC_EN p) k

/-- The priority that a frame's scheduler queue is mapped to (R267). -/
def State.prioOf (s : State) (k : Nat) : Nat := bits (s.groupWord (k / 8) 1) (3 * (k % 8) + 2) (3 * (k % 8))

/-- A frame for port `p` must wait for a pause to end (R126): of the whole port, or of the priority of its queue. -/
def State.pausedFrame (s : State) (p : Nat) (x : Packet) : Bool := s.pausedBy p 8 || s.pausedBy p (s.prioOf x.l0)

/-- Some frame of a scheduler queue is in the HOLD logic (R106), of whichever node the queue was under when it was selected. A frame
released that cannot go on yet waits there still, at the head of its queue (DESIGN CHOICE, log entry 179). -/
def State.queueHeld (s : State) (k : Nat) : Bool := s.net.holds.vals.any fun l => l.any fun h => h.pkt.l0 == k

/-- Frames that an L2 node holds for their HOLD value (R106); those released no longer count. -/
def State.heldCount (s : State) (node : Nat) : Nat := ((s.net.holds.get [] node).filter fun h => !h.released).length

/-- The HOLD value of a frame has been reached: earliest ≥ s, while HELD is 1 (R105). -/
def State.holdReached (s : State) (x : Packet) : Bool :=
  s.held && match s.earliest with
    | some e => decide (((x.hold * perQuarter : Nat) : Int) ≤ e)
    | none => false

/-- The launch instant of a frame: never earlier than the one before it in the same queue (R110). -/
def State.launchAt (s : State) (x : Packet) : Nat := max x.launch (s.net.lastLaunch.get 0 x.l0)

/-- 524,288 ns, and LAUNCH_MAX_MS, in quarter-nanoseconds. -/
def launchWindow : Nat := 524288 * 4
def State.launchMax (s : State) : Nat := max 1 (s.fld CAR_HOLD_CFG.LAUNCH_MAX_MS) * 4000000

/-- A frame still to enter its calendar waits: its T is too far for it yet (R109). -/
def State.launchWaits (s : State) (x : Packet) : Bool := x.launch != 0 && decide (s.ts64 + launchWindow ≤ s.launchAt x)

/-- Engines of a pool that can take a packet now, in ascending order (R163). -/
def State.poolEngines (s : State) (pipe n : Nat) : List Nat :=
  (List.range 128).filter fun e => bitOf (s.fld PPL_POOL_CFG.CLUSTERS pipe n) (e / 8) && s.engineRoom e

/-- The output of a destination can take the frame at the head of a queue. -/
def State.outputTakes (s : State) (x : Packet) : Bool :=
  match x.dest with
  | .port p => s.isSet ETH_PORT_STATUS.LINK p && !s.pausedBy p 8 && ((x.hold != 0 && !s.holdReached x) || !s.launchWaits x)
  | .rx q => match s.queueOwner q with
    | some (f, _) => (s.pair q).state == ACTIVE && (s.isSarup q || !s.readPending f (· == .rxDescriptors q) && match s.rxFit f q x.bytes.length with
      | .takes _ => true
      | _ => false)
    | none => false
  | .pool n => s.poolEngines x.pipe n != []
  | .loop _ | .core _ | .capture _ | .outbound _ => true

/-- A scheduler queue is eligible (R264). -/
def State.queueEligible (s : State) (node k : Nat) : Bool :=
  match s.squeue k with
  | [] => false
  | x :: _ =>
    !s.queueHeld k && !(decide (node < 32) && s.pausedBy node (s.prioOf k)) &&
      !(x.hold != 0 && decide (4096 ≤ s.heldCount node)) && s.outputTakes x

/-- Groups that hold frames, under node `node`. -/
def State.liveGroups (s : State) (node : Nat) : List Nat :=
  ((s.net.queues.keys.map (· / 8)).dedup).filter fun g => s.l1Parent (s.groupParent g) == node

/-- A group is eligible (R264). -/
def State.groupEligible (s : State) (node g : Nat) : Bool :=
  s.shaperOpen g && (List.range 8).any fun q => s.queueEligible node (8 * g + q)

/-! ## Selection (R265) -/

/-- The candidates after the one served last come first. -/
def rotate (last : Nat) (l : List Nat) : List Nat := l.filter (fun x => decide (last < x)) ++ l.filter fun x => decide (x ≤ last)

/-- Deficit round robin over (identity, quantum, bytes needed): each visit adds the quantum, until one can send. -/
def drrGo : Nat → List (Nat × Nat × Nat) → Store Int → Option (Nat × Store Int)
  | 0, _, _ => none
  | _ + 1, [], _ => none
  | n + 1, c :: rest, d =>
    let v := d.get 0 c.1 + (c.2.1 : Int)
    let d := d.set 0 c.1 v
    if (c.2.2 : Int) ≤ v then some (c.1, d) else drrGo n (rest ++ [c]) d

/-- The candidate served last goes on while its deficit suffices; then the others in turn. -/
def drr (cands : List (Nat × Nat × Nat)) (last : Nat) (d : Store Int) : Option (Nat × Store Int) :=
  match cands.find? fun c => c.1 == last && decide ((c.2.2 : Int) ≤ d.get 0 c.1) with
  | some c => some (c.1, d)
  | none => drrGo (512 * (cands.length + 1)) (cands.filter (fun c => decide (last < c.1)) ++ cands.filter fun c => decide (c.1 ≤ last)) d

/-- Bytes that the head of a queue would be charged under a shaper's profile. -/
def State.headCharge (s : State) (e k : Nat) : Nat :=
  match s.squeue k with
  | x :: _ => s.shaperCharge e (s.egressLen x)
  | [] => 0

/-- The queue of a group that goes next, and the queue deficits that follow (R265, step 3). -/
def State.pickQueue (s : State) (node g : Nat) : Option (Nat × Store Int) :=
  let q0 := 8 * g
  if s.queueEligible node q0 then some (q0, s.net.deficitQ)
  else if s.queueEligible node (q0 + 1) then some (q0 + 1, s.net.deficitQ)
  else
    let cands := ([2, 3, 4, 5, 6, 7].filter fun q => s.queueEligible node (q0 + q)).map fun q =>
      (q0 + q, max 1 (bits (s.groupWord g 0) (16 + 8 * (q - 2) + 7) (16 + 8 * (q - 2))) * 256, s.headCharge g (q0 + q))
    (drr cands (s.net.lastQueue.get 0 g) s.net.deficitQ).map fun r => (r.1, r.2.set 0 r.1 (r.2.get 0 r.1 - (s.headCharge g r.1 : Nat)))

/-- The group that an L1 node serves next: frame round robin (R265, step 2). -/
def State.pickGroup (s : State) (node n : Nat) : Option Nat :=
  let gs := ((s.liveGroups node).filter fun g => s.groupParent g == n && s.groupEligible node g).mergeSort
  (rotate (s.net.lastGroup.get 0 n) gs).head?

/-- The queue an L2 node selects, with the deficits of its level and of the queues (R264, R265). -/
def State.pick (s : State) (node : Nat) : Option (Nat × Store Int × Store Int) :=
  if !s.isSet SCH_L2_CFG.EN 0 node || !s.shaperOpen (12288 + node) then none
  else
    let l1s := (((s.liveGroups node).filter (s.groupEligible node)).map s.groupParent).dedup.filter fun n => s.shaperOpen (8192 + n)
    let need (n : Nat) : Nat := match (s.pickGroup node n).bind fun g => s.pickQueue node g with
      | some r => s.headCharge (8192 + n) r.1
      | none => 0
    let cands := l1s.mergeSort.map fun n => (n, max 64 (bits (s.l1Word n) 27 8), need n)
    match drr cands (s.net.lastL1.get 0 node) s.net.deficitL1 with
    | none => none
    | some (n, d) => ((s.pickGroup node n).bind fun g => s.pickQueue node g).map fun r =>
        (r.1, d.set 0 n (d.get 0 n - (need n : Nat)), r.2)

/-- The frames of queue `k` become `l` (R265): a queue and an L1 node left empty lose their deficits. -/
def State.setQueue (s : State) (k : Nat) (l : List Packet) : State :=
  let t := { s with net := { s.net with queues := s.net.queues.set [] k l } }
  if l ≠ [] then t
  else
    let n := t.groupParent (k / 8)
    { t with net := { t.net with
      deficitQ := t.net.deficitQ.set 0 k 0
      deficitL1 := if t.net.queues.keys.any fun j => t.groupParent (j / 8) == n then t.net.deficitL1 else t.net.deficitL1.set 0 n 0 } }

/-- The head of queue `k` is taken out and charged (R265, R269, R272). -/
def State.takeHead (s : State) (node k : Nat) : State × Option Packet :=
  match s.squeue k with
  | [] => (s, none)
  | x :: rest =>
    let len := s.egressLen x
    let g := k / 8
    let n := s.groupParent g
    let s := s.setQueue k rest
    let s := { s with net := { s.net with
      lastQueue := if k % 8 < 2 then s.net.lastQueue else s.net.lastQueue.set 0 g k
      lastGroup := s.net.lastGroup.set 0 n g
      lastL1 := s.net.lastL1.set 0 node n } }
    let s := ((s.debit g len).debit (8192 + n) len).debit (12288 + node) len
    let s := ((s.bump .SCH_STAT 0 0).bump .SCH_STAT 0 1 (s.charge 0 len)).devEvent 0x302
    (s, some { x with selTs := s.stampNow })

/-! ## Rings in DDR (R274, R446) -/

/-- A record written to a ring of `size` bytes: the new producer, in 64-byte units, where there is room up to the consumer.
A record that would pass the ring's end leaves a header of captured length 0xFFFF there and starts at offset 0. -/
def State.ringRecord (s : State) (base size prod cons : Nat) (rec : List Byte) : Option (State × Nat) :=
  let units := ceilDiv rec.length 64
  let total := size / 64
  let at_ := prod % total
  let lead := if total < at_ + units then total - at_ else 0
  let used := (prod + 2 ^ 24 - cons) % 2 ^ 24
  if total < used + lead + units then none
  else
    let s := if lead = 0 then s else s.ddrWrite (base + 64 * at_) (List.replicate 12 0 ++ [0xFF, 0xFF] ++ List.replicate 18 0)
    let start := if lead = 0 then at_ else 0
    some (s.ddrWrite (base + 64 * start) (slice rec 0 (64 * units)), prod + lead + units)

/-- A frame is written to capture ring `r` (R274). The original length counts the FCS; the captured length is the bytes stored (DESIGN
CHOICE, log entry 181). -/
def State.capture (s : State) (r : Nat) (x : Packet) : State :=
  let rec' := natLe 8 x.ts ++ natLe 2 x.source ++ natLe 2 x.origLen ++ natLe 2 x.bytes.length ++ natLe 1 x.session ++ natLe 1 x.pipe ++
    natLe 1 (x.phv.getD 397 0).toNat ++ List.replicate 15 0 ++ x.bytes
  let size := 2 ^ within (s.fld SCH_CAP_CTL.LOG2 0 r) 12 30
  let wrote := if s.isSet SCH_CAP_CTL.EN 0 r then
      s.ringRecord (page4k (s.fld SCH_CAP_BASE.ADDR 0 r)) size (s.fld SCH_CAP_CTL.PROD 0 r) (s.fld SCH_CAP_CTL.CONS 0 r) rec'
    else none
  match wrote with
  | some (t, prod) => (t.put SCH_CAP_CTL.PROD prod 0 r).bump .SCH_STAT 0 8
  | none => (s.bump .SCH_STAT 0 9).fire 25 2 0 initSched

/-- A frame is written to the packet ring of control core `c`; PKT of its hart is set as PROD moves away from CONS (R446). -/
def State.coreRing (s : State) (c : Nat) (x : Packet) : State :=
  let rec' := natLe 8 x.ts ++ natLe 2 x.source ++ natLe 2 x.len ++ natLe 4 x.hash ++ natLe 1 (x.phv.getD 397 0).toNat ++ natLe 1 x.pipe ++
    natLe 1 x.copy ++ List.replicate 13 0 ++ x.bytes
  let size := 2 ^ within (s.fld MBX_PKT_CTL.LOG2 0 c) 12 30
  let first := s.fld MBX_PKT_CTL.PROD 0 c == s.fld MBX_PKT_CTL.CONS 0 c
  let wrote := if s.isSet MBX_PKT_CTL.EN 0 c then
      s.ringRecord (page4k (s.fld MBX_PKT_BASE.ADDR 0 c)) size (s.fld MBX_PKT_CTL.PROD 0 c) (s.fld MBX_PKT_CTL.CONS 0 c) rec'
    else none
  match wrote with
  | some (t, prod) =>
    let t := t.put MBX_PKT_CTL.PROD prod 0 c
    (if first then t.put GLB_CC_IRQ.PKT 1 0 c else t).bump .MBX_STAT 0 7
  | none => (s.bump .MBX_STAT 0 8).fire 28 6

/-! ## Outputs -/

/-- A packet is handed to the next able engine of its pool (R163), its deadline starts, and it gives its slot's time. -/
def State.toPool (s : State) (n : Nat) (x : Packet) : State :=
  match (rotate (s.net.lastEngine.get 0 (16 * x.pipe + n)) (s.poolEngines x.pipe n)).head? with
  | none => s.dropSeq x
  | some e =>
    let s := { s with net := { s.net with lastEngine := s.net.lastEngine.set 0 (16 * x.pipe + n) e } }
    (s.startDeadline x).assign e n x

/-- A frame re-enters a pipeline; a loop count above 4 drops it (R152). -/
def State.toLoop (s : State) (p : Nat) (x : Packet) : State :=
  if 4 ≤ x.loops then ((s.bump .PPL_STAT p 9).pipeSource p 7).dropSelected x stDropped
  else s.feed p 1 { x with loops := x.loops + 1, source := x.pipe + 32, queue := 0, inPort := none, seq := none, rewrites := [], dscp := none
                           copy := 0, ts := x.ts }

/-- A frame is delivered to its host RX queue, or to the transport unit where the queue is a Sarup queue (R337), or dropped where the queue no longer takes it (R299, R302). -/
def State.toRx (s : State) (q : Nat) (x : Packet) : State :=
  match s.queueOwner q with
  | none => s
  | some (f, _) =>
    if s.isSarup q then
      if (s.pair q).state = ACTIVE then
        ({ s with xpt := { s.xpt with input := s.xpt.input ++ [(q, x)] } }).endFrame x stOk x.selTs.1 x.selTs.2 1
      else s.dropSelected x stDropped
    else match s.rxFit f q x.bytes.length with
    | .takes bufs => (s.rxDeliver f q x bufs).endFrame x stOk x.selTs.1 x.selTs.2 1
    | _ => (s.onPair q fun r => { r with rxDrops := satAdd r.rxDrops 1 (2 ^ 32 - 1) }).dropSelected x stDropped

/-- The frame's host queue is stopping: what it would hold or launch later is discarded (R303). One halted with BME_OFF still sends
what it has fetched (R325). -/
def State.stopsHeld (s : State) (x : Packet) : Bool := x.tx.any fun r =>
  (s.pair r.queue).state == STOPPING || ((s.pair r.queue).state == HALTED && (s.pair r.queue).err != stBmeOff)

/-- A frame for a port goes to its calendar where it carries LAUNCH (R109, R110), else to the port. One whose T has passed is due there
at once, behind the frames of its queue that it must follow. -/
def State.toPort (s : State) (p : Nat) (x : Packet) : State :=
  if x.launch = 0 then { s with net := { s.net with txq := s.net.txq.modify [] p fun l => l ++ [x] } }
  else if s.stopsHeld x then s.dropSelected x stStopped
  else
    let t := s.launchAt x
    let x := { x with launch := t, clamped := x.clamped || decide (x.launch < t) }
    let s := { s with net := { s.net with lastLaunch := s.net.lastLaunch.set 0 x.l0 t } }
    { s with net := { s.net with calendar := s.net.calendar.modify [] p fun l => l ++ [{ x with late := x.late || decide (t < s.ts64) }] } }

/-- A frame past the HOLD logic goes to its output; LAUNCH is ignored off ports (R110). -/
def State.toOutput (s : State) (x : Packet) : State :=
  match x.dest with
  | .port p => s.toPort p x
  | d =>
    let x := if x.launch = 0 then x else { x with launch := 0, ignored := true }
    match d with
    | .rx q => s.toRx q x
    | .pool n => s.toPool n x
    | .loop t => s.toLoop t x
    | .capture r => s.capture r x
    | .core c => (s.coreRing c x).endFrame x stOk x.selTs.1 x.selTs.2 1
    | .port _ | .outbound _ => s

/-- The inline unit that encrypts for a destination (R397). -/
def State.txUnit (s : State) (d : Dest) : Option Nat :=
  match d with
  | .port p => some (4 + p / 8)
  | .rx q => (s.queueOwner q).bind fun o => (s.linkOf o.1).map fun l => 4 + l / 4
  | _ => none

/-- A selected frame: egress rewrite, inline encryption, and the HOLD logic where it carries HOLD (R106), else its output.
A frame whose HOLD value has been reached passes at once (R20). -/
def State.sendSelected (s : State) (node : Nat) (x : Packet) : State :=
  let r := s.egress x
  match r.2 with
  | none => r.1.dropSelected x stDropped
  | some y =>
    let e := match r.1.txUnit y.dest with
      | some u => r.1.inlineEncrypt u y
      | none => (r.1, some y)
    match e.2 with
    | none => e.1.dropSelected x stDropped
    | some z =>
      if z.hold = 0 ∨ e.1.holdReached z then e.1.toOutput z
      else if e.1.stopsHeld z then e.1.dropSelected z stStopped
      else { e.1 with net := { e.1.net with holds := e.1.net.holds.modify [] node fun l => l ++ [{ pkt := z, since := e.1.now, sinceUp := e.1.up }] } }

/-- Heads that leave a queue of a node without being selected: a frame for an RX queue that is not ACTIVE or would need more
than 16 buffers (R302, R299), a bad RX descriptor, which halts its queue, and a LAUNCH too far ahead (R110). -/
def State.clearHeads (s : State) (node : Nat) : State :=
  ((s.liveGroups node).flatMap fun g => (List.range 8).map fun q => 8 * g + q).foldl (fun t k =>
    match t.squeue k with
    | [] => t
    | x :: rest =>
      let out := t.setQueue k rest
      match x.dest with
      | .rx q => match t.queueOwner q with
        | none => out.dropFrame x stDropped
        | some (f, _) =>
          let drop := (out.onPair q fun r => { r with rxDrops := satAdd r.rxDrops 1 (2 ^ 32 - 1) }).dropFrame x stDropped
          if (t.pair q).state ≠ ACTIVE then drop
          else if t.isSarup q then t
          else match t.rxFit f q x.bytes.length with
            | .tooMany => (out.bump .FNC_FN_STAT f 3).dropFrame x stDropped
            | .bad i => t.haltQueue q stBadDesc i true
            | _ => t
      | .port _ => if x.launch ≠ 0 ∧ t.ts64 + t.launchMax < t.launchAt x then out.dropFrame x stTooFar else t
      | _ => t) s

/-- PFC and pause follow the occupancy of port `p`: XOFF is sent when it reaches XOFF_KIB and XON once it falls below XON_KIB
(R125), in the modes of R124; 8 names the whole port. -/
def State.flowOn (s : State) (p k : Nat) : Bool :=
  s.obeysPause && s.isSet ETH_PORT_STATUS.LINK p &&
    (if k = 8 then s.isSet ETH_MAC_CFG.PAUSE_TX p && s.fld ETH_MAC_CFG.PFC_EN p == 0 else bitOf (s.fld ETH_MAC_CFG.PFC_EN p) k)

/-- The frame check sequence of IEEE 802.3 over a frame, least significant byte first (PRESUMED, log entry 20). -/
def fcs (bs : List Byte) : List Byte :=
  let step (c : Nat) : Nat → Nat := fun d =>
    (List.range 8).foldl (fun (cd : Nat × Nat) _ =>
      let x := cd.1 ^^^ (cd.2 % 2)
      (if x % 2 = 1 then (x / 2) ^^^ 0xEDB88320 else x / 2, cd.2 / 2)) (c, d) |>.1
  natLe 4 (bs.foldl (fun c b => step c b.toNat) 0xFFFFFFFF ^^^ 0xFFFFFFFF)

/-- A pause frame of IEEE 802.3 Annex 31B (`k` 8) or a PFC frame of IEEE 802.1Qbb for priority `k`, from ETH_MAC_ADDR (R127;
PRESUMED, log entry 20). -/
def State.controlFrame (s : State) (p k quanta : Nat) : List Byte :=
  let body := if k = 8 then natBe 2 1 ++ natBe 2 quanta
    else natBe 2 0x0101 ++ natBe 2 (2 ^ k) ++ (List.range 8).flatMap fun i => natBe 2 (if i = k then quanta else 0)
  slice (natBe 6 0x0180C2000001 ++ natBe 6 (s.fld ETH_MAC_ADDR.ADDR p) ++ natBe 2 0x8808 ++ body) 0 60

/-- A pause or PFC frame is sent by the MAC (R268), with its pause time. -/
def State.sendControl (s : State) (p k quanta : Nat) : State :=
  let bs := s.controlFrame p k quanta
  ({ s with ports := s.ports.modify {} p fun q => { q with control := q.control ++ [(k, quanta)] }
            net := { s.net with wire := s.net.wire.modify [] p fun l => (bs ++ fcs bs) :: l } }).bump .ETH_STAT p (if k = 8 then 13 else 14)

/-- XOFF_KIB and XON_KIB in force, in bytes. -/
def State.xoffBytes (s : State) (p : Nat) : Nat := s.fld ETH_PFC_CFG.XOFF_KIB p * 1024
def State.xonBytes (s : State) (p : Nat) : Nat := min (s.fld ETH_PFC_CFG.XON_KIB p) (s.fld ETH_PFC_CFG.XOFF_KIB p - 1) * 1024

/-- The occupancy that key `k` of port `p` is judged by. -/
def State.keyOccupancy (s : State) (p k : Nat) : Nat := s.portOccupancy p (if k = 8 then none else some k)

/-- XOFF is in force at the partner for key `k`: the time it was last sent, plus one. -/
def State.xoffSent (s : State) (p k : Nat) : Nat := (s.ports.get {} p).xoff.get 0 k

/-- Sets when XOFF was last sent; 0 for none in force. -/
def State.setXoff (s : State) (p k v : Nat) : State :=
  { s with ports := s.ports.modify {} p fun q => { q with xoff := q.xoff.set 0 k v } }

/-- Flow control of one key of a port. -/
def State.flowKey (s : State) (p k : Nat) : State :=
  let occ := s.keyOccupancy p k
  if !s.flowOn p k then s
  else if s.xoffSent p k = 0 then (if s.xoffBytes p ≤ occ then (s.sendControl p k (s.fld ETH_PFC_CFG.QUANTA p)).setXoff p k (s.up + 1) else s)
  else if occ < s.xonBytes p then (s.sendControl p k 0).setXoff p k 0
  else s

/-- Flow control of every port that sends any. -/
def State.flowControl (s : State) : State :=
  (List.range 32).foldl (fun t p =>
    if t.isSet ETH_PORT_CTL.EN p then (List.range 9).foldl (fun u k => u.flowKey p k) t else t) s

end Sys2Proof.Machine
end

