-- ==== Sys2Proof/Machine/Zorurn.lean ====
section
/-! DEFINITION. The Zorurn instructions (09_zorurn_isa). A row of the table is the issue of one instruction of its kind by a
thread: the word at the thread's PC in its cluster's instruction memory. Where the thread cannot issue, or that word is
of another kind, nothing happens. -/
namespace Sys2Proof.Machine

/-! ## Encoding (R234, R235) -/

/-- Fields of an instruction word (table *Formats*). -/
def zop (w : Nat) : Nat := bits w 5 0
def zrd (w : Nat) : Nat := bits w 10 6
def zrs1 (w : Nat) : Nat := bits w 15 11
def zrs2 (w : Nat) : Nat := bits w 20 16
def zfn (w : Nat) : Nat := bits w 31 21
def zifn (w : Nat) : Nat := bits w 19 16
def zimm12 (w : Nat) : Nat := bits w 31 20
def zimm16 (w : Nat) : Nat := bits w 31 16

/-- The kinds of instruction (table *Opcode map*). -/
inductive ZKind where
  | alu | atom | hash | ialu | bfi | ld | st | br | jal | jalr | chw | chs | chr | movi | srd | swr | tread | twait | wfe | sev
  | sevt | trap | tret | crd | fence | illegal
deriving DecidableEq, Repr

/-- The kind OP names, before its fields are looked at. -/
def zopKind (op : Nat) : ZKind :=
  match op with
  | 0x01 => .alu
  | 0x02 => .atom
  | 0x03 => .hash
  | 0x08 => .ialu
  | 0x09 => .bfi
  | 0x10 => .ld
  | 0x11 => .st
  | 0x18 => .br
  | 0x19 => .jal
  | 0x1A => .jalr
  | 0x20 => .chw
  | 0x21 => .chs
  | 0x22 => .chr
  | 0x28 => .movi
  | 0x29 => .srd
  | 0x2A => .swr
  | 0x2B => .tread
  | 0x2C => .twait
  | 0x2D => .wfe
  | 0x2E => .sev
  | 0x2F => .sevt
  | 0x30 => .trap
  | 0x31 => .tret
  | 0x32 => .crd
  | 0x33 => .fence
  | _ => .illegal

/-- FN values that ALU defines (R238), and those that take one operand and need RS2 = 0. -/
def aluUnary (fn : Nat) : Bool := [0x20, 0x21, 0x22, 0x24, 0x25, 0x26].contains fn
def aluBinary (fn : Nat) : Bool :=
  [0, 1, 2, 3, 4, 5, 8, 9, 0xA, 0xB, 0x10, 0x11, 0x12, 0x13, 0x14, 0x15, 0x18, 0x19, 0x1A].contains fn

/-- Every field of the word has a value its chapter defines (R235). -/
def zlegal (w : Nat) : Bool :=
  match zopKind (zop w) with
  | .alu => aluBinary (zfn w) || (aluUnary (zfn w) && zrs2 w == 0)
  | .atom => decide (bits (zfn w) 1 0 ≠ 3) && bits (zfn w) 10 6 == 0
  | .hash => [0, 0x10, 0x11, 0x12, 0x13, 0x20].contains (zfn w)
  | .ialu => decide (zifn w ≤ 5) || (decide (8 ≤ zifn w) && decide (zifn w ≤ 11) && bits (zimm12 w) 11 6 == 0)
  | .bfi => decide (zifn w ≤ 3) && decide (bits (zimm12 w) 5 0 + bits (zimm12 w) 11 6 + 1 ≤ 64)
  | .ld => !(bitOf w 21 && bits w 20 19 == 3)
  | .st => !bitOf w 21
  | .br => decide (bits w 18 16 ≤ 5)
  | .jal => zrs1 w == 0
  | .jalr => true
  | .chw => zrd w == 0 && !bitOf w 19 && bits w 31 20 == 0
  | .chs => bits w 31 6 == 0
  | .chr => bits w 31 20 == 0
  | .movi => bits w 15 14 == 0
  | .srd | .swr => decide (zrs1 w ≤ 13)
  | .tread => true
  | .twait => zrd w == 0 && zimm16 w == 0
  | .wfe => zrs1 w == 0 && zimm16 w == 0
  | .sev => bits w 31 6 == 0
  | .sevt => true
  | .trap => zrd w == 0 && zrs1 w == 0
  | .tret => bits w 31 6 == 0
  | .crd => zrs1 w == 0 && decide (zimm16 w ≤ 17)
  | .fence => bits w 31 6 == 0
  | .illegal => false

/-- The kind of a word: ILLEGAL where a field is not defined. -/
def zkind (w : Nat) : ZKind := if zlegal w then zopKind (zop w) else .illegal

/-! ## Issue, retire and trap -/

/-- The thread can issue: its cluster runs and is awake with its clock on, it neither waits nor is halted nor FAULTED, and its engine is not retired
(R210, R224). A thread stalled at CHS or CHR issues that instruction again. -/
def State.issues (s : State) (t : Nat) : Bool :=
  let x := s.thread t
  s.clusterRuns (clusterOf t) && s.engineClock && s.domainAwake (clusterOf t) && !x.halted && !s.isSet TBE_CTL.RETIRED (engineOf t) &&
  (x.mode == .run || x.mode == .chs || x.mode == .chr)

/-- The word at a thread's PC. -/
def State.nextWord (s : State) (t : Nat) : Nat := s.instrAt (clusterOf t) (s.thread t).pc

/-- Trap causes of R223. -/
def causeIllegal : Nat := 1
def causeMisalign : Nat := 2
def causeBounds : Nat := 3
def causeChannel : Nat := 4
def causeParity : Nat := 5
def causeWatchdog : Nat := 6
def causeTrap : Nat := 7

/-- A trap is taken (R223, R224, R256): TPC, TCAUSE and TADDR are written; the thread goes on at TVEC with IN_TRAP set, or
becomes FAULTED inside a trap or without a vector. -/
def State.trap (s : State) (t tpc cause : Nat) (detail code : Nat := 0) (addr : Word := 0) (word : Nat := 0) : State :=
  let c := clusterOf t
  let x := s.thread t
  let fault := x.inTrap || x.tvec == 0
  let s := s.onThread t fun x => { x with
    tpc, cause, detail, code, taddr := addr, busySince := s.up
    inTrap := true, pc := if fault then x.pc else x.tvec
    mode := if fault then .faulted else .run }
  let s := (s.bump .TBC_STAT c 0).engEvent t 0x00E
  let s := if cause = causeWatchdog then (s.bump .TBC_STAT c 1).clusterEvent c 4 t
    else if cause = causeParity ∧ detail = 0 then s.fire (14 + c / 4) (8 * (c % 4) + 1) (engineOf t) t
    else if cause = causeParity then s.clusterEvent c 2 t
    else s.clusterEvent c 0 t
  let s := if fault then (s.bump .TBC_STAT c 2).clusterEvent c 3 t else s
  (s.samples t tpc word addr.toNat true).endStep t

/-- What an instruction does: it completes with the next PC and the address it computed, traps, or waits. -/
inductive Effect where
  | next (s : State) (pc : Nat) (addr : Nat := 0)
  | trap (cause : Nat) (addr : Word := 0) (code : Nat := 0)
  | wait (s : State)

/-- A thread issues the instruction at its PC if it is of kind `k` (R236, R237). -/
def State.issue (s : State) (t : Nat) (k : ZKind) (f : Nat → Thread → Effect) : Out :=
  let w := s.nextWord t
  let x := s.thread t
  if s.issues t && zkind w == k && (x.mode == .run || (x.mode == .chs && k == .chs) || (x.mode == .chr && k == .chr)) then
    match f w x with
    | .next s' pc addr => done ((s'.onThread t fun y => { y with pc := pc % 65536, mode := if y.mode == .run then .run else y.mode }).retire t x.pc w addr)
    | .trap cause addr code => done (s.trap t x.pc cause 0 code addr w)
    | .wait s' => done s'
  else .next s

/-- An instruction that writes `v` to rd and advances. -/
def State.writes (s : State) (t w : Nat) (v : Word) : Effect :=
  .next (s.onThread t fun x => x.setReg (zrd w) v) ((s.thread t).pc + 1)

/-! ## Integer and bit-field instructions -/

/-- The table *ALU functions* (R238). -/
def aluResult (fn : Nat) (a b : Word) : Word :=
  let sh := b.toNat % 64
  match fn with
  | 0x00 => a + b
  | 0x01 => a - b
  | 0x02 => a &&& b
  | 0x03 => a ||| b
  | 0x04 => a ^^^ b
  | 0x05 => a &&& ~~~b
  | 0x08 => a <<< sh
  | 0x09 => a >>> sh
  | 0x0A => a.sshiftRight sh
  | 0x0B => a.rotateRight sh
  | 0x10 => BitVec.ofNat 64 (b2n (a.slt b))
  | 0x11 => BitVec.ofNat 64 (b2n (a.ult b))
  | 0x12 => if a.slt b then a else b
  | 0x13 => if a.slt b then b else a
  | 0x14 => if a.ult b then a else b
  | 0x15 => if a.ult b then b else a
  | 0x18 => a * b
  | 0x19 => BitVec.ofInt 64 (a.toInt * b.toInt / 2 ^ 64)
  | 0x1A => BitVec.ofNat 64 (a.toNat * b.toNat / 2 ^ 64)
  | 0x20 => BitVec.ofNat 64 (((List.range 64).find? fun i => bitOf a.toNat (63 - i)).getD 64)
  | 0x21 => BitVec.ofNat 64 ((lowestBit 64 a.toNat).getD 64)
  | 0x22 => BitVec.ofNat 64 (popCount 64 a.toNat)
  | 0x24 => BitVec.ofNat 64 (leNat (natLe 2 a.toNat).reverse)
  | 0x25 => BitVec.ofNat 64 (leNat (natLe 4 a.toNat).reverse)
  | _ => BitVec.ofNat 64 (leNat (natLe 8 a.toNat).reverse)

/-- ALU (R238). -/
def execAlu (t : Fin 1024) (s : State) : Out :=
  s.issue t .alu fun w x => s.writes t w (aluResult (zfn w) (x.reg (zrs1 w)) (x.reg (zrs2 w)))

/-- The functions of R239. -/
def ialuResult (fn imm : Nat) (a : Word) : Word :=
  let i : Word := BitVec.ofInt 64 (signed 12 imm)
  let sh := imm % 64
  match fn with
  | 0 => a + i
  | 1 => a &&& i
  | 2 => a ||| i
  | 3 => a ^^^ i
  | 4 => BitVec.ofNat 64 (b2n (a.slt i))
  | 5 => BitVec.ofNat 64 (b2n (a.ult i))
  | 8 => a <<< sh
  | 9 => a >>> sh
  | 10 => a.sshiftRight sh
  | _ => a.rotateRight sh

/-- IALU (R239). -/
def execIalu (t : Fin 1024) (s : State) : Out :=
  s.issue t .ialu fun w x => s.writes t w (ialuResult (zifn w) (zimm12 w) (x.reg (zrs1 w)))

/-- The functions of R240, with field position and length. -/
def bfiResult (fn pos len : Nat) (a d : Word) : Word :=
  let m : Nat := 2 ^ len - 1
  let mask : Word := BitVec.ofNat 64 (m * 2 ^ pos)
  match fn with
  | 0 => BitVec.ofNat 64 (a.toNat / 2 ^ pos % 2 ^ len)
  | 1 => BitVec.ofInt 64 (signed len (a.toNat / 2 ^ pos))
  | 2 => (d &&& ~~~mask) ||| BitVec.ofNat 64 (a.toNat % 2 ^ len * 2 ^ pos)
  | _ => a &&& ~~~mask

/-- BFI (R240). -/
def execBfi (t : Fin 1024) (s : State) : Out :=
  s.issue t .bfi fun w x =>
    s.writes t w (bfiResult (zifn w) (bits (zimm12 w) 5 0) (bits (zimm12 w) 11 6 + 1) (x.reg (zrs1 w)) (x.reg (zrd w)))

/-- MOVI (R241). -/
def execMovi (t : Fin 1024) (s : State) : Out :=
  s.issue t .movi fun w x =>
    let hw := bits w 12 11
    s.writes t w (if bitOf w 13 then putBits (x.reg (zrd w)) (16 * hw + 15) (16 * hw) (zimm16 w) else BitVec.ofNat 64 (zimm16 w * 2 ^ (16 * hw)))

/-! ## Branches and jumps -/

/-- The conditions of R242. -/
def brHolds (cond : Nat) (a b : Word) : Bool :=
  match cond with
  | 0 => a == b
  | 1 => a != b
  | 2 => a.slt b
  | 3 => !a.slt b
  | 4 => a.ult b
  | _ => !a.ult b

/-- A PC moved by a signed offset, modulo 65,536 (R236). -/
def pcPlus (pc : Nat) (off : Int) : Nat := (((pc : Int) + off) % 65536).toNat

/-- BR (R242): rs1 is [10:6] and rs2 [15:11]. -/
def execBr (t : Fin 1024) (s : State) : Out :=
  s.issue t .br fun w x =>
    if brHolds (bits w 18 16) (x.reg (zrd w)) (x.reg (zrs1 w)) then
      .next (s.engEvent t 0x00F) (pcPlus x.pc (signed 13 (bits w 31 19)))
    else .next s (x.pc + 1)

/-- JAL (R242). -/
def execJal (t : Fin 1024) (s : State) : Out :=
  s.issue t .jal fun w x =>
    .next ((s.engEvent t 0x00F).onThread t fun y => y.setReg (zrd w) (BitVec.ofNat 64 ((x.pc + 1) % 65536))) (zimm16 w)

/-- JALR (R242): A is read before rd is written. -/
def execJalr (t : Fin 1024) (s : State) : Out :=
  s.issue t .jalr fun w x =>
    .next ((s.engEvent t 0x00F).onThread t fun y => y.setReg (zrd w) (BitVec.ofNat 64 ((x.pc + 1) % 65536)))
      ((x.reg (zrs1 w)).toNat + zimm16 w)

/-! ## Loads, stores and atomics -/

/-- Why an access traps (R244): BOUNDS before MISALIGN. -/
def State.accessTrap (s : State) (t : Nat) (x : Thread) (space addr n : Nat) (store : Bool) : Option Nat :=
  if !s.inSpace t x space addr n store then some causeBounds
  else if addr % n ≠ 0 then some causeMisalign
  else none

/-- Events of an access: 0x102 for shared space, 0x103 for table space. -/
def State.spaceEvent (s : State) (t space : Nat) : State :=
  match space with
  | 1 => s.cluEvent (clusterOf t) 0x102 (some (engineOf t % 8))
  | 3 => s.cluEvent (clusterOf t) 0x103 (some (engineOf t % 8))
  | _ => s

/-- Packet-space bytes past the first 512 of the frame come from the packet buffer on first touch (R212): whether a load of them is such a touch is
free, since the spec does not say how much a touch brings (event 0x00C, log entry 183). -/
def State.touchEvent (s : State) (t space addr n : Nat) : State :=
  if space = 2 ∧ 0x700 < addr + n then
    let s' := s.drawn
    if (Config.freeWord s.free).toNat % 2 = 1 then s'.engEvent t 0x00C else s'
  else s

/-- Address rs1 + OFF9 × 2^SIZE of a load or store (R243). -/
def memAddr (w : Nat) (base : Word) : Word := base + BitVec.ofInt 64 (signed 9 (bits w 31 23) * 2 ^ bits w 20 19)

/-- LD (R243 to R245). -/
def execLd (t : Fin 1024) (s : State) : Out :=
  s.issue t .ld fun w x =>
    let a := memAddr w (x.reg (zrs1 w))
    let n := 2 ^ bits w 20 19
    let space := bits w 18 16
    match s.accessTrap t x space a.toNat n false with
    | some cause => .trap cause a
    | none =>
      let bs := s.loadBytes t x space a.toNat n
      let v := leNat (if bitOf w 22 then bs.reverse else bs)
      let v : Word := if bitOf w 21 then BitVec.ofInt 64 (signed (8 * n) v) else BitVec.ofNat 64 v
      let s := ((s.engEvent t 0x008).spaceEvent t space).touchEvent t space a.toNat n
      let s := if 4 ≤ space then (s.engEvent t 0x00B).devEvent 0x303 else s
      .next (s.onThread t fun y => y.setReg (zrd w) v) (x.pc + 1) a.toNat

/-- ST (R243 to R245). -/
def execSt (t : Fin 1024) (s : State) : Out :=
  s.issue t .st fun w x =>
    let a := memAddr w (x.reg (zrs1 w))
    let n := 2 ^ bits w 20 19
    let space := bits w 18 16
    match s.accessTrap t x space a.toNat n true with
    | some cause => .trap cause a
    | none =>
      let bs := natLe n (x.reg (zrd w)).toNat
      .next (((s.engEvent t 0x009).spaceEvent t space).storeBytes t space a.toNat (if bitOf w 22 then bs.reverse else bs)) (x.pc + 1) a.toNat

/-- ATOM (R246). -/
def execAtom (t : Fin 1024) (s : State) : Out :=
  s.issue t .atom fun w x =>
    let a := (x.reg (zrs1 w)).toNat
    let fn := zfn w
    let n := if bitOf fn 2 then 8 else 4
    let space := bits fn 5 3
    let trap : Option Nat := if 1 < space then some causeBounds else s.accessTrap t x space a n true
    match trap with
    | some cause => .trap cause (x.reg (zrs1 w))
    | none =>
      let old := leNat (s.threadRead t (space = 1) a n)
      let b := (x.reg (zrs2 w)).toNat % 2 ^ (8 * n)
      let v := match bits fn 1 0 with
        | 0 => (old + b) % 2 ^ (8 * n)
        | 1 => if old = (x.reg (zrd w)).toNat % 2 ^ (8 * n) then b else old
        | _ => old ||| b
      let s := ((s.engEvent t 0x00A).spaceEvent t space).threadWrite t (space = 1) a (natLe n v)
      .next (s.onThread t fun y => y.setReg (zrd w) (BitVec.ofNat 64 old)) (x.pc + 1) a

/-! ## Checksum, CRC and hash -/

/-- A ones'-complement sum folded to 16 bits. -/
def fold16 : Nat → Nat → Nat
  | 0, v => v
  | n + 1, v => fold16 n (v % 65536 + v / 65536)

/-- The Toeplitz step of R247. -/
def toeplitz (acc key inp : Nat) : Nat :=
  (List.range 32).foldl (fun a j => if bitOf inp (31 - j) then a ^^^ (key / 2 ^ (32 - j) % 2 ^ 32) else a) (acc % 2 ^ 32)

/-- The table *HASH functions* (R247). -/
def hashResult (fn : Nat) (a b d : Word) : Word :=
  let crc (n : Nat) : Word := BitVec.ofNat 64 (crcBits n (a.toNat % 2 ^ 32) (b.toNat % 2 ^ n))
  match fn with
  | 0x000 =>
    let v := b.toNat
    BitVec.ofNat 64 (fold16 3 (a.toNat % 65536 + v % 65536 + v / 2 ^ 16 % 65536 + v / 2 ^ 32 % 65536 + v / 2 ^ 48))
  | 0x010 => crc 8
  | 0x011 => crc 16
  | 0x012 => crc 32
  | 0x013 => crc 64
  | _ => BitVec.ofNat 64 (toeplitz d.toNat a.toNat b.toNat)

/-- HASH (R247). -/
def execHash (t : Fin 1024) (s : State) : Out :=
  s.issue t .hash fun w x => s.writes t w (hashResult (zfn w) (x.reg (zrs1 w)) (x.reg (zrs2 w)) (x.reg (zrd w)))

/-! ## Time -/

/-- TREAD (R248). -/
def execTread (t : Fin 1024) (s : State) : Out := s.issue t .tread fun w _ => s.writes t w (BitVec.ofNat 64 s.ts64)

/-- TWAIT (R249): an instant that has passed does not wait. -/
def execTwait (t : Fin 1024) (s : State) : Out :=
  s.issue t .twait fun w x =>
    let ts := (x.reg (zrs1 w)).toNat
    if ts ≤ s.ts64 then .next (s.onThread t fun y => { y with epend := y.epend ||| 2 ^ evTime }) (x.pc + 1)
    else .wait (s.onThread t fun y => { y with mode := .twait ts })

/-! ## Special registers -/

/-- A special register as SRD reads it (R231). -/
def State.srd (s : State) (t : Nat) (x : Thread) (n : Nat) : Word :=
  BitVec.ofNat 64 <| match n with
    | 0 => x.ident.getD (t + s.epoch (clusterOf t) * 1024)
    | 1 => b2n x.inTrap + place x.staged 4 1 + place x.outstanding 11 5 + place (x.outQueue + x.unread.length) 18 12
    | 2 => x.emask
    | 3 => x.epend
    | 4 => x.tvec
    | 5 => x.tpc
    | 6 => x.cause + place x.detail 7 4 + place x.code 31 16
    | 7 => x.taddr.toNat
    | 8 => match x.timer with
      | some d => ceilDiv (d - s.now) perNs
      | none => 0
    | 9 => match x.cur with
      | some k => k + 32
      | none => 0
    | 10 => x.slots.foldl (fun a y => a ||| 2 ^ y.num) 0
    | 11 => match x.current with
      | some y => y.start + place y.len 29 16
      | none => 0
    | 12 => x.scratch0.toNat
    | 13 => x.scratch1.toNat
    | _ => 0

/-- A special register as SWR writes it (R231, R233, R250). -/
def State.swr (s : State) (t n : Nat) (v : Word) : State :=
  let u := v.toNat
  s.onThread t fun x =>
    match n with
    | 2 => { x with emask := u % 65536 }
    | 3 => { x with epend := x.epend &&& (65535 - u % 65536) }
    | 4 => { x with tvec := u % 65536 }
    | 5 => { x with tpc := u % 65536 }
    | 8 => { x with timer := if u % 2 ^ 32 = 0 then none else some (s.now + u % 2 ^ 32 * perNs) }
    | 9 => { x with cur := if x.slots.any (fun y => y.num == u % 32) then some (u % 32) else none }
    | 12 => { x with scratch0 := v }
    | 13 => { x with scratch1 := v }
    | _ => x

/-- A special register as a debugger writes it (R232): every field, the read-only ones included. A slot whose bit of SLOTS is cleared is no
longer the thread's, and one whose bit is set and that no thread holds becomes an empty one (log entry 163). -/
def State.debugSpecial (s : State) (t n : Nat) (v : Word) : State :=
  let u := v.toNat
  let taken := (threadsOfEngine (engineOf t)).flatMap fun k => (s.thread k).slots.map (·.num)
  match n with
  | 0 => s.onThread t fun x => { x with ident := some (u % 2 ^ 14) }
  | 1 => s.onThread t fun x =>
      let q := bits u 18 12 - x.unread.length
      { x with inTrap := bitOf u 0, staged := bits u 4 1, outQueue := q, outMem := bits u 11 5 - q }
  | 3 => s.onThread t fun x => { x with epend := u % 65536 }
  | 6 => s.onThread t fun x => { x with cause := bits u 3 0, detail := bits u 7 4, code := bits u 31 16 }
  | 7 => s.onThread t fun x => { x with taddr := v }
  | 9 => s.onThread t fun x => { x with cur := if bitOf u 5 && x.slots.any (fun y => y.num == u % 32) then some (u % 32) else none }
  | 10 => s.onThread t fun x =>
      let slots := (x.slots.filter fun y => bitOf u y.num) ++
        ((List.range 32).filter fun k => bitOf u k && !taken.contains k).map fun k => { num := k, pkt := { bytes := [] } }
      { x with slots, cur := x.cur.filter fun k => slots.any fun y => y.num == k }
  | 11 => s.onThread t fun x => match x.cur with
      | some k => x.onSlot k fun y => { y with start := bits u 13 0, len := bits u 29 16 }
      | none => x
  | _ => s.swr t n v

/-- SRD (R231, R232): A selects the special register. -/
def execSrd (t : Fin 1024) (s : State) : Out := s.issue t .srd fun w x => s.writes t w (s.srd t x (zrs1 w))

/-- SWR (R231, R232): register [10:6] is written to the special register A selects. -/
def execSwr (t : Fin 1024) (s : State) : Out :=
  s.issue t .swr fun w x => .next (s.swr t (zrs1 w) (x.reg (zrd w))) (x.pc + 1)

/-! ## Channels -/

/-- CHW (R251). -/
def execChw (t : Fin 1024) (s : State) : Out :=
  s.issue t .chw fun w x =>
    .next (s.onThread t fun y => { y with staging := y.staging.set 0 (bits w 18 16) (x.reg (zrs1 w)), staged := min 15 (y.staged + 1) }) (x.pc + 1)

/-- The staged message is one that CHS sends (R215). -/
def State.sendable (s : State) (t : Nat) (h : Word) : Bool :=
  let ch := getBits h 7 0
  let len := getBits h 19 16
  let addr := getBits h 48 32
  decide (ch < 9) && bitOf (s.fld TBC_CHAN_PERM.PERM (clusterOf t)) ch && decide (1 ≤ len) && decide (len ≤ 8) &&
    (getBits h 20 20 == 0 || (addr % 64 == 0 && spaceHolds (getBits h 21 21 != 0) addr 64))

/-- The staged message leaves (R214, R216, R233): a credit is taken, the buffer cleared, and a slot that a PKT operation
frees goes with it. -/
def State.sendMessage (s : State) (t : Nat) (x : Thread) : State :=
  let h := x.staging.get 0 0
  let len := getBits h 19 16
  let m : Msg := { thread := t, epoch := s.epoch (clusterOf t), words := (List.range len).map fun i => x.staging.get 0 i }
  let static := decide (x.credits - x.dynCredits < s.fld TBC_SHARE.STATIC_CREDITS (clusterOf t))
  let n := getBits (m.word 1) 4 0
  let slot := if m.channel = 0 then x.slots.find? fun y => y.num == n else none
  let frees := m.op == 1 || m.op == 2 || (m.op == 5 && slot.any (·.made))
  let keeps := m.op == 1 || m.op == 2 || m.op == 5
  let queue := getBits h 20 20 = 0
  let s := s.onThread t fun y => { y with
    staging := {}, staged := 0, mode := .run
    dynCredits := y.dynCredits + b2n (!static)
    outQueue := y.outQueue + (if m.channel ≠ 2 ∧ queue then 1 else 0), outMem := y.outMem + (if m.channel ≠ 2 ∧ !queue then 1 else 0)
    prefetches := y.prefetches + (if m.channel = 2 then 1 else 0) }
  let s := if frees && slot.isSome then s.takeSlot t n else s
  { s with tbe := { s.tbe with msgs := s.tbe.msgs ++ [{ m with slot := if keeps then slot else none }] } }

/-- CHS (R214 to R216, R252): CHANNEL trap, a stall for want of a credit, or the message is sent. -/
def execChs (t : Fin 1024) (s : State) : Out :=
  s.issue t .chs fun _ x =>
    let h := x.staging.get 0 0
    if !s.sendable t h then .trap causeChannel
    else if !s.creditFree t then
      let s := if x.mode = .chs then s else s.bump .TBC_STAT (clusterOf t) 8
      .wait (s.onThread t fun y => { y with mode := .chs })
    else
      let s := ((s.sendMessage t x).bump .TBC_STAT (clusterOf t) 7).engEvent t 0x00D
      .next (if getBits h 7 0 = 2 then s.engEvent t 0x080 else s) (x.pc + 1) h.toNat

/-- CHR (R253): a word of the oldest unread response, popped where POP is 1; a stall while one is due; else CHANNEL. -/
def execChr (t : Fin 1024) (s : State) : Out :=
  s.issue t .chr fun w x =>
    match x.unread with
    | r :: rest =>
      let i := bits w 18 16
      let v := if i < getBits (r.headD 0) 19 16 then r.getD i 0 else 0
      .next (s.onThread t fun y =>
        let y := y.setReg (zrd w) v
        if bitOf w 19 then { y.returnCredit with unread := rest, mode := .run } else { y with mode := .run }) (x.pc + 1)
    | [] => if x.outQueue = 0 then .trap causeChannel else .wait (s.onThread t fun y => { y with mode := .chr })

/-! ## Events -/

/-- WFE (R222, R254): it does not wait where an event of its mask is pending. -/
def execWfe (t : Fin 1024) (s : State) : Out :=
  s.issue t .wfe fun w x =>
    let v := x.epend &&& x.emask
    if v ≠ 0 then s.writes t w (BitVec.ofNat 64 v) else .wait (s.onThread t fun y => { y with mode := .wfe (zrd w) })

/-- SEV (R255): every other thread of the cluster. -/
def execSev (t : Fin 1024) (s : State) : Out :=
  s.issue t .sev fun _ x =>
    .next ((threadsOf (clusterOf t)).foldl (fun u k => if k = t.val then u else u.event k evSev) s) (x.pc + 1)

/-- SEVT (R255): the thread named by register A. -/
def execSevt (t : Fin 1024) (s : State) : Out :=
  s.issue t .sevt fun w x => .next (s.event ((x.reg (zrs1 w)).toNat % 1024) evSev) (x.pc + 1)

/-! ## Traps, counters, FENCE -/

/-- TRAP (R258). -/
def execTrap (t : Fin 1024) (s : State) : Out := s.issue t .trap fun w _ => .trap causeTrap 0 (zimm16 w)

/-- TRET (R257): ILLEGAL outside a trap. -/
def execTret (t : Fin 1024) (s : State) : Out :=
  s.issue t .tret fun _ x =>
    if x.inTrap then .next (s.onThread t fun y => { y with inTrap := false }) (if x.cause = causeTrap then x.tpc + 1 else x.tpc)
    else .trap causeIllegal

/-- CRD (R259, R484, R488): performance counters need the manager's leave; selector 16 is the count of ECLK cycles as of this AOCLK edge. -/
def execCrd (t : Fin 1024) (s : State) : Out :=
  s.issue t .crd fun w x =>
    let n := zimm16 w
    let c := clusterOf t
    if n = 16 then s.writes t w (BitVec.ofNat 64 (s.tbe.cycles.get 0 c))
    else if n = 17 then s.writes t w (BitVec.ofNat 64 x.done)
    else if !bitOf (s.fld PMC_USER.CLUSTERS) c then .trap causeBounds (BitVec.ofNat 64 n)
    else s.writes t w (s.raw .PMC_CTR_VAL 0 (if n < 8 then pmcEngine (engineOf t) + n else pmcCluster c + n - 8))

/-- FENCE (R245, R260): it waits while a store of the thread to a DDR window is posted. -/
def execFence (t : Fin 1024) (s : State) : Out :=
  s.issue t .fence fun _ x => if s.tbe.posted.any fun p => p.thread == t.val then .wait s else .next s (x.pc + 1)

/-- ILLEGAL (R235): a reserved opcode or field value traps. -/
def execIllegal (t : Fin 1024) (s : State) : Out := s.issue t .illegal fun _ _ => .trap causeIllegal

end Sys2Proof.Machine
end

