-- ==== Sys2Proof/Machine/Tabor.lean ====
section
/-! DEFINITION. The commands and events of clusters and threads (08_tabor_engines). -/
namespace Sys2Proof.Machine

/-! ## Cluster states (R204 to R206) -/

/-- RUN in LOADED (R205): threads with their START bit start at ENTRY, the others are parked. -/
def State.startCluster (s : State) (c : Nat) : State :=
  let s := s.put TBC_STATUS.STATE RUNNING c
  let s := s.wakeCluster c
  let s := { s with tbe := { s.tbe with cycles := s.tbe.cycles.set 0 c 0 } }.stirred c
  (threadsOf c).foldl (fun u t =>
    let u := u.onThread t fun x => { x.started t with busySince := u.up }
    if bitOf (u.fld TBC_START.START c) (t % 64) then
      (if u.isSet TBE_CTL.EN (engineOf t) then u.onThread t fun x => { x with mode := .run, pc := u.fld TBC_ENTRY.ENTRY c } else u)
    else u.onThread t fun x => { x with mode := .parked }) s

/-- The answer of an access that completes without effect: all ones. -/
def State.readOnes (s : State) : State := { s with bus := { s.bus with resp := some (BitVec.allOnes 64) } }

/-- The stand-in responder answers for a block that is out of service (R480). -/
def State.standIn (s : State) : State := s.fire 26 5

/-- A register access that reaches cluster `c`: its domain wakes (R227), and the stand-in answers for an isolated cluster (R480). -/
def State.served (s : State) (c : Nat) (effect : State → State) : State :=
  if s.clusterIsolated c then s.standIn else effect (s.wakeCluster c)

/-- RUN = 1 is taken (R206): refused but in LOADED, and in DAWN and TWILIGHT (R227), and while it is isolated (R468). -/
def State.canRun (s : State) (c : Nat) : Bool :=
  s.cluster c == LOADED && s.mode != DAWN && s.mode != TWILIGHT && !s.clusterIsolated c

/-- DRAIN is written (R204). -/
def State.drainCluster (s : State) (c : Nat) (on : Bool) : State :=
  let s := s.put TBC_CTL.DRAIN (b2n on) c
  if on ∧ s.cluster c = RUNNING then s.put TBC_STATUS.STATE DRAINING c
  else if !on ∧ (s.cluster c = DRAINING ∨ s.cluster c = DRAINED) then s.put TBC_STATUS.STATE RUNNING c
  else s

/-- What a TBC_CTL write does: REFUSED is cleared; RESET, or RUN; DRAIN. A refused RUN changes nothing else (R206). -/
def State.writeTbcCtl (s : State) (c : Nat) (w : Word) : State :=
  let s := s.wakeCluster c
  let s := if wfld w TBC_CTL.REFUSED = 1 then s.put TBC_CTL.REFUSED 0 c else s
  let drain := decide (wfld w TBC_CTL.DRAIN = 1)
  if wfld w TBC_CTL.RESET = 1 then (s.clusterReset c).drainCluster c drain
  else if wfld w TBC_CTL.RUN = 1 then (if s.canRun c then (s.startCluster c).drainCluster c drain else s.refuseTbc c)
  else s.drainCluster c drain

/-- A word with a bit of TBC_CTL or TBE_THREAD_CTL as a command writes it. -/
def withBit (f : Field) (v : Nat) (w : Word) : Word := putBits w f.hi f.lo v

/-- CLUSTER_RUN (R204 to R206): RUN = 1 is written. -/
def execClusterRun (_req : Requester) (c : Fin 16) (w : Word) (s : State) : Out :=
  if s.mode = NIGHT then .next s else
  if s.clusterIsolated c then done (s.refuseTbc c).standIn
  else done (s.writeTbcCtl c (withBit TBC_CTL.RESET 0 (withBit TBC_CTL.RUN 1 w)))

/-- CLUSTER_DRAIN (R204): DRAIN = 1 is written. -/
def execClusterDrain (_req : Requester) (c : Fin 16) (w : Word) (s : State) : Out :=
  if s.mode = NIGHT then .next s else done (s.served c fun u => u.writeTbcCtl c (withBit TBC_CTL.DRAIN 1 w))

/-- CLUSTER_UNDRAIN (R204): DRAIN = 0 is written. -/
def execClusterUndrain (_req : Requester) (c : Fin 16) (w : Word) (s : State) : Out :=
  if s.mode = NIGHT then .next s else done (s.served c fun u => u.writeTbcCtl c (withBit TBC_CTL.DRAIN 0 w))

/-- No thread of a cluster holds a packet, and none awaits a response; a prefetch has none (R220). -/
def State.clusterEmpty (s : State) (c : Nat) : Bool :=
  (threadsOf c).all fun t => (s.thread t).slots == [] && (s.thread t).outstanding == 0

/-- CLUSTER_DRAINED (R204): a draining cluster that holds nothing is DRAINED. -/
def execClusterDrained (c : Fin 16) (s : State) : Out :=
  if s.cluster c = DRAINING ∧ s.clusterEmpty c then .next (s.put TBC_STATUS.STATE DRAINED c) else .next s

/-- CLUSTER_RESET (R207): RESET = 1 is written. -/
def execClusterReset (_req : Requester) (c : Fin 16) (w : Word) (s : State) : Out :=
  if s.mode = NIGHT then .next s else done (s.served c fun u => u.writeTbcCtl c (withBit TBC_CTL.RESET 1 w))

/-- Address in `TaborState.mem` that TBC_MEM_ADDR names. -/
def State.memAddr (s : State) (c : Nat) : Nat :=
  (if s.isSet TBC_MEM_ADDR.DMEM c then dmemBase c else imemBase c) + s.fld TBC_MEM_ADDR.ADDR c / 8 * 8

/-- ADDR grows by 8. -/
def State.stepMem (s : State) (c : Nat) : State := s.put TBC_MEM_ADDR.ADDR ((s.fld TBC_MEM_ADDR.ADDR c + 8) % 2 ^ 18) c

/-- A read of TBC_MEM_DATA. -/
def State.memDataRead (s : State) (c : Nat) : State × Word :=
  (s.stepMem c, BitVec.ofNat 64 (leNat (Memory.readBytes s.tbe.mem (s.memAddr c) 8)))

/-- A write of TBC_MEM_DATA (R204, R206): accepted in EMPTY, which it ends, and LOADED. -/
def State.memDataWrite (s : State) (c : Nat) (w : Word) : State :=
  if s.cluster c = EMPTY ∨ s.cluster c = LOADED then
    let s := { s with tbe := { s.tbe with mem := Memory.writeBytes s.tbe.mem (s.memAddr c) (natLe 8 w.toNat) } }
    (s.stepMem c).put TBC_STATUS.STATE LOADED c
  else s.refuseTbc c

/-- MEM_DATA_ACCESS (R204, R206): TBC_MEM_DATA is written, or read. -/
def execMemDataAccess (_req : Requester) (c : Fin 16) (data : Option Word) (s : State) : Out :=
  if s.mode = NIGHT then .next s else
  match data with
  | some w => done (s.served c fun u => u.memDataWrite c w)
  | none =>
    if s.clusterIsolated c then done s.standIn.readOnes
    else
      let r := (s.wakeCluster c).memDataRead c
      .next { r.1 with bus := { r.1.bus with resp := some r.2 } }

/-- A write of TBC_SHARE (R208). -/
def State.writeShare (s : State) (c : Nat) (w : Word) : State :=
  if (s.cluster c ≠ EMPTY ∧ s.cluster c ≠ LOADED) ∨ 64 < 8 * wfld w TBC_SHARE.STATIC_CREDITS ∨ 32 < 8 * wfld w TBC_SHARE.STATIC_SLOTS then
    s.refuseTbc c
  else s.writeReg .TBC_SHARE c 0 w

/-- SHARE_WRITE (R208). -/
def execShareWrite (_req : Requester) (c : Fin 16) (w : Word) (s : State) : Out := if s.mode = NIGHT then .next s else done (s.served c fun u => u.writeShare c w)

/-! ## Responses, waits and traps -/

/-- CHANNEL_RESPONSE (R216, R252, R482): the response at a place lands; an earlier one of its channel to its thread goes
first. -/
def execChannelResponse (place : Nat) (s : State) : Out :=
  match s.tbe.resps[place]? with
  | none => .next s
  | some r =>
    if (s.tbe.resps.take place).any fun e => e.thread == r.thread && e.channel == r.channel then .next s
    else done (({ s with tbe := { s.tbe with resps := s.tbe.resps.eraseIdx place } }).land r)

/-- THREAD_TIMER_EXPIRY (R221, R222, R250): device time has reached the instant of a thread's timer: TIMER is set and the timer disarmed. -/
def execThreadTimerExpiry (t : Fin 1024) (s : State) : Out :=
  match (s.thread t).timer with
  | some d => if d ≤ s.now then done ((s.onThread t fun x => { x with timer := none }).event t evTimer) else .next s
  | none => .next s

/-- TWAIT_END (R222, R249): device time has reached the thread's TWAIT instant: TIME is set and the thread goes on, unless it
is halted, when its TWAIT is executed again on resume. -/
def execTwaitEnd (t : Fin 1024) (s : State) : Out :=
  match (s.thread t).mode with
  | .twait ts =>
    if ts ≤ s.ts64 then
      let s := s.event t evTime
      let x := s.thread t
      if x.halted then done s
      else done ((s.goesOn t fun y => { y with pc := (y.pc + 1) % 65536 }).retire t x.pc (s.instrAt (clusterOf t) x.pc) 0)
    else .next s
  | _ => .next s

/-- THREAD_WATCHDOG (R223, R224): a thread ready, running or stalled for WDOG_US microseconds traps. -/
def execThreadWatchdog (t : Fin 1024) (s : State) : Out :=
  let us := s.fld TBC_WDOG.WDOG_US (clusterOf t)
  let x := s.thread t
  if us ≠ 0 ∧ s.issues t ∧ x.busySince + ofUs us ≤ s.up then done (s.trap t x.pc causeWatchdog 0 0 0 (s.nextWord t)) else .next s

/-! ## Debugger (R225) -/

/-- HALT: the thread stops; what it waits for is executed again on resume. -/
def State.haltThread (s : State) (t : Nat) : State :=
  if (s.thread t).halted then s
  else (s.onThread t fun x => { x with halted := true, step := false, haltAt := s.up }).bump .TBC_STAT (clusterOf t) 10

/-- A halted thread goes on: WFE, TWAIT, CHS and CHR are executed anew; the time halted does not count for its watchdog. -/
def State.resumeThread (s : State) (t : Nat) (step : Bool) : State :=
  let x := s.thread t
  if !x.halted then s
  else
    let m : ThreadMode := match x.mode with
      | .wfe _ | .twait _ | .chs | .chr => .run
      | m => m
    let s := if x.waits && m == .run then s.stirred (clusterOf t) else s
    (s.onThread t fun x => { x with halted := false, step, mode := m, busySince := x.busySince + (s.up - x.haltAt) }).checkWait t

/-- A write of TBE_THREAD_CTL. -/
def State.writeThreadCtl (s : State) (t : Nat) (w : Word) : State :=
  let s := s.wakeCluster (clusterOf t)
  let e := engineOf t
  let s := if wfld w TBE_THREAD_CTL.REFUSED = 1 then s.put TBE_THREAD_CTL.REFUSED 0 e (t % 8) else s
  let s := s.onThread t fun x => { x with epend := x.epend &&& (65535 - wfld w TBE_THREAD_CTL.CLR_EVT) }
  let s := if wfld w TBE_THREAD_CTL.ABORT_STAGE = 1 ∧ (s.thread t).halted then s.onThread t fun x => { x with staging := {}, staged := 0 } else s
  let s := if wfld w TBE_THREAD_CTL.SEV = 1 then s.event t evSev else s
  let s := if wfld w TBE_THREAD_CTL.RESUME = 1 then s.resumeThread t false else s
  let s := if wfld w TBE_THREAD_CTL.STEP = 1 then s.resumeThread t true else s
  if wfld w TBE_THREAD_CTL.HALT = 1 ∧ wfld w TBE_THREAD_CTL.RESUME = 0 ∧ wfld w TBE_THREAD_CTL.STEP = 0 then s.haltThread t else s

/-- A command that writes TBE_THREAD_CTL. -/
def State.threadCtl (s : State) (t : Nat) (w : Word) : Out :=
  if s.mode = NIGHT then .next s else done (s.served (clusterOf t) fun u => u.writeThreadCtl t w)

/-- HALT (R225): HALT = 1 is written. -/
def execHalt (_req : Requester) (t : Fin 1024) (w : Word) (s : State) : Out := s.threadCtl t (withBit TBE_THREAD_CTL.HALT 1 w)

/-- RESUME (R225): RESUME = 1 is written. -/
def execResume (_req : Requester) (t : Fin 1024) (w : Word) (s : State) : Out := s.threadCtl t (withBit TBE_THREAD_CTL.RESUME 1 w)

/-- STEP (R225): STEP = 1 is written. -/
def execStep (_req : Requester) (t : Fin 1024) (w : Word) (s : State) : Out := s.threadCtl t (withBit TBE_THREAD_CTL.STEP 1 w)

/-- ABORT_STAGE (R225): ABORT_STAGE = 1 is written: the staging buffer of a halted thread is cleared. -/
def execAbortStage (_req : Requester) (t : Fin 1024) (w : Word) (s : State) : Out := s.threadCtl t (withBit TBE_THREAD_CTL.ABORT_STAGE 1 w)

/-- THREAD_CTL_SEV (R221): SEV = 1 is written. -/
def execThreadCtlSev (_req : Requester) (t : Fin 1024) (w : Word) (s : State) : Out := s.threadCtl t (withBit TBE_THREAD_CTL.SEV 1 w)

/-- CLR_EVT (R221): the pending bits named are cleared. -/
def execClrEvt (_req : Requester) (t : Fin 1024) (w : Word) (s : State) : Out := s.threadCtl t w

/-- A debugger's write of a thread's PC, g or s register (R225): refused unless the thread is halted. -/
def State.writeThreadReg (s : State) (t : Nat) (r : ThreadReg) (w : Word) : State :=
  if !(s.thread t).halted then (s.put TBE_THREAD_CTL.REFUSED 1 (engineOf t) (t % 8)).clusterEvent (clusterOf t) 7 t
  else match r with
    | .pc => s.onThread t fun x => { x with pc := getBits w 15 0 }
    | .g n => s.onThread t fun x => x.setReg n w
    | .s n => s.debugSpecial t n w

/-- THREAD_REG_WRITE (R225). -/
def execThreadRegWrite (_req : Requester) (t : Fin 1024) (reg : ThreadReg) (w : Word) (s : State) : Out :=
  if s.mode = NIGHT then .next s else
  done (s.served (clusterOf t) fun u => u.writeThreadReg t reg w)

/-! ## Quiet clusters and gating -/

/-- A cluster is named in a pool of some pipeline. -/
def State.inPool (s : State) (c : Nat) : Bool :=
  (List.range 8).any fun p => (List.range 16).any fun n => bitOf (s.fld PPL_POOL_CFG.CLUSTERS p n) c

/-- A packet is queued for a cluster: a frame in a scheduler queue on its way to a pool that names it. -/
def State.packetQueued (s : State) (c : Nat) : Bool :=
  s.net.queues.vals.flatten.any fun x => match x.dest with
    | .pool n => bitOf (s.fld PPL_POOL_CFG.CLUSTERS x.pipe n) c
    | _ => false

/-- A thread is quiet (R226): in WFE, or parked, with no source of its mask that can still fire. -/
def State.quiet (s : State) (t : Nat) : Bool :=
  let x := s.thread t
  let c := clusterOf t
  let mask := match x.mode with
    | .wfe _ => some x.emask
    | .parked => some (s.fld TBC_START_MASK.MASK c)
    | _ => none
  !x.halted && match mask with
    | none => false
    | some m => !(bitOf m evChan && decide (0 < x.outstanding)) && !(bitOf m evTimer && x.timer.isSome) &&
        !(bitOf m evPkt && (s.inPool c || s.packetQueued c)) && !(bitOf m evMbx && bitOf (s.fld TBC_MBX_THREADS.THREADS c) (t % 64))

/-- An instant noted in a store of instants, one more than it, lies `d` units back. -/
def State.lasted (s : State) (since : Store Nat) (c d : Nat) : Bool :=
  since.get 0 c != 0 && decide (since.get 0 c - 1 + d ≤ s.up)

/-- QUIET_CLUSTER (R226): all 64 threads have been quiet for 1 µs, measured in AOCLK. -/
def execQuietCluster (c : Fin 16) (s : State) : Out :=
  if s.clusterRuns c ∧ !s.isSet TBC_STATUS.QUIET c ∧ (threadsOf c).all s.quiet ∧ s.lasted s.tbe.quietSince c (ofUs 1) then
    done (((s.put TBC_STATUS.QUIET 1 c).bump .TBC_STAT c 3).clusterEvent c 5)
  else .next s

/-- A cluster has no work (R227): every thread waits, and no credit is in use. -/
def State.clusterIdle (s : State) (c : Nat) : Bool := (threadsOf c).all fun t => (s.thread t).waits && (s.thread t).credits == 0

/-- CLUSTER_GATE (R37, R227): in DAY a cluster that has had no work for GATE_US is gated, unless PWR_HOLD_AWAKE holds it. -/
def execClusterGate (c : Fin 16) (s : State) : Out :=
  if s.mode = DAY ∧ s.domainAwake c ∧ s.clusterIdle c ∧ s.lasted s.tbe.idleSince c (ofUs (max 1 (s.fld TBC_POWER.GATE_US c))) ∧ !bitOf (s.fld PWR_HOLD_AWAKE.HOLD) c then .next (s.setDomain c false) else .next s

/-! ## What an AOCLK edge does -/

/-- ECLK cycles of an AOCLK edge: 2.0 GHz, halved while throttled (R47). -/
def State.eclkPerEdge (s : State) : Nat := if s.isSet PWR_THERM.THROTTLE then 8 else 16

/-- One edge of a cluster: its ECLK cycles, where the clock runs (R259); whether all its threads are quiet (R226), and whether it has no
work (R227). -/
def State.clusterEdge (s : State) (c : Nat) : State :=
  if !s.clusterRuns c then s
  else
    let note (old : Nat) (holds : Bool) : Nat := if holds then (if old = 0 then s.up + 1 else old) else 0
    let quiet := note (s.tbe.quietSince.get 0 c) ((threadsOf c).all s.quiet)
    let idle := note (s.tbe.idleSince.get 0 c) (s.clusterIdle c)
    let n := if s.engineClock && s.domainAwake c then s.eclkPerEdge else 0
    { s with tbe := { s.tbe with
        cycles := s.tbe.cycles.modify 0 c (· + n)
        quietSince := s.tbe.quietSince.set 0 c quiet
        idleSince := s.tbe.idleSince.set 0 c idle } }

/-- One edge of the engines: the posted stores reach DDR, and each cluster's. -/
def State.taborEdge (s : State) : State := (List.range 16).foldl State.clusterEdge s.drainPosted

end Sys2Proof.Machine
end

