-- ==== Sys2Proof/Machine/Channels.lean ====
section
/-! DEFINITION. The operations of the PKT, TABLE and PREFETCH channels (R218 to R220). A command names a message by its place
in the list on its way; it acts if that message is of its operation and no earlier one of the thread to the channel waits
(R252). -/
namespace Sys2Proof.Machine

/-! ## PKT -/

/-- Latency sample of a packet that an engine is done with (R432, source 3). -/
def State.poolSample (s : State) (x : Slot) : State :=
  match x.pool with
  | some n => s.sample 3 n (ts64Of x.at_ : Int) (s.ts64 : Int) s.sagCommon
  | none => s

/-- The packet that a slot sends: the frame's bytes at the send instant. -/
def State.slotPacket (_s : State) (x : Slot) : Packet :=
  { x.pkt with bytes := x.frame, hdrs := [], ip := none, rewrites := [], dscp := none, hold := 0, launch := 0, sa := none
               tsReq := false, copy := 0 }

/-- The frame of a slot goes onward (R139, R164, R218): to the outbound pipeline of the cluster, or where word 2 names. -/
def State.sendSlot (s : State) (m : Msg) (x : Slot) (sequenced : Bool) : State :=
  let p := s.slotPacket x
  let out := 4 + clusterOf m.thread / 4
  let w2 := (m.word 2).toNat
  let here := { p with ts := s.ts64, degraded := s.sagCommon, queue := m.thread }
  let dest : Option Packet := if m.len ≤ 2 then some { here with dest := .outbound out }
    else (destOf (bits w2 2 0) (bits w2 22 3)).map fun d => { p with dest := d, l0 := bits w2 25 23 }
  match dest, (if sequenced then p.seq else none) with
  | some y, some (d, n) => s.releaseSeq p.pipe d n (some y)
  | some y, none =>
    let y := { y with seq := none }
    match y.dest with
    | .outbound o => s.feed o 0 y
    | _ => (s.enqueue { y with pipe := if y.seq.isNone then out else y.pipe } (y.namedGroup.or (s.destGroup y.dest)) y.l0).1
  | none, some (d, n) => ((s.badAction p.pipe).releaseSeq p.pipe d n none).dropSelected p stDropped
  | none, none => (s.badAction out).dropSelected p stDropped

/-- Counters of a packet returned or sent (R229). -/
def State.countSent (s : State) (t : Nat) : State := s.bump .TBC_STAT (clusterOf t) 5

/-- PKT_RETURN (R218): the frame is sent onward and its slot is free. -/
def execPktReturn (place : Nat) (s : State) : Out :=
  match s.message place 0 1 with
  | none => .next (s.stray place 0)
  | some m =>
    let s := s.takeMsg place
    match m.slot with
    | none => done (s.respond m 16)
    | some x => done (((((s.poolSample x).sendSlot m x true).countSent m.thread).respond m 0).flowControl)

/-- PKT_DROP (R165, R218): the packet is discarded, its sequence number released, its slot free. -/
def execPktDrop (place : Nat) (s : State) : Out :=
  match s.message place 0 2 with
  | none => .next (s.stray place 0)
  | some m =>
    let s := s.takeMsg place
    match m.slot with
    | none => done (s.respond m 16)
    | some x =>
      let s := (s.dropSeq x.pkt).dropSelected x.pkt stDropped
      done (((s.bump .TBC_STAT (clusterOf m.thread) 6).respond m 0).flowControl)

/-- A PKT message gives its slot up at its CHS (R233). -/
def Msg.gaveUp (m : Msg) : Bool := m.op == 1 || m.op == 2 || (m.op == 5 && m.slot.any (·.made))

/-- The start and length of a slot's frame, changed in the later messages of its thread that carry it, up to the one that gave it up: the
messages, whether one carries it, and whether one gave it up. -/
def reframe (t n start len : Nat) : List Msg → List Msg × Bool × Bool
  | [] => ([], false, false)
  | e :: rest =>
    if e.thread = t ∧ e.channel = 0 ∧ e.slot.any (fun y => y.num == n) then
      let x := { e with slot := e.slot.map fun y => { y with start, len } }
      if e.gaveUp then (x :: rest, true, true)
      else
        let r := reframe t n start len rest
        (x :: r.1, true, r.2.2)
    else
      let r := reframe t n start len rest
      (e :: r.1, r.2)

/-- PKT_FRAME (R218): the start and length of the frame in a slot change, unless it would pass the window. A RETURN, DROP or SEND sent after it
that already carries the slot sends the frame as changed (R252). -/
def execPktFrame (place : Nat) (s : State) : Out :=
  match s.message place 0 3 with
  | none => .next (s.stray place 0)
  | some m =>
    let s := s.takeMsg place
    let n := getBits (m.word 1) 4 0
    let start := getBits (m.word 2) 13 0
    let len := getBits (m.word 2) 29 16
    let later := reframe m.thread n start len (s.tbe.msgs.drop place)
    if m.epoch ≠ s.epoch (clusterOf m.thread) ∨ !(later.2.1 || (s.thread m.thread).slots.any (fun y => y.num == n)) then .next (s.respond m 16)
    else if start < 0x400 ∨ 0x4000 < start + len then .next (s.respond m 17)
    else
      let s := { s with tbe := { s.tbe with msgs := s.tbe.msgs.take place ++ later.1 } }
      .next ((if later.2.2 then s else s.onThread m.thread fun x => x.onSlot n fun y => { y with start, len }).respond m 0)

/-- PKT_NEW (R218): a slot for a new packet of the given length; its bytes, and its PHV, are free (log entry 2). -/
def execPktNew (place : Nat) (s : State) : Out :=
  match s.message place 0 4 with
  | none => .next (s.stray place 0)
  | some m =>
    let s := s.takeMsg place
    let t := m.thread
    let len := min 0x3B00 (getBits (m.word 1) 13 0)
    match s.freeSlotNum (engineOf t) with
    | some n =>
      if m.epoch ≠ s.epoch (clusterOf t) ∨ !s.slotFree t then .next (s.respond m 18)
      else
        let bytes := slice (Config.freeBytes s.free len) 0 len
        let phv := slice (Config.freeBytes (s.free + 1) 512) 0 512
        let x : Slot := { num := n, pkt := { bytes, phv, source := (Config.freeWord (s.free + 2)).toNat % 4096, queue := t, pipe := 4 + clusterOf t / 4 }
                          win := Memory.writeBytes {} 0x500 bytes, len, made := true, at_ := s.now }
        .next ((s.drawn.drawn.drawn.giveSlot t x).respond m 0 n)
    | none => .next (s.respond m 18)

/-- PKT_SEND (R218): the frame is sent unsequenced; the slot is freed only if NEW made it. -/
def execPktSend (place : Nat) (s : State) : Out :=
  match s.message place 0 5 with
  | none => .next (s.stray place 0)
  | some m =>
    let s := s.takeMsg place
    match m.slot with
    | none => done (s.respond m 16)
    | some x =>
      let y := { x with pkt := { x.pkt with seq := none, tx := if x.made then x.pkt.tx else none, inPort := if x.made then x.pkt.inPort else none } }
      done (((s.sendSlot m y false).countSent m.thread).respond m 0).flowControl

/-! ## TABLE and PREFETCH -/

/-- Fields of word 1 of a TABLE message (R219). -/
def Msg.table (m : Msg) : Nat := getBits (m.word 1) 7 0
def Msg.gen (m : Msg) : Nat := getBits (m.word 1) 9 8
def Msg.setHit (m : Msg) : Bool := getBits (m.word 1) 10 10 == 1
def Msg.inShared (m : Msg) : Bool := getBits (m.word 1) 11 11 == 1
def Msg.imageAt (m : Msg) : Nat := getBits (m.word 1) 28 12

/-- The image of a TABLE message, in the layout of TBL_CMD_DATA. -/
def State.tableImage (s : State) (m : Msg) : List Byte := s.threadRead m.thread m.inShared m.imageAt 128

/-- A table response: STATUS 16 + RESULT, DETAIL LOCATION or the action, and the entry found, of a size, to RESP_ADDR (R219). -/
def State.tableRespond (s : State) (m : Msg) (result detail : Nat) (entry : Option (Nat × Nat)) : State :=
  s.respond m (16 + result) detail [] (entry.elim [] fun e => natLe e.2 e.1)

/-- A write or read of the ordered port by a thread; TBL_CMD.INDEX is word 2 of the message (log entry 32). -/
def State.tableOp (s : State) (place op : Nat) : State :=
  match s.message place 1 op with
  | none => s.stray place 1
  | some m =>
    let s := s.takeMsg place
    let r := s.tableCommand op m.table ((m.word 2).toNat % 2 ^ 32) m.gen (leNat (s.tableImage m))
    r.1.tableRespond m r.2.result r.2.loc (r.2.entry.map fun e => (e, r.2.size))

/-- TABLE_INSERT (R175, R219). -/
def execTableInsert (place : Nat) (s : State) : Out := done (s.tableOp place 1)
/-- TABLE_UPDATE (R175, R219). -/
def execTableUpdate (place : Nat) (s : State) : Out := done (s.tableOp place 2)
/-- TABLE_DELETE (R175, R219). -/
def execTableDelete (place : Nat) (s : State) : Out := done (s.tableOp place 3)
/-- TABLE_READ_SLOT (R219). -/
def execTableReadSlot (place : Nat) (s : State) : Out := done (s.tableOp place 4)
/-- TABLE_WRITE_INDEX (R175, R219). -/
def execTableWriteIndex (place : Nat) (s : State) : Out := done (s.tableOp place 5)
/-- TABLE_FIND (R174, R219). -/
def execTableFind (place : Nat) (s : State) : Out := done (s.tableOp place 6)

/-- The key in an image, at byte 8, as the bytes a stage would form (log entry 32). -/
def imageKey (img : List Byte) : List Byte := img.drop 8

/-- A message names a flow-tier key that the cache does not hold: it waits for a fetch (R198, R219). The tier is off in DAWN and
TWILIGHT (R182). -/
def State.awaitsFetch (s : State) (t : Nat) (key : List Byte) : Bool :=
  s.isTier t && !s.isSet TBL_T_CFG.MODE 0 t && s.tableServes t && (s.cached (s.tierKey t key)).isNone

/-- The use of a key's cached line. -/
def State.tierTouch (s : State) (t : Nat) (key : List Byte) : State := if s.isTier t then s.cacheUse (s.tierKey t key) else s

/-- The entry that a hit names, with its size. -/
def State.hitEntry (s : State) (t g : Nat) (key : List Byte) (h : Option Hit) : Option (Nat × Nat) :=
  match h with
  | some h =>
    if s.isTier t then
      let c := s.cuckoo t 0
      ((s.holders c (leNat h.key)).head?).map fun p => (s.entry c p, c.size)
    else ((if s.isSet TBL_T_CFG.MODE 0 t then s.directSpot t (bits h.loc 29 0) else s.spotOf t h.loc).map fun x => (s.entry x.1 x.2, x.1.size))
  | none =>
    if s.fld TBL_T_CFG.KIND 0 t = 1 then (s.lpmLookup t g key).map fun h => (h.entry, h.size)
    else (s.rangeHit t (beNat (slice (slice key 0 (s.keyBytes t)) 0 4)) g).map fun i => (s.rangeEntry t i, 16)

/-- TABLE_LOOKUP (R180, R182, R198, R219): a lookup under generation GEN[0]; SET_HIT sets the hit. A lookup of a flow-tier key not in the
cache starts its fetch, unless one is outstanding, and waits: the message stays until FLOW_FETCH_DONE. -/
def execTableLookup (place : Nat) (s : State) : Out :=
  match s.message place 1 7 with
  | none => .next (s.stray place 1)
  | some m =>
    let t := m.table
    let key := imageKey (s.tableImage m)
    if !s.isSet TBL_T_CFG.EN 0 t || !s.usable t || !s.tableServes t then done ((s.takeMsg place).badTable.tableRespond m resBadTable 0 none)
    else if s.awaitsFetch t key then done (s.fetchKey (s.tierKey t key))
    else
      let s := (s.takeMsg place).tierTouch t key
      match s.lookupTable t (m.gen % 2) key with
      | .hit a h =>
        let e := s.hitEntry t (m.gen % 2) key h
        let s := match m.setHit, h with
          | true, some h => s.setHit h
          | _, _ => s
        done (s.tableRespond m resOk a e)
      | _ => done (s.tableRespond m resNotFound 0 none)

/-- PREFETCH (R220): the key's flow-tier entry is brought into the flow cache: a key that it does not hold is fetched, and the message
stays until FLOW_FETCH_DONE. Then the credit comes back, and there is no response. -/
def execPrefetch (place : Nat) (s : State) : Out :=
  match s.tbe.msgs[place]? with
  | none => .next s
  | some m =>
    if m.channel ≠ 2 ∨ (s.tbe.msgs.take place).any (fun e => e.thread == m.thread && e.channel == 2) then .next s
    else
      let key := imageKey (s.tableImage m)
      if s.isSet TBL_T_CFG.EN 0 m.table && s.usable m.table && s.awaitsFetch m.table key then
        let k := s.tierKey m.table key
        done (if s.tbl.fetches.contains k then s else (s.fetchKey k).devEvent 0x30D)
      else
      let s := s.takeMsg place
      if m.epoch ≠ s.epoch (clusterOf m.thread) then .next s
      else .next (s.onThread m.thread fun x =>
        let y := x.returnCredit
        { y with prefetches := y.prefetches - 1 })

end Sys2Proof.Machine
end

