-- ==== Sys2Proof/Machine/Identity.lean ====
section
/-! DEFINITION. The identity of the part: the layers of secrets and their keys (R408), the certificates that the boot ROM issues
(R409), and the signatures it makes (R114, R411). The algorithms are other standards' (log entry 21). -/
namespace Sys2Proof.Machine

/-- Numbers of the algorithms: the UDS of a part, public keys of P-384 and ML-DSA-87, their signatures, and the DER form of X.509 v3. -/
def algUds : Nat := 170
def algPublicP384 : Nat := 171
def algPublicMlDsa : Nat := 172
def algSignP384 : Nat := 173
def algSignMlDsa : Nat := 174
def algX509 : Nat := 175

/-- SHA-384. -/
def hash384 (bs : List Byte) : List Byte := algo (algHash + 1) [bs] 48

/-- A layer's secret: HMAC-SHA-384 keyed by the lower layer's (R408). -/
def layer (secret value : List Byte) : List Byte := algo (algHmac + 1) [secret, value] 48

/-- UDS (R402): 384 bits of the part that nothing reads, free; all ones once RETIRED has blown its fuses (R412). -/
def State.uds (s : State) : List Byte := if s.sec.udsBlown then List.replicate 48 0xFF else algo algUds [natLe 8 s.sec.serial] 48

/-- The public key of a layer's secret: P-384, uncompressed, or ML-DSA-87, whose seed is the secret's first 32 bytes (R408). -/
def publicKey (pq : Bool) (secret : List Byte) : List Byte :=
  if pq then algo algPublicMlDsa [slice secret 0 32] 2592 else algo algPublicP384 [secret] 97

/-- A signature by the private key of a layer's secret: ECDSA P-384 over a digest, or ML-DSA-87 over bytes with an empty context. -/
def signP384 (secret digest : List Byte) : List Byte := algo algSignP384 [secret, digest] 96
def signMlDsa (secret bs : List Byte) : List Byte := algo algSignMlDsa [slice secret 0 32, bs] 4627

/-- Measurements 0 to 5, as the TCG DICE TcbInfo extension carries them (R409). -/
def State.tcbInfo (s : State) : List Byte := wordBytes ((List.range 36).map fun i => s.raw .SEC_MEASURE 0 (i / 6 * 8 + i % 6))

/-- What a certificate says, which its signature covers. -/
def Cert.tbs (c : Cert) : List Byte := framed [natLe 1 c.subject, natLe 1 (b2n c.pq), c.key, c.tcb]

/-- The bytes of a certificate. -/
def Cert.der (c : Cert) : List Byte := Config.algorithm algX509 (framed [c.tbs, c.signature])

/-- The certificate of a layer's key, signed by the DeviceID key of the same algorithm (R409). -/
def State.certify (s : State) (subject : Nat) (pq : Bool) (secret : List Byte) : Cert :=
  let c : Cert := { subject, pq, key := publicKey pq secret, tcb := s.tcbInfo, signature := [] }
  { c with signature := if pq then signMlDsa s.sec.cdi0 c.tbs else signP384 s.sec.cdi0 (hash384 c.tbs) }

/-- The labels of R408. -/
def labelAlias : List Byte := [0x61, 0x6C, 0x69, 0x61, 0x73]
def labelTime : List Byte := [0x74, 0x69, 0x6D, 0x65]

/-- The boot ROM derives the layers above UDS for an image of a signer, KIND and SVN, and issues the four certificates (R408, R409). How the
values of a layer follow one another is the model's (log entry 164). -/
def State.deriveIdentity (s : State) (signer : List Byte) (kind svn : Nat) : State :=
  let cdi0 := layer s.uds (wordBytes ((List.range 6).map fun w => s.raw .SEC_MEASURE 0 w) ++ natLe 1 (s.fld SEC_LIFECYCLE.STATE) ++
    natLe 1 (s.fld SEC_LIFECYCLE.DEBUG_UNLOCKED))
  let cdi1 := layer cdi0 (signer ++ natLe 2 kind ++ natLe 4 svn)
  let a := layer cdi1 labelAlias
  let t := layer cdi1 labelTime
  let s := { s with sec := { s.sec with cdi0, aliasSecret := a, timeSecret := t } }
  { s with sec := { s.sec with certs := [s.certify 0 false a, s.certify 0 true a, s.certify 1 false t, s.certify 1 true t] } }

/-- DEVICE_ID (R115). -/
def State.deviceId (s : State) : List Byte := hash384 (publicKey false s.sec.timeSecret ++ publicKey true s.sec.timeSecret)

/-- The chain of certificate slot `n` with keys of an algorithm (R410): the owner's DeviceID certificates, and the certificate of the Alias
key, slot 0, or of the time-signing key, slot 1. -/
def State.certChain (s : State) (n : Nat) (pq : Bool) : List Byte :=
  s.sec.deviceCerts ++ (s.sec.certs.filter fun c => c.subject == n && c.pq == pq).flatMap Cert.der

/-- The secret whose keys sign for a certificate slot; none where the part holds none: before an image runs, in a RETIRED part, and for the
time-signing keys in MIDNIGHT (R412, R415). -/
def State.slotSecret (s : State) (n : Nat) : Option (List Byte) :=
  let k := if n = 0 then s.sec.aliasSecret else if n = 1 then s.sec.timeSecret else []
  if k = [] ∨ s.fld SEC_LIFECYCLE.STATE = 3 then none else some k

end Sys2Proof.Machine
end

