-- ==== Sys2Proof/Machine/TimeOps.lean ====
section
/-! DEFINITION. PTM mapping and the bounded time page (R91 to R101), the bell code (R103, R104), time tokens (R111 to R115). -/
namespace Sys2Proof.Machine

/-! ## PTM mapping -/

/-- Time delivery to one link. -/
def State.linkTime (s : State) (l : Nat) : LinkTime := s.td.links.get {} l

/-- Updates time delivery to one link. -/
def State.onLinkTime (s : State) (l : Nat) (g : LinkTime → LinkTime) : State :=
  { s with td := { s.td with links := s.td.links.modify {} l g } }

/-- A page with NO_MAP set: it holds no bound (R93, R95). One that has it already stays. -/
def TimePage.unmapped (p : TimePage) : TimePage :=
  if bitOf p.status 12 then p else { p with seq := p.seq + 2, epsBase := 2 ^ 64 - 1, status := p.status + 2 ^ 12 }

/-- NO_MAP is set on every page of a link (R93): its pairs are gone. -/
def State.loseMap (s : State) (l : Nat) : State :=
  (s.put CAR_LINK_STATUS.MAPPED 0 0 l).onLinkTime l fun t =>
    { t with pairs := [], good := 0, failed := 0, asked := none, span := none, page := t.page.unmapped }

/-- MAP_EPOCH grows by one, modulo 65,536. -/
def State.bumpEpoch (s : State) (l : Nat) : State :=
  s.put CAR_LINK_STATUS.MAP_EPOCH ((s.fld CAR_LINK_STATUS.MAP_EPOCH 0 l + 1) % 65536) 0 l

/-- The PTM requester of a link runs (R91): CAR_LINK_MAP.EN, PTM Enable of PF 0, and the link up. -/
def State.ptmRuns (s : State) (l : Nat) : Bool :=
  s.isSet CAR_LINK_MAP.EN 0 l && s.isSet CAR_LINK_STATUS.PTM_ON 0 l && s.isSet HL_LINK_STATUS.UP l

/-- The interval of a link's dialogues: PTM_US, within 16 to 4,000 (R91). -/
def State.ptmInterval (s : State) (l : Nat) : Nat := ofUs (within (s.fld CAR_LINK_MAP.PTM_US 0 l) 16 4000)

/-- A dialogue of a link has fallen due (R91). -/
def State.ptmDue (s : State) (l : Nat) : Bool := (s.linkTime l).asked.all fun t => decide (t + s.ptmInterval l ≤ s.up)

/-- PTM Master Time at the departure of a dialogue's request, in 1/32 ns, as PCIe defines it for a requester: what the root reports
less half of the dialogue before's way there and back, which took `span` 1/16 ns but for the root's turn (PRESUMED, log entry 20). -/
def ptmHost (a : PtmAnswer) (span : Nat) : Nat := (32 * (a.master : Int) - ((span : Int) - 16 * a.turn)).toNat

/-- The pair that a dialogue gives: nothing while the dialogue before failed or was none (R91). Its instant is the departure of the
request, resolved to 62.5 ps (R55). -/
def State.ptmPair (s : State) (l : Nat) (a : PtmAnswer) : Option PtmPair :=
  (s.linkTime l).span.map fun span =>
    { host := ptmHost a span, ts := ts64Of (s.at a.phase - a.span * perPhase), degraded := s.sagPcie }

/-- A least-squares line through (x, y) pairs with x independent: the slope, and the mean point (R91). A line of one instant
has the nominal slope, 4 to a nanosecond. -/
structure Fit where
  slope : Rat
  x0 : Rat
  y0 : Rat
deriving DecidableEq, Repr

def fitLine (ps : List (Nat × Nat)) : Option Fit :=
  if ps = [] then none
  else
    let n : Rat := (ps.length : Rat)
    let sx : Rat := ((ps.map (·.1)).sum : Nat)
    let sy : Rat := ((ps.map (·.2)).sum : Nat)
    let sxy : Rat := ((ps.map fun p => p.1 * p.2).sum : Nat)
    let sxx : Rat := ((ps.map fun p => p.1 * p.1).sum : Nat)
    let d := n * sxx - sx * sx
    some { slope := if d = 0 then 4 / 32 else (n * sxy - sx * sy) / d, x0 := sx / n, y0 := sy / n }

/-- The fit of a link's pairs, in nanoseconds of host time (R91). -/
def State.hostFit (s : State) (l : Nat) : Option Fit :=
  (fitLine ((s.linkTime l).pairs.map fun p => (p.host, p.ts))).map fun f => { f with slope := 32 * f.slope, x0 := f.x0 / 32 }

/-- Host counter value at a TS64 instant. -/
def Fit.hostAt (f : Fit) (ts : Nat) : Int := (f.x0 + ((ts : Rat) - f.y0) / f.slope).floor

/-- RATE: the slope less 4, in units of 2^-64, truncated toward zero (R95 and the worked example). -/
def Fit.rate (f : Fit) : Int :=
  let r := (f.slope - 4) * (2 ^ 64 : Nat)
  if 0 ≤ r then r.floor else r.ceil

/-! ## Reading the page (R100) -/

/-- floor(a × b / 2^64) for an unsigned and a signed number. -/
def mulhi (a : Nat) (b : Int) : Int := ((a : Int) * b) / ((2 ^ 64 : Nat) : Int)

/-- earliest and latest of a version for a host counter value, as the reader computes them; none outside its range or while
it carries UNSYNC or NO_MAP. -/
def TimePage.bound (p : TimePage) (h : Nat) : Option (Int × Int) :=
  if h < p.hostBase ∨ p.horizon ≤ h ∨ bitOf p.status 10 ∨ bitOf p.status 12 then none
  else
    let dh := h - p.hostBase
    let ts : Int := (p.tsBase + 4 * dh : Nat) + mulhi dh p.rate
    let eps : Int := (p.epsBase + ceilDiv (dh * p.epsGrowth) (1000000000 * 2 ^ 32) : Nat)
    some (ts - eps, ts + eps)

/-! ## The bounded time page -/

/-- Device ε at `t` from the published triple (R80), in quarter-nanoseconds, rounded up. -/
def State.tripleEps (s : State) (t : Nat) : Nat :=
  let dt := t - s.car.published.getD t
  let growth := (s.raw .CAR_EPS_GROWTH).toNat
  (s.raw .CAR_EPS_BASE).toNat + ceilDiv (growth * dt) (2 ^ 32 * perSec)

/-- A leap second is pending. -/
def State.leapPending (s : State) : Bool := s.isSet CAR_UTC.LEAP61 || s.isSet CAR_UTC.LEAP59

/-- The UTC word (R95). -/
def State.utcWord (s : State) : Nat :=
  s.fld ⟨.CAR_UTC, 18, 0⟩ + place (if s.leapPending then s.fld CAR_LEAP_TIME.SEC else 0) 63 24

/-- The status word (R95), without CONFLICT. -/
def State.statusWord (s : State) (l : Nat) : Nat :=
  s.fld CAR_STATUS.STATE + place (s.fld CAR_STATUS.SRC) 5 3 + place s.mode 8 6 + place (s.fld CAR_STATUS.DEGRADED) 9 9 +
    place (s.fld CAR_STATUS.UNSYNC) 10 10 + place (s.fld CAR_STATUS.CARRY) 11 11 +
    place (1 - s.fld CAR_LINK_STATUS.MAPPED 0 l) 12 12 + place (s.fld CAR_LINK_STATUS.MAP_EPOCH 0 l) 31 16

/-- VALID_MS in force. -/
def State.validMs (s : State) (l : Nat) : Nat := within (s.fld CAR_LINK_MAP.VALID_MS 0 l) 2 1000

/-- The version that R96 makes now, before R97. Without a fit, HOST_BASE and RATE are free (log entry 2). -/
def State.newPage (s : State) (l : Nat) : State × TimePage :=
  let fit := s.hostFit l
  let none' := s.isSet CAR_STATUS.UNSYNC || !s.isSet CAR_LINK_STATUS.MAPPED 0 l
  let hb := match fit with
    | some f => ((f.hostAt s.ts64) % ((2 ^ 64 : Nat) : Int)).toNat
    | none => (Config.freeWord s.free).toNat
  let rate := match fit with
    | some f => clampInt f.rate (-(2 ^ 63 : Nat)) ((2 ^ 63 - 1 : Nat) : Int)
    | none => (Config.freeWord (s.free + 1)).toInt
  let growth := (s.raw .CAR_EPS_GROWTH).toNat + 4 * s.fld CAR_LINK_MAP.RATE_BOUND 0 l * 2 ^ 32
  (if fit.isSome then s else s.drawn.drawn,
    { seq := (s.linkTime l).page.seq, hostBase := hb, tsBase := s.ts64, rate
      epsBase := if none' then 2 ^ 64 - 1 else min (2 ^ 64 - 2) (s.tripleEps s.now + s.fld CAR_LINK_MAP.MAP_EPS 0 l)
      epsGrowth := min (2 ^ 64 - 1) growth
      utc := s.utcWord, status := s.statusWord l
      horizon := (hb + s.validMs l * 1000000) % 2 ^ 64 })

/-- A version is compared with the one before it at its base (R97), and the page takes it: SEQ advances by 2. -/
def State.publishPage (s : State) (l : Nat) (p : TimePage) : State :=
  let old := (s.linkTime l).page
  let put (s : State) (p : TimePage) : State := s.onLinkTime l fun t => { t with page := { p with seq := old.seq + 2 }, published := some s.now }
  match old.bound p.hostBase, p.bound p.hostBase with
  | some (eo, _), some (en, ln) =>
    if ln < eo then
      let s := (s.put CAR_LINK_STATUS.CONFLICT 1 0 l).bumpEpoch l
      put s { p with status := setBits p.status 31 16 (s.fld CAR_LINK_STATUS.MAP_EPOCH 0 l) + 2 ^ 13 }
    else if en < eo then
      let d := (eo - en).toNat
      put s { p with tsBase := p.tsBase + (d + 1) / 2, epsBase := p.epsBase - d / 2 }
    else put s p
  | _, _ => put s p

/-- The nine words of a page as a host reads them (R95). -/
def TimePage.words (p : TimePage) : List Word :=
  ([p.seq, p.hostBase, p.tsBase, unsigned 64 p.rate, p.epsBase, p.epsGrowth, p.utc, p.status, p.horizon]).map (BitVec.ofNat 64)

/-! ## Bell code (R104) -/

/-- The 22 bytes of a bell frame of link `l` for an edge at TAI second `sec`. COUNT is 0 in the first frame after a reset: R104 does not
say where it starts (DESIGN CHOICE, log entry 177). -/
def State.bellFrame (s : State) (l sec : Nat) : List Byte :=
  let unsync := s.isSet CAR_STATUS.UNSYNC
  let eps := match s.eps with
    | some e => if unsync then 0xFFFFFFFF else min 0xFFFFFFFE (quarters e + 20)
    | none => 0xFFFFFFFF
  let body := natLe 1 (1 + 16 * l) ++ natLe 6 sec ++ natLe 4 eps ++ natLe 2 (s.fld CAR_UTC.OFFSET) ++
    natLe 1 (b2n unsync + 2 * s.fld CAR_STATUS.DEGRADED + 4 * s.fld CAR_STATUS.CARRY + 8 * s.fld CAR_UTC.VALID +
      16 * s.fld CAR_UTC.LEAP61 + 32 * s.fld CAR_UTC.LEAP59) ++
    natLe 1 (s.fld CAR_STATUS.STATE + 8 * s.fld CAR_STATUS.SRC) ++ natLe 1 ((s.linkTime l).frames % 256)
  [0x5A, 0xC3] ++ body ++ natLe 4 (crc32c 0xFFFFFFFF body ^^^ 0xFFFFFFFF)

/-- Bit `i` of a frame on its way: bytes in order, each least significant bit first. -/
def frameBit (bs : List Byte) (i : Nat) : Bool := bitOf (bs.getD (i / 8) 0).toNat (i % 8)

/-- Level of a bell line `d` after its edge (*Bell line timing*): high for 8 µs, low to 16 µs, then the 176 bits of its frame at
1 Mb/s in Manchester code, a 1 low then high and a 0 high then low, then low. -/
def bellLevel (frame : List Byte) (d : Nat) : Bool :=
  if d < ofUs 8 then true
  else if d < ofUs 16 ∨ ofUs 192 ≤ d then false
  else
    let x := d - ofUs 16
    frameBit frame (x / ofUs 1) == decide (ofUs 1 ≤ 2 * (x % ofUs 1))

/-! ## Time tokens -/

/-- Statuses of a token request (R111). -/
def tokOk : Nat := 0
def tokUnsync : Nat := 1
def tokBusy : Nat := 2
def tokNotAvailable : Nat := 3

/-- Requests pending (R113). -/
def State.tokensPending (s : State) : List TokenRequest := (s.td.waiting ++ s.td.batches.flatMap (·.leaves)).filter fun r => !r.gone

/-- Why a request of function `f` is not accepted now (R111, R113). -/
def State.tokenRefusal (s : State) (f : Nat) : Option Nat :=
  if !s.inService || !s.isSet CAR_TOKEN_CTL.EN then some tokNotAvailable
  else if s.isSet CAR_STATUS.UNSYNC || s.eps.isNone then some tokUnsync
  else if 16384 ≤ s.tokensPending.length ∨
      within (s.fld CAR_TOKEN_CTL.PER_FN_MAX) 1 256 ≤ (s.tokensPending.filter fun r => r.fn == f).length then some tokBusy
  else none

/-- The token unit takes a request (R112), or answers at once; none where it was accepted. -/
def State.tokenRequest (s : State) (f : Nat) (nonce : List Byte) (buf tag : Nat) (queue : Option (Nat × Nat)) : State × Option Nat :=
  match s.tokenRefusal f with
  | some e => (if e = tokBusy then s.sat CAR_TOKEN_STATUS.BUSY 1 else s, some e)
  | none =>
    let e := s.eps.getD 0
    let r : TokenRequest := { fn := f, nonce := slice nonce 0 32, buf, tag, queue
                              earliest := (s.now - e) / perQuarter % 2 ^ 64, latest := ceilDiv (s.now + e) perQuarter % 2 ^ 64
                              flags := s.fld CAR_STATUS.DEGRADED + 2 * s.fld CAR_STATUS.CARRY, utc := s.fld CAR_UTC.OFFSET  }
    ({ s with td := { s.td with waiting := s.td.waiting ++ [r] } }, none)

/-- The reply words of a mailbox request (R111). -/
def tokenReplyWords (status tag batch : Nat) : List Word :=
  [BitVec.ofNat 64 (0x32 + 256 * status), BitVec.ofNat 64 tag, BitVec.ofNat 64 batch, 0, 0, 0, 0, 0]

/-- Requests for which `p` holds are discarded without reply, and counted (R113, R115). -/
def State.tokenDiscard (s : State) (p : TokenRequest → Bool) : State :=
  let n := (s.tokensPending.filter p).length
  if n = 0 then s
  else
    let live (b : TokenBatch) : TokenBatch := { b with leaves := b.leaves.map fun r => if p r then { r with gone := true } else r }
    let td : TimeDelivery := { s.td with waiting := s.td.waiting.filter fun r => !p r, batches := s.td.batches.map live }
    ({ s with td }).sat CAR_TOKEN_STATUS.DISCARDED n

/-- DEPTH: the smallest d with 2^d ≥ LEAVES (R114). -/
def depthOf (n : Nat) : Nat := ((List.range 11).find? fun d => decide (n ≤ 2 ^ d)).getD 10

/-- Token bytes 0x000 to 0x077 (R113), of the part with DEVICE_ID `id`. -/
def tokenHead (id : List Byte) (depth leaf batch : Nat) (r : TokenRequest) : List Byte :=
  natLe 2 1 ++ natLe 2 r.flags ++ natLe 2 depth ++ natLe 2 leaf ++ natLe 8 batch ++ natLe 8 r.earliest ++ natLe 8 r.latest ++
    r.nonce ++ id ++ natLe 2 r.fn ++ natLe 2 r.utc ++ natLe 4 0

/-- The next level of a tree: pairs hashed as inner nodes (R114). -/
def treeUp : List (List Byte) → List (List Byte)
  | a :: b :: rest => hash384 ([1] ++ a ++ b) :: treeUp rest
  | l => l

/-- The path of sibling hashes from leaf level to the root, and the root (R114). -/
def treePath : Nat → Nat → List (List Byte) → List Byte × List Byte
  | 0, _, l => ([], l.headD [])
  | d + 1, i, l =>
    let r := treePath d (i / 2) (treeUp l)
    (l.getD (if i % 2 = 1 then i - 1 else i + 1) [] ++ r.1, r.2)

/-- The leaves of a batch, filled with zero leaves to 2^DEPTH (R114). -/
def TokenBatch.tree (b : TokenBatch) (id : List Byte) : List (List Byte) :=
  let d := depthOf b.leaves.length
  let hs := b.leaves.zipIdx.map fun r => hash384 ([0] ++ tokenHead id d r.2 b.number r.1)
  hs ++ List.replicate (2 ^ d - hs.length) (List.replicate 48 0)

/-- The token of leaf `i` of a batch (R113). -/
def TokenBatch.token (b : TokenBatch) (id : List Byte) (i : Nat) (r : TokenRequest) : List Byte :=
  let d := depthOf b.leaves.length
  tokenHead id d i b.number r ++ (treePath d i (b.tree id)).1

/-- The batch record (R113, R114), signed by the time-signing keys. -/
def TokenBatch.record (b : TokenBatch) (id secret : List Byte) : List Byte :=
  let d := depthOf b.leaves.length
  let head := natLe 8 b.number ++ natLe 8 b.close ++ natLe 2 b.leaves.length ++ natLe 2 d ++ natLe 4 0 ++ (treePath d 0 (b.tree id)).2 ++ id
  head ++ signP384 secret (hash384 head) ++ signMlDsa secret head

end Sys2Proof.Machine
end

