-- ==== Sys2Proof/Machine/TxOps.lean ====
section
/-! DEFINITION. TX descriptors (R294, R297), the transmit offloads (R295) and segmentation (R296). -/
namespace Sys2Proof.Machine

/-- A TX descriptor (R294). -/
structure TxDesc where
  addr : Nat
  w1 : Nat
  w2 : Nat
  cookie : Nat
deriving DecidableEq, Repr

namespace TxDesc
def len (d : TxDesc) : Nat := bits d.w1 15 0
def op (d : TxDesc) : Nat := bits d.w1 19 16
def eop (d : TxDesc) : Bool := bitOf d.w1 20
def ext (d : TxDesc) : Bool := bitOf d.w1 21
def cqe (d : TxDesc) : Bool := bitOf d.w1 22
def csumL3 (d : TxDesc) : Bool := bitOf d.w1 23
def csumL4 (d : TxDesc) : Bool := bitOf d.w1 24
def vlanIns (d : TxDesc) : Bool := bitOf d.w1 25
def tso (d : TxDesc) : Bool := bitOf d.w1 26
def vlan (d : TxDesc) : Nat := bits d.w1 47 32
def l3Off (d : TxDesc) : Nat := bits d.w2 9 0
def l4Off (d : TxDesc) : Nat := bits d.w2 19 10
def l4Type (d : TxDesc) : Nat := bits d.w2 21 20
/-- A reserved field is not zero (log entry 30: in every descriptor of a chain). -/
def reserved (d : TxDesc) : Bool := bits d.w1 31 27 != 0 || bits d.w1 63 48 != 0 || bits d.w2 63 22 != 0
end TxDesc

/-- The 32 bytes at TX slot `i` of global queue `g` of function `f`. -/
def State.txSlot (s : State) (f g i : Nat) : List Byte := s.hostRead f ((s.pair g).slotAddr 0 (idx i)) 32

/-- The descriptor at a slot. -/
def State.txDesc (s : State) (f g i : Nat) : TxDesc :=
  match leWords 4 (s.txSlot f g i) with
  | [a, b, c, d] => { addr := a.toNat, w1 := b.toNat, w2 := c.toNat, cookie := d.toNat }
  | _ => { addr := 0, w1 := 0, w2 := 0, cookie := 0 }

/-- What the slots from C on hold: a chain that goes on beyond P, a faulty slot, or a whole chain with its buffers, the slot
of its EOP descriptor and the slots it takes. -/
inductive TxScan where
  | waits
  | bad (slot : Nat)
  | chain (first : TxDesc) (ext : List Byte) (bufs : List (Nat × Nat)) (eop slots : Nat)
deriving DecidableEq, Repr

/-- The largest frame before VLAN insertion (R297). -/
def maxTxFrame : Nat := 9724

/-- The later descriptors of a chain: slot `C + n` next, `left` descriptors more allowed (R294, R297). -/
def State.txMore (s : State) (f g : Nat) (first : TxDesc) (ext : List Byte) : Nat → Nat → List (Nat × Nat) → TxScan
  | 0, n, _ => .bad (idx ((s.pair g).C 0 + n - 1))
  | left + 1, n, bufs =>
    if (s.pair g).used 0 ≤ n then .waits
    else
      let i := idx ((s.pair g).C 0 + n)
      let d := s.txDesc f g i
      if d.reserved ∨ d.len = 0 then .bad i
      else
        let bufs := bufs ++ [(d.addr, d.len)]
        if first.op = 0 ∧ !first.tso ∧ maxTxFrame < (bufs.map (·.2)).sum then .bad i
        else if d.eop then .chain first ext bufs i (n + 1)
        else State.txMore s f g first ext left (n + 1) bufs

/-- An extension of a chain is faulty (R297, R296); `boot` in DAWN and TWILIGHT. -/
def extBad (first : TxDesc) (ext : List Byte) (boot : Bool) : Bool :=
  match leWords 4 ext with
  | [w0, _, w2, w3] =>
    let kind := getBits w2 49 48
    let mss := getBits w2 13 0
    getBits w2 31 14 != 0 || getBits w2 63 50 != 0 || w3 != 0 || kind == 3 || (boot && kind != 0) ||
      (first.tso && (w0 != 0 || mss < 64 || 9600 < mss))
  | _ => true

/-- A first descriptor is faulty by itself (R297, R296). -/
def firstBad (d : TxDesc) (boot : Bool) : Bool :=
  d.reserved || decide (2 < d.op) || d.len == 0 || d.l4Type == 3 ||
    (d.tso && (!d.ext || d.l4Type != 1 || !d.csumL4 || boot)) ||
    (d.op == 1 && (!d.ext || !d.eop || d.len != 8192 || d.addr % 4096 != 0)) ||
    (d.op == 0 && !d.tso && decide (maxTxFrame < d.len))

/-- The chain at the consumer of a TX ring (R293, R294, R297). -/
def State.txScan (s : State) (f g : Nat) : TxScan :=
  let q := s.pair g
  let boot := s.mode == DAWN || s.mode == TWILIGHT
  if q.used 0 = 0 then .waits
  else
    let i := q.C 0
    let d := s.txDesc f g i
    if firstBad d boot then .bad (idx i)
    else if d.ext then
      if q.used 0 < 2 then .waits
      else
        let e := s.txSlot f g (i + 1)
        if d.op ≠ 1 ∧ extBad d e boot then .bad (idx (i + 1))
        else if d.eop then .chain d e [(d.addr, d.len)] (idx i) 2
        else s.txMore f g d e (if d.tso then 63 else 15) 2 [(d.addr, d.len)]
    else if d.eop then .chain d [] [(d.addr, d.len)] (idx i) 1
    else s.txMore f g d [] (if d.tso then 63 else 15) 1 [(d.addr, d.len)]

/-! ## Offloads (R295, R296) -/

/-- The sum of a pseudo-header and of the data behind it, as a checksum field holds it; UDP sends 0 as all ones. -/
def l4Checksum (bs : List Byte) (l3 l4 kind : Nat) : List Byte :=
  let at_ := l4 + (if kind = 1 then 16 else 6)
  let proto : Byte := if kind = 1 then 6 else 17
  let n := bs.length - l4
  let v := (bs.getD l3 0).toNat / 16
  let pseudo := if v = 4 then slice bs (l3 + 12) 8 ++ [0, proto] ++ natBe 2 n else slice bs (l3 + 8) 32 ++ natBe 4 n ++ [0, 0, 0, proto]
  if (v ≠ 4 ∧ v ≠ 6) ∨ bs.length < at_ + 2 then bs
  else
    let z := overwrite bs at_ [0, 0]
    let c := checksum (pseudo ++ z.drop l4)
    overwrite bs at_ (natBe 2 (if kind = 2 ∧ c = 0 then 0xFFFF else c))

/-- A frame with its tag and checksums (R295); CSUM_L4 with L4_TYPE none names no field, and inserts nothing. -/
def TxDesc.offload (d : TxDesc) (bs : List Byte) : List Byte :=
  let v := if d.vlanIns then 4 else 0
  let bs := if d.vlanIns then bs.take 12 ++ natBe 2 0x8100 ++ natBe 2 d.vlan ++ bs.drop 12 else bs
  let bs := if d.csumL3 ∧ d.l3Off + v + 20 ≤ bs.length then ipv4Checksum bs (d.l3Off + v) else bs
  if d.csumL4 ∧ (d.l4Type = 1 ∨ d.l4Type = 2) then l4Checksum bs (d.l3Off + v) (d.l4Off + v) d.l4Type else bs

/-- A segment of a chain under TSO (R296): segment `k` of `n`, with `off` payload bytes before it. -/
def TxDesc.segment (d : TxDesc) (head pay : List Byte) (k n off : Nat) : List Byte :=
  let t := d.l4Off
  let flags := (head.getD (t + 13) 0).toNat
  let keep := (if k + 1 = n then 0xFF else 0xF6) &&& (if k = 0 then 0xFF else 0x7F)
  let h := overwrite head (t + 4) (natBe 4 (beNat (slice head (t + 4) 4) + off))
  let h := overwrite h (t + 13) [BitVec.ofNat 8 (flags &&& keep)]
  let h := if (head.getD d.l3Off 0).toNat / 16 = 4 then overwrite h (d.l3Off + 4) (natBe 2 (beNat (slice h (d.l3Off + 4) 2) + k))
    else overwrite h (d.l3Off + 4) (natBe 2 (head.length + pay.length - d.l3Off - 40))
  d.offload (h ++ pay)

/-- Bytes of the header that every segment copies. -/
def TxDesc.headLen (d : TxDesc) (bs : List Byte) : Nat := d.l4Off + 4 * ((bs.getD (d.l4Off + 12) 0).toNat / 16)

/-- A chain under TSO is faulty once its bytes are read (R296): CSUM_L3 missing for IPv4, a header past the chain, or more
payload than 262,144 bytes. -/
def TxDesc.tsoBad (d : TxDesc) (bs : List Byte) : Bool :=
  ((bs.getD d.l3Off 0).toNat / 16 == 4 && !d.csumL3) || decide (bs.length < d.headLen bs) || decide (262144 < bs.length - d.headLen bs)

/-- The frames of a chain (R295, R296): one, or its segments of MSS bytes in order. -/
def TxDesc.frames (d : TxDesc) (bs : List Byte) (mss : Nat) : List (List Byte) :=
  if !d.tso then [d.offload bs]
  else
    let h := d.headLen bs
    let pay := bs.drop h
    let n := max 1 (ceilDiv pay.length (max 1 mss))
    (List.range n).map fun k => d.segment (bs.take h) ((pay.drop (k * mss)).take mss) k n (k * mss)

/-! ## Fetch (R289, R298) -/

/-- The TX fetch shaper of a function: RATE, BURST and PROFILE. -/
def State.fetchWord (s : State) (f : Nat) : Nat := (s.raw .FNC_RES_TX f).toNat

/-- Its count now, in 10⁻⁶ bytes. -/
def State.fetchTokens (s : State) (f : Nat) : Int :=
  let b := s.net.fetch.get {} f
  let w := s.fetchWord f
  min ((bits w 55 32 * 1000000 : Nat) : Int) (b.tokens + ((bits w 31 0 * (s.edges - b.edge) : Nat) : Int))

/-- The function may be served: RATE 0, or a count of at least zero. -/
def State.fetchOpen (s : State) (f : Nat) : Bool := bits (s.fetchWord f) 31 0 == 0 || decide (0 ≤ s.fetchTokens f)

/-- Sets its count. -/
def State.setFetch (s : State) (f : Nat) (v : Int) : State :=
  { s with net := { s.net with fetch := s.net.fetch.set {} f { tokens := v, edge := s.edges } } }

/-- A frame or a whole chain of `len` bytes is debited at fetch. -/
def State.debitFetch (s : State) (f len : Nat) : State :=
  if bits (s.fetchWord f) 31 0 = 0 then s
  else s.setFetch f (s.fetchTokens f - ((s.charge (bits (s.fetchWord f) 59 56) len * 1000000 : Nat) : Int))

/-- Local TX queues of a function with work: ACTIVE, with entries between C and P. -/
def State.txWork (s : State) (f : Nat) : List Nat :=
  (List.range (s.qpCount f)).filter fun q =>
    let x := s.pair (s.globalQueue f q)
    x.state == ACTIVE && decide (0 < x.used 0)

/-- A function that fetch may serve now. -/
def State.fnServed (s : State) (f : Nat) : Bool := s.dmaOk f && s.fetchOpen f && s.txWork f != []

/-- The function that a link serves next, and its queue (R289): round robin over functions, then over TX queues. -/
def State.nextFetch (s : State) (l : Nat) : Option (Nat × Nat) :=
  match (rotate (s.hlink l).lastFn ((s.fnsOfLink l).filter s.fnServed).mergeSort).head? with
  | none => none
  | some f => ((rotate (s.fn f).lastQueue (s.txWork f)).head?).map fun q => (f, q)

/-- A chain is entered in its queue, behind those before it. -/
def State.addChain (s : State) (g : Nat) (c : TxChain) : State :=
  s.onPair g fun q => { q with chains := q.chains ++ [c], nextChain := q.nextChain + 1 }

/-- The slots of a chain are fetched. -/
def State.consumeTx (s : State) (g n : Nat) : State := s.onPair g fun q => { q with cons := q.cons.set 0 0 (idx (q.C 0 + n)) }

/-- The frames of a fetched chain enter the outbound pipeline of their link (R295). -/
def State.sendChain (s : State) (f q g id : Nat) (d : TxDesc) (ext : List Byte) (frames : List (List Byte)) : State :=
  let l := (s.linkOf f).getD 0
  let pipe := if s.mode = DAWN ∨ s.mode = TWILIGHT then 4 else 4 + l / 4
  let kind := bits (leNat (slice ext 16 8)) 49 48
  let sa := if d.ext ∧ kind ≠ 0 then some (kind, bits (leNat (slice ext 16 8)) 47 32) else none
  frames.zipIdx.foldl (fun t b => t.feed pipe (2 + l)
    { bytes := b.1, ts := s.ts64, degraded := s.sagCommon, source := f, queue := q
      tx := some { queue := g, chain := id, last := b.2 + 1 == frames.length }
      launch := if d.ext then leNat (slice ext 0 8) else 0, hold := if d.ext then leNat (slice ext 8 8) else 0, sa }) s

/-- A whole chain is carried out (R294 to R298). -/
def State.runChain (s : State) (f q g : Nat) (d : TxDesc) (ext : List Byte) (bufs : List (Nat × Nat)) (eop slots : Nat) : State :=
  let id := (s.pair g).nextChain
  let len := (bufs.map (·.2)).sum
  let c : TxChain := { id, index := eop, slots, cookie := d.cookie, len, cqe := d.cqe, left := 1 }
  let s := (s.linkCount f 1 slots).consumeTx g slots
  let now := s.stampNow
  match d.op with
  | 0 =>
    let bs := bufs.flatMap fun b => s.hostRead f b.1 b.2
    let frames := d.frames bs (bits (leNat (slice ext 16 8)) 13 0)
    let s := ((s.linkCount f 1 bufs.length).bump .FNC_FN_STAT f 1).debitFetch f (len + 4)
    (s.addChain g { c with left := frames.length }).sendChain f q g id d ext frames
  | 1 =>
    let r := s.tokenRequest f ext d.addr d.cookie (some (g, id))
    let e := match r.2 with
      | some 1 => stTokenUnsync
      | some 2 => stTokenBusy
      | some _ => stTokenNotAvailable
      | none => stOk
    r.1.addChain g { c with token := true, left := if r.2.isSome then 0 else 1, status := e, ts := now.1, degraded := now.2, tsKind := 1 }
  | _ => s.addChain g { c with left := 0, ts := now.1, degraded := now.2, tsKind := 1 }

end Sys2Proof.Machine
end

