-- ==== Sys2Proof/Machine/HostQueue.lean ====
section
/-! DEFINITION. The commands and events of host queues (11_host_queue_interface). -/
namespace Sys2Proof.Machine

/-! ## Doorbells -/

/-- Doorbell pages of a function's BAR0 (R286): 16 of a VF, 272 of a network PF. -/
def doorbellPages (f : Nat) : Nat := if f < 32 then 272 else 16

/-- A completion ring's consumer moves to `n`, and an ARM arms it (R292, R306). -/
def State.completionDoorbell (s : State) (f g r n : Nat) (arm : Bool) : State :=
  let gone := (n + 65536 - (s.pair g).C r) % 65536
  let move (i : RingIrq) : RingIrq := { armed := i.armed || arm, times := i.times.drop gone }
  let s := s.onPair g fun q => { q with
    cons := q.cons.set 0 r n
    txIrq := if r = 2 then move q.txIrq else q.txIrq
    rxIrq := if r = 3 then move q.rxIrq else q.rxIrq }
  s.checkIrq f g (r = 3)

/-- A write to doorbell page `page` of function `f` (R291, R292). One that R291 discards counts; an index out of
range halts the queue; the index of a BAD_DOORBELL is the doorbell's (log entry 31). -/
def State.doorbell (s : State) (f page bytes : Nat) (aligned : Bool) (w : Word) : State :=
  if doorbellPages f ≤ page then s
  else
    let q := getBits w 27 16
    let r := getBits w 29 28
    let n := getBits w 15 0
    let g := s.globalQueue f q
    let x := s.pair g
    if bytes ≠ 8 ∨ !aligned ∨ getBits w 63 31 ≠ 0 ∨ s.qpCount f ≤ q ∨ getBits x.cfg 24 16 ≠ page ∨ x.state ≠ ACTIVE then
      s.bump .FNC_FN_STAT f 0
    else
      let step := (n + 65536 - x.C r) % 65536
      if r < 2 then
        if x.used r ≤ step ∧ step ≤ x.size r then s.onPair g fun y => { y with prod := y.prod.set 0 r n }
        else s.haltQueue g stBadDoorbell n (r = 1)
      else if step ≤ x.used r then s.completionDoorbell f g r n (bitOf w.toNat 30)
      else s.haltQueue g stBadDoorbell n (r = 3)

/-- A host's write to a register of function `f`, where it reaches it: one more request of the link (R316, R329). -/
def State.hostRow (s : State) (f : Nat) (go : State → State) : Out :=
  if s.hostReaches f then done (go (s.hostTlp f)) else .next s

/-- DOORBELL (R291, R292): a host writes to a doorbell page of a network function. -/
def execDoorbell (f : Fin 2080) (page bytes : Nat) (aligned : Bool) (w : Word) (s : State) : Out :=
  if s.isNvmeFn f then .next s else s.hostRow f fun s => s.doorbell f page bytes aligned w

/-! ## Fetch and completion -/

/-- The oldest chain of a queue is fetched (R293 to R298); a faulty slot halts the queue. -/
def State.fetchChain (s : State) (f q : Nat) : State :=
  let g := s.globalQueue f q
  match s.txScan f g with
  | .waits => s
  | .bad i => s.haltQueue g stBadDesc i false
  | .chain d ext bufs eop slots =>
    if d.op = 0 ∧ d.tso ∧ d.tsoBad (bufs.flatMap fun b => s.hostRead f b.1 b.2) then s.haltQueue g stBadDesc (idx ((s.pair g).C 0)) false
    else s.runChain f q g d ext bufs eop slots

/-- The read of a queue's descriptors or buffers fails (R304, R315). -/
def State.txReadFails (s : State) (f q : Nat) (e : AerError) : State :=
  let g := s.globalQueue f q
  (s.pcieError f e).haltQueue g stDmaError (idx ((s.pair g).C 0)) false

/-- TX_FETCH (R289, R293 to R298): the network queue, not bound to Sarup, whose turn it is has its oldest chain fetched. `reply` is how the reads end now;
none leaves them outstanding, for COMPLETION_RX or COMPLETION_TIMEOUT. In DUSK nothing is fetched (R29). -/
def execTxFetch (f : Fin 2080) (q : Nat) (reply : Option CplStatus) (s : State) : Out :=
  match s.linkOf f with
  | none => .next s
  | some l =>
    if s.mode = DUSK ∨ s.isSarup (s.globalQueue f q) ∨ s.nextFetch l ≠ some (f.val, q) ∨ s.readPending f (· == .txDescriptors f q) then .next s
    else
      let t := (s.onLink l fun k => { k with lastFn := f }).onFn f fun x => { x with lastQueue := q }
      match reply with
      | none => done (t.issueRead f (.txDescriptors f q))
      | some r => match cplError r with
        | some e => done (t.txReadFails f q e)
        | none => done (t.fetchChain f q)

/-- TX_COMPLETION_WRITE (R300, R301): the oldest chain of a queue, once ended, leaves the queue with its completion. -/
def execTxCompletionWrite (f : Fin 2080) (q : Nat) (s : State) : Out :=
  if s.qpCount f ≤ q then .next s
  else match s.releaseChain f (s.globalQueue f q) with
    | some t => done t
    | none => .next s

/-- MODERATION_TIMER (R306): an armed ring whose oldest pending completion is TIMER_US old fires its vector; not in MIDNIGHT, where the
part issues no such message (R316). -/
def execModerationTimer (f : Fin 2080) (q : Nat) (rx : Bool) (s : State) : Out :=
  if s.qpCount f ≤ q then .next s
  else
    let g := s.globalQueue f q
    let x := s.pair g
    let irq := if rx then x.rxIrq else x.txIrq
    let timer := getBits x.irq 41 32
    match irq.times with
    | [] => .next s
    | t :: _ =>
      if irq.armed ∧ timer ≠ 0 ∧ t + ofUs timer ≤ s.now ∧ s.mode ≠ MIDNIGHT then
        let s := s.onPair g fun q => if rx then { q with rxIrq := { q.rxIrq with armed := false } } else { q with txIrq := { q.txIrq with armed := false } }
        done (s.signal f (if rx then getBits x.irq 26 16 else getBits x.irq 10 0))
      else .next s

/-! ## Queue states (R303) -/

/-- A queue goes from DISABLED to ACTIVE, every index zero; the number of the next chain runs on. -/
def QueuePair.activate (q : QueuePair) : QueuePair :=
  { q with state := ACTIVE, enable := true, err := 0, errIndex := 0, prod := {}, cons := {}, chains := [], txIrq := {}, rxIrq := {} }

/-- A write of FNC_Q_CTL of the selected queue (R303). -/
def State.queueCtl (s : State) (f : Nat) (w : Word) : State :=
  let q := s.fld FNC_Q_SEL.QUEUE f
  if s.qpCount f ≤ q then s
  else
    let g := s.globalQueue f q
    let s := if getBits w 1 1 = 1 then s.onPair g fun x => { x with refused := false } else s
    let st := (s.pair g).state
    if getBits w 0 0 = 1 then
      if st = DISABLED then s.onPair g QueuePair.activate else s.onPair g fun x => { x with refused := true }
    else if st = ACTIVE ∨ st = HALTED then (s.onPair g fun x => { x with state := STOPPING, enable := false }).stopHeld g
    else s

/-- QUEUE_ENABLE (R303): ENABLE = 1 is written. -/
def execQueueEnable (_req : Requester) (f : Fin 2080) (w : Word) (s : State) : Out := if s.mode = NIGHT then .next s else done (s.queueCtl f w)

/-- QUEUE_DISABLE (R303): ENABLE = 0 is written. -/
def execQueueDisable (_req : Requester) (f : Fin 2080) (w : Word) (s : State) : Out := if s.mode = NIGHT then .next s else done (s.queueCtl f w)

/-- Chains that can leave do, at most `n`. -/
def State.releaseChains (s : State) (f g : Nat) : Nat → State
  | 0 => s
  | n + 1 => match s.releaseChain f g with
    | some t => State.releaseChains t f g n
    | none => s

/-- QUEUE_DRAINED (R303, R305): a STOPPING queue whose frames and tokens have all ended becomes DISABLED. -/
def execQueueDrained (f : Fin 2080) (q : Nat) (s : State) : Out :=
  if s.qpCount f ≤ q then .next s
  else
    let g := s.globalQueue f q
    let x := s.pair g
    if x.state = STOPPING ∧ x.chains.all (·.left == 0) then
      done ((s.releaseChains f g x.chains.length).onPair g fun y => { y with state := DISABLED, chains := [] })
    else .next s

/-! ## Resources (R288) -/

/-- Two ranges of a pool share a member. -/
def overlaps (a n b m : Nat) : Bool := decide (0 < n) && decide (0 < m) && decide (a < b + m) && decide (b < a + n)

/-- The vector range of a function, network or NVMe, whose VALID is 1. -/
def State.vecRange (s : State) (f : Nat) : Nat × Nat :=
  if s.isSet FNC_RES_CTL.VALID f then (s.fld FNC_RES_VEC.VEC_BASE f, s.fld FNC_RES_VEC.VEC_COUNT f)
  else if s.isSet NVM_FN_RES.VALID 0 f then (s.fld NVM_FN_RES.VEC_BASE 0 f, s.fld NVM_FN_RES.VEC_COUNT 0 f)
  else (0, 0)

/-- The part of its registers that a function with VALID = 1 holds; only such functions matter to an overlap. -/
def State.assigned (s : State) : List Nat :=
  (List.range 2080).filter fun f => s.isSet FNC_RES_CTL.VALID f || s.isSet NVM_FN_RES.VALID 0 f

/-- A write of VALID = 1 is refused (R288). -/
def State.resRefused (s : State) (f : Nat) : Bool :=
  let qb := s.fld FNC_RES_QP.QP_BASE f
  let qn := s.fld FNC_RES_QP.QP_COUNT f
  let vb := s.fld FNC_RES_VEC.VEC_BASE f
  let vn := s.fld FNC_RES_VEC.VEC_COUNT f
  s.isNvmeFn f || decide ((if f < 32 then 4096 else 256) < qn) || decide ((if f < 32 then 2048 else 64) < vn) ||
    decide (32768 < qb + qn) || decide (65536 < vb + vn) ||
    s.assigned.any fun h => h != f &&
      ((s.isSet FNC_RES_CTL.VALID h && overlaps qb qn (s.fld FNC_RES_QP.QP_BASE h) (s.fld FNC_RES_QP.QP_COUNT h)) ||
        overlaps vb vn (s.vecRange h).1 (s.vecRange h).2)

/-- Some queue of a function is not DISABLED. -/
def State.queueBusy (s : State) (f : Nat) : Bool :=
  (List.range (s.qpCount f)).any fun q => (s.pair (s.globalQueue f q)).state != DISABLED

/-- RES_VALID_WRITE (R288): FNC_RES_CTL is written. -/
def execResValidWrite (_req : Requester) (f : Fin 2080) (w : Word) (s : State) : Out :=
  if s.mode = NIGHT then .next s else
  let s := if wfld w FNC_RES_CTL.REFUSED = 1 then s.put FNC_RES_CTL.REFUSED 0 f else s
  let refused := if wfld w FNC_RES_CTL.VALID = 1 then !s.isSet FNC_RES_CTL.VALID f && s.resRefused f
    else s.isSet FNC_RES_CTL.VALID f && s.queueBusy f
  .next (if refused then s.put FNC_RES_CTL.REFUSED 1 f else s.put FNC_RES_CTL.VALID (wfld w FNC_RES_CTL.VALID) f)

/-- A write of FNC_RES_TX sets the fetch shaper's count under RESET_TO (R289). -/
def State.writeResTx (s : State) (f : Nat) (w : Word) : State :=
  let w := w &&& BitVec.ofNat 64 (2 ^ 61 - 1)
  (s.setRaw .FNC_RES_TX f 0 w).setFetch f (if getBits w 60 60 = 0 then ((getBits w 55 32 * 1000000 : Nat) : Int) else 0)

end Sys2Proof.Machine
end

