-- ==== Sys2Proof/Machine/Nvme.lean ====
section
/-! DEFINITION. The commands and events of the storage front end (14_nvme_storage). -/
namespace Sys2Proof.Machine

/-! ## Controller enable, reset and shutdown (R367 to R369) -/

/-- CC is written with EN = 1 in a controller that was disabled: it takes up its admin queues (R367). While RDY of the last enabling has
not fallen the write does nothing (PRESUMED, log entry 33). -/
def State.ccEnable (s : State) (f w : Nat) : State :=
  if (s.nvmCtl f).rdy then s
  else s.onCtl f fun c =>
    { c with cc := w
             shst := 0
             features := (c.features.set 0 6 (s.fld NVM_FN_CFG.VWC_DEFAULT 0 f))
             sqs := c.sqs.set {} 0 { base := page4k c.asq, size := bits c.aqa 11 0 + 1 }
             cqs := c.cqs.set {} 0 { base := page4k c.acq, size := bits c.aqa 27 16 + 1, irq := true } }

/-- CC is written with EN = 0 in a controller that was enabled (R368): its commands end, it is reset, and RDY falls. -/
def State.ccDisable (s : State) (f w : Nat) : State := (s.endController f).nvmReset f w

/-- CC is written with EN = 1 and SHN not 0 in an enabled controller (R369): fetch stops. -/
def State.ccShutdown (s : State) (f w : Nat) : State := s.onCtl f fun c => { c with cc := w, shst := if c.shst = 0 then 1 else c.shst }

/-- A write of CC: enable, reset or shutdown, or its other fields (R367 to R369). -/
def State.writeCc (s : State) (f w : Nat) : State :=
  let was := (s.nvmCtl f).enabled
  if was && !bitOf w 0 then s.ccDisable f w
  else if !was && bitOf w 0 then s.ccEnable f w
  else if was && bits w 15 14 != 0 then s.ccShutdown f w
  else s.onCtl f fun c => { c with cc := w }

/-- CC_ENABLE (R367): the host writes CC with EN = 1. -/
def execCcEnable (f : Fin 2080) (w : BitVec 32) (s : State) : Out :=
  if !s.isNvmeFn f || !bitOf w.toNat 0 then .next s else s.hostRow f fun s => s.writeCc f w.toNat

/-- CSTS_RDY_SET (R367): RDY sets once the front end is enabled, the part serves, and the function's resources are valid. -/
def execCstsRdySet (f : Fin 2080) (s : State) : Out :=
  if (s.nvmCtl f).enabled && s.isSet NVM_CFG.EN && s.inService && s.isSet NVM_FN_RES.VALID 0 f && !s.fnInReset f then
    .next (s.onCtl f fun c => { c with rdy := true })
  else .next s

/-- CC_DISABLE (R368): the host writes CC with EN = 0. -/
def execCcDisable (f : Fin 2080) (w : BitVec 32) (s : State) : Out :=
  if !s.isNvmeFn f || bitOf w.toNat 0 then .next s else s.hostRow f fun s => s.writeCc f w.toNat

/-- CC_SHUTDOWN (R369): the host writes CC.SHN. -/
def execCcShutdown (f : Fin 2080) (w : BitVec 32) (s : State) : Out :=
  if !s.isNvmeFn f || bits w.toNat 15 14 == 0 then .next s else s.hostRow f fun s => s.writeCc f w.toNat

/-- SHUTDOWN_COMPLETE (R369): every fetched command has completed and every DIRTY count is zero. Requests that wait for an
event do not hold a shutdown (log entry 35). -/
def execShutdownComplete (f : Fin 2080) (s : State) : Out :=
  if (s.nvmCtl f).shst = 1 ∧ !(s.nvm.cmds.any fun m => m.fn == f.val && m.stage != .event) ∧
      (s.nvm.dirty = 0 ∨ !((s.attachments.any fun a => a.1 == f.val && attDirty (s.attachment a.1 a.2) != 0))) then
    .next (s.onCtl f fun c => { c with shst := 2 })
  else .next s

/-! ## Doorbells -/

/-- The tail of a submission queue is written (R370). -/
def State.sqTail (s : State) (f q v : Nat) : State :=
  if (s.nvmCtl f).enabled ∧ v % 65536 < ((s.nvmCtl f).sq q).size then s.onSq f q fun x => { x with tail := v % 65536 } else s

/-- The head of a completion queue is written (R363); completions that waited for room go out. -/
def State.cqHead (s : State) (f q v : Nat) : State :=
  let x := (s.nvmCtl f).cq q
  if (s.nvmCtl f).enabled ∧ v % 65536 < x.size then (s.onCq f q fun x => { x with head := v % 65536 }).postWaiting f q x.waiting.length
  else s

/-- SQ_DOORBELL (R370): the host writes the tail of a submission queue. -/
def execSqDoorbell (f : Fin 2080) (q : Nat) (v : BitVec 32) (s : State) : Out :=
  if !s.isNvmeFn f then .next s else s.hostRow f fun s => s.sqTail f q v.toNat

/-- CQ_DOORBELL (R363): the host writes the head of a completion queue. -/
def execCqDoorbell (f : Fin 2080) (q : Nat) (v : BitVec 32) (s : State) : Out :=
  if !s.isNvmeFn f then .next s else s.hostRow f fun s => s.cqHead f q v.toNat

/-! ## Fetch and dispatch (R370, R373, R374) -/

/-- A submission queue may be fetched from: it holds a command, and neither limit is reached. -/
def State.sqServed (s : State) (f q : Nat) : Bool :=
  let x := (s.nvmCtl f).sq q
  x.size != 0 && x.head != x.tail && decide (s.nvm.cmds.length < 65536) &&
    match s.nvm.cmds.find? fun m => m.fn == f && m.sq == q && m.stage != .event with
    | some e => decide (x.fetched ≤ e.num + 256)
    | none => true

/-- The controller fetches: enabled, ready, not shutting down, and allowed to by mode and link (R29, R316, R367, R369). -/
def State.ctlFetches (s : State) (f : Nat) : Bool :=
  let c := s.nvmCtl f
  s.isSet NVM_CFG.EN && c.enabled && c.rdy && !c.cfs && c.shst == 0 && s.inService && s.dmaOk f

/-- The submission queue that the controller serves next: the same one within its burst, else the next in round robin. -/
def State.nextSq (s : State) (f : Nat) : Option Nat :=
  let c := s.nvmCtl f
  let l := c.sqs.keys.filter (s.sqServed f)
  let ab := bits (c.features.get 0 1) 2 0
  if l.contains c.last && (ab == 7 || decide (c.burst < 2 ^ ab)) then some c.last
  else (l.find? fun q => decide (c.last < q)).or l.head?

/-- The lowest free handle slot, with a new generation (R370). -/
def State.newHandle (s : State) : Nat × State :=
  let slot := ((List.range (s.nvm.cmds.length + 1)).find? fun i => !s.nvm.cmds.any fun m => m.handle % 65536 == i).getD 0
  let g := (s.nvm.gens.get 0 slot + 1) % 65536
  (slot + 65536 * g, s.onNvm fun n => { n with gens := n.gens.set 0 slot g })

/-- What the front end does with an I/O command it has fetched (R363, R370, R378). -/
def State.checkIo (s : State) (m : NvmCmd) : State :=
  if !ioOpcode m.opcode then (s.endCmd m ncBadOpcode).nvmStat 2
  else
    let a := s.attachment m.fn m.nsid
    if !attached a then (s.endCmd m ncBadNs).nvmStat 2
    else
      let m := { m with ns := attNs a }
      let s := s.onCmd m.handle fun _ => m
      if attDefer a then ((s.setAttachment m.fn m.nsid (setBits a 13 13 0)).endCmd m ncDeferred).nvmStat 7
      else match s.ioCheck m with
        | some e => (s.endCmd m e).nvmStat 2
        | none => if s.mayDispatch m then s else s.nvmStat 3

/-- What it does with an admin command (R363, R380). -/
def State.checkAdmin (s : State) (m : NvmCmd) : State :=
  if !adminOpcode m.opcode then (s.endCmd m ncBadOpcode).nvmStat 2
  else if m.opcode = 8 ∧ 4 < (s.nvm.cmds.filter fun x => x.fn == m.fn && x.sq == 0 && x.opcode == 8).length then
    (s.endCmd m ncAbortLimit).nvmStat 2
  else s

/-- A command's 64 bytes have been read: it takes a handle and is checked. -/
def State.fetchCmd (s : State) (f q : Nat) : State :=
  let x := (s.nvmCtl f).sq q
  if x.size = 0 ∨ x.head = x.tail then s
  else
    let bs := s.hostRead f (x.base + 64 * x.head) 64
    let s := s.onSq f q fun x => { x with head := (x.head + 1) % x.size, fetched := x.fetched + 1 }
    let s := s.onCtl f fun c => { c with last := q, burst := if c.last = q then c.burst + 1 else 1 }
    let h := s.newHandle
    let m : NvmCmd := { handle := h.1, fn := f, sq := q, num := x.fetched, bytes := bs, ts := s.ts64, degraded := s.sagCommon
                        stage := if q = 0 then .admin else .held }
    let s := ((h.2.onNvm fun n => { n with cmds := n.cmds ++ [m] }).nvmStat 0).devEvent 0x309
    if q = 0 then s.checkAdmin m else s.checkIo m

/-- The read of a submission entry fails (R315): the error is logged, and the entry is read again. -/
def State.cmdReadFails (s : State) (f : Nat) (e : AerError) : State := s.pcieError f e

/-- COMMAND_FETCH (R363, R370, R378): the next command of the queue whose turn it is. `reply` is how the read ends now; none
leaves it outstanding. -/
def execCommandFetch (f : Fin 2080) (sq : Nat) (reply : Option CplStatus) (s : State) : Out :=
  if !s.ctlFetches f || s.nextSq f != some sq || s.readPending f (· == .nvmeCommand f sq) then .next s
  else match reply with
    | none => .next (s.issueRead f (.nvmeCommand f sq))
    | some r => match cplError r with
      | some e => done (s.cmdReadFails f e)
      | none => done ((s.linkCount f 1 1).fetchCmd f sq)

/-- COMMAND_DISPATCH (R370, R373, R374): a held command that the ordering rules allow goes to a cluster's ready queue. -/
def execCommandDispatch (h : Nat) (s : State) : Out := done (s.dispatchCmd h fun _ => true)
/-- NVME_READ (R370, R375): a Read is dispatched. -/
def execNvmeRead (h : Nat) (s : State) : Out := done (s.dispatchCmd h fun m => m.opcode == 2)
/-- NVME_WRITE (R370, R376, R377): a Write is dispatched, whole, as one handle. -/
def execNvmeWrite (h : Nat) (s : State) : Out := done (s.dispatchCmd h fun m => m.opcode == 1)
/-- NVME_FLUSH (R373, R376): a Flush is dispatched after every earlier Write and Write Zeroes of its NSID. -/
def execNvmeFlush (h : Nat) (s : State) : Out := done (s.dispatchCmd h fun m => m.opcode == 0)
/-- COMPARE (R370, R375): a Compare is dispatched. -/
def execCompare (h : Nat) (s : State) : Out := done (s.dispatchCmd h fun m => m.opcode == 5)
/-- WRITE_ZEROES (R370, R376): a Write Zeroes is dispatched. -/
def execWriteZeroes (h : Nat) (s : State) : Out := done (s.dispatchCmd h fun m => m.opcode == 8)
/-- DATASET_MANAGEMENT (R373): dispatched after every earlier command of its NSID. -/
def execDatasetManagement (h : Nat) (s : State) : Out := done (s.dispatchCmd h fun m => m.opcode == 9)

/-! ## Admin commands (R363 to R365, R378, R380) -/

/-- The admin command with a handle and an opcode, not yet carried out. -/
def State.adminCmd (s : State) (h op : Nat) : Option NvmCmd :=
  (s.nvmCmd h).filter fun m => m.stage == .admin && m.opcode == op

/-- QID and size of a queue command. -/
def NvmCmd.qid (m : NvmCmd) : Nat := bits (m.dw 10) 15 0
def NvmCmd.qsize (m : NvmCmd) : Nat := bits (m.dw 10) 31 16 + 1

/-- CREATE_IO_SQ (R364, R365). -/
def execCreateIoSq (h : Nat) (s : State) : Out :=
  match s.adminCmd h 1 with
  | none => .next s
  | some m =>
    let c := s.nvmCtl m.fn
    let cq := bits (m.dw 11) 31 16
    let e : Nat :=
      if bits c.cc 19 16 ≠ 6 ∨ m.qsize < 2 then ncBadQsize
      else if m.qid = 0 ∨ s.nvmPairs m.fn < m.qid ∨ (c.sq m.qid).size ≠ 0 then ncBadQid
      else if cq = 0 ∨ s.nvmPairs m.fn < cq then ncBadQid
      else if (c.cq cq).size = 0 then ncBadCq
      else if !bitOf (m.dw 11) 0 then ncBadField
      else if m.prp1 % c.page ≠ 0 then ncPrpOffset
      else ncOk
    if e ≠ ncOk then done (s.endCmd m e)
    else done ((s.onSq m.fn m.qid fun _ => { base := m.prp1, size := m.qsize, cq }).endCmd m ncOk)

/-- CREATE_IO_CQ (R364, R365). -/
def execCreateIoCq (h : Nat) (s : State) : Out :=
  match s.adminCmd h 5 with
  | none => .next s
  | some m =>
    let c := s.nvmCtl m.fn
    let iv := bits (m.dw 11) 31 16
    let e : Nat :=
      if bits c.cc 23 20 ≠ 4 ∨ m.qsize < 2 then ncBadQsize
      else if m.qid = 0 ∨ s.nvmPairs m.fn < m.qid ∨ (c.cq m.qid).size ≠ 0 then ncBadQid
      else if s.nvmVectors m.fn ≤ iv then ncBadVector
      else if !bitOf (m.dw 11) 0 then ncBadField
      else if m.prp1 % c.page ≠ 0 then ncPrpOffset
      else ncOk
    if e ≠ ncOk then done (s.endCmd m e)
    else done ((s.onCq m.fn m.qid fun _ => { base := m.prp1, size := m.qsize, vector := iv, irq := bitOf (m.dw 11) 1 }).endCmd m ncOk)

/-- DELETE_IO_SQ (R368): the commands of the queue end, and then this one. -/
def execDeleteIoSq (h : Nat) (s : State) : Out :=
  match s.adminCmd h 0 with
  | none => .next s
  | some m =>
    if m.qid = 0 ∨ ((s.nvmCtl m.fn).sq m.qid).size = 0 then done (s.endCmd m ncBadQid)
    else
      let s := s.endCmds (fun x => x.fn == m.fn && x.sq == m.qid) ncSqDeleted 4
      done ((s.onSq m.fn m.qid fun _ => {}).endCmd m ncOk)

/-- DELETE_IO_CQ (R363): not while a submission queue completes to it. -/
def execDeleteIoCq (h : Nat) (s : State) : Out :=
  match s.adminCmd h 4 with
  | none => .next s
  | some m =>
    let c := s.nvmCtl m.fn
    if m.qid = 0 ∨ (c.cq m.qid).size = 0 then done (s.endCmd m ncBadQid)
    else if c.sqs.entries.any fun e => e.1 != 0 && e.2.cq == m.qid then done (s.endCmd m ncBadDeletion)
    else done ((s.onCq m.fn m.qid fun _ => {}).endCmd m ncOk)

/-- A log page (R363): 64 error entries; SMART / Health, whose values no rule gives (a free value, log entry 2); the NSIDs that
changed. -/
def State.logPage (s : State) (f lid : Nat) : Option (List Byte) :=
  let c := s.nvmCtl f
  match lid with
  | 1 => some (slice c.errors.flatten 0 4096)
  | 2 => some (slice (Config.freeBytes s.free 512) 0 512)
  | 4 => some (slice (c.changed.flatMap (natLe 4)) 0 4096)
  | _ => none

/-- GET_LOG_PAGE (R363, R366, R378): part of a page goes to the host; without RAE its event is unmasked, and the changed list
is cleared. -/
def execGetLogPage (h : Nat) (s : State) : Out :=
  match s.adminCmd h 2 with
  | none => .next s
  | some m =>
    let lid := bits (m.dw 10) 7 0
    match s.logPage m.fn lid with
    | none => done (s.endCmd m ncBadField)
    | some page =>
      let s := if lid = 2 then s.drawn else s
      let len := 4 * (bits (m.dw 10) 31 16 + 65536 * bits (m.dw 11) 15 0 + 1)
      let off := m.dw 12 + 2 ^ 32 * m.dw 13
      if page.length < off ∨ off % 4 ≠ 0 then done (s.endCmd m ncBadField)
      else
        let r := s.adminData m (slice page off (min len (2 ^ 21)))
        if !r.2 then done (r.1.endCmd m ncPrpOffset)
        else
          let s := if bitOf (m.dw 10) 15 then r.1
            else r.1.onCtl m.fn fun c =>
              { c with masked := c.masked.filter (· != if lid = 1 then aeVendor else if lid = 4 then aeNotice else 1)
                       changed := if lid = 4 then [] else c.changed }
          done ((s.endCmd m ncOk).sendNotice m.fn)

/-- ASCII bytes of a text, padded with spaces. -/
def ascii (t : List Nat) (n : Nat) : List Byte := (t.map (BitVec.ofNat 8) ++ List.replicate n 0x20).take n

/-- The 16 hexadecimal digits of a 64-bit number. -/
def hexDigits (v : Nat) : List Nat := (List.range 16).map fun i => (let d := v / 16 ^ (15 - i) % 16; if d < 10 then 48 + d else 55 + d)

/-- "Firvoden EH9640" and "B1". -/
def modelName : List Nat := [70, 105, 114, 118, 111, 100, 101, 110, 32, 69, 72, 57, 54, 52, 48]
def firmwareName : List Nat := [66, 49]

/-- Bytes written over a page at an offset. -/
def patches (base : List Byte) (l : List (Nat × List Byte)) : List Byte := l.foldl (fun a p => overwrite a p.1 p.2) base

/-- Identify Controller (R364). -/
def State.identifyCtl (s : State) (f : Nat) : List Byte :=
  patches (List.replicate 4096 0)
    [(0, natLe 2 0x1E6F), (2, natLe 2 0x1E6F), (4, ascii (hexDigits s.sec.serial) 20), (24, ascii modelName 40), (64, ascii firmwareName 8),
     (77, [9]), (78, natLe 2 f), (80, natLe 4 0x00020000), (92, natLe 4 0x100), (111, [1]), (258, [3]), (259, [3]), (262, [63]),
     (512, [0x66]), (513, [0x44]), (516, natLe 4 256), (520, natLe 2 0x000D), (525, [7])]

/-- Identify Namespace (R364). -/
def State.identifyNs (s : State) (n : Nat) : List Byte :=
  let size := natLe 8 (s.nsSize n)
  let atomic := if bitOf (s.nsWord n 0) 50 then (if s.ns4k n then 15 else 127) else 0
  patches (List.replicate 4096 0)
    [(0, size), (8, size), (16, size), (24, [2]), (36, natLe 2 atomic), (120, natBe 8 (s.nsWord n 3)),
     (130, [if s.ns4k n then 12 else 9])]

/-- IDENTIFY (R363, R364): a namespace, the controller, the active NSIDs above one, or the descriptors of one. -/
def execIdentify (h : Nat) (s : State) : Out :=
  match s.adminCmd h 6 with
  | none => .next s
  | some m =>
    let a := s.attachment m.fn m.nsid
    let ans : List Byte ⊕ Nat := match bits (m.dw 10) 7 0 with
      | 0 => if m.nsid = 0 ∨ 256 < m.nsid then .inr ncBadNs else .inl (if attached a then s.identifyNs (attNs a) else List.replicate 4096 0)
      | 1 => .inl (s.identifyCtl m.fn)
      | 2 => if 2 ^ 32 - 2 ≤ m.nsid then .inr ncBadNs
          else .inl (slice (((s.activeNsids m.fn).filter fun k => decide (m.nsid < k)).flatMap (natLe 4)) 0 4096)
      | 3 => if !attached a then .inr ncBadNs else .inl (slice ([1, 8, 0, 0] ++ natBe 8 (s.nsWord (attNs a) 3)) 0 4096)
      | _ => .inr ncBadField
    match ans with
    | .inr e => done (s.endCmd m e)
    | .inl bs =>
      let r := s.adminData m bs
      done (r.1.endCmd m (if r.2 then ncOk else ncPrpOffset))

/-- ABORT (R380): in one atomic step, a fetched command that no thread has taken ends with Command Abort Requested; any other is
left alone. -/
def execAbort (h : Nat) (s : State) : Out :=
  match s.adminCmd h 8 with
  | none => .next s
  | some m =>
    let waiting (x : NvmCmd) : Bool := match x.stage with
      | .held | .ready _ => x.sq != 0
      | _ => false
    match s.nvm.cmds.find? fun x => x.fn == m.fn && x.sq == m.qid && x.cid == bits (m.dw 10) 31 16 && waiting x with
    | some x => done (((s.endCmd x ncAborted).nvmStat 8).endCmd m ncOk 0)
    | none => done ((s.nvmStat 9).endCmd m ncOk 1)

/-- The features of R363. -/
def featureKnown (fid : Nat) : Bool :=
  fid == 1 || fid == 6 || fid == 7 || fid == 8 || fid == 9 || fid == 0x0B || fid == 0xC0

/-- Number of Queues as reported (R365): QP_COUNT − 1 for both counts. -/
def State.queueCounts (s : State) (f : Nat) : Nat :=
  let n := (s.nvmPairs f + 65535) % 65536
  n + 65536 * n

/-- SET_FEATURES (R363): saving is not supported. -/
def execSetFeatures (h : Nat) (s : State) : Out :=
  match s.adminCmd h 9 with
  | none => .next s
  | some m =>
    let fid := bits (m.dw 10) 7 0
    let v := m.dw 11
    let c := s.nvmCtl m.fn
    if !featureKnown fid || bitOf (m.dw 10) 31 then done (s.endCmd m ncBadField)
    else if fid = 7 then
      if bits v 15 0 = 65535 ∨ bits v 31 16 = 65535 then done (s.endCmd m ncBadField)
      else if c.sqs.keys.any (· != 0) || c.cqs.keys.any (· != 0) then done (s.endCmd m ncSequence)
      else done (s.endCmd m ncOk (s.queueCounts m.fn))
    else if fid = 9 then
      if s.nvmVectors m.fn ≤ bits v 15 0 then done (s.endCmd m ncBadField)
      else done ((s.onCtl m.fn fun c => { c with ivc := c.ivc.set 0 (bits v 15 0) (bits v 16 16) }).endCmd m ncOk)
    else
      let keep := if fid = 6 ∨ fid = 0xC0 then v % 2 else if fid = 8 then v % 65536 else v
      done (((s.onCtl m.fn fun c => { c with features := c.features.set 0 fid keep }).endCmd m ncOk).sendNotice m.fn)

/-- GET_FEATURES (R363, R365): the current value, in DW0. -/
def execGetFeatures (h : Nat) (s : State) : Out :=
  match s.adminCmd h 0x0A with
  | none => .next s
  | some m =>
    let fid := bits (m.dw 10) 7 0
    let c := s.nvmCtl m.fn
    if !featureKnown fid then done (s.endCmd m ncBadField)
    else if fid = 7 then done (s.endCmd m ncOk (s.queueCounts m.fn))
    else if fid = 9 then
      let iv := bits (m.dw 11) 15 0
      if s.nvmVectors m.fn ≤ iv then done (s.endCmd m ncBadField) else done (s.endCmd m ncOk (iv + 65536 * c.ivc.get 0 iv))
    else done (s.endCmd m ncOk (c.features.get 0 fid))

/-- ASYNC_EVENT_REQUEST (R363, R378): it stays outstanding until an event completes it; AERL allows four. -/
def execAsyncEventRequest (h : Nat) (s : State) : Out :=
  match s.adminCmd h 0x0C with
  | none => .next s
  | some m =>
    if 4 ≤ (s.nvm.cmds.filter fun x => x.fn == m.fn && x.stage == .event).length then done (s.endCmd m ncAerLimit)
    else done ((s.onCmd h fun x => { x with stage := .event }).sendNotice m.fn)

/-! ## NVM channel (R370 to R372, R378) -/

/-- TAKE (R370): the next command of the ready queue of the thread's cluster. -/
def execTake (place : Nat) (s : State) : Out :=
  match s.message place 6 1 with
  | none => .next (s.stray place 6)
  | some m =>
    let s := s.takeMsg place
    let c := clusterOf m.thread
    match s.nvm.ready.get [] c with
    | [] => .next (s.respond m 16)
    | h :: rest =>
      if m.epoch ≠ s.epoch c then .next (s.respond m 16)
      else match s.nvmCmd h with
        | none => .next ((s.onNvm fun n => { n with ready := n.ready.set [] c rest }).respond m 16)
        | some x =>
          let s := (s.onNvm fun n => { n with ready := n.ready.set [] c rest }).onCmd h fun y => { y with stage := .taken m.thread }
          let w (v : Nat) : Word := BitVec.ofNat 64 v
          let pair (i : Nat) : Word := w (x.dw i + 2 ^ 32 * x.dw (i + 1))
          let w6 := place_ [(x.fn, 11, 0), (x.sq, 27, 12), (x.ns, 39, 28), ((s.nvmCtl x.fn).features.get 0 6, 40, 40),
            (b2n (x.ord && s.ordOn x.fn), 41, 41), (b2n (s.ns4k x.ns), 42, 42)]
          .next (s.respond m 0 h [w (x.dw 0 + 2 ^ 32 * x.nsid), pair 2, pair 10, pair 12, pair 14, w w6, w x.ts])
where
  /-- Fields placed in a word. -/
  place_ (l : List (Nat × Nat × Nat)) : Nat := (l.map fun e => Machine.place e.1 e.2.1 e.2.2).sum

/-- COMPLETE (R371, R372): the completion of a command, or VOID. -/
def execComplete (place : Nat) (s : State) : Out :=
  match s.message place 6 2 with
  | none => .next (s.stray place 6)
  | some m =>
    let s := s.takeMsg place
    match s.nvmCmd (getBits (m.word 1) 31 0) with
    | none => .next ((s.nvmStat 11).respond m 17)
    | some x =>
      let w := m.word 2
      done (((s.endCmd x (nvmStatus (getBits w 42 40) (getBits w 39 32) (getBits w 43 43 == 1)) (getBits w 31 0)).nvmStat 1).respond m 0)

/-- MARK (R370): a signed change of an attachment's DIRTY count. -/
def execMark (place : Nat) (s : State) : Out :=
  match s.message place 6 3 with
  | none => .next (s.stray place 6)
  | some m =>
    let s := s.takeMsg place
    let f := getBits (m.word 1) 11 0
    let k := getBits (m.word 1) 20 12
    let a := s.attachment f k
    if 2080 ≤ f ∨ !attached a then .next (s.respond m 19)
    else
      let v := (attDirty a : Int) + signed 32 (getBits (m.word 1) 63 32)
      if v < 0 then done (((s.setDirty f k 0).fire 27 28 0 initNvm).respond m 18)
      else .next ((s.setDirty f k (min v.toNat (2 ^ 32 - 1))).respond m 0)

/-- DEFER (R378): a deferred write error of an attachment. -/
def execDefer (place : Nat) (s : State) : Out :=
  match s.message place 6 4 with
  | none => .next (s.stray place 6)
  | some m =>
    let s := s.takeMsg place
    let f := getBits (m.word 1) 11 0
    let k := getBits (m.word 1) 20 12
    if 2080 ≤ f ∨ !attached (s.attachment f k) then .next (s.respond m 19)
    else done ((s.deferError f k (m.word 2).toNat (getBits (m.word 3) 31 0)).respond m 0)

/-- COPY (R371): bytes move between spaces, DDR and a command's data buffer. `reply` is how reads of the host end now; none
leaves them outstanding. -/
def execCopy (place : Nat) (reply : Option CplStatus) (s : State) : Out :=
  match s.message place 7 1 with
  | none => .next (s.stray place 7)
  | some m =>
    if s.copyCheck m ≠ none then done ((s.takeMsg place).copyMove m)
    else
      let c := (s.nvmCmd m.copyHandle).getD (default : NvmCmd)
      let host := m.srcKind == 8 || m.dstKind == 8
      let s := s.takeMsg place
      if !host then done (s.copyMove m)
      else if !s.dmaOk c.fn then done (s.copyFails m 1)
      else if !s.copyReads m then done (s.copyMove m)
      else match reply with
        | none => .next (s.issueRead c.fn (.copy m))
        | some r => match cplError r with
          | some e => done ((s.pcieError c.fn e).copyFails m 1)
          | none => done ((s.linkCount c.fn 1 1).copyMove m)

/-! ## Manager commands (R365, R366) -/

/-- An NVM_CMD or NVM_FN_RES write is refused (R383). -/
def State.refuseNvm (s : State) : State := (s.put NVM_CMD_STATUS.REFUSED 1).fire 27 29 0 initNvm

/-- A command of NVM_CMD ends with a result; any but OK is a refusal. -/
def State.nvmResult (s : State) (r : Nat) : State :=
  let s := s.put NVM_CMD_STATUS.RESULT r
  if r = 0 then s else s.refuseNvm

/-- Codes of NVM_CMD_STATUS.RESULT. -/
def nrOk : Nat := 0
def nrBadIndex : Nat := 1
def nrBusy : Nat := 2
def nrNotNvme : Nat := 3
def nrAttached : Nat := 4

/-- NS_WRITE: entry `n` takes the words of NVM_CMD_DATA, unless an attachment of it is busy or dirty. -/
def State.nsWrite (s : State) (n : Nat) : State :=
  let busy := s.attachments.any fun a =>
    let x := s.attachment a.1 a.2
    attached x && attNs x == n && (attDirty x != 0 || s.attBusy a.1 a.2)
  if busy then s.nvmResult nrBusy
  else
    let d (w : Nat) : Nat := (s.raw .NVM_CMD_DATA 0 w).toNat
    (s.onNvm fun x => { x with ns := (((x.ns.set 0 (4 * n) (d 0 % 2 ^ 52)).set 0 (4 * n + 1) (d 1 % 65536)).set 0 (4 * n + 2) (d 2)).set 0 (4 * n + 3) (d 3) }).nvmResult nrOk

/-- NS_READ: NVM_CMD_DATA takes the words of entry `n`. -/
def State.nsRead (s : State) (n : Nat) : State :=
  ((List.range 4).foldl (fun t w => t.setRaw .NVM_CMD_DATA 0 w (BitVec.ofNat 64 (s.nsWord n w))) s).nvmResult nrOk

/-- ATTACH: namespace `n` becomes NSID `k` of controller `f`. -/
def State.nsAttach (s : State) (f k n : Nat) : State :=
  if 2080 ≤ f ∨ k = 0 ∨ 256 < k then s.nvmResult nrBadIndex
  else if !s.isNvmeFn f then s.nvmResult nrNotNvme
  else if attached (s.attachment f k) then s.nvmResult nrAttached
  else if !bitOf (s.nsWord n 0) 49 then s.nvmResult nrBadIndex
  else ((s.setAttachment f k (n + 2 ^ 12)).nvmResult nrOk).nsChanged f k

/-- DETACH: the attachment ends, with its deferred error. -/
def State.nsDetach (s : State) (f k : Nat) : State :=
  if 2080 ≤ f ∨ k = 0 ∨ 256 < k then s.nvmResult nrBadIndex
  else if !s.isNvmeFn f then s.nvmResult nrNotNvme
  else if !attached (s.attachment f k) then s.nvmResult nrBadIndex
  else if attDirty (s.attachment f k) ≠ 0 ∨ s.attBusy f k then s.nvmResult nrBusy
  else ((s.setAttachment f k 0).nvmResult nrOk).nsChanged f k

/-- A write of NVM_CMD; an OP outside the table is refused. -/
def State.nvmCommand (s : State) (w : Word) : State :=
  match wfld w NVM_CMD.OP with
  | 1 => s.nsWrite (wfld w NVM_CMD.NS)
  | 2 => s.nsRead (wfld w NVM_CMD.NS)
  | 3 => s.nsAttach (wfld w NVM_CMD.FUNCTION) (wfld w NVM_CMD.NSID) (wfld w NVM_CMD.NS)
  | 4 => s.nsDetach (wfld w NVM_CMD.FUNCTION) (wfld w NVM_CMD.NSID)
  | _ => s.refuseNvm

/-! The rows of NVM_CMD act for a word of their own OP. -/

/-- NS_WRITE (R366). -/
def execNsWrite (_req : Requester) (w : Word) (s : State) : Out :=
  if s.mode = NIGHT ∨ wfld w NVM_CMD.OP ≠ 1 then .next s else done (s.nsWrite (wfld w NVM_CMD.NS))
/-- NS_READ (R366). -/
def execNsRead (_req : Requester) (w : Word) (s : State) : Out :=
  if s.mode = NIGHT ∨ wfld w NVM_CMD.OP ≠ 2 then .next s else done (s.nsRead (wfld w NVM_CMD.NS))
/-- ATTACH (R366). -/
def execAttach (_req : Requester) (w : Word) (s : State) : Out :=
  if s.mode = NIGHT ∨ wfld w NVM_CMD.OP ≠ 3 then .next s else done (s.nsAttach (wfld w NVM_CMD.FUNCTION) (wfld w NVM_CMD.NSID) (wfld w NVM_CMD.NS))
/-- DETACH (R366). -/
def execDetach (_req : Requester) (w : Word) (s : State) : Out :=
  if s.mode = NIGHT ∨ wfld w NVM_CMD.OP ≠ 4 then .next s else done (s.nsDetach (wfld w NVM_CMD.FUNCTION) (wfld w NVM_CMD.NSID))

/-- A write of VALID = 1 to NVM_FN_RES is refused (R365). -/
def State.nvmResRefused (s : State) (f : Nat) (w : Word) : Bool :=
  let qb := wfld w NVM_FN_RES.QP_BASE
  let qn := wfld w NVM_FN_RES.QP_COUNT
  let vb := wfld w NVM_FN_RES.VEC_BASE
  let vn := wfld w NVM_FN_RES.VEC_COUNT
  decide (1024 < qn) || decide ((if f < 32 then 2048 else 64) < vn) || decide (16384 < qb + qn) || decide (65536 < vb + vn) ||
    s.assigned.any fun h => h != f &&
      ((s.isSet NVM_FN_RES.VALID 0 h && overlaps qb qn (s.fld NVM_FN_RES.QP_BASE 0 h) (s.fld NVM_FN_RES.QP_COUNT 0 h)) ||
        overlaps vb vn (s.vecRange h).1 (s.vecRange h).2)

/-- A write of NVM_FN_RES. In a network function, or while the controller is enabled, every write is refused. -/
def State.writeFnRes (s : State) (f : Nat) (w : Word) : State :=
  if !s.isNvmeFn f || (s.nvmCtl f).enabled || (wfld w NVM_FN_RES.VALID == 1 && s.nvmResRefused f w) then s.refuseNvm
  else s.writeReg .NVM_FN_RES 0 f w

/-- FN_RES_WRITE (R365). -/
def execFnResWrite (_req : Requester) (f : Fin 2080) (w : Word) (s : State) : Out := if s.mode = NIGHT then .next s else done (s.writeFnRes f w)

end Sys2Proof.Machine
end

