-- ==== Sys2Proof/Machine/PortOps.lean ====
section
/-! DEFINITION. Ethernet ports: kinds and lanes (R117 to R119), link up and down (R120, R122), what the MAC does with a frame
received (R123 to R129, R140) and sent (R130, R131), and the SyncE selector (R136). -/
namespace Sys2Proof.Machine

/-- A port's state. -/
def State.port (s : State) (p : Nat) : PortState := s.ports.get {} p

/-- Updates a port. -/
def State.onPort (s : State) (p : Nat) (g : PortState → PortState) : State := { s with ports := s.ports.modify {} p g }

/-- Port `p`'s Gong source `k` (R137). -/
def State.portSource (s : State) (p k : Nat) (addr : Nat := 0) : State := s.fire (2 + p / 8) (4 * (p % 8) + k) addr

/-! ## Kinds and lanes -/

/-- A configuration is one of *Supported port kinds* for first lane `p` (R118). -/
def cfgSupported (p : Nat) (w : Word) : Bool :=
  let rate := wfld w ETH_PORT_CFG.RATE
  let fec := wfld w ETH_PORT_CFG.FEC
  p % cfgWidth w == 0 &&
    ((rate == 3 && fec == 3) || (wfld w ETH_PORT_CFG.WIDTH == 0 && ((rate == 2 && fec == 3) || (rate == 1 && fec == 3) || (rate == 0 && fec != 3))))

/-- Gb/s of a port. -/
def State.portRate (s : State) (p : Nat) : Nat :=
  s.portWidth p * (match s.fld ETH_PORT_CFG.RATE p with
    | 0 => 25
    | 1 => 50
    | 2 => 100
    | _ => 200)

/-- The physical lane of a logical lane, or the logical lane of a physical one (R116): bit 1 of LANE_MAP swaps octets pairwise, then
bit 0 reverses the order within each; the map is its own inverse. -/
def State.physicalLane (s : State) (l : Nat) : Nat :=
  let m := s.fld GLB_STRAPS.LANE_MAP
  let octet := if bitOf m 1 then (l / 8) ^^^ 1 else l / 8
  8 * octet + (if bitOf m 0 then 7 - l % 8 else l % 8)

/-- Lane `l` is covered by an enabled port whose first lane is another (R119). -/
def State.laneOwned (s : State) (l : Nat) : Bool :=
  (List.range l).any fun p => s.isSet ETH_PORT_CTL.EN p && decide (l < p + s.portWidth p)

/-- OWNED of every lane follows. -/
def State.setOwned (s : State) : State :=
  (List.range 32).foldl (fun t l => t.put ETH_PORT_STATUS.OWNED (b2n (s.laneOwned l)) l) s

/-- A port may run its lanes now (R121, R122): enabled, TX not off, not owned, in a mode that lets it, no lane retired. -/
def State.portRuns (s : State) (p : Nat) : Bool :=
  s.isSet ETH_PORT_CTL.EN p && !s.isSet ETH_PORT_CTL.TX_OFF p && !s.laneOwned p && s.mode != NIGHT && s.mode != MIDNIGHT &&
    ((s.mode != DAWN && s.mode != TWILIGHT) || decide (p < 4)) && !(List.range (s.portWidth p)).any fun i => (s.port (p + i)).retired

/-- The port that drives physical TX lane `pin`; none while the lane is in electrical idle (R116, R121, R122). -/
def State.txLane (s : State) (pin : Nat) : Option Nat :=
  let l := s.physicalLane pin
  (List.range 32).find? fun p => s.portRuns p && decide (p ≤ l) && decide (l < p + s.portWidth p)

/-! ## The SyncE selector (R135, R136) -/

/-- Modes in which the TX clock may follow a recovered clock. -/
def State.synceMode (s : State) : Bool := s.inService || s.mode == DUSK

/-- The recovered clock selected is in use: USE_RECOV, and locked. -/
def State.synceReady (s : State) : Bool :=
  s.isSet ETH_SYNCE_SEL.USE_RECOV && s.synceMode && s.isSet ETH_SYNCE.RECOV_EN (s.fld ETH_SYNCE_SEL.PORT) &&
    s.isSet ETH_SYNCE.RECOV_LOCK (s.fld ETH_SYNCE_SEL.PORT)

/-- The selected clock fails while it drives TX (R136). -/
def State.synceFail (s : State) : State :=
  if s.isSet ETH_SYNCE_SEL.ACTIVE then
    ((s.put ETH_SYNCE_SEL.ACTIVE 0).put ETH_SYNCE_SEL.HOLDOVER 1).put ETH_SYNCE.FAIL_SEEN 1 (s.fld ETH_SYNCE_SEL.PORT)
  else s

/-- The selector after a write or a lock: a source other than the recovered clock ends holdover; a locked recovered clock not
in holdover drives TX; one that drove TX and is no longer offered or locked, or is another port's now, has failed (R135, R136). -/
def State.synceFollow (s : State) : State :=
  if !s.isSet ETH_SYNCE_SEL.USE_RECOV || !s.synceMode then (s.put ETH_SYNCE_SEL.ACTIVE 0).put ETH_SYNCE_SEL.HOLDOVER 0
  else if !s.synceReady then s.synceFail
  else if !s.isSet ETH_SYNCE_SEL.HOLDOVER then s.put ETH_SYNCE_SEL.ACTIVE 1
  else s

/-- The recovered clock of port `p` is lost. -/
def State.clockLost (s : State) (p : Nat) : State :=
  let s := (s.put ETH_SYNCE.RECOV_LOCK 0 p).onPort p fun q => { q with recovSince := none }
  if s.fld ETH_SYNCE_SEL.PORT = p then s.synceFail else s

/-! ## Link up and down -/

/-- Every frame queued, held or in the calendar for port `p`, in order, and the state without them. -/
def State.flushPort (s : State) (p : Nat) : State × List Packet × List Packet :=
  let mine (x : Packet) : Bool := x.dest == .port p
  let queued := s.net.queues.vals.flatten.filter mine
  let later := s.net.txq.get [] p ++ (s.net.holds.get [] p).map (·.pkt) ++ s.net.calendar.get [] p
  let s := s.net.queues.keys.foldl (fun t k =>
    if (t.squeue k).any mine then t.setQueue k ((t.squeue k).filter fun x => !mine x) else t) s
  ({ s with net := { s.net with
      txq := s.net.txq.set [] p []
      holds := s.net.holds.set [] p []
      calendar := s.net.calendar.set [] p [] } }, queued, later)

/-- Port `p`'s link goes down (R122): DOWN_COUNT, the link-down source, the delay measurement and the frames for it are gone;
frames of host queues complete PORT_DOWN. -/
def State.linkDown (s : State) (p : Nat) (lane : Nat := 0) : State :=
  if !s.isSet ETH_PORT_STATUS.LINK p then s
  else
    let s := ((((s.put ETH_PORT_STATUS.LINK 0 p).put ETH_PORT_STATUS.AN_DONE 0 p).put ETH_PORT_STATUS.TRAIN_DONE 0 p).put
      ETH_PORT_STATUS.FEC_ALIGN 0 p).put ETH_PORT_STATUS.TS_READY 0 p
    let s := (s.sat ETH_PORT_STATUS.DOWN_COUNT 1 p).portSource p 0 lane
    let s := s.onPort p fun q => { q with xoff := {}, paused := {}, txStamp := none }
    let r := s.flushPort p
    let s := r.2.2.foldl (fun t x => t.dropSelected x stPortDown) (r.2.1.foldl (fun t x => t.dropFrame x stPortDown) r.1)
    let s := s.bump .ETH_STAT p 18 (r.2.1.length + r.2.2.length)
    if s.fld ETH_SYNCE_SEL.PORT = p then s.synceFail else s

/-- A write of ETH_PORT_CTL (R119, R120, R122); a retired lane refuses EN too (R470). -/
def State.portCtl (s : State) (p : Nat) (w : Word) : State :=
  let was := s.isSet ETH_PORT_CTL.EN p
  let en := wfld w ETH_PORT_CTL.EN = 1
  let covers := (List.range (s.portWidth p)).map (p + ·)
  let clash : Bool := (List.range 32).any fun q => q != p && s.isSet ETH_PORT_CTL.EN q &&
    covers.any fun l => decide (q ≤ l) && decide (l < q + s.portWidth q)
  if en ∧ !was ∧ !s.laneOwned p ∧ (clash ∨ !cfgSupported p (s.raw .ETH_PORT_CFG p) ∨ covers.any fun l => (s.port l).retired) then
    (if wfld w ETH_PORT_CTL.REFUSED = 1 then s.put ETH_PORT_CTL.REFUSED 0 p else s).put ETH_PORT_CTL.REFUSED 1 p
  else
    let s1 := s.writeReg .ETH_PORT_CTL p 0 w
    let s1 := if s.laneOwned p then s1.put ETH_PORT_CTL.EN (b2n was) p else s1
    let now := s1.isSet ETH_PORT_CTL.EN p
    let s1 := if now == was then s1 else s1.setOwned
    let restart := wfld w ETH_PORT_CTL.RESTART = 1
    if !now ∨ s1.isSet ETH_PORT_CTL.TX_OFF p ∨ restart then s1.linkDown p else s1

/-! ## Receive -/

/-- Offset of the EtherType behind VLAN tags, of which the first two are passed. -/
def etherAt (bs : List Byte) : Nat :=
  let tag (o : Nat) : Bool := beNat (slice bs o 2) == 0x8100 || beNat (slice bs o 2) == 0x88A8
  if tag 12 then (if tag 16 then 20 else 16) else 12

/-- PCP of the outer VLAN tag; 0 for an untagged frame (R125). -/
def pcpOf (bs : List Byte) : Nat := if etherAt bs = 12 then 0 else bits (beNat (slice bs 14 2)) 15 13

/-- The port's own PTP address over its transport (R127): 0 over Ethernet. -/
def State.ptpAddress (s : State) (p : Nat) : Nat :=
  match s.fld CAR_PTP_PORT.TRANSPORT 0 p with
  | 1 => s.fld ETH_PTP_IP4.IP4 p
  | 2 => s.fld ETH_PTP_IP6_HI.HI p * 2 ^ 64 + s.fld ETH_PTP_IP6_LO.LO p
  | _ => 0

/-- A destination address is the profile's multicast address (R127): IEEE 1588 has one for all domains, and one for the messages of
the Peer-to-Peer mechanism; G.8275.2 has none. PRESUMED (log entry 20). -/
def ptpMulticast (profile transport a : Nat) : Bool :=
  profile != 4 &&
  if transport = 1 then a == 0xE0000181 || (profile == 1 && a == 0xE000006B)
  else a / 2 ^ 116 == 0xFF0 && (a % 2 ^ 112 == 0x181 || (profile == 1 && a == 0xFF02 * 2 ^ 112 + 0x6B))

/-- A frame that R61 and R127 hand to Carillon on port `p`: EtherType 0x88F7, or a datagram of the port's transport for its PTP
address or its profile's multicast address. -/
def State.isPtp (s : State) (p : Nat) (bs : List Byte) : Bool :=
  let e := etherAt bs
  let type := beNat (slice bs e 2)
  let transport := s.fld CAR_PTP_PORT.TRANSPORT 0 p
  let mine (a : Nat) : Bool := a == s.ptpAddress p || ptpMulticast (s.fld CAR_PTP_PORT.PROFILE 0 p) transport a
  let vlanOk := !s.isSet ETH_PTP_IP4.VLAN_EN p || (e != 12 && bits (beNat (slice bs 14 2)) 11 0 == s.fld ETH_PTP_IP4.VLAN p)
  let port (o : Nat) : Bool := let d := beNat (slice bs (o + 2) 2); d == 319 || d == 320
  let ip4 : Bool := transport == 1 && type == 0x0800 && (bs.getD (e + 11) 0) == 17 &&
    port (e + 2 + 4 * ((bs.getD (e + 2) 0).toNat % 16)) && mine (beNat (slice bs (e + 18) 4))
  let ip6 : Bool := transport == 2 && type == 0x86DD && (bs.getD (e + 8) 0) == 17 && port (e + 42) && mine (beNat (slice bs (e + 26) 16))
  s.isSet CAR_PTP_PORT.ROLE 0 p && vlanOk && (type == 0x88F7 || ip4 || ip6)

/-- Duration of `quanta` of 512 bit times on port `p`. -/
def State.quantaTime (s : State) (p quanta : Nat) : Nat := quanta * 512 * perNs / s.portRate p

/-- A pause or PFC time received for key `k`; zero ends it (R126). -/
def State.pauseFor (s : State) (p k quanta : Nat) : State :=
  s.onPort p fun q => { q with paused := q.paused.set 0 k (if quanta = 0 then 0 else s.up + s.quantaTime p quanta) }

/-- A received 802.3x pause is consumed, counted and obeyed (R124, R126). -/
def State.takePause (s : State) (p quanta : Nat) : State :=
  let s := s.bump .ETH_STAT p 8
  if s.obeysPause ∧ s.isSet ETH_MAC_CFG.PAUSE_RX p ∧ s.fld ETH_MAC_CFG.PFC_EN p = 0 then s.pauseFor p 8 quanta else s

/-- A received PFC frame is consumed, counted and obeyed for the priorities enabled (R124, R126). -/
def State.takePfc (s : State) (p enable : Nat) (quanta : List Nat) : State :=
  let s := s.bump .ETH_STAT p 9
  if !s.obeysPause then s
  else (List.range 8).foldl (fun t k =>
    if bitOf enable k && bitOf (t.fld ETH_MAC_CFG.PFC_EN p) k then t.pauseFor p k (quanta.getD k 0) else t) s

/-- A frame is over its priority's or its port's headroom (R125). -/
def State.overHeadroom (s : State) (p prio : Nat) : Bool :=
  let limit := (s.fld ETH_PFC_CFG.XOFF_KIB p + s.fld ETH_PFC_CFG.HEADROOM_KIB p) * 1024
  (s.flowOn p prio && decide (limit < s.keyOccupancy p prio)) || (s.flowOn p 8 && decide (limit < s.keyOccupancy p 8))

/-- A frame that has passed the MAC's checks (R124, R129, R140): MAC control frames and those of R61 are taken first; in DUSK
the rest are dropped (R29); the others enter the pipeline of the octet. -/
def State.rxPassed (s : State) (p : Nat) (raw : List Byte) (t : Int) (degraded : Bool) : State :=
  let boot := s.mode == DAWN || s.mode == TWILIGHT
  let op := beNat (slice raw 14 2)
  if beNat (slice raw 12 2) = 0x8808 ∧ op = 1 then s.takePause p (beNat (slice raw 16 2))
  else if beNat (slice raw 12 2) = 0x8808 ∧ op = 0x0101 then
    s.takePfc p (beNat (slice raw 16 2)) ((List.range 8).map fun k => beNat (slice raw (18 + 2 * k) 2))
  else
    let sec := s.isSet ETH_MACSEC_CTL.EN p && !boot && !(s.isSet ETH_MACSEC_CTL.PTP_BYPASS p && s.isPtp p raw)
    let r := if sec then s.macsecRx p raw else (s, some raw)
    match r.2 with
    | none => r.1
    | some bs =>
      let s := r.1
      if s.isPtp p bs then (s.bump .ETH_STAT p 17).onPtp p fun q => { q with rx := q.rx ++ [{ bytes := bs, t, degraded }] }
      else if s.mode = DUSK then s.bump .ETH_STAT p 5
      else
        let prio := pcpOf bs
        if s.overHeadroom p prio then s.bump .ETH_STAT p 10
        else
          let s := (s.bump .ETH_STAT p 0).bump .ETH_STAT p 1 (bs.length + 4)
          let x : Packet := { bytes := bs, ts := ts64Of t.toNat, degraded, source := p, inPort := some (p, prio) }
          (s.feed (if boot then 0 else p / 8) 0 x).flowControl

/-- The MAC takes a frame with its FCS (R123): undersize, over MAX_FRAME, then a bad FCS or codeword; `corrected` codewords of it
had errors that the FEC corrected. Every frame is timestamped. -/
def State.rxFrame (s : State) (p : Nat) (frame : List Byte) (corrected : Nat) (badCode : Bool) (phase : Nat) : State :=
  let s := s.bump .ETH_STAT p 15 corrected
  let s := if badCode then (s.bump .ETH_STAT p 16).portSource p 1 else s
  let deg := s.portDegraded p
  let s := if deg then s.bump .ETH_STAT p 19 else s
  let n := frame.length
  let raw := frame.take (n - 4)
  if n < 64 then s.bump .ETH_STAT p 3
  else if s.maxFrame p < n then s.bump .ETH_STAT p 4
  else if badCode || frame.drop (n - 4) != fcs raw then s.bump .ETH_STAT p 2
  else s.rxPassed p raw (s.rxStamp p phase) deg

/-! ## Transmit -/

/-- Time that `n` bytes take on port `p`. -/
def State.bytesTime (s : State) (p n : Nat) : Nat := n * 8 * perNs / s.portRate p

/-- Time a frame of `len` bytes, FCS included, takes on port `p` with its preamble and gap. -/
def State.wireTime (s : State) (p len : Nat) : Nat := s.bytesTime p (len + 20)

/-- Port `p` is free to start a frame `phase` × 62.5 ps after the last AOCLK edge. -/
def State.portFree (s : State) (p phase : Nat) : Bool := decide ((s.port p).busy ≤ s.up + phase * perPhase)

/-- A lane of the port sends a test pattern instead of frames. -/
def State.sendsPattern (s : State) (p : Nat) : Bool :=
  (List.range (s.portWidth p)).any fun i => let v := s.fld ETH_LANE_CTL.PRBS (p + i); 1 ≤ v && v ≤ 3

/-- A frame as the MAC sends it: padded to its least length. -/
def padded (bs : List Byte) : List Byte := slice bs 0 (max 60 bs.length)

/-- MACsec protects what the port sends (R121, R129). -/
def State.macsecOn (s : State) (p : Nat) : Bool := s.isSet ETH_MACSEC_CTL.EN p && s.mode != DAWN && s.mode != TWILIGHT

/-- Bytes on their way out of port `p` (R128 to R131, R138): padded, protected by MACsec where it is on and PTP_BYPASS does not spare
them, with their FCS; none where MACsec has no association. They are counted and timestamped. `own` marks Carillon's messages. -/
def State.macSend (s : State) (p : Nat) (bytes : List Byte) (own : Bool) (phase : Nat) : State × Option (List Byte) :=
  let bs := padded bytes
  let bypass := s.isSet ETH_MACSEC_CTL.PTP_BYPASS p && (own || s.isPtp p bs)
  let r := if s.macsecOn p && !bypass then s.macsecTx p bs else (s, some bs)
  match r.2 with
  | none => (r.1, none)
  | some bs =>
    let s := r.1
    let deg := s.portDegraded p
    let wire := bs ++ fcs bs
    let s := ((s.bump .ETH_STAT p 11).bump .ETH_STAT p 12 wire.length).onPort p fun q =>
      { q with txStamp := some (ts64Of (s.txStamp p phase).toNat, deg) }
    (if deg then s.bump .ETH_STAT p 19 else s, some wire)

/-- What leaves the MAC goes on the wire, and the port is busy with it; near-end loopback returns it to the MAC. -/
def State.toWire (s : State) (p : Nat) (wire : List Byte) (phase : Nat) : State :=
  let s := s.onPort p fun q => { q with busy := s.up + phase * perPhase + s.wireTime p wire.length }
  if s.fld ETH_PORT_CTL.LOOP p = 1 then s.rxFrame p wire 0 false phase
  else { s with net := { s.net with wire := s.net.wire.modify [] p fun l => wire :: l } }

/-- A frame goes out on port `p` (R130, R131): its transmit timestamp goes to its completion, to histograms of source 1 and to the
port. -/
def State.txFrame (s : State) (p : Nat) (x : Packet) (phase : Nat) : State :=
  let t := ts64Of (s.txStamp p phase).toNat
  let deg := s.portDegraded p
  let r := s.macSend p x.bytes false phase
  match r.2 with
  | none => r.1.dropSelected x stDropped
  | some wire => ((r.1.endFrame x stOk t deg 0).sample 1 p (x.ts : Int) (t : Int) (deg || x.degraded)).toWire p wire phase

end Sys2Proof.Machine
end

