-- ==== Sys2Proof/Machine/XptOps.lean ====
section
/-! DEFINITION. The Sarup transport unit (R334 to R362): contexts and windows, packets, the streams sent and received, work
requests. PSNs count modulo 2^32. -/
namespace Sys2Proof.Machine

/-! ## Contexts and windows -/

/-- IDLE, READY, ERROR, QUARANTINE (R334). -/
def cIdle : Nat := 0
def cReady : Nat := 1
def cError : Nat := 2
def cQuarantine : Nat := 3

/-- Reset value of a context's word (table *Connection context*). -/
def ctxReset (w : Nat) : Nat :=
  match w with
  | 1 => place 12 27 24
  | 3 => 64 + place 7 19 16 + place 7 23 20 + place 100 39 24
  | _ => 0

/-- Word `w` of a connection's context. -/
def State.ctxWord (s : State) (c w : Nat) : Nat := s.xpt.ctx.get (ctxReset w) (8 * c + w)

/-- Updates the transport unit. -/
def State.onXpt (s : State) (g : XptState → XptState) : State := { s with xpt := g s.xpt }

/-- Writes a context word, which lies in DDR too (R334). -/
def State.setCtx (s : State) (c w v : Nat) : State :=
  (s.onXpt fun x => { x with ctx := x.ctx.set (ctxReset w) (8 * c + w) (v % 2 ^ 64) }).ddrWrite
    (page4k (s.fld XPT_CONN_BASE.ADDR) + 64 * c + 8 * w) (natLe 8 v)

def State.connState (s : State) (c : Nat) : Nat := bits (s.ctxWord c 0) 1 0
def State.connFn (s : State) (c : Nat) : Nat := bits (s.ctxWord c 0) 13 2
def State.connQueue (s : State) (c : Nat) : Nat := bits (s.ctxWord c 0) 28 14
def State.connSeg (s : State) (c : Nat) : Nat := 2 ^ within (bits (s.ctxWord c 1) 27 24) 8 13
def State.connDomain (s : State) (c : Nat) : Nat := bits (s.ctxWord c 1) 43 28

/-- An address of a context: its 4 or 16 bytes in network order; `w` is 4 for LOCAL_IP, 6 for PEER_IP. -/
def State.connIp (s : State) (c w : Nat) : List Byte :=
  if bitOf (s.ctxWord c 0) 29 then natBe 8 (s.ctxWord c w) ++ natBe 8 (s.ctxWord c (w + 1)) else natBe 4 (s.ctxWord c w)

/-- A connection's streams. -/
def State.conn (s : State) (c : Nat) : SarupConn := s.xpt.conns.get {} c
def State.onConn (s : State) (c : Nat) (g : SarupConn → SarupConn) : State := s.onXpt fun x => { x with conns := x.conns.modify {} c g }

/-- A context is used: one outside the cache is a miss; the cache keeps the 16,384 used last (R334, R362; log entry 40). -/
def State.touchCtx (s : State) (c : Nat) : State :=
  let s := if s.xpt.cache.contains c then s else s.bump .XPT_STAT 0 14
  s.onXpt fun x => { x with cache := (c :: x.cache.filter (· != c)).take 16384 }

/-- A connection lies in a function's range (R334). -/
def State.ownsConn (s : State) (f c : Nat) : Bool :=
  decide (s.fld XPT_FN_CONN.CONN_BASE 0 f ≤ c) && decide (c < s.fld XPT_FN_CONN.CONN_BASE 0 f + s.fld XPT_FN_CONN.CONN_COUNT 0 f)

/-- A window lies in a function's range (R353). -/
def State.ownsWin (s : State) (f w : Nat) : Bool :=
  decide (s.fld XPT_FN_WIN.WIN_BASE 0 f ≤ w) && decide (w < s.fld XPT_FN_WIN.WIN_BASE 0 f + s.fld XPT_FN_WIN.WIN_COUNT 0 f)

/-- Word `k` of a window's descriptor, in DDR (R353). -/
def State.winAddr (s : State) (w k : Nat) : Nat := page4k (s.fld XPT_WIN_BASE.ADDR) + 32 * w + 8 * k
def State.winWord (s : State) (w k : Nat) : Nat := leNat (s.ddrRead (s.winAddr w k) 8)
def State.setWin (s : State) (w k v : Nat) : State := s.ddrWrite (s.winAddr w k) (natLe 8 v)

def State.winEn (s : State) (w : Nat) : Bool := bitOf (s.winWord w 1) 60
def State.winGen (s : State) (w : Nat) : Nat := bits (s.winWord w 1) 59 48
def State.winDdr (s : State) (w : Nat) : Bool := bitOf (s.winWord w 1) 61

/-- A window is disabled. -/
def State.winOff (s : State) (w : Nat) : State := s.setWin w 1 (setBits (s.winWord w 1) 60 60 0)

/-- Memory of a window or a local buffer: a function's DMA space, or DDR (none). -/
def State.xRead (s : State) (fn : Option Nat) (a n : Nat) : List Byte :=
  match fn with
  | some f => s.hostRead f a n
  | none => s.ddrRead (a % 2 ^ 40) n
def State.xWrite (s : State) (fn : Option Nat) (a : Nat) (bs : List Byte) : State :=
  match fn with
  | some f => if bs = [] then s else s.hostWrite f a bs
  | none => s.ddrWrite (a % 2 ^ 40) bs
def State.xReach (s : State) (fn : Option Nat) : Bool := fn.all s.dmaOk

/-- The check of R356 for `n` bytes at offset `off` under a key, the right being bit `right` of word 2: the memory and the
address. -/
def State.winCheck (s : State) (c key off n right : Nat) : Option (Option Nat × Nat) :=
  let w := bits key 31 12
  let a := (s.winWord w 0 + off) % 2 ^ 64
  if s.winEn w && s.winGen w == bits key 11 0 && bits (s.winWord w 1) 47 32 == s.connDomain c && bitOf (s.winWord w 2) right &&
      decide (off + n ≤ bits (s.winWord w 1) 31 0) && (right != 14 || a % 8 == 0) then
    some (if s.winDdr w then none else some (bits (s.winWord w 2) 11 0), a)
  else none

/-- The transport moves packets: EN, and a mode in which it runs (R359). -/
def State.xptRuns (s : State) : Bool := s.isSet XPT_CFG.EN && (s.inService || s.mode == DUSK)

/-- `a − b` of PSNs. -/
def psnDiff (a b : Nat) : Nat := (a + 2 ^ 32 - b % 2 ^ 32) % 2 ^ 32

/-! ## Packets (R336 to R339) -/

/-- OPCODE codes (R339). -/
def oWrite : Nat := 0
def oWriteImm : Nat := 1
def oSend : Nat := 2
def oReadReq : Nat := 3
def oReadResp : Nat := 4
def oFetchAdd : Nat := 5
def oCas : Nat := 6
def oAtomicResp : Nat := 7
def oFlush : Nat := 8
def oFlushResp : Nat := 9
def oAck : Nat := 16
def oNak : Nat := 17

/-- A Sarup header and payload as bytes (R338). -/
def sarupBytes (peer flags psn : Nat) (b : SarupBody) : List Byte :=
  [0x10, BitVec.ofNat 8 b.op] ++ natBe 2 flags ++ [0] ++ natBe 3 peer ++ natBe 4 psn ++ natBe 4 b.msgId ++ natBe 4 b.off ++ natBe 4 b.key ++
    (b.imm.elim [] (natBe 4)) ++ (b.ts.elim [] (natBe 8)) ++ b.payload

/-- The frame of R336. The IP header's identification, DF, TTL or hop limit, ECN and flow label are free (log entry 2). -/
def State.sarupFrame (s : State) (c path : Nat) (data : List Byte) : List Byte :=
  let w := s.ctxWord c 0
  let r := (Config.freeWord s.free).toNat
  let n := 8 + data.length
  let udp := natBe 2 (0xC000 + (bits w 56 43 + path) % 16384) ++ natBe 2 (s.fld XPT_CFG.UDP_PORT) ++ natBe 2 n ++ [0, 0] ++ data
  let tos := bits w 35 30 * 4 + bits r 1 0
  let mac := List.replicate 12 (0 : Byte)
  if bitOf w 29 then
    mac ++ natBe 2 0x86DD ++ natBe 4 (6 * 2 ^ 28 + tos * 2 ^ 20 + bits r 21 2) ++ natBe 2 n ++ [17, BitVec.ofNat 8 (bits r 29 22)] ++
      s.connIp c 4 ++ s.connIp c 6 ++ udp
  else
    ipv4Checksum (mac ++ natBe 2 0x0800 ++ [0x45, BitVec.ofNat 8 tos] ++ natBe 2 (20 + n) ++ natBe 2 (bits r 17 2) ++
      natBe 2 (place (bits r 18 18) 14 14) ++ [BitVec.ofNat 8 (bits r 26 19), 17, 0, 0] ++ s.connIp c 4 ++ s.connIp c 6 ++ udp) 14

/-- A packet enters the outbound pipeline of its function's link (R336). -/
def State.sarupFeed (s : State) (c path : Nat) (data : List Byte) (x : Packet) : State :=
  if !s.xptRuns then s
  else
    let f := s.connFn c
    let l := (s.linkOf f).getD 0
    let p : Packet := { x with bytes := s.sarupFrame c path data, ts := s.ts64, degraded := s.sagCommon, source := f
                               queue := s.connQueue c - s.fld FNC_RES_QP.QP_BASE f }
    ((s.drawn.feed (4 + l / 4) (2 + l) p).bump .XPT_STAT 0 0).devEvent 0x307

/-- Paths of a connection. -/
def State.connPaths (s : State) (c : Nat) : Nat := max 1 (min 64 (bits (s.ctxWord c 0) 42 36))

/-- A packet of the stream is sent, for the first time or again (R343, R345). -/
def State.sendPkt (s : State) (c : Nat) (x : SarupPkt) : State :=
  let b := x.body
  let flags := b2n x.first + 2 * b2n x.last + 4 * b2n b.imm.isSome + 8 * b2n b.ts.isSome + 16 * b2n (b.hold != 0) + 32 * b2n x.last +
    64 * b2n (0 < x.sends)
  let s := if x.sends = 0 ∨ !s.xptRuns then s else s.bump .XPT_STAT 0 2
  let s := s.sarupFeed c ((x.psn + x.sends) % s.connPaths c) (sarupBytes (bits (s.ctxWord c 1) 23 0) flags x.psn b)
    { hold := b.hold, launch := x.launch, tx := x.tx, sarup := some { conn := c, psn := x.psn, last := x.last } }
  s.onConn c fun k => { k with out := k.out.map fun y => if y.psn = x.psn then
    { y with sends := y.sends + 1, sentAt := s.now, sentUp := s.up, degraded := s.sagCommon, rnrAt := none } else y }

/-- The next packet of the stream is cut and sent, if the window lets it (R343). -/
def State.cutOne (s : State) (c : Nat) : Option State :=
  let k := s.conn c
  match k.msgs with
  | [] => none
  | m :: rest =>
    if 1024 ≤ psnDiff k.sendNext k.sendBase then none
    else
      let n := min (s.connSeg c) (m.len - m.cut)
      let last := m.fixed || decide (m.len ≤ m.cut + n)
      let body := { m.body with off := (m.body.off + m.cut) % 2 ^ 32, imm := if last then m.body.imm else none
                                payload := if m.fixed then m.body.payload else if m.body.op = oReadResp then slice m.body.payload m.cut n
                                  else s.xRead m.fn (m.addr + m.cut) n }
      let x : SarupPkt := { psn := k.sendNext, first := !m.begun, last, body, launch := if m.begun then 0 else m.launch, tx := m.tx }
      let s := if m.fixed || n == 0 then s else match m.fn with
        | some f => s.linkCount f 1 1
        | none => s
      let s := s.onConn c fun k => { k with msgs := if last then rest else { m with cut := m.cut + n, begun := true } :: rest
                                            out := k.out ++ [x], sendNext := (k.sendNext + 1) % 2 ^ 32 }
      some (s.sendPkt c x)

/-- Packets are cut and sent while the window lets them, at most `n`. -/
def State.pumpGo (s : State) (c : Nat) : Nat → State
  | 0 => s
  | n + 1 => match s.cutOne c with
    | some t => State.pumpGo t c n
    | none => s
def State.pump (s : State) (c : Nat) : State := s.pumpGo c 1024

/-- Packets that a message still takes. -/
def State.msgPackets (s : State) (c : Nat) (m : SarupMsg) : Nat :=
  if m.fixed then 1 else max 1 (ceilDiv (m.len - m.cut) (s.connSeg c))

/-- A message joins the stream with the next MSG_ID, or with a given one (a response carries its request's). -/
def State.postMsg (s : State) (c : Nat) (m : SarupMsg) : State := (s.onConn c fun k => { k with msgs := k.msgs ++ [m] }).pump c

/-- A response: a message of its own on the same connection (R339, R350). -/
def State.postResponse (s : State) (c : Nat) (m : SarupMsg) : State :=
  (s.onConn c fun k => { k with msgNext := (k.msgNext + 1) % 2 ^ 32 }).postMsg c m

/-- An ACK or NAK is sent; its MSG_ID is free (log entry 2). -/
def State.sendControlPkt (s : State) (c op psn : Nat) (payload : List Byte) : State :=
  s.sarupFeed c (psn % s.connPaths c)
    (sarupBytes (bits (s.ctxWord c 1) 23 0) 0 psn { op, msgId := bits (Config.freeWord s.free).toNat 63 32, payload }) {}

/-- The SACK bitmap (R339). -/
def SarupConn.sack (k : SarupConn) : List Byte :=
  (List.range 128).map fun j => BitVec.ofNat 8 (((List.range 8).map fun b => if k.got.contains ((k.recvBase + 8 * j + b) % 2 ^ 32) then 2 ^ b else 0).sum)

/-- An ACK is sent (R344). -/
def State.sendAck (s : State) (c : Nat) : State :=
  (s.sendControlPkt c oAck (s.conn c).recvBase (s.conn c).sack).onConn c fun k => { k with ackCount := 0 }

/-- A NAK is sent (R352, R349): CODE 1 ACCESS, 2 OPCODE, 3 RNR. -/
def State.sendNak (s : State) (c psn code : Nat) : State :=
  let s := s.sendControlPkt c oNak psn (natBe 4 code)
  if code = 1 then (s.bump .XPT_STAT 0 5).fire 27 19 0 initXpt
  else if code = 3 then s.bump .XPT_STAT 0 6 else s

/-! ## Requests (R341, R352) -/

/-- Sarup completion status codes. -/
def xRemoteAccess : Nat := 32
def xRetryExceeded : Nat := 34
def xRnrExceeded : Nat := 35
def xConnError : Nat := 36
def xWindowBusy : Nat := 37
def xStaleKey : Nat := 38
def xNoWindow : Nat := 39

/-- Requests of a queue that `p` picks and that are still outstanding end now with a status, and perhaps a VALUE. -/
def State.endRequests (s : State) (g : Nat) (p : TxChain → SarupReq → Bool) (status : Nat) (value : Nat := 0) : State :=
  let t := s.stampNow
  s.onPair g fun q => { q with chains := q.chains.map fun c =>
    match c.sarup with
    | some r => if c.left ≠ 0 ∧ p c r then { c with left := 0, status, ts := t.1, degraded := t.2, sarup := some { r with value } } else c
    | none => c }

/-- The request is one of a connection. -/
def SarupReq.on (r : SarupReq) (c : Nat) : Bool := decide (r.op < 7) && r.conn == c

/-- A connection's SEND in the filling of its queue is given up. -/
def State.stopFilling (s : State) (c : Nat) : State :=
  let g := s.connQueue c
  if (s.xpt.filling.get (0, 0) g).1 = c + 1 then s.onXpt fun x => { x with filling := x.filling.set (0, 0) g (0, 0) } else s

/-- A connection enters ERROR (R352): nothing more is sent, every other request ends with CONN_ERROR, ERR_CODE holds the cause. -/
def State.connFails (s : State) (c code : Nat) : State :=
  if s.connState c ≠ cReady then s
  else
    let s := s.endRequests (s.connQueue c) (fun _ r => r.on c) xConnError
    let s := (s.setCtx c 0 (setBits (s.ctxWord c 0) 1 0 cError)).setCtx c 3 (setBits (s.ctxWord c 3) 47 40 code)
    let s := (s.onConn c fun k => { k with msgs := [], out := [] }).stopFilling c
    (s.bump .XPT_STAT 0 8).fire 27 17 0 initXpt

/-- The request that a PSN of the stream belongs to ends with a status, and the connection fails with it. -/
def State.failPsn (s : State) (c psn code : Nat) : State :=
  (s.endRequests (s.connQueue c) (fun _ r => r.on c && decide (psnDiff psn r.psn < r.count)) code).connFails c code

/-- READY or ERROR goes to QUARANTINE (R334): unsent packets are discarded, outstanding requests end with CONN_ERROR. -/
def State.connReset (s : State) (c : Nat) : State :=
  if s.connState c = cReady ∨ s.connState c = cError then
    let s := (s.endRequests (s.connQueue c) (fun _ r => r.on c) xConnError).stopFilling c
    (s.setCtx c 0 (setBits (s.ctxWord c 0) 1 0 cQuarantine)).onConn c fun _ => { since := s.up }
  else s

/-- The reset of a function (R358): its connections go to QUARANTINE, its windows are disabled. -/
def State.xptFnReset (s : State) (f : Nat) : State :=
  let s := (((s.xpt.ctx.keys.map (· / 8)).dedup).filter (s.ownsConn f)).foldl State.connReset s
  ((List.range (s.fld XPT_FN_WIN.WIN_COUNT 0 f)).map (s.fld XPT_FN_WIN.WIN_BASE 0 f + ·)).foldl (fun t w => if t.winEn w then t.winOff w else t) s

/-! ## Reception (R337, R344 to R349) -/

/-- A packet as the unit parses it. -/
structure SarupIn where
  conn : Nat
  psn : Nat
  last : Bool
  ackReq : Bool
  body : SarupBody
deriving DecidableEq, Repr

/-- Source and destination address, destination port and data of a UDP packet in a frame with up to two VLAN tags (R337). -/
def udpOf (bs : List Byte) : Option (List Byte × List Byte × Nat × List Byte) :=
  let vlan (o : Nat) : Bool := beNat (slice bs o 2) == 0x8100 || beNat (slice bs o 2) == 0x88A8
  let o := if vlan 12 then (if vlan 16 then 20 else 16) else 12
  let ip := o + 2
  let udp (u : Nat) (src dst : List Byte) : Option (List Byte × List Byte × Nat × List Byte) :=
    let n := beNat (slice bs (u + 4) 2)
    if bs.length < u + 8 ∨ n < 8 then none else some (src, dst, beNat (slice bs (u + 2) 2), (bs.drop (u + 8)).take (n - 8))
  match beNat (slice bs o 2) with
  | 0x0800 =>
    if (bs.getD (ip + 9) 0).toNat = 17 then udp (ip + 4 * ((bs.getD ip 0).toNat % 16)) (slice bs (ip + 12) 4) (slice bs (ip + 16) 4) else none
  | 0x86DD => if (bs.getD (ip + 6) 0).toNat = 17 then udp (ip + 40) (slice bs (ip + 8) 16) (slice bs (ip + 24) 16) else none
  | _ => none

/-- The Sarup header of the data of a UDP packet (R338). -/
def sarupHeader (d : List Byte) : Option SarupIn :=
  let op := (d.getD 1 0).toNat
  let flags := beNat (slice d 2 2)
  let imm := bitOf flags 2
  let at_ := 24 + if imm then 4 else 0
  let stop := at_ + if bitOf flags 3 then 8 else 0
  if d.length < stop ∨ (d.getD 0 0).toNat / 16 ≠ 1 ∨ !(op ≤ 9 || op == oAck || op == oNak) then none
  else some
    { conn := beNat (slice d 5 3), psn := beNat (slice d 8 4), last := bitOf flags 1, ackReq := bitOf flags 5
      body := { op, msgId := beNat (slice d 12 4), off := beNat (slice d 16 4), key := beNat (slice d 20 4)
                imm := if imm then some (beNat (slice d 24 4)) else none
                ts := if bitOf flags 3 then some (beNat (slice d at_ 8)) else none, payload := d.drop stop } }

/-- What becomes of a packet at the unit (R337). -/
inductive SarupFate where
  | exception | badConn | packet (h : SarupIn)
deriving DecidableEq, Repr

/-- R337, for a packet that came through global queue `g`. -/
def State.sarupFate (s : State) (g : Nat) (bs : List Byte) : SarupFate :=
  match udpOf bs with
  | none => .exception
  | some (src, dst, port, d) =>
    match sarupHeader d with
    | none => .exception
    | some h =>
      if port ≠ s.fld XPT_CFG.UDP_PORT ∨ 262144 ≤ h.conn ∨ s.connState h.conn ≠ cReady ∨ !s.xptRuns then .exception
      else if s.connQueue h.conn ≠ g ∨ src ≠ s.connIp h.conn 6 ∨ dst ≠ s.connIp h.conn 4 then .badConn
      else .packet h

/-- A packet leaves the unit's input. -/
def State.xptTake (s : State) (k : Nat) : State := s.onXpt fun x => { x with input := x.input.eraseIdx k }

/-- An exception goes to the engine pool, or is dropped (R337). -/
def State.xptException (s : State) (p : Packet) : State :=
  if s.isSet XPT_CFG.EXC_EN then
    let d : Dest := .pool (s.fld XPT_CFG.EXC_POOL)
    ((s.bump .XPT_STAT 0 9).enqueue { p with dest := d, tx := none, sarup := none, seq := none, inPort := none, rewrites := [], dscp := none } (s.destGroup d) 0).1
  else (s.bump .XPT_STAT 0 10).fire 27 21 0 initXpt

/-- B advances past every PSN received (R346). -/
def advance : Nat → Nat → List Nat → Nat × List Nat
  | 0, b, got => (b, got)
  | n + 1, b, got => if got.contains b then advance n ((b + 1) % 2 ^ 32) (got.filter (· != b)) else (b, got)

/-- A packet's bit is set (R346), and an ACK is sent where one is due (R344). -/
def State.markPsn (s : State) (c : Nat) (h : SarupIn) : State :=
  let s := s.onConn c fun k =>
    let r := advance (k.got.length + 1) k.recvBase (k.got ++ [h.psn])
    { k with recvBase := r.1, got := r.2, ackCount := k.ackCount + 1, ackSince := if k.ackCount = 0 then s.up else k.ackSince }
  if h.ackReq ∨ max 1 (s.fld XPT_CFG.ACK_N) ≤ (s.conn c).ackCount then s.sendAck c else s

/-- A packet is accepted. -/
def State.acceptPsn (s : State) (c : Nat) (h : SarupIn) : State := ((s.bump .XPT_STAT 0 1).devEvent 0x308).markPsn c h

/-- The note of a WRITE_IMM or SEND takes a packet of its message (R348). -/
def State.notePacket (s : State) (c : Nat) (h : SarupIn) (p : Packet) (kind start : Nat) (refused : Bool) : State :=
  s.onConn c fun k =>
    let old : SarupNote := (k.notes.find? fun n => n.msgId == h.body.msgId).getD { msgId := h.body.msgId, kind }
    let new : SarupNote := { old with
      last := if h.last then some h.psn else old.last
      imm := h.body.imm.getD old.imm
      ts := p.ts, degraded := p.degraded
      hdrTs := if h.body.ts.isSome then h.body.ts else old.hdrTs
      len := old.len + h.body.payload.length, start, ssn := h.body.key, refused := old.refused || refused }
    { k with notes := k.notes.filter (fun n => n.msgId != h.body.msgId) ++ [new] }

/-- A packet is refused (R352): NAK with its CODE, its bit set, nothing placed; its message is never notified. -/
def State.refusePkt (s : State) (c : Nat) (h : SarupIn) (p : Packet) (code : Nat) : State :=
  let s := if h.body.op = oWriteImm ∨ h.body.op = oSend then s.notePacket c h p h.body.op 0 true else s
  (s.sendNak c h.psn code).markPsn c h

/-- What a row makes of a packet that R337 lets through: the state, and whether the packet stays at the unit. -/
abbrev Take := State × Bool

/-- The packet at a place of the unit's input, if it is of the row's opcode, is taken by `go`; one that R337 does not let
through goes its way. -/
def State.sarupTake (s : State) (k op : Nat) (go : State → SarupIn → Packet → Take) : State :=
  match s.xpt.input[k]? with
  | none => s
  | some (g, p) =>
    match s.sarupFate g p.bytes with
    | .exception => (s.xptTake k).xptException p
    | .badConn => ((s.xptTake k).bump .XPT_STAT 0 11).fire 27 20 0 initXpt
    | .packet h =>
      if h.body.op ≠ op then s
      else
        let r := go (s.touchCtx h.conn) h p
        if r.2 then r.1 else r.1.xptTake k

/-- A packet that takes a PSN (R346, R347): inside the window and new it is given to `go`; a duplicate is acknowledged alone, one
beyond the window dropped. One that needs a placement or a completion write is dropped while Bus Master Enable is 0 (R358). -/
def State.sequenced (s : State) (h : SarupIn) (writes : Bool) (go : State → Take) : Take :=
  let k := s.conn h.conn
  let d := psnDiff h.psn k.recvBase
  if d < 1024 ∧ !k.got.contains h.psn then
    if writes ∧ !(s.pcie (s.connFn h.conn)).busMaster then (s, false) else go s
  else if 1024 ≤ d ∧ d < 2 ^ 31 then ((s.bump .XPT_STAT 0 4).fire 27 22 0 initXpt, false)
  else ((s.bump .XPT_STAT 0 3).sendAck h.conn, false)

/-- Data of a WRITE or WRITE_IMM packet is placed under its key (R346, R356), or the packet refused; one whose memory cannot be
reached is dropped. -/
def State.placeWrite (s : State) (h : SarupIn) (p : Packet) : State :=
  let b := h.body
  match s.winCheck h.conn b.key b.off b.payload.length 12 with
  | none => s.refusePkt h.conn h p 1
  | some (fn, a) =>
    if !s.xReach fn then s
    else
      let s := s.xWrite fn a b.payload
      let s := if b.op = oWriteImm then s.notePacket h.conn h p 1 0 false else s
      s.acceptPsn h.conn h

/-- Data written into buffers from byte `off` of their sum on. -/
def State.scatter (s : State) (f g : Nat) : List (Nat × Nat × Nat) → Nat → List Byte → State
  | [], _, _ => s
  | b :: rest, off, bs =>
    let n := b.2.1 - off
    let s := if bs.take n = [] then s else s.queueWrite f g (b.1 + off) (bs.take n)
    State.scatter s f g rest (off - b.2.1) (bs.drop n)

/-- A SEND packet whose message has its buffers is placed. -/
def State.placeSend (s : State) (h : SarupIn) (p : Packet) (x : SarupSend) : State :=
  ((s.scatter (s.connFn h.conn) (s.connQueue h.conn) x.bufs h.body.off h.body.payload).notePacket h.conn h p 2 x.start false).acceptPsn h.conn h

/-- A SEND packet (R349). Buffers are taken in SSN order: a message's turn begins when the one before has its LAST, and its own LAST
fixes how many it takes. Every packet of a SEND longer than 16 buffers can hold is refused, and the next SEND has its turn. -/
def State.takeSend (s : State) (h : SarupIn) (p : Packet) : Take :=
  let c := h.conn
  let g := s.connQueue c
  let f := s.connFn c
  let k := s.conn c
  let ssn := h.body.key
  match k.sends.find? fun x => x.ssn == ssn with
  | some x => (if x.bufs = [] then s.refusePkt c h p 2 else s.placeSend h p x, false)
  | none =>
    let fill := s.xpt.filling.get (0, 0) g
    if ssn ≠ k.ssnRecv ∨ (fill ≠ (0, 0) ∧ fill ≠ (c + 1, ssn + 1)) then (s, true)
    else if !s.queueReach f g then (s, false)
    else
      let q := s.pair g
      let need := h.body.off + h.body.payload.length
      let l := s.gather f g (min 16 (q.used 1)) (q.C 1) need
      match l.findIdx? (·.isNone) with
      | some j => (s.haltQueue g stBadDesc (idx (q.C 1 + j)) true, false)
      | none =>
        if l ≠ [] ∧ need ≤ Sys2Proof.Machine.bufferBytes l then
          let x : SarupSend := { ssn, start := q.C 1, bufs := l.filterMap id }
          let s := if h.last then
              let s := s.onPair g fun q => { q with cons := q.cons.set 0 1 (idx (x.start + x.bufs.length)) }
              (s.onXpt fun y => { y with filling := y.filling.set (0, 0) g (0, 0) }).onConn c fun k =>
                { k with ssnRecv := (k.ssnRecv + 1) % 2 ^ 32, sends := k.sends ++ [x] }
            else s.onXpt fun y => { y with filling := y.filling.set (0, 0) g (c + 1, ssn + 1) }
          (s.placeSend h p x, false)
        else if l.length = 16 then (((s.stopFilling c).onConn c fun k =>
            { k with ssnRecv := (k.ssnRecv + 1) % 2 ^ 32, sends := k.sends ++ [{ ssn, start := q.C 1, bufs := [] }] }).refusePkt c h p 2, false)
        else (s.sendNak c h.psn 3, false)

/-- How a read that has ended ended: well (none), or with an error. -/
abbrev ReadEnd := Option AerError

/-- The read of a window for a request ends: none yet, so it is issued and the packet waits; failed; or good (R315, R350). -/
def State.windowRead (s : State) (h : SarupIn) (p : Packet) (fn : Option Nat) (reply : Option ReadEnd) (go : State → State) : Take :=
  match fn with
  | none => (go s, false)
  | some f =>
    if !s.dmaOk f then (s, false)
    else if s.readPending f (· == .sarup h.conn h.psn) then (s, true)
    else match reply with
      | none => (s.issueRead f (.sarup h.conn h.psn), true)
      | some (some e) => ((s.pcieError f e).refusePkt h.conn h p 2, false)
      | some none => (go (s.linkCount f 1 1), false)

/-- A READ_REQ is executed once: the window is read then, and never again for its response (R350, R354). -/
def State.takeReadReq (s : State) (h : SarupIn) (p : Packet) (reply : Option ReadEnd) : Take :=
  let n := beNat (slice h.body.payload 0 4)
  if h.body.payload.length < 4 then (s.refusePkt h.conn h p 2, false)
  else match s.winCheck h.conn h.body.key h.body.off n 13 with
    | none => (s.refusePkt h.conn h p 1, false)
    | some (fn, a) => s.windowRead h p fn reply fun s =>
        let data := s.xRead fn a n
        (s.acceptPsn h.conn h).postResponse h.conn { body := { op := oReadResp, msgId := h.body.msgId, payload := data }, len := n }

/-- An atomic is executed once: the old word is read, the new one written (R350). -/
def State.takeAtomic (s : State) (h : SarupIn) (p : Packet) (reply : Option ReadEnd) (size : Nat) (new : Nat → Nat) : Take :=
  if h.body.payload.length < size then (s.refusePkt h.conn h p 2, false)
  else match s.winCheck h.conn h.body.key h.body.off 8 14 with
    | none => (s.refusePkt h.conn h p 1, false)
    | some (fn, a) => s.windowRead h p fn reply fun s =>
        let old := leNat (s.xRead fn a 8)
        ((s.xWrite fn a (natLe 8 (new old))).acceptPsn h.conn h).postResponse h.conn
          { body := { op := oAtomicResp, msgId := h.body.msgId, payload := natBe 8 old }, fixed := true }

/-- Local memory of a request of a queue: DDR for an engine queue, else its function's DMA space. -/
def State.localFn (s : State) (f g : Nat) : Option Nat := if (s.engineThread g).isSome then none else some f

/-- The outstanding request of an OP and message number on a connection. -/
def State.request (s : State) (c op msgId : Nat) : Option (TxChain × SarupReq) :=
  (s.pair (s.connQueue c)).chains.findSome? fun x => match x.sarup with
    | some r => if x.left ≠ 0 ∧ r.on c ∧ r.op = op ∧ r.msgId = msgId then some (x, r) else none
    | none => none

/-- A READ_RESP packet is placed in the local buffer (R341); the READ completes with the last. -/
def State.takeReadResp (s : State) (h : SarupIn) : State :=
  let c := h.conn
  let g := s.connQueue c
  let fn := s.localFn (s.connFn c) g
  if !s.xReach fn then s
  else match s.request c 3 h.body.msgId with
    | none => s.acceptPsn c h
    | some (x, r) =>
      let n := r.placed + h.body.payload.length
      let s := s.xWrite fn (r.addr + h.body.off) h.body.payload
      let s := s.onPair g fun q => { q with chains := q.chains.map fun y =>
        if y.id = x.id then { y with sarup := some { r with placed := n } } else y }
      (if x.len ≤ n then s.endRequests g (fun y _ => y.id == x.id) stOk else s).acceptPsn c h

/-- An acknowledgement (R344): the packets it names are freed, packets passed by three SACKs are sent again, the window moves. -/
def State.takeAck (s : State) (h : SarupIn) : State :=
  let c := h.conn
  let k := s.conn c
  let b := h.psn
  if psnDiff k.sendNext k.sendBase < psnDiff b k.sendBase then s
  else
    let sacked (psn : Nat) : Bool :=
      let d := psnDiff psn b
      decide (d < 1024) && bitOf ((h.body.payload.getD (d / 8) 0).toNat) (d % 8)
    let freed (x : SarupPkt) : Bool := decide (psnDiff x.psn k.sendBase < psnDiff b k.sendBase) || sacked x.psn
    let s := (k.out.filter fun x => freed x && x.sends == 1).foldl (fun t x =>
      t.sample 5 (t.connFn c) (ts64Of x.sentAt : Int) (t.ts64 : Int) (t.sagCommon || x.degraded)) s
    let marks := (List.range 1024).filter fun d => sacked ((b + d) % 2 ^ 32)
    let late := k.out.filter fun x => !freed x && !x.fast && x.rnrAt.isNone && decide (0 < x.sends) && decide (x.sends ≤ bits (s.ctxWord c 3) 19 16) &&
      decide (3 ≤ (marks.filter fun d => decide (psnDiff x.psn b < d)).length)
    let resent (x : SarupPkt) : SarupPkt := if late.any (fun y => y.psn == x.psn) then { x with fast := true } else x
    let s := s.onConn c fun k => { k with sendBase := b, out := (k.out.filter fun x => !freed x).map resent }
    (late.foldl (fun t x => t.sendPkt c x) s).pump c

/-- A NAK (R349, R352). -/
def State.takeNak (s : State) (h : SarupIn) : State :=
  let c := h.conn
  let s := s.bump .XPT_STAT 0 7
  let code := beNat (slice h.body.payload 0 4) % 256
  if code = 1 ∨ code = 2 then s.failPsn c h.psn (31 + code)
  else if code ≠ 3 then s
  else match (s.conn c).out.find? fun x => x.psn == h.psn with
    | none => s
    | some x =>
      if x.rnrAt.isSome then s
      else
        let mine (y : SarupPkt) : Bool := y.body.msgId == x.body.msgId && y.body.op == x.body.op
        let n := (((s.conn c).out.filter mine).map (·.refusals)).foldl max 0 + 1
        let due := s.up + ofUs (bits (s.ctxWord c 3) 39 24)
        if bits (s.ctxWord c 3) 23 20 ≤ n then s.failPsn c h.psn xRnrExceeded
        else
          let wait (y : SarupPkt) : SarupPkt := if mine y then { y with refusals := n, rnrAt := some due } else y
          s.onConn c fun k => { k with out := k.out.map wait }

/-! ## Work requests (R340 to R343) -/

/-- A work request. -/
structure WorkReq where
  addr : Nat
  w1 : Nat
  w2 : Nat
  w3 : Nat
  launch : Nat := 0
  hold : Nat := 0
  op1 : Nat := 0
  op2 : Nat := 0
deriving DecidableEq, Repr

namespace WorkReq
def len (w : WorkReq) : Nat := bits w.w1 31 0
def op (w : WorkReq) : Nat := bits w.w1 35 32
def ext (w : WorkReq) : Bool := bitOf w.w1 36
def cqe (w : WorkReq) : Bool := bitOf w.w1 37
def ts (w : WorkReq) : Bool := bitOf w.w1 38
def conn (w : WorkReq) : Nat := bits w.w1 57 40
def key (w : WorkReq) : Nat := bits w.w2 31 0
def roff (w : WorkReq) : Nat := bits w.w2 63 32
def imm (w : WorkReq) : Nat := bits w.w3 31 0
def cookie (w : WorkReq) : Nat := bits w.w3 63 32
end WorkReq

/-- The faults of R340. OPEN's LEN runs to 2^32 − 1, as its table says. -/
def State.wrBad (s : State) (f g : Nat) (w : WorkReq) : Bool :=
  let named := decide (w.op < 7)
  decide (8 < w.op) || bitOf w.w1 39 || bits w.w1 63 58 != 0 || (w.op == 7 && bits w.w3 15 3 != 0) ||
    (named && (!s.ownsConn f w.conn || s.connQueue w.conn != g)) ||
    (w.op != 7 && decide (2 ^ 31 ≤ w.len)) || (w.len == 0 && !(w.op ≤ 2 || w.op == 6 || w.op == 7)) ||
    ((w.op == 4 || w.op == 5) && (w.len != 8 || w.roff % 8 != 0 || !w.ext)) ||
    (decide (2 < w.op) && (w.launch != 0 || w.hold != 0))

/-- The chain of a request as it is entered. -/
def State.wrChain (s : State) (g : Nat) (w : WorkReq) (index slots : Nat) (msg : Option Msg) : TxChain :=
  { id := (s.pair g).nextChain, index, slots, cookie := w.cookie, len := w.len, cqe := w.cqe, left := 1
    sarup := some { op := w.op, conn := if w.op < 7 then w.conn else 0, addr := w.addr, msg } }

/-- A chain that has ended with a status, and perhaps a VALUE, when it is entered. -/
def State.enterEnded (s : State) (g : Nat) (c : TxChain) (status : Nat) (value : Nat := 0) : State :=
  let t := s.stampNow
  s.addChain g { c with left := 0, status, ts := t.1, degraded := t.2, sarup := c.sarup.map fun r => { r with value } }

/-- The message of a request on a connection, and the bytes of its operands (R338, R339, R343). READ, FETCH_ADD and CAS carry the
remote offset in OFFSET, which the table lists as zero (log entry 38). -/
def State.wrMessage (s : State) (f g : Nat) (w : WorkReq) (tx : TxRef) : SarupMsg :=
  let k := s.conn w.conn
  let data := decide (w.op ≤ 2)
  let hold := if w.ext then w.hold else 0
  let body : SarupBody :=
    { op := match w.op with
        | 4 => oFetchAdd
        | 5 => oCas
        | 6 => oFlush
        | n => n
      msgId := k.msgNext
      off := if w.op = 2 ∨ w.op = 6 then 0 else w.roff
      key := if w.op = 2 then k.ssnNext else if w.op = 6 then 0 else w.key
      imm := if w.op = 1 ∨ (w.op = 2 ∧ w.imm ≠ 0) then some w.imm else none
      ts := if w.ts then some (if hold ≠ 0 then hold else s.ts64) else none
      hold
      payload := match w.op with
        | 3 => natBe 4 w.len
        | 4 => natBe 8 w.op1
        | 5 => natBe 8 w.op1 ++ natBe 8 w.op2
        | _ => [] }
  { body, addr := w.addr, len := if data then w.len else 0, fn := s.localFn f g, fixed := !data
    launch := if w.ext then w.launch else 0, tx := if data then some tx else none }

/-- A request on a connection: it joins the stream, or ends at once where the connection is not READY (R342). -/
def State.runOnConn (s : State) (f g : Nat) (w : WorkReq) (c : TxChain) : State :=
  if s.connState w.conn ≠ cReady then s.enterEnded g c xConnError
  else
    let s := s.touchCtx w.conn
    let k := s.conn w.conn
    let m := s.wrMessage f g w { queue := g, chain := c.id }
    let before := (k.msgs.map (s.msgPackets w.conn)).sum
    let c := { c with sarup := c.sarup.map fun r => { r with
      msgId := k.msgNext, psn := (k.sendNext + before) % 2 ^ 32, count := s.msgPackets w.conn m } }
    let s := (s.addChain g c).onConn w.conn fun k => { k with
      msgNext := (k.msgNext + 1) % 2 ^ 32, ssnNext := if w.op = 2 then (k.ssnNext + 1) % 2 ^ 32 else k.ssnNext }
    s.postMsg w.conn m

/-- OPEN (R353): the window is enabled under the next generation, or the request fails. -/
def State.runOpen (s : State) (f g : Nat) (w : WorkReq) (c : TxChain) : State :=
  let i := bits w.key 31 12
  let engine := (s.engineThread g).isSome
  if !s.ownsWin f i ∨ s.winDdr i ≠ engine then s.enterEnded g c xNoWindow
  else if s.winEn i then s.enterEnded g c xWindowBusy
  else
    let gen := (s.winGen i + 1) % 4096
    let s := s.setWin i 0 w.addr
    let s := s.setWin i 1 (place w.len 31 0 + place (bits w.imm 31 16) 47 32 + place gen 59 48 + place 1 60 60 + place (b2n engine) 61 61)
    let s := s.setWin i 2 (place f 11 0 + place (bits w.imm 2 0) 14 12)
    s.enterEnded g c stOk (i * 4096 + gen)

/-- REVOKE (R354): the window is refused to every later packet from now on; the request completes once the writes accepted before
are placed and visible. -/
def State.runRevoke (s : State) (f g : Nat) (w : WorkReq) (c : TxChain) : State :=
  let i := bits w.key 31 12
  if !s.ownsWin f i ∨ (s.winDdr i ∧ (s.engineThread g).isNone) then s.enterEnded g c xNoWindow
  else if s.winGen i ≠ bits w.key 11 0 then s.enterEnded g c xStaleKey
  else (s.winOff i).addChain g { c with sarup := c.sarup.map fun r => { r with revoke := some i } }

/-- A request that R340 lets through is carried out. -/
def State.runWork (s : State) (f g : Nat) (w : WorkReq) (c : TxChain) : State :=
  match w.op with
  | 7 => s.runOpen f g w c
  | 8 => s.runRevoke f g w c
  | _ => s.runOnConn f g w c

/-- The work request at the consumer of a TX ring, with the slots it takes; none while its extension is not posted. -/
def State.wrAt (s : State) (f g : Nat) : Option (WorkReq × Nat) :=
  let q := s.pair g
  if q.used 0 = 0 then none
  else
    let d := s.txDesc f g (q.C 0)
    let w : WorkReq := { addr := d.addr, w1 := d.w1, w2 := d.w2, w3 := d.cookie }
    if !w.ext then some (w, 1)
    else if q.used 0 < 2 then none
    else
      let e := leWords 4 (s.txSlot f g (q.C 0 + 1))
      some ({ w with launch := (e.getD 0 0).toNat, hold := (e.getD 1 0).toNat, op1 := (e.getD 2 0).toNat, op2 := (e.getD 3 0).toNat }, 2)

/-- The work request of a message (R360). -/
def Msg.work (m : Msg) : WorkReq :=
  { addr := (m.word 1).toNat, w1 := (m.word 2).toNat, w2 := (m.word 3).toNat, w3 := (m.word 4).toNat, op1 := (m.word 5).toNat, op2 := (m.word 6).toNat }

/-- The request at the consumer of a host queue, once its read has ended well: a faulty one halts the queue. -/
def State.sarupFetch (s : State) (f q : Nat) : State :=
  let g := s.globalQueue f q
  match s.wrAt f g with
  | none => s
  | some (w, slots) =>
    let at_ := idx ((s.pair g).C 0)
    if s.wrBad f g w then s.haltQueue g stBadDesc at_ false
    else
      let c := s.wrChain g w at_ slots none
      let s := (s.linkCount f 1 slots).consumeTx g slots
      (if w.op ≤ 2 then s.debitFetch f w.len else s).runWork f g w c

/-- The engine queue of a thread: the lowest one bound to it. -/
def State.engineQueue (s : State) (t : Nat) : Option Nat := (List.range 32768).find? fun g => s.engineThread g == some t

/-- A row of a work request of one OP (R289, R340, R360). A host queue's is fetched in its turn; `reply` is how its read ends, none
leaves it outstanding. A faulty request whose OP is reserved is found by whichever row reads it. -/
def State.wrRow (s : State) (op : Nat) (q : SarupQueue) (reply : Option CplStatus) : Out :=
  let fits (w : WorkReq) : Bool := w.op == op || decide (8 < w.op)
  if !s.xptRuns ∨ s.mode = DUSK then .next s
  else match q with
  | .host f k =>
    let g := s.globalQueue f k
    match s.linkOf f, s.wrAt f g with
    | some l, some (w, _) =>
      if !fits w ∨ !s.isSarup g ∨ s.nextFetch l ≠ some (f.val, k) ∨ s.readPending f (· == .txDescriptors f k) then .next s
      else
        let t := (s.onLink l fun x => { x with lastFn := f }).onFn f fun x => { x with lastQueue := k }
        match reply with
        | none => done (t.issueRead f (.txDescriptors f k))
        | some r => match cplError r with
          | some e => done ((t.pcieError f e).haltQueue g stDmaError (idx ((t.pair g).C 0)) false)
          | none => done (t.sarupFetch f k)
    | _, _ => .next s
  | .engine t =>
    match s.xpt.posted.get [] t, s.engineQueue t with
    | m :: rest, some g =>
      match s.queueOwner g with
      | none => .next s
      | some (f, _) =>
        let w := m.work
        if !fits w then .next s
        else
          let u := s.onXpt fun x => { x with posted := x.posted.set [] t rest }
          let c := u.wrChain g w 0 0 (some m)
          if (u.pair g).state ≠ ACTIVE then done (u.enterEnded g c stStopped)
          else if u.wrBad f g w then done (u.enterEnded g c stBadDesc)
          else done (u.runWork f g w c)
    | _, _ => .next s

/-! ## Commands of the manager (R334, R353 to R355) -/

/-- A command or binding write is refused (R361). -/
def State.xptRefuse (s : State) (result : Nat) : State :=
  ((s.put XPT_CMD_STATUS.REFUSED 1).put XPT_CMD_STATUS.RESULT result).fire 27 23 0 initXpt

/-- Word `w` of the image. -/
def State.xptData (s : State) (w : Nat) : Nat := (s.raw .XPT_CMD_DATA 0 w).toNat

/-- Words put in XPT_CMD_DATA. -/
def State.setXptData (s : State) (ws : List Nat) : State :=
  (ws.zipIdx).foldl (fun t x => t.setRaw .XPT_CMD_DATA 0 x.2 (BitVec.ofNat 64 x.1)) s

/-- CONN_WRITE (R334, R335): the image becomes the context of an IDLE connection; STATE READY starts it. -/
def State.connWrite (s : State) (c : Nat) : State :=
  let w0 := s.xptData 0
  let g := bits w0 28 14
  if s.connState c ≠ cIdle then s.xptRefuse 3
  else match s.queueOwner g with
    | none => s.xptRefuse 4
    | some (f, _) =>
      if !s.isSarup g ∨ !s.ownsConn f c then s.xptRefuse 4
      else
        let ready := bits w0 1 0 = cReady
        let keep (v hi : Nat) : Nat := v % 2 ^ hi
        let s := s.setCtx c 0 (setBits (setBits (keep w0 57) 1 0 (if ready then cReady else cIdle)) 13 2 f)
        let s := s.setCtx c 1 (keep (s.xptData 1) 44)
        let s := s.setCtx c 2 (s.xptData 2)
        let s := s.setCtx c 3 (setBits (keep (s.xptData 3) 48) 47 40 (bits (s.ctxWord c 3) 47 40))
        let s := [4, 5, 6, 7].foldl (fun t w => t.setCtx c w (s.xptData w)) s
        let s := s.put XPT_CMD_STATUS.RESULT 0
        if !ready then s
        else
          let send := bits (s.xptData 2) 31 0
          s.drawn.onConn c fun _ => { sendBase := send, sendNext := send, recvBase := bits (s.xptData 2) 63 32
                                      msgNext := bits (Config.freeWord s.free).toNat 31 0 }

/-- WIN_WRITE (R355): the image becomes the descriptor of a window that is not enabled; GEN stays. -/
def State.winWrite (s : State) (w : Nat) : State :=
  if s.winEn w then s.xptRefuse 1
  else
    let gen := s.winGen w
    let s := s.setWin w 0 (s.xptData 0)
    let s := s.setWin w 1 (setBits (s.xptData 1 % 2 ^ 62) 59 48 gen)
    ((s.setWin w 2 (s.xptData 2 % 2 ^ 15)).setWin w 3 0).put XPT_CMD_STATUS.RESULT 0

/-- A write of XPT_CMD, by its OP; `w` is the word. -/
def State.xptCommand (s : State) (w : Word) : State :=
  let i := wfld w XPT_CMD.INDEX
  let op := wfld w XPT_CMD.OP
  if s.isSet XPT_CMD_STATUS.BUSY ∨ op = 0 ∨ 6 < op then (s.put XPT_CMD_STATUS.REFUSED 1).fire 27 23 0 initXpt
  else if op ≤ 3 ∧ 262144 ≤ i then s.xptRefuse 2
  else match op with
    | 1 => s.connWrite i
    | 2 => (s.setXptData ((List.range 8).map (s.ctxWord i))).put XPT_CMD_STATUS.RESULT 0
    | 3 => (s.connReset i).put XPT_CMD_STATUS.RESULT 0
    | 4 => s.winWrite i
    | 5 => (s.setXptData ((List.range 4).map (s.winWord i))).put XPT_CMD_STATUS.RESULT 0
    | _ => (((if s.winEn i then s.winOff i else s).put XPT_CMD_STATUS.BUSY 1).put XPT_CMD_STATUS.RESULT 0).onXpt fun x => { x with revoking := some i }

/-- A write of the binding of a global queue (R335): ignored and counted unless the queue is DISABLED. -/
def State.bindQueue (s : State) (g : Nat) (w : Word) : State :=
  if (s.pair g).state ≠ DISABLED then (s.bump .XPT_STAT 0 15).fire 27 23 0 initXpt
  else s.setRaw .XPT_QP_BIND 0 g (w &&& 0xFFF)

/-- A write of XPT_FN_CONN or XPT_FN_WIN: refused where the range overlaps another function's, passes the end of its pool, or
the function is an NVMe function. -/
def State.xptFnWrite (s : State) (f : Nat) (win : Bool) (w : Word) : State :=
  let range (g : Nat) : Nat × Nat :=
    if win then (s.fld XPT_FN_WIN.WIN_BASE 0 g, s.fld XPT_FN_WIN.WIN_COUNT 0 g) else (s.fld XPT_FN_CONN.CONN_BASE 0 g, s.fld XPT_FN_CONN.CONN_COUNT 0 g)
  let b := if win then wfld w XPT_FN_WIN.WIN_BASE else wfld w XPT_FN_CONN.CONN_BASE
  let n := if win then wfld w XPT_FN_WIN.WIN_COUNT else wfld w XPT_FN_CONN.CONN_COUNT
  let clash (g : Nat) : Bool := g != f && decide (0 < n) && decide (b < (range g).1 + (range g).2) && decide ((range g).1 < b + n) && decide (0 < (range g).2)
  if s.isNvmeFn f ∨ (if win then 1048576 else 262144) < b + n ∨ (List.range 2080).any clash then
    (s.put XPT_CMD_STATUS.REFUSED 1).fire 27 23 0 initXpt
  else s.writeReg (if win then .XPT_FN_WIN else .XPT_FN_CONN) 0 f w

end Sys2Proof.Machine
end

