-- ==== Sys2Proof/Machine/Sarup.lean ====
section
/-! DEFINITION. The commands and events of the Sarup transport (13_sarup_remote_memory). A packet is named by its place in the
transport unit's input; a work request by its queue, whose turn it must be. -/
namespace Sys2Proof.Machine

/-! ## XPT_CMD and bindings -/

/-- A write of XPT_CMD acts for the row of its own OP. -/
def State.xptOp (s : State) (op : Nat) (w : Word) : Out := if wfld w XPT_CMD.OP = op then done (s.xptCommand w) else .next s

/-- CONN_WRITE (R334, R335). -/
def execConnWrite (_req : Requester) (w : Word) (s : State) : Out := if s.mode = NIGHT then .next s else s.xptOp 1 w

/-- CONN_READ (R334). -/
def execConnRead (_req : Requester) (w : Word) (s : State) : Out := if s.mode = NIGHT then .next s else s.xptOp 2 w

/-- CONN_RESET (R334). -/
def execConnReset (_req : Requester) (w : Word) (s : State) : Out := if s.mode = NIGHT then .next s else s.xptOp 3 w

/-- WIN_WRITE (R355). -/
def execWinWrite (_req : Requester) (w : Word) (s : State) : Out := if s.mode = NIGHT then .next s else s.xptOp 4 w

/-- WIN_READ (R355). -/
def execWinRead (_req : Requester) (w : Word) (s : State) : Out := if s.mode = NIGHT then .next s else s.xptOp 5 w

/-- WIN_REVOKE (R354): from now on the window is refused; BUSY stays until REVOKE_COMPLETE. -/
def execWinRevoke (_req : Requester) (w : Word) (s : State) : Out := if s.mode = NIGHT then .next s else s.xptOp 6 w

/-- QUARANTINE_END (R334): 500 ms after it entered QUARANTINE a connection is IDLE. -/
def execQuarantineEnd (conn : Nat) (s : State) : Out :=
  if 262144 ≤ conn ∨ s.connState conn ≠ cQuarantine ∨ s.up < (s.conn conn).since + ofMs 500 then .next s
  else .next ((s.setCtx conn 0 (setBits (s.ctxWord conn 0) 1 0 cIdle)).onConn conn fun _ => {})

/-- QP_BIND_WRITE (R335). -/
def execQpBindWrite (_req : Requester) (q : Fin 32768) (w : Word) (s : State) : Out := if s.mode = NIGHT then .next s else done (s.bindQueue q w)

/-! ## Work requests -/

/-- WR_WRITE (R340 to R343). -/
def execWrWrite (q : SarupQueue) (reply : Option CplStatus) (s : State) : Out := s.wrRow 0 q reply

/-- WR_WRITE_IMM (R340 to R343). -/
def execWrWriteImm (q : SarupQueue) (reply : Option CplStatus) (s : State) : Out := s.wrRow 1 q reply

/-- WR_SEND (R340 to R343). -/
def execWrSend (q : SarupQueue) (reply : Option CplStatus) (s : State) : Out := s.wrRow 2 q reply

/-- WR_READ (R340, R341). -/
def execWrRead (q : SarupQueue) (reply : Option CplStatus) (s : State) : Out := s.wrRow 3 q reply

/-- WR_FETCH_ADD (R340, R341). -/
def execWrFetchAdd (q : SarupQueue) (reply : Option CplStatus) (s : State) : Out := s.wrRow 4 q reply

/-- WR_CAS (R340, R341). -/
def execWrCas (q : SarupQueue) (reply : Option CplStatus) (s : State) : Out := s.wrRow 5 q reply

/-- WR_FLUSH (R340, R341). -/
def execWrFlush (q : SarupQueue) (reply : Option CplStatus) (s : State) : Out := s.wrRow 6 q reply

/-- WR_OPEN (R353). -/
def execWrOpen (q : SarupQueue) (reply : Option CplStatus) (s : State) : Out := s.wrRow 7 q reply

/-- WR_REVOKE (R354). -/
def execWrRevoke (q : SarupQueue) (reply : Option CplStatus) (s : State) : Out := s.wrRow 8 q reply

/-- REVOKE_COMPLETE (R354): every write of a revoked window accepted before is placed and visible: the oldest REVOKE of it
completes, or a WIN_REVOKE ends. -/
def execRevokeComplete (win : Nat) (s : State) : Out :=
  let first : Option (Nat × Nat) := s.hq.pairs.entries.findSome? fun e =>
    (e.2.chains.find? fun c => c.left != 0 && c.sarup.any fun r => r.revoke == some win).map fun c => (e.1, c.id)
  match first with
  | some (g, id) => .next ((s.endRequests g (fun c _ => c.id == id) stOk).bump .XPT_STAT 0 13)
  | none =>
    if s.xpt.revoking = some win then
      .next (((s.put XPT_CMD_STATUS.BUSY 0).bump .XPT_STAT 0 13).onXpt fun x => { x with revoking := none })
    else .next s

/-! ## Packets -/

/-- WRITE (R346, R356). -/
def execWrite (k : Nat) (s : State) : Out :=
  done (s.sarupTake k oWrite fun s h p => s.sequenced h true fun s => (s.placeWrite h p, false))

/-- WRITE_IMM (R346, R348, R356): the notification waits for SARUP_RX_COMPLETION. -/
def execWriteImm (k : Nat) (s : State) : Out :=
  done (s.sarupTake k oWriteImm fun s h p => s.sequenced h true fun s => (s.placeWrite h p, false))

/-- SEND (R349). -/
def execSend (k : Nat) (s : State) : Out :=
  done (s.sarupTake k oSend fun s h p => s.sequenced h true fun s => s.takeSend h p)

/-- A READ_REQ at a place of the unit's input. -/
def State.readReqAt (s : State) (k : Nat) (reply : Option ReadEnd) : State :=
  s.sarupTake k oReadReq fun s h p => s.sequenced h false fun s => s.takeReadReq h p reply

/-- A FETCH_ADD: the addend is added modulo 2^64. -/
def State.fetchAddAt (s : State) (k : Nat) (reply : Option ReadEnd) : State :=
  s.sarupTake k oFetchAdd fun s h p => s.sequenced h true fun s =>
    s.takeAtomic h p reply 8 fun old => (old + beNat (slice h.body.payload 0 8)) % 2 ^ 64

/-- A CAS: the word becomes the swap value where it equals the compare value. -/
def State.casAt (s : State) (k : Nat) (reply : Option ReadEnd) : State :=
  s.sarupTake k oCas fun s h p => s.sequenced h true fun s =>
    s.takeAtomic h p reply 16 fun old => if old = beNat (slice h.body.payload 0 8) then beNat (slice h.body.payload 8 8) else old

/-- The read for a request waiting at the unit has ended. -/
def State.sarupReply (s : State) (c psn : Nat) (reply : ReadEnd) : State :=
  let op (x : Nat × Packet) : Option Nat := match s.sarupFate x.1 x.2.bytes with
    | .packet h => if h.conn = c ∧ h.psn = psn then some h.body.op else none
    | _ => none
  match s.xpt.input.findIdx? fun x => op x == some oReadReq || op x == some oFetchAdd || op x == some oCas with
  | none => s
  | some k =>
    let o := (s.xpt.input[k]?).bind op
    if o = some oReadReq then s.readReqAt k (some reply)
    else if o = some oFetchAdd then s.fetchAddAt k (some reply) else s.casAt k (some reply)

/-- READ_REQ (R350): the window is read and the response joins the responder's stream. -/
def execReadReq (k : Nat) (reply : Option CplStatus) (s : State) : Out := done (s.readReqAt k (reply.map cplError))

/-- READ_RESP (R341). -/
def execReadResp (k : Nat) (s : State) : Out :=
  done (s.sarupTake k oReadResp fun s h _ => s.sequenced h true fun s => (s.takeReadResp h, false))

/-- FETCH_ADD (R350). -/
def execFetchAdd (k : Nat) (reply : Option CplStatus) (s : State) : Out := done (s.fetchAddAt k (reply.map cplError))

/-- CAS (R350). -/
def execCas (k : Nat) (reply : Option CplStatus) (s : State) : Out := done (s.casAt k (reply.map cplError))

/-- ATOMIC_RESP (R341): the atomic completes with the old word. -/
def execAtomicResp (k : Nat) (s : State) : Out :=
  done (s.sarupTake k oAtomicResp fun s h _ => s.sequenced h true fun s =>
    let v := beNat (slice h.body.payload 0 8)
    ((s.endRequests (s.connQueue h.conn) (fun _ r => r.on h.conn && (r.op == 4 || r.op == 5) && r.msgId == h.body.msgId) stOk v).acceptPsn h.conn h, false))

/-- FLUSH (R350, R351): its response waits for FLUSH_VISIBLE. -/
def execFlush (k : Nat) (s : State) : Out :=
  done (s.sarupTake k oFlush fun s h _ => s.sequenced h false fun s =>
    ((s.onConn h.conn fun c => { c with flushes := c.flushes ++ [(h.psn, h.body.msgId)] }).acceptPsn h.conn h, false))

/-- FLUSH_VISIBLE (R351): every placement before a FLUSH is visible; once B has passed it, FLUSH_RESP is sent. -/
def execFlushVisible (conn psn : Nat) (s : State) : Out :=
  let k := s.conn conn
  match k.flushes.find? fun x => x.1 == psn with
  | none => .next s
  | some x =>
    if s.connState conn ≠ cReady ∨ !s.xptRuns ∨ psnDiff k.recvBase psn = 0 ∨ 2 ^ 31 ≤ psnDiff k.recvBase psn then .next s
    else done ((s.onConn conn fun c => { c with flushes := c.flushes.filter (·.1 != psn) }).postResponse conn
      { body := { op := oFlushResp, msgId := x.2 }, fixed := true })

/-- FLUSH_RESP (R341): the FLUSH completes. -/
def execFlushResp (k : Nat) (s : State) : Out :=
  done (s.sarupTake k oFlushResp fun s h _ => s.sequenced h true fun s =>
    ((s.endRequests (s.connQueue h.conn) (fun _ r => r.on h.conn && r.op == 6 && r.msgId == h.body.msgId) stOk).acceptPsn h.conn h, false))

/-- ACK (R344, R345). -/
def execAck (k : Nat) (s : State) : Out := done (s.sarupTake k oAck fun s h _ => (s.takeAck h, false))

/-- NAK (R349, R352). -/
def execNak (k : Nat) (s : State) : Out := done (s.sarupTake k oNak fun s h _ => (s.takeNak h, false))

/-! ## Timers -/

/-- ACK_TIMER (R344): accepted packets have stood unacknowledged for ACK_US. -/
def execAckTimer (conn : Nat) (s : State) : Out :=
  let k := s.conn conn
  if s.connState conn ≠ cReady ∨ k.ackCount = 0 ∨ s.up < k.ackSince + ofUs (max 1 (s.fld XPT_CFG.ACK_US)) then .next s
  else done (s.sendAck conn)

/-- A copy of a packet of the stream is still in the part, and has not left it. -/
def State.sarupInside (s : State) (c psn : Nat) : Bool := s.buffered.any fun p => p.sarup.any fun r => r.conn == c && r.psn == psn

/-- RETRANSMIT_TIMEOUT (R345): a packet not freed RTO_US × 2^min(r, 3) after its r-th sending, counted from 0, is sent again; one
sent RETRY_MAX + 1 times takes the connection into ERROR. -/
def execRetransmitTimeout (conn psn : Nat) (s : State) : Out :=
  match (s.conn conn).out.find? fun x => x.psn == psn with
  | none => .next s
  | some x =>
    let w := s.ctxWord conn 3
    if s.connState conn ≠ cReady ∨ x.rnrAt.isSome ∨ s.sarupInside conn psn ∨
        s.up < x.sentUp + ofUs (bits w 15 0 * 2 ^ min (x.sends - 1) 3) then .next s
    else if bits w 19 16 + 1 ≤ x.sends then done ((s.failPsn conn psn xRetryExceeded).fire 27 18 0 initXpt)
    else done (s.sendPkt conn x)

/-- RNR_RETRY (R349): RNR_US after a refusal the message of a packet is sent again. -/
def execRnrRetry (conn psn : Nat) (s : State) : Out :=
  match (s.conn conn).out.find? fun x => x.psn == psn with
  | none => .next s
  | some x =>
    match x.rnrAt with
    | none => .next s
    | some t =>
      if s.connState conn ≠ cReady ∨ s.up < t then .next s
      else done (((s.conn conn).out.filter fun y => y.body.msgId == x.body.msgId && y.body.op == x.body.op).foldl (fun u y => u.sendPkt conn y) s)

/-! ## Receive completions -/

/-- B has passed the note's message. -/
def SarupNote.passed (n : SarupNote) (b : Nat) : Bool :=
  match n.last with
  | some l => psnDiff b l != 0 && decide (psnDiff b l < 2 ^ 31)
  | none => false

/-- Notes that B has passed, in message order. -/
def SarupConn.passed (k : SarupConn) : List SarupNote :=
  (k.notes.filter fun n => n.passed k.recvBase).mergeSort fun a b => decide (psnDiff k.recvBase (b.last.getD 0) ≤ psnDiff k.recvBase (a.last.getD 0))

/-- SARUP_RX_COMPLETION (R342, R348, R360): the oldest message that B has passed is notified, and a thread of an engine queue is
sent SEV; messages refused are passed over. It waits while the ring is full or host memory is out of reach. -/
def execSarupRxCompletion (conn : Nat) (s : State) : Out :=
  let k := s.conn conn
  let g := s.connQueue conn
  let drop (t : State) (ns : List SarupNote) : State := t.onConn conn fun c => { c with
    notes := c.notes.filter fun n => !ns.contains n
    sends := c.sends.filter fun x => !ns.any fun n => n.kind == 2 && n.ssn == x.ssn }
  let refused := k.passed.takeWhile (·.refused)
  match k.passed.drop refused.length with
  | [] => .next (drop s refused)
  | n :: _ =>
    match s.queueOwner g with
    | none => .next s
    | some (f, _) =>
      if (s.pair g).full 3 ∨ !s.queueReach f g ∨ (s.pair g).state ≠ ACTIVE then .next s
      else
        let t := (drop s (refused ++ [n])).bump .XPT_STAT 0 12
        let t := t.writeCompletion f g 3 n.ts (place n.imm 31 0 + place conn 49 32)
          (sarupWord2 n.start 0 n.kind 1 n.degraded false n.hdrTs.isSome n.len) (n.hdrTs.getD 0)
        match s.engineThread g with
        | some e => done (t.event e evSev)
        | none => done t

/-! ## The XPT channel (R360) -/

/-- XPT_WORK_REQUEST: the message waits for its work request to be carried out (WR_WRITE to WR_REVOKE). REFUSED where the
transport is off, the thread has no engine queue, or LEN is not 7 (log entry 36). -/
def execXptWorkRequest (place : Nat) (s : State) : Out :=
  match s.message place 5 1 with
  | none => .next (s.stray place 5)
  | some m =>
    let s := s.takeMsg place
    if !s.xptRuns ∨ m.len ≠ 7 ∨ (s.engineQueue m.thread).isNone then done (s.respond m 2)
    else .next (s.onXpt fun x => { x with posted := x.posted.modify [] m.thread fun l => l ++ [m] })

/-- XPT_CQ_CONSUMER: the consumer index of the engine queue's completion ring; one outside R292's range is refused. -/
def execXptCqConsumer (place : Nat) (s : State) : Out :=
  match s.message place 5 2 with
  | none => .next (s.stray place 5)
  | some m =>
    let s := s.takeMsg place
    match s.engineQueue m.thread with
    | none => done (s.respond m 2)
    | some g =>
      let q := s.pair g
      let n := getBits (m.word 1) 15 0
      let gone := (n + 65536 - q.C 3) % 65536
      if q.state ≠ ACTIVE ∨ q.used 3 < gone then done (s.respond m 2)
      else done ((s.onPair g fun q => { q with cons := q.cons.set 0 3 n, rxIrq := { q.rxIrq with times := q.rxIrq.times.drop gone } }).respond m 0)

end Sys2Proof.Machine
end

