-- ==== Sys2Proof/Machine/Pipeline.lean ====
section
/-! DEFINITION. The commands and events of the packet pipelines (06_packet_pipeline). -/
namespace Sys2Proof.Machine

/-! ## Admission -/

/-- The pipeline runs (R139, R166): enabled, in a mode in which packets flow; in DAWN and TWILIGHT only P0 and P4. -/
def State.pipeRuns (s : State) (p : Nat) : Bool :=
  s.isSet PPL_CFG.EN p &&
    (s.inService || s.mode == DUSK || ((s.mode == DAWN || s.mode == TWILIGHT) && (p == 0 || p == 4)))

/-- A packet is parsed and classified (R141 to R155), by the boot ROM's program where that is in force (R166). -/
def State.admitPacket (s : State) (p : Nat) (x : Packet) : State :=
  let x := { x with pipe := p, gen := s.fld PPL_GEN.ACTIVE p }
  let s := (s.bump .PPL_STAT p 0).pipeEvent p 0x202
  let count (s : State) (status : Nat) (frag : Bool) : State :=
    let s := if status = 0 then s else s.bump .PPL_STAT p (min 3 status)
    if frag then s.bump .PPL_STAT p 4 else s
  if s.bootRuns p x.gen then
    let r := s.bootWalk p x
    ((count r.1 r.2.2.status r.2.2.frag).pipeEvent p 0x280).endWalk p r.2.1
  else
    let r := s.parsePacket p x
    let s := count s r.2.1 r.2.2.1
    let s := if r.2.2.2 = 0 then s else s.bump .PPL_STAT p 18 r.2.2.2
    s.goWalk p { pkt := r.1 }

/-- The feed served next: packet round robin over the feeds with a packet ready (R139). -/
def Pipeline.nextFeed (q : Pipeline) : Option (Nat × Packet × List Packet) :=
  ((List.range 18).map fun i => (q.turn + 1 + i) % 18).findSome? fun k =>
    match q.feeds.get [] k with
    | x :: rest => some (k, x, rest)
    | [] => none

/-- PACKET_ADMIT (R139, R162, R198): one admission slot of pipeline `p`. A packet held at the verdict is tried first and
holds back every packet behind it; a resumed packet takes the slot ahead of every feed; a full miss queue with BUSY_ACT =
0xFFFF admits nothing. -/
def execPacketAdmit (p : Fin 8) (s : State) : Out :=
  if !s.pipeRuns p then .next s
  else
    let q := s.pipe p
    match q.held with
    | some w =>
      let waits := if w.scan.isSome then decide (p.val < 4) && decide (16384 ≤ q.inUse) else s.verdictWaits p w
      if s.stale w then done ((s.onPipe p fun q => { q with held := none }).dropStale w).flowControl
      else if waits then .next s else done (((s.onPipe p fun q => { q with held := none }).endWalk p w).flowControl)
    | none =>
      match q.resumed with
      | w :: rest =>
        let s := (s.onPipe p fun q => { q with resumed := rest }).pipeEvent p 0x204
        if s.stale w then done (s.dropStale w).flowControl else done (s.goWalk p w).flowControl
      | [] =>
        if 2048 ≤ q.parked.length ∧ s.fld TBL_FLOW_CFG.BUSY_ACT = 0xFFFF then .next s
        else match q.nextFeed with
          | none => .next s
          | some (k, x, rest) =>
            done ((s.onPipe p fun q => { q with turn := k, feeds := q.feeds.set [] k rest }).admitPacket p x).flowControl

/-! ## Snare -/

/-- A TCP segment as Snare keeps streams (R161): stream key, sequence number, payload length and flags. -/
structure Segment where
  key : List Byte
  seq : Nat
  len : Nat
  syn : Bool
  fin : Bool
deriving DecidableEq, Repr

/-- The header behind IPv6 extension headers, and where it starts: hop-by-hop options, routing and destination options (RFC 8200) and an
authentication header (RFC 4302), `n` at most, are passed. -/
def behindOptions (bs : List Byte) : Nat → Nat → Nat → Nat × Nat
  | 0, proto, o => (proto, o)
  | n + 1, proto, o =>
    let next := (bs.getD o 0).toNat
    let len := (bs.getD (o + 1) 0).toNat
    if proto = 0 ∨ proto = 43 ∨ proto = 60 then behindOptions bs n next (o + 8 * (len + 1))
    else if proto = 51 then behindOptions bs n next (o + 4 * (len + 2))
    else (proto, o)

/-- The TCP segment of an unfragmented packet, behind its outermost IP header. -/
def segmentOf (x : Packet) : Option Segment :=
  let status := (x.phv.getD 397 0).toNat
  match x.ip with
  | none => none
  | some h =>
    let v4 := (x.bytes.getD h 0).toNat / 16 == 4
    let (proto, t) := if v4 then ((x.bytes.getD (h + 9) 0).toNat, h + 4 * ((x.bytes.getD h 0).toNat % 16))
      else behindOptions x.bytes 16 (x.bytes.getD (h + 6) 0).toNat (h + 40)
    let total := if v4 then beNat (slice x.bytes (h + 2) 2) else 40 + beNat (slice x.bytes (h + 4) 2)
    let addrs := if v4 then slice x.bytes (h + 12) 8 else slice x.bytes (h + 8) 32
    if proto ≠ 6 ∨ bitOf status 4 ∨ bitOf status 5 then none
    else
      let flags := (x.bytes.getD (t + 13) 0).toNat
      some { key := addrs ++ natLe 1 proto ++ slice x.bytes t 4, seq := beNat (slice x.bytes (t + 4) 4)
             len := total - (t - h) - 4 * ((x.bytes.getD (t + 12) 0).toNat / 16), syn := bitOf flags 1, fin := bitOf flags 0 || bitOf flags 2 }

/-- The stream of a segment carries a DFA state that the segment is scanned from: one that begins at the next expected number (R161). -/
def State.carries (s : State) (g : Segment) : Bool :=
  !g.syn && s.net.streams.any fun x => x.key == g.key && x.carried && x.expect == g.seq

/-- The stream table follows a scanned segment of pipeline `p` (R161). A segment of no stream that carries no SYN is scanned
alone (log entry 28). The state stored is carried on where the segment had bytes to scan and at most 4 KiB of them. -/
def State.streamSegment (s : State) (p : Nat) (g : Segment) : State :=
  let others := s.net.streams.filter fun x => x.key != g.key
  let keep (s : State) (x : Stream) : State := { s with net := { s.net with streams := if g.fin then others else others ++ [x] } }
  if g.syn then
    if 1048576 ≤ others.length then (s.bump .PPL_STAT p 19).pipeSource p 4
    else keep s { key := g.key, expect := (g.seq + 1 + g.len) % 2 ^ 32, carried := decide (0 < g.len ∧ g.len ≤ 4096), lastAt := s.up, pipe := p }
  else match s.net.streams.find? fun x => x.key == g.key with
    | none => s
    | some x =>
      if (g.seq + 2 ^ 32 - x.expect) % 2 ^ 32 < 2 ^ 31 then
        keep s { x with expect := (g.seq + g.len) % 2 ^ 32, carried := (decide (0 < g.len) || s.carries g) && decide (g.len ≤ 4096), lastAt := s.up, pipe := p }
      else keep s { x with lastAt := s.up, pipe := p }

/-- What Snare's answer does to the packet it scanned: MATCH_ACT is executed on a match, and the verdict is final; a stale packet has
none (R153, R159, R160, R180). -/
def State.scanned (s : State) (p : Nat) (w : Walk) (ids : List (BitVec 32)) : State :=
  let w' := { w with pkt := { w.pkt with depthCut := decide (w.pkt.payload + 4096 < w.pkt.bytes.length) } }
  if s.stale w then s.dropStale w
  else if ids = [] then s.finalVerdict p w'
  else
    let first := slice ((ids.take 8).flatMap fun i => natLe 4 i.toNat) 0 32
    let r := s.doAction p (s.fld PPL_SCAN_PROF.MATCH_ACT p (w.scan.getD 0)) { w' with pkt := { w'.pkt with phv := overwrite w.pkt.phv 480 first } }
    r.1.finalVerdict p r.2

/-- SNARE_ANSWER (R153, R159 to R161, R165): Snare answers for the packet at a place of its queue with the identities of the
patterns that matched: `ids` those that a scan from the initial state finds, `onward` those from its stream's carried state, which is the scan
of a segment in order (R161). -/
def execSnareAnswer (place : Nat) (ids onward : List (BitVec 32)) (s : State) : Out :=
  match (if (List.range 8).any s.scannerServes then s.net.snare[place]? else none) with
  | none => .next s
  | some w =>
    let p := w.pkt.pipe
    let s := { s with net := { s.net with snare := s.net.snare.eraseIdx place } }
    let g := if s.isSet PPL_SCAN_PROF.STREAM p (w.scan.getD 0) then segmentOf w.pkt else none
    done ((g.elim s (s.streamSegment p)).scanned p w (if g.any s.carries then onward else ids)).flowControl

/-- STREAM_IDLE_EVICT (R161): a stream idle for STREAM_IDLE_S seconds, 0 acting as 1, is evicted. -/
def execStreamIdleEvict (stream : Nat) (s : State) : Out :=
  match s.net.streams[stream]? with
  | none => .next s
  | some x =>
    if s.up < x.lastAt + max 1 (s.fld PPL_REORDER_CFG.STREAM_IDLE_S x.pipe) * perSec then .next s
    else .next { s with net := { s.net with streams := s.net.streams.eraseIdx stream } }

/-! ## The flow tier's fetches, and stale packets -/

/-- FLOW_FETCH_DONE (R197, R198): the fetch of a key ends: the cache takes the entry, or its absence, and the packets parked
for the key resume in arrival order. -/
def execFlowFetchDone (t : Fin 256) (key : List Byte) (s : State) : Out :=
  if !s.isTier t || !s.tbl.fetches.contains key then .next s
  else
    let s := { s with tbl := { s.tbl with fetches := s.tbl.fetches.filter (· != key) } }
    let s := s.cacheFill (s.tierLine key)
    .next ((List.range 8).foldl (fun u p => u.onPipe p fun q =>
      { q with resumed := q.resumed ++ q.parked.filter (fun w => w.key == key), parked := q.parked.filter fun w => w.key != key }) s)

/-- STALE_DROP (R180): a packet before its verdict, 10 ms after its first lookup, is dropped. `place` counts the pipeline's
parked, resumed and held packets, then those of Snare. -/
def execStaleDrop (p : Fin 8) (place : Nat) (s : State) : Out :=
  let q := s.pipe p
  let mine := q.parked ++ q.resumed ++ q.held.toList
  let due (w : Walk) : Bool := s.stale w && w.pkt.pipe == p.val
  let drop (s : State) (w : Walk) : Out := done (s.dropStale w)
  match mine[place]? with
  | some w =>
    if !due w then .next s
    else drop (s.takeWalk p place) w
  | none =>
    match s.net.snare[place - mine.length]? with
    | some w =>
      if !due w then .next s
      else drop { s with net := { s.net with snare := s.net.snare.eraseIdx (place - mine.length) } } w
    | none => .next s

/-! ## Generations and the action memory -/

/-- A pipeline's ACTIVE flips and PENDING sets (R157). -/
def State.flip (s : State) (p : Nat) : State := (s.put PPL_GEN.ACTIVE (1 - s.fld PPL_GEN.ACTIVE p) p).put PPL_GEN.PENDING 1 p

/-- GEN_COMMIT (R157): a write of PPL_GEN; COMMIT flips the generation, or is refused while PENDING is 1. -/
def execGenCommit (_req : Requester) (p : Fin 8) (w : Word) (s : State) : Out :=
  if s.mode = NIGHT then .next s else
  let s := s.writeReg .PPL_GEN p 0 w
  if wfld w PPL_GEN.COMMIT = 0 then .next s
  else if s.isSet PPL_GEN.PENDING p then .next (s.put PPL_GEN.REFUSED 1 p)
  else .next (s.flip p)

/-- GLOBAL_COMMIT (R157): every pipeline named whose PENDING is 0 flips at one edge; the others are refused. -/
def execGlobalCommit (_req : Requester) (w : Word) (s : State) : Out :=
  if s.mode = NIGHT then .next s else
  let mask := wfld w PPL_GEN_GLOBAL.COMMIT_MASK
  let s := s.writeReg .PPL_GEN_GLOBAL 0 0 w
  if mask = 0 then .next s
  else
    let refused := ((List.range 8).filter fun p => bitOf mask p && s.isSet PPL_GEN.PENDING p).foldl (fun a p => a + 2 ^ p) 0
    .next (((List.range 8).filter fun p => bitOf mask p && !s.isSet PPL_GEN.PENDING p).foldl (fun t p => t.flip p)
      (s.put PPL_GEN_GLOBAL.REFUSED refused))

/-- GEN_FLIP_DONE (R157): OLD_COUNT has reached 0. -/
def execGenFlipDone (p : Fin 8) (s : State) : Out :=
  if s.isSet PPL_GEN.PENDING p ∧ s.oldCount p = 0 then done (((s.put PPL_GEN.PENDING 0 p).put PPL_GEN.DONE 1 p).pipeSource p 6)
  else .next s

/-- A write of PPL_ACT_ADDR (R150, R156): WRITE stores the four words of PPL_ACT_DATA, READ loads them. -/
def State.actCommand (s : State) (p : Nat) (w : Word) : State :=
  let s := s.writeReg .PPL_ACT_ADDR p 0 w
  let base := (p * 65536 + wfld w PPL_ACT_ADDR.INDEX) * 4
  let s := if wfld w PPL_ACT_ADDR.WRITE = 1 then
      { s with net := { s.net with actions := (List.range 4).foldl (fun m i => m.set 0 (base + i) (s.raw .PPL_ACT_DATA p i).toNat) s.net.actions } }
    else s
  if wfld w PPL_ACT_ADDR.READ = 1 then
    (List.range 4).foldl (fun t i => t.setRaw .PPL_ACT_DATA p i (BitVec.ofNat 64 (t.net.actions.get 0 (base + i)))) s
  else s

/-- ACT_WRITE (R156). -/
def execActWrite (_req : Requester) (p : Fin 8) (w : Word) (s : State) : Out := if s.mode = NIGHT then .next s else .next (s.actCommand p w)
/-- ACT_READ (R150). -/
def execActRead (_req : Requester) (p : Fin 8) (w : Word) (s : State) : Out := if s.mode = NIGHT then .next s else .next (s.actCommand p w)

/-! ## Dispatch and reorder -/

/-- The head of queue `k` of a node is selected and sent on. -/
def State.dispatch (s : State) (node k : Nat) : State :=
  let r := s.takeHead node k
  match r.2 with
  | some x => (r.1.sendSelected node x).flowControl
  | none => r.1

/-- The shapers on a queue's path are open. -/
def State.pathOpen (s : State) (node k : Nat) : Bool :=
  s.isSet SCH_L2_CFG.EN 0 node && s.shaperOpen (12288 + node) && s.shaperOpen (8192 + s.groupParent (k / 8)) && s.shaperOpen (k / 8)

/-- POOL_DISPATCH (R163, R209, R264): node 48 hands the head of an eligible queue of the pool to the pool's next able engine. -/
def execPoolDispatch (pool : Fin 16) (s : State) : Out :=
  let ks := (s.liveGroups 48).mergeSort.flatMap fun g => (List.range 8).map fun q => 8 * g + q
  match ks.find? fun k => s.queueEligible 48 k && s.pathOpen 48 k && (s.squeue k).head?.any fun x => x.dest == .pool pool with
  | some k => done (s.dispatch 48 k)
  | none => .next s

/-- REORDER_TIMEOUT (R164): the oldest unreturned packet of a domain is past its deadline: it is skipped, and the returned
packets behind it are released. -/
def execReorderTimeout (p : Fin 8) (domain : Nat) (s : State) : Out :=
  match (s.pipe p).reorder.get [] domain with
  | [] => .next s
  | e :: rest =>
    if s.modes.wakeSince.isSome ∨ e.deadline.all fun t => decide (s.up < t) then .next s
    else
      let s := s.onPipe p fun q => { q with reorder := q.reorder.set [] domain rest, skipped := q.skipped.modify [] domain fun l => l ++ [e.seq] }
      done (((s.bump .PPL_STAT p 13).pipeSource p 2).flushDomain p domain (rest.length + 1)).flowControl

end Sys2Proof.Machine
end

