-- ==== Sys2Proof/Machine/Scheduler.lean ====
section
/-! DEFINITION. The commands and events of the scheduler (10_scheduling_shaping), and of the HOLD logic and launch calendars
(R105 to R110). -/
namespace Sys2Proof.Machine

/-- Modes in which the scheduler moves frames (R121). -/
def State.framesFlow (s : State) : Bool := s.mode != NIGHT && s.mode != MIDNIGHT

/-- The global RX queue whose buffers the head frame of a scheduler queue needs, with its function. -/
def State.headRx (s : State) (k : Nat) : Option (Nat × Nat) :=
  match s.squeue k with
  | x :: _ => match x.dest with
    | .rx q => if s.isSarup q then none else (s.queueOwner q).map fun o => (o.1, q)
    | _ => none
  | [] => none

/-- The read of RX descriptors fails (R304, R315). -/
def State.rxReadFails (s : State) (f q : Nat) (e : AerError) : State :=
  (s.pcieError f e).haltQueue q stDmaError (idx ((s.pair q).C 1)) true

/-- FRAME_SELECT (R264 to R277, R302): an L2 node selects one frame and sends it on. For a frame to a host RX queue, `reply`
is what the read of its buffer descriptors answers: none yet, and the frame waits; or a failure, which halts the queue. -/
def execFrameSelect (node : Fin 52) (reply : Option CplStatus) (s : State) : Out :=
  if !s.framesFlow then .next s
  else
    let s := s.clearHeads node
    match s.pick node with
    | none => done s.flowControl
    | some (k, d, q) =>
      let go := done (({ s with net := { s.net with deficitL1 := d, deficitQ := q } }).dispatch node k)
      match s.headRx k with
      | none => go
      | some (f, g) =>
        match reply with
        | none => done (s.issueRead f (.rxDescriptors g))
        | some r => match cplError r with
          | some e => done (s.rxReadFails f g e)
          | none => go

/-- SHAPER_WRITE (R271): word 0 of shaper entry `k` is written; its token count becomes BURST or 0. -/
def execShaperWrite (_req : Requester) (k : Nat) (w : Word) (s : State) : Out :=
  if s.mode = NIGHT then .next s else
  if 12340 ≤ k then .next s
  else
    let w := w &&& BitVec.ofNat 64 (2 ^ 61 - 1)
    .next ((s.setRaw .SCH_SHAPER 0 (2 * k) w).setTokens k (if getBits w 60 60 = 0 then ((getBits w 55 32 * 1000000 : Nat) : Int) else 0))

/-- Bits of a policer word that hold a field. -/
def policerMask (i : Nat) : Nat :=
  match i % 4 with
  | 0 => 2 ^ 19 - 1
  | 1 => 2 ^ 64 - 1
  | 2 => 2 ^ 48 - 1
  | _ => 0

/-- POLICER_WRITE (R281): word `k` of a pipeline's policer memory is written; a write of word 0, 1 or 2 of an entry fills its
buckets or empties them, as RESET_TO then stands. Word 3 is read only. -/
def execPolicerWrite (_req : Requester) (p : Fin 8) (k : Nat) (w : Word) (s : State) : Out :=
  if s.mode = NIGHT then .next s else
  if 32768 ≤ k ∨ k % 4 = 3 then .next s
  else
    let s := s.setRaw .PPL_POLICER p k (w &&& BitVec.ofNat 64 (policerMask k))
    let i := k / 4
    let full := !bitOf (s.policerWord p i 0) 6
    let w2 := s.policerWord p i 2
    let b : PolicerState := if full then { tc := bits w2 23 0 * 1000000, te := bits w2 47 24 * 1000000, edge := s.edges } else { edge := s.edges }
    .next { s with net := { s.net with policers := s.net.policers.set {} (8192 * p + i) b } }

/-- A write refused under R266. -/
def State.refuseSched (s : State) : State := (s.put SCH_STATUS.REFUSED 1).fire 25 5 0 initSched

/-- GROUP_WRITE (R266): word `k` of SCH_GROUP is written; a change of PARENT while a queue of the group holds a frame is
refused. -/
def execGroupWrite (_req : Requester) (k : Nat) (w : Word) (s : State) : Out :=
  if s.mode = NIGHT then .next s else
  if 16384 ≤ k then .next s
  else if k % 2 = 0 ∧ getBits w 11 0 ≠ s.groupParent (k / 2) ∧ s.groupFrames (k / 2) ≠ [] then done s.refuseSched
  else .next (s.setRaw .SCH_GROUP 0 k (w &&& BitVec.ofNat 64 (if k % 2 = 0 then 2 ^ 64 - 1 - 0xE000 else 2 ^ 40 - 1)))

/-- L1_WRITE (R266): an L1 node is written; a change of PARENT while a group of the node holds a frame is refused. -/
def execL1Write (_req : Requester) (k : Nat) (w : Word) (s : State) : Out :=
  if s.mode = NIGHT then .next s else
  if 4096 ≤ k then .next s
  else if getBits w 5 0 ≠ s.l1Parent k ∧ (s.net.queues.keys.map (· / 8)).any fun g => s.groupParent g == k then done s.refuseSched
  else .next (s.setRaw .SCH_L1 0 k (w &&& BitVec.ofNat 64 (2 ^ 28 - 1 - 0x80)))

/-! ## HOLD and LAUNCH -/

/-- A held frame at a place of a node's HOLD logic leaves it. -/
def State.unhold (s : State) (node place : Nat) : State :=
  { s with net := { s.net with holds := s.net.holds.modify [] node fun l => l.eraseIdx place } }

/-- A frame released goes to its output. One with LAUNCH waits in its HOLD place until its calendar takes it (R109, R110), and one for an
engine or a host queue until that can take it (R264), so that neither is lost. Of the first R110 says only that it enters the calendar
under R109 (DESIGN CHOICE, log entry 179). -/
def State.afterHold (s : State) (node place : Nat) (h : HeldFrame) : State :=
  let waits : Bool := match h.pkt.dest with
    | .port _ => s.launchWaits h.pkt
    | .rx q => (s.queueOwner q).isSome && (s.pair q).state == ACTIVE && !s.outputTakes h.pkt
    | .pool _ => !s.outputTakes h.pkt
    | _ => false
  if waits then { s with net := { s.net with holds := s.net.holds.modify [] node fun l => l.set place { h with released := true } } }
  else (s.unhold node place).toOutput h.pkt

/-- HOLD_RELEASE (R19, R105, R108, R432): a held frame is released once earliest has reached its HOLD value; one released that waits
for an engine or a host queue goes on when that takes it. -/
def execHoldRelease (node : Fin 52) (place : Nat) (s : State) : Out :=
  match (s.net.holds.get [] node)[place]? with
  | none => .next s
  | some h =>
    if !s.framesFlow then .next s
    else if h.released then
      (match h.pkt.dest with
      | .port _ => .next s
      | _ => done (s.afterHold node place h).flowControl)
    else if !s.holdReached h.pkt then .next s
    else
      let s := s.sample 6 node (ts64Of h.since : Int) (s.ts64 : Int) s.sagCommon
      done (s.afterHold node place h).flowControl

/-- HOLD_MAX_MS in force. -/
def State.holdMax (s : State) : Nat := ofMs (max 1 (s.fld CAR_HOLD_CFG.HOLD_MAX_MS))

/-- HOLD_EXPIRY (R107): a frame held for HOLD_MAX_MS is discarded, and completes HOLD_EXPIRED. -/
def execHoldExpiry (node : Fin 52) (place : Nat) (s : State) : Out :=
  match (s.net.holds.get [] node)[place]? with
  | none => .next s
  | some h =>
    if h.released || decide (s.up < h.sinceUp + s.holdMax) then .next s
    else done ((s.unhold node place).dropSelected h.pkt stHoldExpired).flowControl

/-- LAUNCH_ENTER (R109, R110): a frame of scheduler queue `queue` enters the calendar of port `p`: a frame released from HOLD,
or the head of the queue, selected. -/
def execLaunchEnter (p : Fin 32) (queue : Nat) (s : State) : Out :=
  match (s.net.holds.get [] p).findIdx? fun h => h.released && h.pkt.l0 == queue && h.pkt.dest == .port p with
  | some i =>
    match (s.net.holds.get [] p)[i]? with
    | some h => if s.launchWaits h.pkt then .next s else done ((s.unhold p i).toOutput h.pkt)
    | none => .next s
  | none =>
    let s := s.clearHeads p
    let heads := (s.squeue queue).head?.any fun x => x.dest == .port p && x.launch != 0
    if heads ∧ s.queueEligible p queue ∧ s.pathOpen p queue then done (s.dispatch p queue) else done s

/-- 8 ns after T the calendar's frame is LATE; up to 8 ns before it is due (R109, R110). -/
def launchSlack : Int := 8 * perNs

/-- LAUNCH_SEND (R109, R110, R126): the calendar entry at a place is sent at its slot: its first bit would pass the timestamp point no
more than 8 ns before T, no entry before it is due too, the port is free and no pause holds the frame. Past T by more than 8 ns it
is LATE. -/
def execLaunchSend (p : Fin 32) (place : Nat) (phase : Fin 128) (s : State) : Out :=
  let l := s.net.calendar.get [] p
  match l[place]? with
  | none => .next s
  | some x =>
    let stamp := s.txStamp p phase
    let due (y : Packet) : Bool := decide (((y.launch * perQuarter : Nat) : Int) ≤ stamp + launchSlack)
    if !s.portCarries p || s.sendsPattern p || s.pausedFrame p x || !s.portFree p phase || !due x || (l.take place).any due then .next s
    else
      let late := decide (((x.launch * perQuarter : Nat) : Int) + launchSlack < stamp)
      let s := { s with net := { s.net with calendar := s.net.calendar.set [] p (l.eraseIdx place) } }
      done (s.txFrame p { x with late := x.late || late } phase).flowControl

end Sys2Proof.Machine
end

