-- ==== Sys2Proof/Machine/HlOps.lean ====
section
/-! DEFINITION. Resets of host links and functions (R323 to R326), the end of non-posted requests (R314, R315, R327). -/
namespace Sys2Proof.Machine

/-- Lanes of the groups that a link occupies (R309). -/
def State.linkLanes (s : State) (l : Nat) : Nat := 4 * (2 ^ s.fld HL_LINK_CFG.WIDTH l / 2)

/-- A link is in common-clock mode (R312): CLK 0b00, and 0b11, which acts as it. -/
def State.commonClock (s : State) (l : Nat) : Bool := s.fld HL_LINK_CFG.CLK l == 0 || s.fld HL_LINK_CFG.CLK l == 3

/-- CLKREQ#[L] is asserted: the link needs its common reference (R313). -/
def State.clkreq (s : State) (l : Nat) : Bool := s.linkExists l && s.commonClock l && s.mode != NIGHT

/-- The reference of a link (R312): pin PCIE_REFCLK of its groups with a common clock; else none, the clock derived from REF25_IN. -/
def State.refClock (s : State) (l : Nat) : Option Nat := if s.commonClock l then some (l / 4) else none

/-- What a function reports of itself (R318). -/
structure FnIdentity where
  vendor : Nat := 0x1E6F
  subVendor : Nat := 0x1E6F
  subsystem : Nat := 0x9640
  revision : Nat := 0x21
  device : Nat
  cls : Nat
deriving DecidableEq, Repr

/-- The functions show the identities of DAWN and TWILIGHT (R27, R316); those of the mode left stay in MIDNIGHT. -/
def State.bootIdentity (s : State) : Bool :=
  let boot (m : Nat) : Bool := m == DAWN || m == TWILIGHT
  boot s.mode || (s.mode == MIDNIGHT && boot s.modes.left)

/-- The identity of function `f`, where it is present (R27, R316, R318). -/
def State.identity (s : State) (f : Nat) : FnIdentity :=
  let net := if f < 32 then f % 2 == 0 else (s.pfOf f).all fun p => p % 2 == 0
  { device := if s.bootIdentity then 0x964F else (if net then 0x9640 else 0x9641) + (if f < 32 then 0 else 2)
    cls := if net then 0x020000 else 0x010802 }

/-- The routing ID of a function relative to its link's PF 0 (R318). -/
def State.routingOffset (s : State) (f : Nat) : Nat :=
  match s.pfOf f with
  | some pf => if f < 32 then f % 2 else if pf % 2 = 0 then 2 + s.vfNumber f else 2 + s.vfCeiling (pf - 1) + s.vfNumber f
  | none => 0

/-- First VF Offset of a PF; VF Stride is 1 (R318). -/
def State.firstVfOffset (s : State) (pf : Nat) : Nat := if pf % 2 = 0 then 2 else 1 + s.vfCeiling (pf - 1)

/-- The capabilities of the table *Capabilities per function* (R320): those of every function, of every PF, of network PFs, of none. -/
inductive Capability where
  | pcie | power | msix | aer | ari | acs
  | sriov | doe | serial
  | ptm | ide | secondary | phys16 | phys32 | phys64 | dataLinkFeature | laneMargining | l1Pm | flitLogging
  | msi
deriving DecidableEq, Repr

/-- A function has a capability (R320). -/
def hasCapability (f : Nat) : Capability → Bool
  | .pcie | .power | .msix | .aer | .ari | .acs => true
  | .sriov | .doe | .serial => decide (f < 32)
  | .msi => false
  | _ => decide (f < 32) && f % 2 == 0

/-- PF 0's PTM capability (R330): Requester Capable, Responder Capable, Root Capable. Clearing Bus Master Enable does not stop PTM. -/
def ptmCapability : Bool × Bool × Bool := (true, false, false)

/-- What configuration space reports of VFs: the ceiling of a PF, or none in DAWN and TWILIGHT (R316, R319). -/
def State.totalVfs (s : State) (pf : Nat) : Nat := if s.bootIdentity then 0 else s.vfCeiling pf

/-- The functions that VF Enable of a PF presents. -/
def State.enabledVfs (s : State) (pf : Nat) : List Nat :=
  if s.vfEnabled pf then (List.range (min (s.numVfs pf) (s.vfCeiling pf))).map fun k => 32 + s.vfBase pf + k else []

/-- VF Enable and NumVFs of a PF. -/
def State.setVfs (s : State) (pf : Nat) (on : Bool) (n : Nat) : State :=
  if pf % 2 = 0 then (s.put HL_SRIOV_STATUS.VFE_NET (b2n on) (pf / 2)).put HL_SRIOV_STATUS.NUMVFS_NET n (pf / 2)
  else (s.put HL_SRIOV_STATUS.VFE_NVME (b2n on) (pf / 2)).put HL_SRIOV_STATUS.NUMVFS_NVME n (pf / 2)

/-- A queue of a function that is reset: DISABLED, its chains gone with their completions. -/
def QueuePair.off (q : QueuePair) : QueuePair := { q with state := DISABLED, enable := false, chains := [] }

/-- The held frames and pending tokens of a function are discarded (R107, R113, R326). -/
def State.quiesceFn (s : State) (f : Nat) : State :=
  let s := ((List.range (s.qpCount f)).map (s.globalQueue f)).foldl State.stopHeld s
  s.tokenDiscard fun r => r.fn == f

/-- The configuration space of a function at its reset values; AER stays, being sticky. -/
def PcieFn.afterReset (p : PcieFn) : PcieFn := { aer := p.aer, aerMask := p.aerMask, aerSwapped := p.aerSwapped, aerHeader := p.aerHeader }

/-- The state of a function is reset (R323): configuration space, MSI-X table and PBA, queues, mailbox, Sarup side, controller.
Its FNC_RES_ registers stay. -/
def State.resetFn (s : State) (f : Nat) : State :=
  let s := s.quiesceFn f
  let s := ((List.range (s.qpCount f)).map (s.globalQueue f)).foldl (fun t g => t.onPair g QueuePair.off) s
  let s := ((s.mbxResetFn f).xptFnReset f).nvmFnReset f
  (s.onFn f fun _ => {}).onPcie f PcieFn.afterReset

/-- IDE streams and keys of a link are erased, and the link's source tells of a stream that left Secure (R323, R329); PTM stops (R93). -/
def State.clearIde (s : State) (l : Nat) : State :=
  let was := s.fld HL_IDE_STATUS.STATE l != 0
  let s := (s.put HL_IDE_STATUS.STATE 0 l).onSec fun x => { x with ideKeys := x.ideKeys.keep fun k => k / 16 != l }
  if was then s.linkEvent l 6 else s
def State.clearPtm (s : State) (l : Nat) : State := (s.put CAR_LINK_STATUS.PTM_ON 0 0 l).loseMap l

/-- The data of a read will not come, or are discarded: a DMA COPY that waits for them ends with HOST_ERROR (R315, R371). The other users
read again, or are reset with their function. -/
def State.readLost (s : State) (r : HostRead) : State :=
  match r.use with
  | .copy m => s.copyFails m 1
  | _ => s

/-- The reads of a link that `p` picks leave, their tags void (R327). -/
def State.voidReads (s : State) (l : Nat) (p : HostRead → Bool) : State :=
  let gone := (s.hlink l).reads.filter p
  gone.foldl State.readLost (s.onLink l fun k => { k with reads := k.reads.filter fun r => !p r, void := k.void ++ gone.map fun r => (r.tag, s.up) })

/-- A fundamental or hot reset, or a link down (R323): every function of the link is reset, IDE, PTM, DOE and SPDM sessions end; a
fundamental reset clears AER too. -/
def State.resetLink (s : State) (l : Nat) (fundamental : Bool) (lane : Nat := 0) : State :=
  let fns := s.fnsOfLink l
  let was := s.isSet HL_LINK_STATUS.UP l
  let s := ((s.put HL_LINK_STATUS.UP 0 l).put HL_LINK_STATUS.LTSSM 0 l).put HL_LINK_STATUS.LANES 0 l
  let s := ((s.put HL_LINK_STATUS.SPEED 0 l).put HL_LINK_STATUS.FLIT 0 l).put HL_LINK_STATUS.REVERSED 0 l
  let s := fns.foldl (fun t f => if t.isNvmeFn f then t.endController f else t) s
  let s := fns.foldl State.resetFn s
  let s := if fundamental then fns.foldl (fun t f => t.onPcie f fun _ => {}) s else s
  let s := ((s.setVfs (2 * l) false 0).setVfs (2 * l + 1) false 0).voidReads l fun _ => true
  let s := (s.clearIde l).clearPtm l
  if was then ((s.bump .HL_STAT l 6).sat HL_LINK_STATUS.DOWN_COUNT 1 l).linkEvent l 0 lane else s

/-! ## Function Level Reset (R326) -/

/-- Quiesce (R326, step 1): the commands of a controller end, then the function issues nothing more; what it holds is discarded. -/
def State.startFlr (s : State) (f : Nat) : State :=
  if (s.pcie f).flr.isSome then s
  else
    let s := if s.isNvmeFn f then s.endController f else s
    (s.onPcie f fun p => { p with flr := some s.up }).quiesceFn f

/-- No read of a function is outstanding. -/
def State.drainedFn (s : State) (f : Nat) : Bool :=
  match s.linkOf f with
  | some l => !(s.hlink l).reads.any fun r => r.fn == f
  | none => true

/-- The FLR of a function ends (R326, step 3): it is counted, and FLR_SEEN and the function-state source tell of it. -/
def State.endFlr (s : State) (l : Nat) (fns : List Nat) : State :=
  let s := fns.foldl State.resetFn s
  ((s.bump .HL_STAT l 5).put HL_SRIOV_STATUS.FLR_SEEN 1 l).linkEvent l 5

/-! ## Bus Master Enable (R325) -/

/-- A queue halts with BME_OFF: no completion and no message. -/
def State.bmeHalt (s : State) (f g : Nat) : State :=
  let st := (s.pair g).state
  if st = ACTIVE ∨ st = STOPPING then
    let s := (s.onPair g fun q => { q with state := HALTED, err := stBmeOff, errIndex := 0 }).bump .FNC_FN_STAT f 4
    match s.linkOf f with
    | some l => s.linkEvent l 4
    | none => s
  else s

/-! ## The end of reads (R315, R327) -/

/-- The completion timeout of a link. -/
def State.cplTimeout (s : State) (l : Nat) : Nat := ofMs (within (s.fld HL_LINK_CTL.CPL_TO_MS l) 1 50)

/-- The user of a read learns that it failed; the error is logged in the function. -/
def State.readFails (s : State) (r : HostRead) (e : AerError) : State :=
  match r.use with
  | .txDescriptors f q => s.txReadFails f q e
  | .rxDescriptors q => s.rxReadFails r.fn q e
  | .nvmeCommand f _ => s.cmdReadFails f e
  | .copy m => (s.pcieError r.fn e).copyFails m 1
  | .sarup c psn => s.sarupReply c psn (some e)

/-- The user of a read gets its data. -/
def State.readEnds (s : State) (r : HostRead) : State :=
  match r.use with
  | .txDescriptors f q =>
    let g := s.globalQueue f q
    if (s.pair g).state ≠ ACTIVE then s else if s.isSarup g then s.sarupFetch f q else s.fetchChain f q
  | .rxDescriptors _ => s
  | .nvmeCommand f sq => s.fetchCmd f sq
  | .copy m => s.copyMove m
  | .sarup c psn => s.sarupReply c psn none

/-- A read leaves the link's list. -/
def State.dropRead (s : State) (l tag : Nat) : State := s.onLink l fun k => { k with reads := k.reads.filter fun r => r.tag != tag }

/-- A function whose controller waits for its reads to end sees them end (R368). -/
def State.afterRead (s : State) (f : Nat) : State := if s.isNvmeFn f then s.rdyFalls f else s

end Sys2Proof.Machine
end

