-- ==== Sys2Proof/Machine/SecOps.lean ====
section
/-! DEFINITION. The root of trust: measurements (R406), image checks (R403, R404), keys (R392 to R396), the entry to MIDNIGHT of R415. -/
namespace Sys2Proof.Machine

/-! ## Measurements -/

/-- The 48 bytes of measurement `n`. -/
def State.measurement (s : State) (n : Nat) : List Byte := wordBytes ((List.range 6).map fun w => s.raw .SEC_MEASURE 0 (8 * n + w))

/-- Measurement `n` is extended: SHA-384 of the old value and the new (R406). -/
def State.extend (s : State) (n : Nat) (value : List Byte) : State :=
  let new := leWords 6 (hash384 (s.measurement n ++ value))
  ((List.range 6).foldl (fun t w => t.setRaw .SEC_MEASURE 0 (8 * n + w) (new.getD w 0)) s).bump .SEC_MEASURE 0 (8 * n + 6)

/-- The 48-byte value that SEC forms from what it measures (log entry 21): the spec names what is measured, not its layout. -/
def algMeasured : Nat := 159
def measured (n : Nat) (parts : List (List Byte)) : List Byte := algo algMeasured (natLe 1 n :: parts) 48

/-- Measurement 2: LIFECYCLE, DEBUG_UNLOCKED and the mode. -/
def State.extendMode (s : State) : State :=
  s.extend 2 (measured 2 [natLe 1 (s.fld SEC_LIFECYCLE.STATE), natLe 1 (s.fld SEC_LIFECYCLE.DEBUG_UNLOCKED), natLe 1 s.mode])

/-- What the boot ROM measures before any image: itself, the OTP slot and revoke fields, the lifecycle; and the configuration block
where one is accepted. -/
def State.bootMeasures (s : State) (config : Option (List Word)) : State :=
  let s := s.extend 0 (measured 0 [])
  let s := s.extend 1 (measured 1 (natLe 1 (s.raw .SEC_SLOT_STATUS).toNat :: (List.range 4).map fun k => s.sec.slots.get [] k))
  let s := s.extendMode
  match config with
  | some ws => s.extend 5 (measured 5 [wordBytes ws])
  | none => s

/-! ## Images (R404) -/

/-- Little-endian field of a byte string. -/
def leAt (bs : List Byte) (o n : Nat) : Nat := leNat (slice bs o n)

/-- Bytes `o` to `o + n - 1` are zero. -/
def zeroAt (bs : List Byte) (o n : Nat) : Bool := (slice bs o n).all (· == 0)

/-- Fields of a manifest. -/
def imgKind (img : List Byte) : Nat := leAt img 6 2
def imgSvn (img : List Byte) : Nat := leAt img 8 4
def imgSlot (img : List Byte) : Nat := leAt img 0xC 1
def imgLoad (img : List Byte) : Nat := leAt img 0x10 8
def imgBodyLen (img : List Byte) : Nat := leAt img 0x20 4
def imgHash (img : List Byte) : List Byte := slice img 0x30 48
def imgKeys (img : List Byte) : List Byte := slice img 0x60 (97 + 2592)
def imgSigned (img : List Byte) : List Byte := slice img 0 0xAE8

/-- The body follows at partition offset 0x2000 (R403); an image that a mailbox delivers is laid out the same (DEDUCED, log entry 42). -/
def bodyAt : Nat := 0x2000
def imgBody (img : List Byte) : List Byte := slice img bodyAt (imgBodyLen img)

/-- A slot is programmed and not revoked, and its hash is that of the keys. -/
def State.slotHolds (s : State) (slot : Nat) (keys : List Byte) : Bool :=
  decide (slot < 4) && bitOf (s.fld SEC_SLOT_STATUS.PROGRAMMED) slot && !bitOf (s.fld SEC_SLOT_STATUS.REVOKED) slot &&
    s.sec.slots.get [] slot == hash384 keys

/-- The two signatures over `bytes` (log entry 21): ECDSA P-384 over SHA-384, ML-DSA-87. -/
def ecdsaOk (key bytes sig : List Byte) : Bool := algoOk algEcdsa [key, hash384 bytes, sig]
def mlDsaOk (key bytes sig : List Byte) : Bool := algoOk algMlDsa [key, bytes, sig]

/-- The first check of R404 that an image of a KIND fails, 1 to 6; 0 where it passes them all. -/
def State.imageCheck (s : State) (kind : Nat) (img : List Byte) : Nat :=
  let signed := imgSigned img
  if slice img 0 4 ≠ [0x45, 0x48, 0x49, 0x4D] ∨ leAt img 4 2 ≠ 1 ∨ imgKind img ≠ kind ∨ !zeroAt img 0xD 3 ∨ !zeroAt img 0x24 12 ∨
      !zeroAt img 0xAE1 7 ∨ 0x1FFE000 < imgBodyLen img then 1
  else if !s.slotHolds (imgSlot img) (imgKeys img) then 2
  else if !ecdsaOk (slice img 0x60 97) signed (slice img 0xAE8 96) then 3
  else if !mlDsaOk (slice img 0xC1 2592) signed (slice img 0xB48 4627) then 4
  else if imgSvn img < s.fld (SEC_ROLLBACK.COUNTER kind) then 5
  else if hash384 (imgBody img) ≠ imgHash img then 6
  else 0

/-- KIND of the image that the current mode runs: the primary in DAWN, a recovery image in TWILIGHT. -/
def State.bootKind (s : State) : Nat := if s.mode = TWILIGHT then 1 else 0

/-- The boot ROM is about an image: DAWN or TWILIGHT, and none of that mode runs. -/
def State.booting (s : State) : Bool := (s.mode == DAWN || s.mode == TWILIGHT) && s.sec.svn.get none s.bootKind == none

/-- An accepted image runs (R404, R406, R408, R409): its body is in DDR, measurements 3 and 4 are extended, the keys above are derived and
their certificates issued. -/
def State.runImage (s : State) (img : List Byte) (source : Nat) : State :=
  let k := imgKind img
  let s := ((s.put SEC_BOOT_STATUS.SOURCE source).put SEC_BOOT_STATUS.SLOT (imgSlot img)).put SEC_BOOT_STATUS.SVN (imgSvn img)
  let s := s.put SEC_BOOT_STATUS.GOLDEN (b2n (source == 3))
  let s := (s.ddrWrite (imgLoad img) (imgBody img)).onSec fun x => { x with svn := x.svn.set none k (some (imgSvn img)), waitsImage := false }
  let s := (s.extend 3 (measured 3 [imgSigned img])).extend 4 (imgHash img)
  s.deriveIdentity (s.sec.slots.get [] (imgSlot img)) k (imgSvn img)

/-! ## Keys (R392 to R396) -/

/-- Key, images and cache are gone, as the table key is drawn anew (R392, R396). -/
def State.eraseKeys (s : State) : State := s.onSec fun x => { x with cache := [], images := {}, deleting := none, ideKeys := {} }

/-- Results of CRY_KEY_STATUS. -/
def krOk : Nat := 0
def krBusy : Nat := 1
def krUnwrap : Nat := 3
def krAlg : Nat := 4
def krNotFound : Nat := 5
def krLocked : Nat := 6

/-- A key command ends (R393): its result, and the operands cleared. -/
def State.keyEnds (s : State) (result : Nat) : State :=
  let s := (s.put CRY_KEY_STATUS.RESULT result).put CRY_KEY_STATUS.BUSY 0
  let s := (List.range 8).foldl (fun t w => t.setRaw .CRY_KEY_DATA 0 w 0) s
  if result = krBusy ∨ result = krAlg ∨ result = krLocked then s.put CRY_KEY_STATUS.REFUSED 1 else s

/-- The image of a key as wrapped under the table key in force (log entry 21). -/
def State.wrapped (s : State) (i : Nat) (k : KeyEntry) : List Byte :=
  algo algKeyWrap [natLe 8 s.free, natLe 4 i, natLe 1 k.alg, natLe 1 k.use, natLe 2 k.clusters, k.material] 128

/-- A key is stored at an index: in DDR, wrapped and bound to the index. -/
def State.storeKey (s : State) (i : Nat) (k : KeyEntry) : State :=
  let img := s.wrapped i k
  ((s.ddrWrite (s.keyAddr i) img).onSec fun x => { x with images := ⟨Store.put i (img, k) x.images.entries⟩, cache := x.cache.filter fun e => e.1 != i }).drawn

/-- The key a command word and its key bytes describe; an HMAC key is 64 bytes, zero-padded (R394). -/
def keyOf (w : Word) (material : List Byte) : KeyEntry :=
  { alg := wfld w CRY_KEY_CMD.ALG, use := wfld w CRY_KEY_CMD.USE, clusters := wfld w CRY_KEY_CMD.CLUSTERS
    material := slice material 0 (keyLength (wfld w CRY_KEY_CMD.ALG)) }

/-- The 64 bytes of CRY_KEY_DATA. -/
def State.keyData (s : State) : List Byte := wordBytes ((List.range 8).map fun w => s.raw .CRY_KEY_DATA 0 w)

/-- LOAD (R393). -/
def State.keyLoad (s : State) (w : Word) : State :=
  let i := wfld w CRY_KEY_CMD.INDEX
  let r := s.readKey i
  if 5 < wfld w CRY_KEY_CMD.ALG then s.keyEnds krAlg
  else if r.2.isSome then r.1.keyEnds krBusy
  else (r.1.storeKey i (keyOf w s.keyData)).keyEnds krOk

/-- IMPORT (R393): the blob unwraps under a KEK, and its attribute word agrees with the command. -/
def State.keyImport (s : State) (w : Word) : State :=
  let i := wfld w CRY_KEY_CMD.INDEX
  let n := keyLength (wfld w CRY_KEY_CMD.ALG)
  let r := s.readKey i
  if 5 < wfld w CRY_KEY_CMD.ALG then s.keyEnds krAlg
  else if r.2.isSome then r.1.keyEnds krBusy
  else
    let blob := r.1.ddrRead (s.raw .CRY_KEY_DATA 0 0).toNat (16 + n)
    let q := r.1.readKey (getBits (s.raw .CRY_KEY_DATA 0 1) 19 0)
    match q.2 with
    | none => q.1.keyEnds krUnwrap
    | some kek =>
      let plain := algo algKeyUnwrap [kek.material, blob] (8 + n)
      if kek.alg ≠ 5 ∨ !algoOk algKeyUnwrap [kek.material, blob] ∨ leAt plain 0 8 ≠ getBits w 47 24 then q.1.keyEnds krUnwrap
      else (q.1.storeKey i (keyOf w (plain.drop 8))).keyEnds krOk

/-- An operation that read key `i` runs still. -/
def State.keyInUse (s : State) (i : Nat) : Bool := s.sec.jobs.any fun j => j.msg.cKey == i && j.key.isSome

/-- DELETE (R395): for every later reader the key is gone; the command stays BUSY while an operation that read it runs. -/
def State.keyDelete (s : State) (w : Word) : State :=
  let i := wfld w CRY_KEY_CMD.INDEX
  let r := s.readKey i
  if r.2.isNone then r.1.keyEnds krNotFound
  else
    let s := (r.1.ddrWrite (s.keyAddr i) (List.replicate 128 0)).onSec fun x =>
      { x with cache := x.cache.filter fun e => e.1 != i, images := x.images.keep fun k => k != i }
    if s.keyInUse i then (s.onSec fun x => { x with deleting := some i }).put CRY_KEY_STATUS.BUSY 1 else s.keyEnds krOk

/-- QUERY (R393). -/
def State.keyQuery (s : State) (w : Word) : State :=
  let r := s.readKey (wfld w CRY_KEY_CMD.INDEX)
  match r.2 with
  | none => ((((r.1.put CRY_KEY_STATUS.VALID 0).put CRY_KEY_STATUS.ALG 0).put CRY_KEY_STATUS.USE 0)).keyEnds krOk
  | some k => ((((r.1.put CRY_KEY_STATUS.VALID 1).put CRY_KEY_STATUS.ALG k.alg).put CRY_KEY_STATUS.USE k.use)).keyEnds krOk

/-- A write of CRY_KEY_CMD: not while a command runs; LOCKED in MIDNIGHT (R415); an OP the register does not define is refused. -/
def State.keyCommand (s : State) (w : Word) : State :=
  if s.isSet CRY_KEY_STATUS.BUSY then s.put CRY_KEY_STATUS.REFUSED 1
  else if s.mode = MIDNIGHT then s.keyEnds krLocked
  else match wfld w CRY_KEY_CMD.OP with
    | 1 => s.keyLoad w
    | 2 => s.keyImport w
    | 3 => s.keyDelete w
    | 4 => s.keyQuery w
    | _ => s.put CRY_KEY_STATUS.REFUSED 1

end Sys2Proof.Machine
end

