-- ==== Sys2Proof/Machine/ModeOps.lean ====
section
/-! DEFINITION. Changes of mode (R23 to R34, R524): requests, triggers, what entering each mode does, and what the boot ROM sets up on
the way to DAWN and TWILIGHT (R121, R166, R182, R282, R308, R310). -/
namespace Sys2Proof.Machine

/-! ## Requests and triggers -/

/-- The transitions a manager may request (R24, R25), but for MIDNIGHT. -/
def requestable (m t : Nat) : Bool :=
  (m == DAWN && t == DAY) || (m == DAY && (t == NOON || t == EVENING)) || ((m == NOON || m == EVENING) && t == DAY) ||
    ((m == DAY || m == NOON || m == EVENING) && t == DUSK)

/-- A transition begins: TRANSIT, and the target in REQ. `rank` is the trigger's place in the order of R26 (0 for the end of a drain,
which meets no other request), `init` the initiator of a request. A wake from EVENING starts (R33). -/
def State.beginTransition (s : State) (t : Nat) (auto : Bool) (rank : Nat := 0) (init : Nat := 0) : State :=
  let was := s.mode
  let s := (s.put GLB_MODE.TRANSIT 1).put GLB_MODE.REQ t
  { s with modes := { s.modes with
      auto
      began := some { edge := s.edges, rank, init }
      wakeSince := if was = EVENING ∧ t = DAY then some s.up else none } }

/-- A mode request is refused (R25). -/
def State.refuseMode (s : State) (init : Nat) : State := (s.put GLB_MODE.REFUSED 1).fire 0 0 0 init

/-- The transition in progress began at this very edge, by a trigger of this place in the order of R26: it meets the present trigger
in one cycle (log entry 160). -/
def State.meets (s : State) (rank : Nat) : Bool :=
  s.isSet GLB_MODE.TRANSIT && s.modes.began.any fun b => b.edge == s.edges && b.rank == rank

/-- A security trigger (R414): its cause bit is set; outside MIDNIGHT it abandons any transition and starts the entry to MIDNIGHT. A
manager's request that it meets in one cycle loses and is refused (R26). -/
def State.securityTrigger (s : State) (k : Nat) : State :=
  if s.mode = NIGHT then s else
  let s := s.put ⟨.SEC_TRIGGER, 16 + k, 16 + k⟩ 1
  if s.mode = MIDNIGHT then s
  else
    let s := if s.meets 3 then s.refuseMode ((s.modes.began.map (·.init)).getD 0) else s
    s.beginTransition MIDNIGHT false 2

/-- The drain of DUSK ends (R30): the part moves to the mode in DUSK_END. -/
def State.endDrain (s : State) : State := s.beginTransition (if s.isSet GLB_MODE.DUSK_END then DAY else NIGHT) false

/-- A write of GLB_MODE (R25, R30): the plain fields take effect, FORCE acts in DUSK, and REQ other than MODE requests a mode. REQ
reads the target of a transition, or MODE. An automatic transition that began in the same cycle loses (R26). A write in DUSK with
FORCE = 1 whose REQ names another mode ends the drain, FORCE being a field of its own, and its request is refused, a transition being
in progress then (DESIGN CHOICE, log entry 167: R25 speaks of the other fields only where REQ equals MODE). -/
def State.writeMode (s : State) (init : Nat) (w : Word) : State :=
  let t := wfld w GLB_MODE.REQ
  let u := ((s.writeReg .GLB_MODE 0 0 w).put GLB_MODE.REQ (s.fld GLB_MODE.REQ)).put GLB_MODE.FORCE 0
  if t = s.mode then
    if wfld w GLB_MODE.FORCE = 1 ∧ s.mode = DUSK ∧ !s.isSet GLB_MODE.TRANSIT then u.endDrain else u
  else if t = MIDNIGHT then u.securityTrigger 0
  else
    let u := if wfld w GLB_MODE.FORCE = 1 ∧ s.mode = DUSK ∧ !s.isSet GLB_MODE.TRANSIT then u.endDrain else u
    if requestable s.mode t ∧ (!s.isSet GLB_MODE.TRANSIT ∨ s.meets 4) then u.beginTransition t false 3 init else u.refuseMode init

/-- AUTO_ENTER in force (R34). -/
def State.autoEnter (s : State) : Bool :=
  s.isSet GLB_EVENING_CTL.AUTO_ENTER && decide (s.fld GLB_EVENING_CTL.DOWN_KIB < s.fld GLB_EVENING_CTL.UP_KIB)

/-- No thread runs or holds a packet (R31). -/
def State.enginesIdle (s : State) : Bool :=
  s.tbe.threads.entries.all fun e =>
    e.2.slots.isEmpty && (!s.clusterRuns (clusterOf e.1) || e.2.halted || e.2.waits || e.2.mode == .idle || e.2.mode == .faulted)

/-- No request of a lookaside unit, cipher or compression, is queued or runs (R31). -/
def State.lookasideIdle (s : State) : Bool :=
  s.sec.jobs.isEmpty && s.tel.jobs.isEmpty && !(s.tbe.msgs.any fun m => m.channel == 3 || m.channel == 4)

/-- The three conditions of R31 hold. -/
def State.idle (s : State) : Bool :=
  decide (s.occupancy < s.fld GLB_EVENING_CTL.DOWN_KIB * 1024) && s.enginesIdle && s.lookasideIdle

/-- The time for which the conditions of R31 have held together is kept from edge to edge, in DAY. -/
def State.watchIdle (s : State) : State :=
  { s with modes := { s.modes with
      idleSince := if s.mode = DAY ∧ s.idle then some (s.modes.idleSince.getD s.up) else none } }

/-- Something needs an engine, a lookaside core, a compression unit or a Snare scanner (R32). -/
def State.darkWork (s : State) : Bool :=
  !s.enginesIdle || !s.tbe.msgs.isEmpty || !s.sec.jobs.isEmpty || !s.tel.jobs.isEmpty || !s.net.snare.isEmpty ||
    (s.net.queues.vals.flatten.any fun x => match x.dest with
      | .pool _ => true
      | _ => false) ||
    !s.nvm.ready.entries.isEmpty

/-- Nothing of R29 remains: fetched descriptors and commands, dirty lines, outstanding Sarup operations, and every other operation
already accepted: frames in the buffer, requests of the engines and of the lookaside units, token requests. -/
def State.drained (s : State) : Bool :=
  s.buffered.isEmpty && s.tbe.msgs.isEmpty && s.sec.jobs.isEmpty && s.tel.jobs.isEmpty && s.tokensPending.isEmpty &&
  (s.hq.pairs.vals.all fun q => q.chains.isEmpty) && (s.nvm.cmds.all fun m => m.stage == .event) && s.nvm.dirty == 0 &&
    (s.xpt.conns.vals.all fun c => c.msgs.isEmpty && c.out.isEmpty) && s.xpt.posted.vals.all (·.isEmpty)

/-! ## The boot ROM's set-up -/

/-- HL_LINK_CFG words of a record are legal (R309, R310): links do not overlap and start where their widths allow, and the VF ceilings
of existing links sum to at most 2,048. -/
def recordOk (ws : List Word) : Bool :=
  let width (l : Nat) : Nat := wfld (ws.getD l 0) HL_LINK_CFG.WIDTH
  let groups (l : Nat) : Nat := if width l = 0 then 0 else 2 ^ (width l - 1)
  ws.length == 16 && ((List.range 16).all fun l => l % max 1 (groups l) == 0 &&
    (List.range 16).all fun k => k ≤ l || width l == 0 || width k == 0 || l + groups l ≤ k) &&
  decide (((List.range 16).map fun l =>
    if width l = 0 then 0 else wfld (ws.getD l 0) HL_LINK_CFG.VF_NET + wfld (ws.getD l 0) HL_LINK_CFG.VF_NVME).sum ≤ 2048)

/-- The boot ROM loads HL_LINK_CFG from the record, or the default with the configuration source of every link (R310). -/
def State.loadLinks (s : State) (config : Option (List Word)) : State :=
  match config.filter recordOk with
  | some ws => (List.range 16).foldl (fun t l => t.setRaw .HL_LINK_CFG l 0 (ws.getD l 0)) s
  | none =>
    let s := (List.range 16).foldl (fun t l => t.setRaw .HL_LINK_CFG l 0 0x8015) s
    (List.range 16).foldl (fun t l => t.linkEvent l 7) s

/-- Ports 0 to 3 of DAWN and TWILIGHT (R121), whatever they were: 100GbE, RS(544,514), AN the inverse of LANE_MAP[2], TRAIN, EN. -/
def State.bootPort (s : State) (p : Nat) : State :=
  let s := s.linkDown p
  let s := ((s.put ETH_PORT_CFG.WIDTH 0 p).put ETH_PORT_CFG.RATE 2 p).put ETH_PORT_CFG.FEC 3 p
  let s := (s.put ETH_PORT_CFG.AN (1 - bits (s.fld GLB_STRAPS.LANE_MAP) 2 2) p).put ETH_PORT_CFG.TRAIN 1 p
  (s.put ETH_PORT_CTL.EN 1 p).setOwned

/-- The paths of R282: group, L1 node and L2 node of each of ports 0 to 3 and of each link; the queue limit is the largest (log entry 43). -/
def State.bootPath (s : State) (n : Nat) : State :=
  let s := s.setRaw .SCH_L1 0 n (BitVec.ofNat 64 (n + 64))
  (s.setRaw .SCH_GROUP 0 (2 * n) (BitVec.ofNat 64 (n + 4096))).setRaw .SCH_GROUP 0 (2 * n + 1) (BitVec.ofNat 64 (place 0xFFFF 39 24))

/-- SCH_DEST_MAP entry `i` names group `g`. -/
def State.mapDest (s : State) (i g : Nat) : State :=
  s.put ⟨.SCH_DEST_MAP, 16 * (i % 4) + 15, 16 * (i % 4)⟩ (g + 0x8000) 0 (i / 4)

/-- Queue pairs and vectors 8L to 8L + 7 for the network PF of link L (R308), and its RX queues' map entries. -/
def State.bootLink (s : State) (l : Nat) : State :=
  if !s.linkExists l then s
  else
    let f := 2 * l
    let s := ((s.put FNC_RES_QP.QP_BASE (8 * l) f).put FNC_RES_QP.QP_COUNT 8 f).put FNC_RES_VEC.VEC_BASE (8 * l) f
    let s := ((s.put FNC_RES_VEC.VEC_COUNT 8 f).setRaw .FNC_RES_TX f 0 0).put FNC_RES_CTL.VALID 1 f
    (List.range 8).foldl (fun t q => t.mapDest (8 * l + q) (32 + l)) (s.bootPath (32 + l))

/-- The direct-indexed tables 0 and 1 in blocks 0 to 15 of set 0, read by P0 and P4 (R182); their shapes are the model's (log entry 43). -/
def State.bootTables (s : State) : State :=
  let s := (s.put ⟨.TBL_BLOCK_MAP, 63, 0⟩ 0 0 0).put TBL_SET_CFG.READERS 0x11 0 0
  let s := (List.range 2).foldl (fun t k =>
    let t := ((t.put TBL_T_CFG.EN 1 0 k).put TBL_T_CFG.KIND 0 0 k).put TBL_T_CFG.MODE 1 0 k
    let t := (t.put TBL_T_CFG.SET 0 0 k).put TBL_T_CFG.KEY_BYTES 2 0 k
    let t := (t.put TBL_T_CFG.SLOT 0 0 k).put TBL_T_STATUS.ENTRIES (4096 + 24576 * k) 0 k
    (t.put TBL_T_WAYS.BASE0 (2 * k) 0 k).put TBL_T_WAYS.BLOCKS (2 + 12 * k) 0 k) s
  { s with tbl := { s.tbl with mem := Memory.zero s.tbl.mem 0 (2 ^ 20), rom := true } }

/-- The program of pipeline `p` is loaded into bank 1 and committed (R166). -/
def State.bootPipe (s : State) (p : Nat) : State :=
  let s := { s with
    net := { s.net with boot := s.net.boot.filter (· != p) ++ [p], rom := s.net.rom.filter (· != p) ++ [p] }
    regs := Store.keep (fun k => !bankOne p k) s.regs }
  let s := s.put PPL_CFG.EN 1 p
  if s.fld PPL_GEN.ACTIVE p = 1 then s else ((s.put PPL_GEN.ACTIVE 1 p).put PPL_GEN.DONE 1 p).pipeSource p 6

/-- What the boot ROM sets up on entry to DAWN or TWILIGHT. -/
def State.bootSetup (s : State) : State :=
  let s := (List.range 4).foldl State.bootPort s
  let s := (List.range 4).foldl (fun t p => (t.bootPath p).mapDest (32768 + p) p) s
  let s := (List.range 16).foldl State.bootLink s
  ((s.bootTables).bootPipe 0).bootPipe 4

/-- The service of TWILIGHT takes a flash update, to the primary partition only; DAWN takes none (R27). -/
def State.flashUpdate (s : State) (primary : Bool) : Bool := s.mode == TWILIGHT && primary

/-! ## Entering a mode -/

/-- PLLs of a mode (R524), by the bits of LOCKED; in DUSK those of the mode left, in MIDNIGHT those of boot, pipeline and control-core
that ran. The always-on PLL keeps its lock as it is. -/
def State.modePlls (s : State) (was m : Nat) : Nat :=
  let old := s.fld PWR_PLL_STATUS.LOCKED
  let mask := if m = DAWN ∨ (m = MIDNIGHT ∧ was = NIGHT) then 0b0000010 else if m = TWILIGHT then 0b1000010
    else if m = DAY ∨ m = NOON then 0b1111100 else if m = EVENING then 0b1000100
    else if m = MIDNIGHT then old &&& 0b1000110 else old &&& 0b1111110
  old % 2 + mask

/-- Domains awake after a change to mode `m` (R35, R37): all in NOON, none in EVENING, MIDNIGHT, DAWN and TWILIGHT; in DAY those held
awake besides those that are. -/
def State.modeDomains (s : State) (m : Nat) : State :=
  if m = NOON then s.setRaw .PWR_DOMAIN_STATUS 0 0 (BitVec.ofNat 64 (2 ^ 48 - 1))
  else if m = DAY then s.setRaw .PWR_DOMAIN_STATUS 0 0 (s.raw .PWR_DOMAIN_STATUS ||| BitVec.ofNat 64 (s.fld PWR_HOLD_AWAKE.HOLD))
  else if m = DUSK then s
  else s.setRaw .PWR_DOMAIN_STATUS 0 0 0

/-- Work that was held while the fast domains were off wakes them (R32). -/
def State.wakeHeld (s : State) : State :=
  let busy (c : Nat) : Bool := (threadsOf c).any fun t => !(s.thread t).waits && (s.thread t).mode != .idle && (s.thread t).mode != .faulted
  let s := (List.range 16).foldl (fun t c => if busy c then t.wakeCluster c else t) s
  let s := s.sec.jobs.foldl (fun t j => t.wakeDomain (16 + j.core / 16)) s
  s.tel.jobs.foldl (fun t j => t.wakeDomain (24 + j.unit)) s

/-- Every frame in the HOLD logic is discarded. -/
def State.dropHolds (s : State) : State :=
  (List.range 52).foldl (fun t k =>
    let l := t.net.holds.get [] k
    l.foldl (fun u h => u.dropSelected h.pkt stDropped) { t with net := { t.net with holds := t.net.holds.set [] k [] } }) s

/-- The entry to MIDNIGHT (R105, R111, R121, R369, R406, R415): no host request goes out any more, so no completion is written. -/
def State.enterMidnight (s : State) : State :=
  let s := s.lockdownJobs.eraseKeys.onSec fun x => { x with timeSecret := [], waitsImage := false }
  let s := (List.range 16).foldl State.clearIde s
  let s := (s.endCmds (fun _ => true) ncSqDeleted 4).tokenDiscard fun _ => true
  let s := (List.range 32).foldl State.linkDown s.dropHolds
  let s := if s.isSet CRY_KEY_STATUS.BUSY then s.keyEnds krLocked else s
  (s.put SEC_LIFECYCLE.DEBUG_OPEN 0).extendMode.fire 29 3 0 initSec

/-- Links that exist and whose PERST# is high start to train (R51). -/
def State.trainLinks (s : State) : State :=
  (List.range 16).foldl (fun t l =>
    if t.linkExists l && !(t.hlink l).perst && !(t.hlink l).heldDetect && t.fld HL_LINK_STATUS.LTSSM l == 0 then t.put HL_LINK_STATUS.LTSSM 1 l else t) s

/-- The reorder timers, frozen during a wake from EVENING, go on: every deadline moves by the time the wake took (R33, R164). -/
def State.thawReorder (s : State) : State :=
  match s.modes.wakeSince with
  | none => s
  | some t0 =>
    let later (e : ReorderEntry) : ReorderEntry := { e with deadline := e.deadline.map (· + (s.up - t0)) }
    (List.range 8).foldl (fun t p => t.onPipe p fun q =>
      { q with reorder := ⟨q.reorder.entries.map fun x => (x.1, x.2.map later)⟩ }) { s with modes := { s.modes with wakeSince := none } }

/-- Every host link that is up goes to Detect and trains again (R317). -/
def State.retrainLinks (s : State) : State :=
  ((List.range 16).foldl (fun t l => if t.isSet HL_LINK_STATUS.UP l then t.resetLink l false else t) s).trainLinks

/-- The part leaves NIGHT (`config`: what an accepted configuration block says of the links, none where it is rejected, which
source 1 of SEC tells (R405, R418); BOOT_SRC 0b10 reads no flash; its SVN and the certificates it carries are free, log entry 2): AN of every port as LANE_MAP[2] has it, links, lifecycle, measurements, and the events that were to be told
of (R310, R406, R412, R460). -/
def State.leaveNight (s : State) (config : Option (List Word)) : State :=
  let s := (List.range 32).foldl (fun t p => t.put ETH_PORT_CFG.AN (1 - bits (s.fld GLB_STRAPS.LANE_MAP) 2 2) p) s
  let retired : Bool := s.fld SEC_LIFECYCLE.STATE == 3
  let unread := decide (s.fld GLB_STRAPS.BOOT_SRC = 2)
  let config := if unread then none else config
  let s := if retired || unread || config.isSome then s else s.fire 29 1 0 initSec
  let s := if retired then (List.range 16).foldl (fun t l => t.setRaw .HL_LINK_CFG l 0 0x8015) s else s.loadLinks config
  let s := s.modes.announce.foldl (fun t k => t.fire 0 k) s
  let s := { s with modes := { s.modes with announce := [] } }
  let opened : Bool := s.fld SEC_LIFECYCLE.STATE ≤ 1 || (s.fld SEC_LIFECYCLE.STATE == 2 && s.isSet SEC_LIFECYCLE.DEBUG_UNLOCKED)
  let s := if retired ∨ config = none then s else (s.onSec fun x => { x with svn := x.svn.set none 2 (some (bits (Config.freeWord s.free).toNat 31 0)), deviceCerts := Config.freeBytes (s.free + 1) 0 }).drawn.drawn
  (s.put SEC_LIFECYCLE.DEBUG_OPEN (b2n opened)).bootMeasures (if retired then none else config)

/-- The part enters mode `m` (R24, R524, R31, R16). -/
def State.enterMode (s : State) (m : Nat) (config : Option (List Word)) : State :=
  let was := s.mode
  let plls := s.modePlls was m
  let u := ((s.put GLB_MODE.MODE m).put GLB_MODE.TRANSIT 0).put GLB_MODE.REQ m
  let u := (u.put GLB_MODE.AUTO (b2n s.modes.auto)).put PWR_PLL_STATUS.LOCKED plls
  let u := { u with modes := { u.modes with
    auto := false
    left := if m = DUSK ∨ m = MIDNIGHT then was else u.modes.left
    duskSince := if m = DUSK then s.up else u.modes.duskSince
    duskLate := false
    eveningLeft := if was = EVENING then some s.up else u.modes.eveningLeft } }
  let u := (u.put PWR_CLK_CTL.PIPE_HALF (if m = EVENING then 1 else if m = DUSK ∨ m = MIDNIGHT then s.fld PWR_CLK_CTL.PIPE_HALF else 0)).modeDomains m
  let u := if was = NIGHT then u.leaveNight config else u
  let u := if m = DAWN ∨ m = TWILIGHT then u.bootSetup.onSec fun x =>
      { x with svn := if m = TWILIGHT then x.svn.keep fun k => k == 2 else x.svn
               waitsImage := m = DAWN ∧ was = NIGHT ∧ s.fld GLB_STRAPS.BOOT_SRC = 2 }
    else u
  let u := if was = NIGHT then u.trainLinks else u
  let u := if m = DAY ∧ was = EVENING then u.thawReorder else u
  let u := if (m = DAY ∧ was = DAWN) ∨ (m = TWILIGHT ∧ was = MIDNIGHT) then u.retrainLinks else u
  let u := if m = DAY ∧ was = DUSK then u.deferAll else u
  let u := if m = DAY ∨ m = NOON then u.wakeHeld else u
  let u := if m = MIDNIGHT then u.enterMidnight else u
  State.carModeChange s u.synceFollow

/-- A transition completes (R24). The end of DUSK toward NIGHT is a reset that POR# ends (R30). -/
def State.completeTransition (s : State) (config : Option (List Word)) : State :=
  if !s.isSet GLB_MODE.TRANSIT then s
  else if s.fld GLB_MODE.REQ = NIGHT then s.deviceReset .dusk
  else s.enterMode (s.fld GLB_MODE.REQ) config

/-- The straps are latched, the thermal diode is checked, and the part boots (R50, R51, R516). -/
def State.powerUp (s : State) (straps : Nat) : State :=
  let s := s.setRaw .GLB_STRAPS 0 0 (BitVec.ofNat 64 straps)
  let s := if Config.diodeFaulty then s.fire 31 5 else s
  let s := { s with modes := { s.modes with hold := .no } }
  (s.put GLB_MODE.TRANSIT 1).put GLB_MODE.REQ (s.nextMode false)

end Sys2Proof.Machine
end

