-- ==== Sys2Proof/Machine/RotOps.lean ====
section
/-! DEFINITION. The root-of-trust mailboxes (R416, R417), fuses (R402, R407, R412), and the DOE instances (R331, R410). -/
namespace Sys2Proof.Machine

/-! ## Buffers of a request -/

/-- The manager PF's mailbox reaches host memory in every mode but NIGHT (R316). -/
def State.rotDma (s : State) (f : Nat) : Bool :=
  s.isSet HL_LINK_STATUS.UP (f / 2) && (s.pcie f).busMaster && (s.pcie f).flr.isNone && !(s.pcie f).d3hot && s.ideOpen (f / 2)

/-- The buffer of a request on mailbox `r`, word 1 of which is `a`, can be reached for `n` bytes: DDR as the control cores address it
(R440), the manager PF's host, or the message itself. -/
def State.rotReach (s : State) (r a n : Nat) : Bool :=
  if r = 0 then decide (2 ^ 40 ≤ a) && decide (a + n ≤ 2 ^ 40 + 2 ^ 39)
  else if r = 1 then s.mgrPf.any s.rotDma
  else r == 2 || r == 3

/-- `n` bytes of a request's buffer, zero where the message is shorter. -/
def State.rotRead (s : State) (r : Nat) (msg : List Word) (n : Nat) : List Byte :=
  let a := (msg.getD 1 0).toNat
  if r = 0 then s.ddrRead (a - 2 ^ 40) n
  else if r = 1 then
    match s.mgrPf with
    | some f => s.hostRead f a n
    | none => []
  else slice (wordBytes (msg.drop 3)) 0 n

/-- A reply goes out (R417): a message of one word, or an MCTP response with `body` behind it. -/
def State.rotReply (s : State) (r : Nat) (msg : List Word) (status : Nat) (body : List Byte := []) : State :=
  let w := BitVec.ofNat 64 (getBits (msg.getD 0 0) 7 0 + place status 15 8)
  if r = 2 ∨ r = 3 then s.onSec fun x => { x with mctp := (r - 2, wordBytes [w] ++ body) :: x.mctp }
  else (s.mbxPost (2096 + r) true [w] 1).1

/-- Statuses of a reply. -/
def rotOk : Nat := 0
def rotRefused : Nat := 1
def rotBadSig : Nat := 2

/-! ## Requests -/

/-- GET_NONCE: 48 free bytes, valid for 60 s on this mailbox. -/
def State.rotNonce (s : State) (r : Nat) (msg : List Word) : State :=
  let a := (msg.getD 1 0).toNat
  if !s.rotReach r a 48 then s.rotReply r msg rotRefused
  else
    let nonce := slice (Config.freeBytes s.free 48) 0 48
    let s := (s.drawn).onSec fun x => { x with nonces := ⟨Store.put r (nonce, s.up) x.nonces.entries⟩ }
    let s := if r = 0 then s.ddrWrite (a - 2 ^ 40) nonce
      else if r = 1 then (match s.mgrPf with
        | some f => s.hostWrite f a nonce
        | none => s)
      else s
    s.rotReply r msg rotOk nonce

/-- Fields of a signed command. -/
def cmdCode (c : List Byte) : Nat := leAt c 4 2
def cmdSlot (c : List Byte) : Nat := leAt c 6 1
def cmdArg (c : List Byte) : Nat := leAt c 0x38 8
def cmdSigned (c : List Byte) : List Byte := slice c 0 0xAD0

/-- The checks of R416 on a signed command of mailbox `r`. -/
def State.signedStatus (s : State) (r : Nat) (c : List Byte) : Nat :=
  let fresh : Bool := match (s.sec.nonces.entries.find? fun e => e.1 == r) with
    | some e => e.2.1 == slice c 8 48 && decide (s.up ≤ e.2.2 + 60 * perSec)
    | none => false
  if slice c 0 4 ≠ [0x45, 0x48, 0x53, 0x43] ∨ !zeroAt c 7 1 ∨ !zeroAt c 0xAC9 7 ∨ !fresh ∨ leAt c 0x40 8 ≠ s.sec.serial then rotRefused
  else if !s.slotHolds (cmdSlot c) (slice c 0x48 (97 + 2592)) ∨ !ecdsaOk (slice c 0x48 97) (cmdSigned c) (slice c 0xAD0 96) ∨
      !mlDsaOk (slice c 0xA9 2592) (cmdSigned c) (slice c 0xB30 4627) then rotBadSig
  else rotOk

/-- The slots programmed and not revoked, without slot `n`. -/
def State.slotsBut (s : State) (n : Nat) : List Nat :=
  (List.range 4).filter fun k => k != n && bitOf (s.fld SEC_SLOT_STATUS.PROGRAMMED) k && !bitOf (s.fld SEC_SLOT_STATUS.REVOKED) k

/-- What the signed command of a code does, where its own conditions hold (R412, R413, R416). -/
def State.signedEffect (s : State) (c : List Byte) : Option State :=
  let arg := cmdArg c % 4
  match cmdCode c with
  | 1 => if s.mode = MIDNIGHT ∧ !s.isSet GLB_MODE.TRANSIT then some (s.beginTransition TWILIGHT false) else none
  | 2 =>
    if s.slotsBut arg = [] ∨ arg = cmdSlot c then none
    else some (s.put ⟨.SEC_SLOT_STATUS, 4 + arg, 4 + arg⟩ 1)
  | 3 =>
    if s.fld SEC_LIFECYCLE.STATE ≠ 2 then none
    else some ((((s.put SEC_LIFECYCLE.STATE 3).put SEC_LIFECYCLE.DEBUG_OPEN 0).onSec fun x => { x with udsBlown := true }).fire 29 6 0 initSec)
  | 4 => if s.fld SEC_LIFECYCLE.STATE = 2 then some (s.onSec fun x => { x with debugNext := true }) else none
  | _ => none

/-- A signed command is rejected: the eighth in a row closes the mailbox to them for 60 s. -/
def State.rejectSigned (s : State) (r : Nat) (msg : List Word) (status : Nat) : State :=
  let n := s.sec.rejects.get 0 r + 1
  let s := s.onSec fun x => if n < 8 then { x with rejects := x.rejects.set 0 r n }
    else { x with rejects := x.rejects.set 0 r 0, refuseUntil := x.refuseUntil.set 0 r (s.up + 60 * perSec) }
  (s.fire 29 4 0 initSec).rotReply r msg status

/-- SIGNED_CMD (R416). A RETIRED part refuses every one (R412). -/
def State.rotSigned (s : State) (r : Nat) (msg : List Word) : State :=
  if s.fld SEC_LIFECYCLE.STATE = 3 ∨ s.up < s.sec.refuseUntil.get 0 r then s.rotReply r msg rotRefused
  else if !s.rotReach r (msg.getD 1 0).toNat 8192 then s.rejectSigned r msg rotRefused
  else
    let c := s.rotRead r msg 8192
    let st := s.signedStatus r c
    if st ≠ rotOk then s.rejectSigned r msg st
    else match s.signedEffect c with
      | none => s.rejectSigned r msg rotRefused
      | some t => (t.onSec fun x => { x with nonces := x.nonces.keep fun k => k != r, rejects := x.rejects.set 0 r 0 }).rotReply r msg rotOk

/-- IMAGE_LOAD (R405). -/
def State.rotImage (s : State) (r : Nat) (msg : List Word) : State :=
  let n := getBits (msg.getD 2 0) 63 0
  if r = 0 ∨ !s.sec.waitsImage ∨ !s.rotReach r (msg.getD 1 0).toNat n ∨ 0x2000000 < n then s.rotReply r msg rotRefused
  else
    let img := s.rotRead r msg n
    let k := s.imageCheck s.bootKind img
    if k = 0 then (s.runImage img 2).rotReply r msg rotOk
    else ((s.put SEC_BOOT_STATUS.FAIL k).fire 29 1 0 initSec).rotReply r msg rotBadSig

/-- LIFECYCLE_ADVANCE (R412): debug stays open up to PRODUCTION, and closes there unless it is unlocked. -/
def State.rotAdvance (s : State) (r : Nat) (msg : List Word) : State :=
  let st := s.fld SEC_LIFECYCLE.STATE
  if r ≠ 0 ∨ 2 ≤ st then s.rotReply r msg rotRefused
  else
    let s := s.put SEC_LIFECYCLE.STATE (st + 1)
    let s := if st = 1 ∧ !s.isSet SEC_LIFECYCLE.DEBUG_UNLOCKED then s.put SEC_LIFECYCLE.DEBUG_OPEN 0 else s
    (s.fire 29 6 0 initSec).rotReply r msg rotOk

/-- SLOT_PROGRAM (R402, R412). -/
def State.rotProgram (s : State) (r : Nat) (msg : List Word) : State :=
  let k := (msg.getD 2 0).toNat
  if r ≠ 0 ∨ 4 ≤ k ∨ 2 ≤ s.fld SEC_LIFECYCLE.STATE ∨ bitOf (s.fld SEC_SLOT_STATUS.PROGRAMMED) k ∨
      !s.rotReach r (msg.getD 1 0).toNat (97 + 2592) then s.rotReply r msg rotRefused
  else
    let keys := s.rotRead r msg (97 + 2592)
    ((s.put ⟨.SEC_SLOT_STATUS, k, k⟩ 1).onSec fun x => { x with slots := x.slots.set [] k (hash384 keys) }).rotReply r msg rotOk

/-- SEC acts on a message of mailbox `r`; any other opcode, and mailboxes 4 to 7, are refused. -/
def State.rotRequest (s : State) (r : Nat) (msg : List Word) : State :=
  if 4 ≤ r then s.rotReply r msg rotRefused
  else match getBits (msg.getD 0 0) 7 0 with
    | 0x41 => s.rotNonce r msg
    | 0x42 => s.rotSigned r msg
    | 0x43 => s.rotImage r msg
    | 0x44 => s.rotAdvance r msg
    | 0x45 => s.rotProgram r msg
    | _ => s.rotReply r msg rotRefused

/-- SEC takes the oldest request of mailbox `m`, once the queue of replies has a free word. -/
def State.secTake (s : State) (m : Nat) : State :=
  match (s.mbox m).toFar with
  | x :: _ => if roomOf (s.mbox m).toMgr = 0 then s else (s.mbxPop m false).rotRequest (m - 2096) x.words
  | [] => s

/-- SEC takes what requests of mailbox `m` it can; a queue holds at most 8. -/
def State.secServe (s : State) (m : Nat) : State := (List.range 8).foldl (fun t _ => t.secTake m) s

/-- A request reaches SEC: over MCTP at once, else by its mailbox. -/
def State.secArrive (s : State) (r : Nat) (msg : List Word) : State :=
  if s.mode = NIGHT then s
  else if r = 2 ∨ r = 3 then s.rotRequest r msg
  else (s.mbxPost (2096 + r) false msg msg.length).1.secServe (2096 + r)

/-- The COMMAND of a SIGNED_CMD on mailbox `r`, where its buffer can be read. -/
def State.signedCode (s : State) (r : Nat) (msg : List Word) : Option Nat :=
  if getBits (msg.getD 0 0) 7 0 = 0x42 ∧ s.rotReach r (msg.getD 1 0).toNat 8192 then some (cmdCode (s.rotRead r msg 8192)) else none

/-! ## Rollback (R407) -/

/-- SVN of the running image of a counter's kind; counter 3 has none and 128 bounds it. -/
def State.rollbackLimit (s : State) (c : Nat) : Option Nat := if c = 3 then some 128 else (s.sec.svn.get none c).map (min 128)

/-- A write of SEC_ROLLBACK_CMD. One that clears REFUSED and names no value is no command (log entry 44). -/
def State.rollbackCommand (s : State) (init : Nat) (w : Word) : State :=
  let c := wfld w SEC_ROLLBACK_CMD.COUNTER
  let v := wfld w SEC_ROLLBACK_CMD.VALUE
  let u := s.writeReg .SEC_ROLLBACK_CMD 0 0 w
  if v = 0 ∧ wfld w SEC_ROLLBACK_CMD.REFUSED = 1 then u
  else if s.isSet SEC_ROLLBACK_CMD.BUSY ∨ v ≤ s.fld (SEC_ROLLBACK.COUNTER c) ∨ !(s.rollbackLimit c).any (fun n => decide (v ≤ n)) then
    (u.put SEC_ROLLBACK_CMD.REFUSED 1).fire 29 2 0 init
  else (u.put SEC_ROLLBACK_CMD.BUSY 1).onSec fun x => { x with rollback := some (c, v) }

/-! ## DOE (R331) -/

/-- What a CMA/SPDM responder answers, and what its answer does, are other standards' (log entry 21). -/
def algSpdm : Nat := 163
def algSpdmEffect : Nat := 164
def algSpdmHash : Nat := 165
def algSpdmOpen : Nat := 166
def algSpdmSeal : Nat := 167

/-- What the answer depends on: the session, the measurements and the object. -/
def State.spdmInput (s : State) (session : Bool) (obj : List Byte) : List (List Byte) :=
  [natLe 8 s.free, [BitVec.ofNat 8 (b2n session)], (List.range 16).flatMap s.measurement, obj]

/-- The answer of the responder. -/
def State.spdmAnswer (s : State) (session : Bool) (obj : List Byte) : List Byte := Config.algorithm algSpdm (framed (s.spdmInput session obj))

/-- The code of a request, and the certificate slot that it names, where the response to it is signed: CHALLENGE, GET_MEASUREMENTS with a
signature asked for, and KEY_EXCHANGE (PRESUMED, log entry 20: the codes and fields of DSP0274). -/
def spdmCode (m : List Byte) : Nat := leAt m 1 1
def spdmSigns (m : List Byte) : Option Nat :=
  match spdmCode m with
  | 0x83 => some (leAt m 2 1 % 16)
  | 0xE0 => if bitOf (leAt m 2 1) 0 then some (leAt m 36 1 % 16) else none
  | 0xE4 => some (leAt m 3 1 % 16)
  | _ => none

/-- The command of a VENDOR_DEFINED_REQUEST of R411: PCI-SIG standard ID, vendor ID 0x1E6F. -/
def spdmVendor (m : List Byte) : Option Nat :=
  if spdmCode m = 0xFE ∧ leAt m 4 2 = 3 ∧ leAt m 6 1 = 2 ∧ leAt m 7 2 = 0x1E6F then some (leAt m 11 1) else none

/-- An error response. -/
def spdmError (m : List Byte) : List Byte := [m.headD 0, 0x7F, 0x01, 0]

/-- A vendor-defined response that carries the command and `body`. -/
def vendorResponse (m body : List Byte) : List Byte :=
  [m.headD 0, 0x7E, 0, 0] ++ natLe 2 3 ++ [2] ++ natLe 2 0x1E6F ++ natLe 2 (1 + body.length) ++ slice m 11 1 ++ body

/-- The extra material of R411: 0x01 the ML-DSA-87 signature of the last signed response, 0x02 the portion of a slot's ML-DSA-87 chain that
its slot, offset and length name, in bytes 12, 13 to 16 and 17 to 20 of the request (log entry 165). -/
def State.vendorAnswer (s : State) (last m : List Byte) (command : Nat) : List Byte :=
  match command with
  | 1 => if last = [] then spdmError m else vendorResponse m last
  | 2 => vendorResponse m (((s.certChain (leAt m 12 1) true).drop (leAt m 13 4)).take (leAt m 17 4))
  | _ => spdmError m

/-- The response to an SPDM message, and the ML-DSA-87 signature of the last signed response from then on (R411, R412): one that is signed
carries the P-384 signature of the slot's key over the message hash, and its ML-DSA-87 signature over the same hash is kept. -/
def State.spdmReply (s : State) (session : Bool) (last m : List Byte) : List Byte × List Byte :=
  match spdmVendor m, spdmSigns m with
  | some c, _ => (s.vendorAnswer last m c, last)
  | none, none => (s.spdmAnswer session m, last)
  | none, some slot =>
    match s.slotSecret slot with
    | none => (spdmError m, last)
    | some k =>
      let body := s.spdmAnswer session m
      let h := algo algSpdmHash (s.spdmInput session m ++ [body]) 48
      (body ++ signP384 k h, signMlDsa k h)

/-- A data object of DOE type `kind` around a message: vendor 0x0001, and the length in words (PRESUMED, log entry 20). -/
def doeFrame (kind : Nat) (m : List Byte) : List Byte :=
  let n := ceilDiv m.length 4
  natLe 2 1 ++ natLe 1 kind ++ [0] ++ natLe 4 (n + 2) ++ slice m 0 (4 * n)

/-- Keys of a stream of link `l`: IDE_KM acts on slot `k` in key set `x`. -/
def State.ideKm (s : State) (l : Nat) (e : List Byte) : State :=
  let k := leAt e 1 1 % 4
  match leAt e 0 1 with
  | 3 => s.onSec fun x => { x with ideKeys := x.ideKeys.set [] (16 * l + 2 * k + leAt e 2 1 % 2) (slice e 3 32) }
  | 4 => (s.put HL_IDE_STATUS.STATE (setBits (s.fld HL_IDE_STATUS.STATE l) (2 * k + 1) (2 * k) 1) l).releaseIde l
  | 5 =>
    if bits (s.fld HL_IDE_STATUS.STATE l) (2 * k + 1) (2 * k) = 0 then s
    else
      let s := s.put HL_IDE_STATUS.STATE (setBits (s.fld HL_IDE_STATUS.STATE l) (2 * k + 1) (2 * k) 0) l
      (s.onSec fun x => { x with ideKeys := x.ideKeys.keep fun i => i / 2 != 8 * l + k }).linkEvent l 6
  | _ => s

/-- An SPDM object on the DOE of PF `f`, in the clear or, kind 2, of a secured session: it is answered (R410, R411); a session opens or ends; over a secured one on PF 0, IDE_KM acts on the link's streams (R332).
In MIDNIGHT no stream becomes Secure (R415). -/
def State.doeSpdm (s : State) (f kind : Nat) (obj : List Byte) : State :=
  let e := algo algSpdmEffect (s.spdmInput (s.pcie f).spdmSession obj) 35
  let m := if kind = 2 then Config.algorithm algSpdmOpen (framed (s.spdmInput true obj)) else obj.drop 8
  let r := s.spdmReply (s.pcie f).spdmSession (s.pcie f).spdmSignature m
  let answer := doeFrame kind (if kind = 2 then Config.algorithm algSpdmSeal (framed [natLe 8 s.free, r.1]) else r.1)
  let s := s.drawn.onPcie f fun p => { p with doeResponse := answer, spdmSignature := r.2 }
  match leAt e 0 1 with
  | 1 => s.onPcie f fun p => { p with spdmSession := true }
  | 2 => s.onPcie f fun p => { p with spdmSession := false }
  | _ => if kind = 2 ∧ f % 2 = 0 ∧ (s.pcie f).spdmSession ∧ s.mode ≠ MIDNIGHT then s.ideKm (f / 2) e else s

/-- The answer of DOE Discovery to an index: the protocol there and the next index, in the layout of DOE (PRESUMED, log entry 20). -/
def doeDiscovery (i : Nat) : List Byte := natLe 2 1 ++ natLe 2 0 ++ natLe 4 3 ++ natLe 2 1 ++ natLe 1 (min i 2) ++ natLe 1 (if i < 2 then i + 1 else 0)

/-- A data object on the DOE of PF `f` (R331): too long a one sets DOE Error and is discarded; one of another vendor or type is
discarded. -/
def State.doeObject (s : State) (f : Nat) (obj : List Byte) : State :=
  if 65536 * 4 < obj.length then s.onPcie f fun p => { p with doeError := true }
  else if leAt obj 0 2 ≠ 1 then s
  else match leAt obj 2 1 with
    | 0 => s.onPcie f fun p => { p with doeResponse := doeDiscovery (leAt obj 8 1) }
    | 1 => s.doeSpdm f 1 obj
    | 2 => s.doeSpdm f 2 obj
    | _ => s

end Sys2Proof.Machine
end

