-- ==== Sys2Proof/Machine/TimeDelivery.lean ====
section
/-! DEFINITION. The commands and events of time delivery to hosts (04_time_delivery): PTM, pages, bells, tokens. -/
namespace Sys2Proof.Machine

/-- The last 64 pairs of a link, with one more where the dialogue gave one. -/
def withPair (ps : List PtmPair) (p : Option PtmPair) : List PtmPair :=
  let all := ps ++ p.toList
  all.drop (all.length - 64)

/-- PTM_DIALOGUE (R91, R93): every PTM_US a dialogue of a link succeeds with an answer, or fails. -/
def execPtmDialogue (l : Fin 16) (answer : Option PtmAnswer) (s : State) : Out :=
  if !s.ptmRuns l || !s.ptmDue l then .next s
  else match answer with
  | some a =>
    let s := s.onLinkTime l fun t => { t with
      pairs := withPair t.pairs (s.ptmPair l a), failed := 0, good := t.good + 1, asked := some s.up, span := some a.span }
    if !s.isSet CAR_LINK_STATUS.MAPPED 0 l && decide (16 ≤ (s.linkTime l).good) then
      .next ((s.put CAR_LINK_STATUS.MAPPED 1 0 l).bumpEpoch l)
    else .next s
  | none =>
    let s := (s.sat CAR_LINK_STATUS.FAILS 1 0 l).onLinkTime l fun t => { t with failed := t.failed + 1, asked := some s.up, span := none }
    .next (if 4 ≤ (s.linkTime l).failed then s.loseMap l else s)

/-- PAGE_PUBLISH (R96, R97): a new version on every page of a link, no sooner than 990 µs of device time after the last. -/
def execPagePublish (l : Fin 16) (s : State) : Out :=
  if s.isSet CAR_LINK_MAP.EN 0 l ∧ s.isSet HL_LINK_STATUS.UP l ∧ s.mode ≠ NIGHT ∧
      (s.linkTime l).published.all (fun t => decide (t + ofUs 990 ≤ s.now)) then
    let r := s.newPage l
    .next (r.1.publishPage l r.2)
  else .next s

/-- The bell line of a link is driven (R103): EN, not squelched, and not in NIGHT. -/
def State.bellRuns (s : State) (l : Nat) : Bool :=
  s.isSet CAR_BELL_CTL.EN 0 l && !(s.isSet CAR_BELL_CTL.SQUELCH 0 l && s.isSet CAR_STATUS.UNSYNC) && s.mode != NIGHT

/-- Device time + ADVANCE of a bell line (R103). -/
def State.bellTime (s : State) (l : Nat) : Nat := ((s.now : Int) + s.int CAR_BELL_CTL.ADVANCE 0 l * (perQuarter : Nat)).toNat

/-- BELL_EDGE (R103): device time + ADVANCE has reached a whole TAI second since the AOCLK edge before; the line rose then, once for
each second, and its frame is made. -/
def execBellEdge (l : Fin 16) (s : State) : Out :=
  let x := s.bellTime l
  let sec := x / perSec
  if !s.bellRuns l ∨ (8 * perNs + s.adj : Int) ≤ (x % perSec : Nat) ∨ (s.linkTime l).edge = some sec then .next s
  else .next (s.onLinkTime l fun t => { t with bell := true, bellAt := some (s.up - x % perSec), edge := some sec, frame := s.bellFrame l sec })

/-- Level of the bell line of a link (R103, R104). -/
def State.bellPin (s : State) (l : Nat) : Bool :=
  s.bellRuns l && match (s.linkTime l).bellAt with
    | some t => bellLevel (s.linkTime l).frame (s.up - t)
    | none => false

/-- BELL_FRAME (R103, R104): 16 µs after the edge the frame begins; COUNT goes on. -/
def execBellFrame (l : Fin 16) (s : State) : Out :=
  if s.bellRuns l ∧ (s.linkTime l).bell ∧ (s.linkTime l).bellAt.any (fun t => decide (t + ofUs 16 ≤ s.up)) then
    .next (s.onLinkTime l fun t => { t with bell := false, frames := t.frames + 1 })
  else .next s

/-- A bell line that is no longer driven is low, and what was on it does not go on (R103). -/
def State.quietBells (s : State) : State :=
  (List.range 16).foldl (fun t l =>
    if (t.linkTime l).bellAt.isSome && !t.bellRuns l then t.onLinkTime l fun x => { x with bell := false, bellAt := none } else t) s

/-- A token request by mailbox (R111, R456). R111 has its buffer aligned to 4 KiB and says nothing of one that is not: its address is
taken as given (DESIGN CHOICE, log entry 178). -/
def State.tokenByMailbox (s : State) (f : Nat) (nonce : List Byte) (buf tag : Nat) : State :=
  let r := s.tokenRequest f nonce buf tag none
  match r.2 with
  | some e => r.1.mbxReply f (tokenReplyWords e tag 0)
  | none => r.1

/-- TOKEN_REQUEST (R111 to R113): function `f` asks for a token by a message of its mailbox. One by TX descriptor is part of
TX_FETCH. -/
def execTokenRequest (f : Fin 2080) (nonce : List Byte) (buf tag : Word) (s : State) : Out :=
  done (s.tokenByMailbox f nonce buf.toNat tag.toNat)

/-- The millisecond of device time. -/
def State.millisecond (s : State) : Nat := s.now / ofMs 1

/-- TOKEN_BATCH_CLOSE (R112): at the AOCLK edge at which device time reaches a whole millisecond the oldest 1,024 requests waiting form
a batch; none closes empty. -/
def execTokenBatchClose (s : State) : Out :=
  if s.td.waiting = [] ∨ s.td.lastClose = s.millisecond ∨ (8 * perNs + s.adj : Int) ≤ (s.now % ofMs 1 : Nat) then .next s
  else
    let n := s.fld CAR_TOKEN_BATCH.BATCH + 1
    let td : TimeDelivery := { s.td with
      waiting := s.td.waiting.drop 1024, lastClose := s.millisecond
      batches := s.td.batches ++ [{ number := n, close := ts64Of (s.millisecond * ofMs 1), leaves := s.td.waiting.take 1024 }] }
    .next (({ s with td }).put CAR_TOKEN_BATCH.BATCH n)

/-- A request is answered (R113, R298): the token and the batch record are written, then the reply is sent; the chain of a TX
descriptor ends instead. -/
def State.answerToken (s : State) (b : TokenBatch) (i : Nat) (r : TokenRequest) : State :=
  if r.gone then s
  else
    let ok := s.dmaOk r.fn
    let s := if ok then ((s.hostWrite r.fn r.buf (b.token s.deviceId i r)).hostWrite r.fn (r.buf + 0x400) (b.record s.deviceId s.sec.timeSecret)).sat CAR_TOKEN_STATUS.ISSUED 1 else s
    match r.queue with
    | none => s.mbxReply r.fn (tokenReplyWords tokOk r.tag b.number)
    | some (g, id) =>
      let t := s.stampNow
      s.onPair g fun q => { q with chains := q.chains.map fun c =>
        if c.id == id then { c with left := 0, status := if ok then stOk else stDmaError, batch := b.number, ts := t.1, degraded := t.2, tsKind := 1 }
        else c }

/-- TOKEN_REPLY (R113): the oldest batch is signed, and its requests are answered. -/
def execTokenReply (s : State) : Out :=
  match s.td.batches with
  | [] => .next s
  | b :: rest =>
    let s := { s with td := { s.td with batches := rest } }
    done (b.leaves.zipIdx.foldl (fun t r => t.answerToken b r.2 r.1) s)

end Sys2Proof.Machine
end

