-- ==== Sys2Proof/Machine/Control.lean ====
section
/-! DEFINITION. The commands and events of the control cores and the mailboxes (17_control_cores_mailboxes). -/
namespace Sys2Proof.Machine

/-! ## Control cores -/

/-- CC_RUN (R443): a write of GLB_CC_CTL. In DAWN and TWILIGHT one that would change clusters 1 and 2 is refused. Harts that are held in
reset neither wait nor debug, and their cluster takes its next epoch (R482). -/
def execCcRun (_req : Requester) (w : Word) (s : State) : Out :=
  if s.mode = NIGHT then .next s else
  let old := s.fld GLB_CC_CTL.RUN
  let u := s.writeReg .GLB_CC_CTL 0 0 w
  if (s.mode = DAWN ∨ s.mode = TWILIGHT) ∧ u.fld GLB_CC_CTL.RUN ≠ old then .next ((u.put GLB_CC_CTL.RUN old).put GLB_CC_CTL.REFUSED 1)
  else
    let held := (List.range 2).filter fun c => !bitOf (u.fld GLB_CC_CTL.RUN) c
    .next (held.foldl (fun t c =>
      let t := t.holdCores (c + 1)
      if bitOf old c then t.onGong fun g => { g with coreEpochs := g.coreEpochs.modify 0 (c + 1) fun e => (e + 1) % 16 } else t) u)

/-- MTIMER_EXPIRY (R442, R444): time has reached MTIMECMP, so the interrupt is pending, and a hart in WFI resumes. -/
def execMtimerExpiry (h : Fin 24) (s : State) : Out :=
  if s.fld GLB_CC_MTIMECMP.CMP 0 h ≤ s.ts64 then .next (s.put ⟨.GLB_CC_STATUS, h, h⟩ 0) else .next s

/-! ## Posts and pops -/

/-- The mailbox that a place reaches now, whether its posts go toward the manager, and its staged words (R447, R448). -/
def State.mbxSide (s : State) : MbxPlace → Option (Nat × Bool × List Word)
  | .window w =>
    let m := s.fld MBX_SEL.MAILBOX 0 w
    if m ≤ 2096 ∧ s.mbxAvailable m then some (m, false, (List.range 8).map fun i => s.raw .MBX_OUT_DATA 0 (8 * w + i)) else none
  | .page m =>
    if (m.val < 2080 ∨ m.val = 2097) ∧ s.mbxAvailable m then
      some (m, decide (m.val < 2080), (List.range 8).map fun i => (s.mbox m).staged.get 0 i)
    else none

/-- A function's message goes to the token unit (R456). -/
def isTokenPost (toMgr : Bool) (words : List Word) (len : Nat) : Bool :=
  toMgr && decide (1 ≤ len) && decide (len ≤ 8) && getBits (words.getD 0 0) 7 0 == 0x31

/-- A write of MBX_POST at a place. SEC serves what reaches it. -/
def State.postAt (s : State) (p : MbxPlace) (w : Word) : State :=
  match s.mbxSide p with
  | none => s
  | some (m, toMgr, words) =>
    let len := wfld w MBX_POST.LEN
    let msg := (words.take len) ++ List.replicate (8 - len) 0
    if isTokenPost toMgr words len then
      ((s.bump .MBX_STAT 0 0).devEvent 0x30C).tokenByMailbox m (wordBytes ((msg.drop 1).take 4)) (msg.getD 5 0).toNat (msg.getD 6 0).toNat
    else
      let s := (s.mbxPost m toMgr words len).1
      if 2096 ≤ m then s.secServe m else s

/-- A write of MBX_POP at a place. -/
def State.popAt (s : State) (p : MbxPlace) : State :=
  match s.mbxSide p with
  | none => s
  | some (m, toMgr, _) =>
    let s := s.mbxPop m (!toMgr)
    if 2096 ≤ m then s.secServe m else s

/-- A mailbox place can be written: a window with the register space, a page through its function's BAR, that of the root of trust through
the manager PF's, in MIDNIGHT too (R316, R448). -/
def State.placeReached (s : State) : MbxPlace → Bool
  | .window _ => s.mode != NIGHT
  | .page m => if m.val = 2097 then s.mode != NIGHT && s.mgrPf.any (fun f => s.takesMemory (f / 2) f) else s.hostReaches m

/-- POST (R448, R450). -/
def execPost (_req : Requester) (place : MbxPlace) (w : Word) (s : State) : Out := if s.placeReached place then done (s.postAt place w) else .next s

/-- POP (R449). -/
def execPop (_req : Requester) (place : MbxPlace) (_w : Word) (s : State) : Out := if s.placeReached place then done (s.popAt place) else .next s

/-- The manager is reset (R453, R454): every queue toward it is discarded, its epoch rises and its staged words clear. -/
def State.mgrReset (s : State) : State :=
  let s := (s.mbx.keys.filter (· ≤ 2096)).foldl (fun t m => t.mbxDiscard m true) s
  let s := (List.range 192).foldl (fun t i => t.setRaw .MBX_OUT_DATA 0 i 0) s
  (s.put MBX_MGR_CTL.EPOCH ((s.fld MBX_MGR_CTL.EPOCH + 1) % 16)).fire 30 3

/-- MGR_RESET (R453): a write of MBX_MGR_CTL; RESET resets the manager's side. -/
def execMgrReset (_req : Requester) (w : Word) (s : State) : Out :=
  if s.mode = NIGHT then .next s else
  let u := s.writeReg .MBX_MGR_CTL 0 0 w
  done (if wfld w MBX_MGR_CTL.RESET = 1 then u.mgrReset else u)

/-- MAILBOX_TIMEOUT (R451): the oldest message of a queue has stayed unread for TIMEOUT_MS. -/
def execMailboxTimeout (m : Fin 2104) (toManager : Bool) (s : State) : Out :=
  match (s.mbox m).queue toManager with
  | x :: _ =>
    if x.posted + ofMs (s.mbxTimeout m) ≤ s.up ∧ !((s.mbox m).flags toManager).timeout then done (s.mbxSetTimeout m toManager) else .next s
  | [] => .next s

/-! ## The MBX channel (R457) -/

/-- ADDR, SHARED and LEN of word 1, and whether ADDR is usable. -/
def Msg.mbxAddr (m : Msg) : Nat := getBits (m.word 1) 16 0
def Msg.mbxShared (m : Msg) : Bool := getBits (m.word 1) 17 17 == 1
def Msg.mbxLen (m : Msg) : Nat := getBits (m.word 1) 21 18
def Msg.mbxAddrOk (m : Msg) : Bool := m.mbxAddr % 64 == 0 && spaceHolds m.mbxShared m.mbxAddr 64

/-- MBX_CH_POST (R457): the message words come from thread memory. -/
def execMbxChPost (place : Nat) (s : State) : Out :=
  match s.message place 8 1 with
  | none => .next (s.stray place 8)
  | some m =>
    let s := s.takeMsg place
    if !m.mbxAddrOk ∨ m.mbxLen = 0 ∨ 8 < m.mbxLen then done (s.respond m 18)
    else
      let words := leWords 8 (s.threadRead m.thread m.mbxShared m.mbxAddr 64)
      let r := s.mbxPost (2080 + clusterOf m.thread) true words m.mbxLen
      done (r.1.respond m (match r.2 with
        | .queued => 0
        | .full => 16
        | .absent => 17
        | .ignored => 18))

/-- MBX_CH_READ (R457): the oldest message goes to thread memory and is popped. -/
def execMbxChRead (place : Nat) (s : State) : Out :=
  match s.message place 8 2 with
  | none => .next (s.stray place 8)
  | some m =>
    let s := s.takeMsg place
    let b := 2080 + clusterOf m.thread
    if !m.mbxAddrOk then .next (s.respond m 18)
    else match (s.mbox b).toFar with
      | [] => .next (s.respond m 16)
      | x :: _ =>
        let s := (s.threadWrite m.thread m.mbxShared m.mbxAddr (wordBytes x.words)).mbxPop b false
        done (s.respond m 0 (x.words.length + 16 * x.epoch))

/-- MBX_CH_STATUS (R457): the sender-side flags, some of which clear. -/
def execMbxChStatus (place : Nat) (s : State) : Out :=
  match s.message place 8 3 with
  | none => .next (s.stray place 8)
  | some m =>
    let s := s.takeMsg place
    let b := 2080 + clusterOf m.thread
    let g := (s.mbox b).far
    let d := b2n g.timeout + 2 * b2n g.discarded + 4 * b2n (s.mbxAbsent b true) + 256 * g.count + 65536 * s.mbxEpoch b true
    .next ((s.onMbox b fun x => { x with far := { g with timeout := false, discarded := false, count := 0 } }).respond m 0 d)

end Sys2Proof.Machine
end

