-- ==== Sys2Proof/Machine/Ethernet.lean ====
section
/-! DEFINITION. The commands and events of the Ethernet ports (05_ethernet_ports). -/
namespace Sys2Proof.Machine

/-- PORT_CFG_WRITE (R118, R119): refused while EN is 1 on a lane the new width would cover, or for an unsupported kind; an
owned lane ignores it. -/
def execPortCfgWrite (_req : Requester) (p : Fin 32) (w : Word) (s : State) : Out :=
  if s.mode = NIGHT then .next s else
  if s.laneOwned p then .next s
  else if s.isSet ETH_PORT_CTL.EN p || (List.range (cfgWidth w)).any (fun i => s.isSet ETH_PORT_CTL.EN (p + i)) || !cfgSupported p w then
    .next (s.put ETH_PORT_CTL.REFUSED 1 p)
  else .next (s.writeReg .ETH_PORT_CFG p 0 w)

/-- PORT_ENABLE (R119, R122). -/
def execPortEnable (_req : Requester) (p : Fin 32) (w : Word) (s : State) : Out := if s.mode = NIGHT then .next s else done (s.portCtl p w)
/-- TX_OFF_WRITE (R122). -/
def execTxOffWrite (_req : Requester) (p : Fin 32) (w : Word) (s : State) : Out := if s.mode = NIGHT then .next s else done (s.portCtl p w)
/-- RESTART (R120, R122). -/
def execRestart (_req : Requester) (p : Fin 32) (w : Word) (s : State) : Out := if s.mode = NIGHT then .next s else done (s.portCtl p w)

/-- LINK_UP (R120): the PCS reports link up on a port that runs its lanes. -/
def execLinkUp (p : Fin 32) (s : State) : Out :=
  if !s.portRuns p || s.isSet ETH_PORT_STATUS.LINK p || (List.range (s.portWidth p)).any fun i => s.underTest 3 (p + i) then .next s
  else
    let s := (List.range (s.portWidth p)).foldl (fun t i => t.put ETH_LANE_STATUS.CDR_LOCK 1 (p + i)) s
    let s := ((s.put ETH_PORT_STATUS.LINK 1 p).put ETH_PORT_STATUS.AN_DONE (s.fld ETH_PORT_CFG.AN p) p).put ETH_PORT_STATUS.FEC_ALIGN 1 p
    let s := s.put ETH_PORT_STATUS.TRAIN_DONE (b2n (s.isSet ETH_PORT_CFG.TRAIN p && s.fld ETH_PORT_CFG.RATE p != 0)) p
    let s := (s.put ETH_PORT_STATUS.LOCAL_FAULT 0 p).put ETH_PORT_STATUS.REMOTE_FAULT 0 p
    .next (s.onPort p fun q => { q with tsBad := false })

/-- LINK_DOWN (R122, R135, R136): the link of a port goes down; the receivers of `cdrLoss` lose lock. -/
def execLinkDown (p : Fin 32) (cdrLoss : List Nat) (s : State) : Out :=
  let lanes := cdrLoss.filter fun l => decide (p.val ≤ l) && decide (l < p + s.portWidth p)
  let s := lanes.foldl (fun t l => t.put ETH_LANE_STATUS.CDR_LOCK 0 l) s
  let s := if lanes.contains p.val then s.clockLost p else s
  let s := if s.isSet ETH_PORT_STATUS.LINK p then s.put ETH_PORT_STATUS.LOCAL_FAULT (b2n (lanes != [])) p else s
  let s := s.linkDown p (lanes.headD 0)
  done (lanes.foldl (fun t l => t.startTest 3 l) s)

/-- TS_MEASURE_DONE (R132): the measured additions, in 1/16 ns, join the internal base; TS_READY sets, unless one lies out of
range: then it stays 0 until the next link-up. -/
def execTsMeasureDone (p : Fin 32) (tx rx : Int) (s : State) : Out :=
  if !s.isSet ETH_PORT_STATUS.LINK p || s.isSet ETH_PORT_STATUS.TS_READY p || (s.port p).tsBad then .next s
  else
    let limit : Nat := if s.isSet ETH_TS_INT.FUSED p then 16 else 64
    if limit < tx.natAbs ∨ limit < rx.natAbs then done (((s.put ETH_PORT_STATUS.TS_READY 0 p).onPort p fun q => { q with tsBad := true }).portSource p 3)
    else
      let q := s.port p
      let txInt := unsigned 16 (s.fld ETH_TS_INT.TX_INT p - q.addTx + tx)
      let rxInt := unsigned 16 (s.fld ETH_TS_INT.RX_INT p - q.addRx + rx)
      .next ((((s.put ETH_TS_INT.TX_INT txInt p).put ETH_TS_INT.RX_INT rxInt p).put ETH_PORT_STATUS.TS_READY 1 p).onPort p
        fun q => { q with addTx := tx, addRx := rx })

/-- FRAME_RX (R121, R123 to R131, R138, R140): `frame` runs from the destination address through the FCS; `corrected` counts its
codewords that the FEC corrected, `badCode` marks one that could not be. A port that carries no frames takes none. -/
def execFrameRx (p : Fin 32) (frame : List Byte) (corrected : Nat) (badCode : Bool) (phase : Fin 128) (s : State) : Out :=
  if !s.portCarries p then .next s
  else
    let s := if s.fld ETH_PORT_CTL.LOOP p = 2 then { s with net := { s.net with wire := s.net.wire.modify [] p fun l => frame :: l } } else s
    done (s.rxFrame p frame corrected badCode phase)

/-- XOFF_REPEAT (R125): half of QUANTA has elapsed since the last XOFF and occupancy is at or above XON_KIB; `none` names the
whole port. -/
def execXoffRepeat (p : Fin 32) (prio : Option (Fin 8)) (s : State) : Out :=
  let k := match prio with
    | some x => x.val
    | none => 8
  let sent := s.xoffSent p k
  if !s.flowOn p k || sent == 0 then .next s
  else if s.keyOccupancy p k < s.xonBytes p then .next (s.flowKey p k)
  else if s.up + 1 < sent + s.quantaTime p (s.fld ETH_PFC_CFG.QUANTA p) / 2 then .next s
  else .next ((s.sendControl p k (s.fld ETH_PFC_CFG.QUANTA p)).setXoff p k (s.up + 1))

/-- PAUSE_FRAME_RX (R124, R126). -/
def execPauseFrameRx (p : Fin 32) (quanta : BitVec 16) (s : State) : Out :=
  if s.portCarries p then .next (s.takePause p quanta.toNat) else .next s

/-- PFC_FRAME_RX (R124, R126). -/
def execPfcFrameRx (p : Fin 32) (enable : BitVec 8) (quanta : List Nat) (s : State) : Out :=
  if s.portCarries p then .next (s.takePfc p enable.toNat quanta) else .next s

/-- PAUSE_END (R126): a pause time that has run out leaves nothing behind. -/
def execPauseEnd (p : Fin 32) (prio : Option (Fin 8)) (s : State) : Out :=
  let k := match prio with
    | some x => x.val
    | none => 8
  if s.pausedBy p k then .next s else .next (s.onPort p fun q => { q with paused := q.paused.set 0 k 0 })

/-- Device time at which a calendar slot of port `p` begins: the preamble comes before the timestamp point, which the first bit passes up
to 8 ns before T (R109). -/
def State.slotBegins (s : State) (p : Nat) (x : Packet) : Int :=
  ((x.launch * perQuarter : Nat) : Int) - (8 * perNs + s.bytesTime p 8 : Nat)

/-- FRAME_TX (R109, R121, R126, R130, R131): the oldest frame selected for the port passes the timestamp point once the port is free. A
frame that would still be on the wire, as long as padding and MACsec make it and with its gap, when a calendar slot begins is not
started. -/
def execFrameTx (p : Fin 32) (phase : Fin 128) (s : State) : Out :=
  if !s.portCarries p || s.sendsPattern p || !s.portFree p phase then .next s
  else match s.net.txq.get [] p with
    | [] => .next s
    | x :: rest =>
      let len := ((s.macSend p x.bytes false phase).2.map List.length).getD 0
      let ends : Int := s.txStamp p phase + s.bytesTime p (len + 12)
      if (s.net.calendar.get [] p).any fun c => decide (s.slotBegins p c < ends) then .next s
      else done (({ s with net := { s.net with txq := s.net.txq.set [] p rest } }).txFrame p x phase).flowControl

/-- SYNCE_CLOCK_FAIL (R66, R136): the selected recovered clock loses lock. -/
def execSynceClockFail (s : State) : Out := .next (s.clockLost (s.fld ETH_SYNCE_SEL.PORT))

/-- SYNCE_RESTORE (R136): the recovered clock has been locked for WTR_S seconds. -/
def execSynceRestore (s : State) : Out :=
  match (s.port (s.fld ETH_SYNCE_SEL.PORT)).recovSince with
  | some t =>
    if s.synceReady && s.isSet ETH_SYNCE_SEL.HOLDOVER && decide (t + max 1 (s.fld ETH_SYNCE_SEL.WTR_S) * perSec ≤ s.up) then
      .next ((s.put ETH_SYNCE_SEL.HOLDOVER 0).put ETH_SYNCE_SEL.ACTIVE 1)
    else .next s
  | none => .next s

/-- RECOVERED_CLOCK_LOCK (R135, R136): the recovered clock of a port gains lock. -/
def execRecoveredClockLock (p : Fin 32) (s : State) : Out :=
  if !s.isSet ETH_SYNCE.RECOV_EN p || s.isSet ETH_SYNCE.RECOV_LOCK p then .next s
  else .next ((s.put ETH_SYNCE.RECOV_LOCK 1 p).onPort p fun q => { q with recovSince := some s.up }).synceFollow

end Sys2Proof.Machine
end

