-- ==== Sys2Proof/Machine/HostLink.lean ====
section
/-! DEFINITION. The commands and events of the host links (12_pcie_endpoint), but for the accesses to their BARs and DOE. -/
namespace Sys2Proof.Machine

/-! ## Links -/

/-- The modes in which a link is up or trains (R316). -/
def State.linksRun (s : State) : Bool := s.mode != NIGHT

/-- PERST_ASSERT (R309, R323): a fundamental reset of the link; ignored where the link does not exist. -/
def execPerstAssert (l : Fin 16) (s : State) : Out :=
  let s := s.onLink l fun k => { k with perst := true }
  if s.linkExists l then done (s.resetLink l true) else .next s

/-- PERST_DEASSERT (R51): the link trains once the part has reached DAWN. -/
def execPerstDeassert (l : Fin 16) (s : State) : Out :=
  let s := s.onLink l fun k => { k with perst := false }
  .next (if s.linkExists l && s.linksRun && !(s.hlink l).heldDetect then s.put HL_LINK_STATUS.LTSSM 1 l else s)

/-- The widest width a link trains at without its excluded lanes, from either end (R313, R470). -/
def State.trainLanes (s : State) (l : Nat) : Nat :=
  let n := s.linkLanes l
  let out (k : Nat) : Bool := (s.hlink l).excluded.contains (4 * l + k)
  ([16, 8, 4, 2, 1].find? fun w => decide (w ≤ n) && (!(List.range w).any out || !(List.range w).any fun k => out (n - 1 - k))).getD 0

/-- HOST_LINK_UP (R313): the data link comes up, at a rate and width the link allows; at 64 GT/s always in FLIT mode. A link in Recovery
returns to L0. -/
def execHostLinkUp (l : Fin 16) (speed lanes : Nat) (flit reversed : Bool) (s : State) : Out :=
  if !s.linkExists l || !s.linksRun || (s.hlink l).perst || (s.hlink l).heldDetect || s.trainLanes l == 0 then .next s
  else
    let cap := min 5 (s.fld HL_LINK_CFG.MAX_SPEED l)
    let sp := min speed cap
    let s := ((s.put HL_LINK_STATUS.UP 1 l).put HL_LINK_STATUS.LTSSM 3 l).put HL_LINK_STATUS.SPEED sp l
    let s := s.put HL_LINK_STATUS.LANES (within lanes 1 (s.trainLanes l)) l
    .next ((s.put HL_LINK_STATUS.FLIT (b2n (flit || sp == 5)) l).put HL_LINK_STATUS.REVERSED (b2n reversed) l)

/-- A lane of a link with receiver errors is tested in the next Detect, where the link is held (R470). -/
def State.testLane (s : State) (l : Nat) (lane : Option (Fin 64)) : State :=
  match lane with
  | some n =>
    if 4 * l ≤ n.val ∧ n.val < 4 * l + s.linkLanes l then
      let t := s.startTest 4 n
      if t.underTest 4 n then t.onLink l fun k => { k with heldDetect := true } else t
    else s
  | none => s

/-- HOST_LINK_DOWN (R323, R470): hot reset, Link Disable or loss of the link, perhaps with receiver errors on a lane. -/
def execHostLinkDown (l : Fin 16) (lane : Option (Fin 64)) (s : State) : Out :=
  if !s.isSet HL_LINK_STATUS.UP l then .next s else done ((s.resetLink l false ((lane.map (·.val)).getD 0)).testLane l lane)

/-- The error of R328 that a link-level error logs. -/
def linkErrorAer : LinkError → Option AerError
  | .receiver => some .receiver
  | .badTlp => some .badTlp
  | .badDllp => some .badDllp
  | .replayTimeout => some .replayTimeout
  | .replayRollover => some .replayRollover
  | .dataLinkProtocol => some .dataLinkProtocol
  | .flowControlProtocol => some .flowControlProtocol
  | .receiverOverflow => some .receiverOverflow
  | .none => none

/-- In FLIT mode an error of the link is one of its flits (R328): a receiver error is taken as one that FEC corrected, a bad TLP or DLLP as an
uncorrectable flit (PRESUMED, log entry 182). -/
def State.flitError (s : State) (l : Nat) (e : LinkError) : State :=
  if !s.isSet HL_LINK_STATUS.FLIT l then s
  else match e with
    | .receiver => s.onLink l fun k => { k with flitsCorrected := k.flitsCorrected + 1, flitFirst := k.flitFirst.or (some e) }
    | .badTlp | .badDllp => s.onLink l fun k => { k with flitsBad := k.flitsBad + 1, flitFirst := k.flitFirst.or (some e) }
    | _ => s

/-- HOST_LINK_RECOVERY (R328, R470): the link enters Recovery; its error is logged in PF 0. The data link stays up. -/
def execHostLinkRecovery (l : Fin 16) (error : LinkError) (lane : Option (Fin 64)) (s : State) : Out :=
  if !s.isSet HL_LINK_STATUS.UP l then .next s
  else
    let s := (s.put HL_LINK_STATUS.LTSSM 4 l).flitError l error
    let s := match linkErrorAer error with
      | some e => s.pcieError (2 * l) e
      | none => s
    done (match lane with
      | some n => if 4 * l.val ≤ n.val ∧ n.val < 4 * l + s.linkLanes l then s.startTest 4 n else s
      | none => s)

/-! ## Functions -/

/-- PF_FLR (R324, R326): the PF and, as VF Enable clears, all its VFs quiesce; ignored during an FLR of the PF. -/
def execPfFlr (f : Fin 2080) (s : State) : Out :=
  if 32 ≤ f.val ∨ !s.fnPresent f ∨ s.fnInReset f then .next s
  else done ((s.enabledVfs f).foldl State.startFlr (s.startFlr f))

/-- VF_FLR (R324, R326): the VF quiesces; ignored during an FLR of the VF or of its PF. -/
def execVfFlr (f : Fin 2080) (s : State) : Out :=
  if f.val < 32 ∨ !s.fnPresent f ∨ s.fnInReset f then .next s else done (s.startFlr f)

/-- FLR_COMPLETE (R323, R326): once every outstanding read of the functions has ended, their state is reset. A VF in the FLR of its PF
ends with it. For PF 0 of a link PTM Enable, IDE streams and keys and DOE sessions clear. -/
def execFlrComplete (f : Fin 2080) (s : State) : Out :=
  match s.linkOf f, s.pfOf f with
  | some l, some pf =>
    if (s.pcie f).flr.isNone ∨ (f.val ≠ pf ∧ (s.pcie pf).flr.isSome) then .next s
    else
      let fns := if f.val < 32 then f.val :: s.enabledVfs f else [f.val]
      if !fns.all s.drainedFn then .next s
      else
        let s := s.endFlr l fns
        let s := if f.val < 32 then s.setVfs f false 0 else s
        done (if f.val = 2 * l then (s.clearIde l).clearPtm l else s)
  | _, _ => .next s

/-- VF_ENABLE (R320): CHANGED sets and the function-state source fires; no VF in DAWN or TWILIGHT, nor beyond the ceiling. -/
def execVfEnable (pf : Fin 32) (numVfs : Nat) (s : State) : Out :=
  let l := pf.val / 2
  if !s.isSet HL_LINK_STATUS.UP l ∨ s.vfEnabled pf ∨ s.vfCeiling pf < numVfs ∨ s.mode = DAWN ∨ s.mode = TWILIGHT ∨ s.fnInReset pf then .next s
  else done (((s.setVfs pf true numVfs).put HL_SRIOV_STATUS.CHANGED 1 l).linkEvent l 5)

/-- VF_DISABLE (R320): VF Enable clears, or NumVFs is written while it is 0; VFs that were enabled go as by an FLR of each. -/
def execVfDisable (pf : Fin 32) (numVfs : Nat) (s : State) : Out :=
  let l := pf.val / 2
  if !s.isSet HL_LINK_STATUS.UP l ∨ s.vfCeiling pf < numVfs ∨ s.fnInReset pf then .next s
  else
    let gone := s.enabledVfs pf
    let s := gone.foldl State.startFlr s
    let s := (gone.foldl State.resetFn s).voidReads l fun r => gone.contains r.fn
    done (((s.setVfs pf false numVfs).put HL_SRIOV_STATUS.CHANGED 1 l).linkEvent l 5)

/-- BME_CLEAR (R325): the function issues nothing more and its queues halt with BME_OFF. -/
def execBmeClear (f : Fin 2080) (s : State) : Out :=
  match s.linkOf f with
  | none => .next s
  | some l =>
    if !(s.pcie f).busMaster then .next s
    else
      let s := s.onPcie f fun p => { p with busMaster := false }
      let s := ((List.range (s.qpCount f)).map (s.globalQueue f)).foldl (fun t g => t.bmeHalt f g) s
      done ((s.put HL_SRIOV_STATUS.BME_SEEN 1 l).linkEvent l 5)

/-- Vectors with their PBA bit set that may now go out do (R307). -/
def State.sendPending (s : State) (f : Nat) : State := ((s.fn f).pba).foldl (fun t v => t.msix f v) s

/-- HOST_CONFIG_WRITE (R91, R93, R306, R313, R314, R325, R328): a write of a function's configuration space. -/
def execHostConfigWrite (f : Fin 2080) (item : ConfigItem) (s : State) : Out :=
  match s.linkOf f with
  | none => .next s
  | some l =>
    if !s.fnPresent f ∨ s.fnInReset f then .next s
    else match item with
      | .ptmEnable on =>
        if f.val ≠ 2 * l then .next s
        else if on then .next (s.put CAR_LINK_STATUS.PTM_ON 1 0 l) else done (s.clearPtm l)
      | .busMasterSet => .next (s.onPcie f fun p => { p with busMaster := true })
      | .memorySpace on => .next (s.onPcie f fun p => { p with memSpace := on })
      | .msixEnable on => done ((s.onPcie f fun p => { p with msixEnable := on }).sendPending f)
      | .msixMask on => done ((s.onPcie f fun p => { p with msixMask := on }).sendPending f)
      | .d3hot on => .next (s.onPcie f fun p => { p with d3hot := on })
      | .aerClear => .next (s.onPcie f fun p => { p with aer := [], aerHeader := [] })
      | .tags10 on => .next (s.onPcie f fun p => { p with tag10 := on })
      | .tags14 on => .next (s.onPcie f fun p => { p with tag14 := on })
      | .aerMask e on => .next (s.onPcie f fun p => match aerErrors[e.val]? with
          | some e => { p with aerMask := p.aerMask.filter (· != e) ++ if on then [e] else [] }
          | none => p)
      | .aerSeverity e fatal => .next (s.onPcie f fun p => match aerErrors[e.val]? with
          | some e => { p with aerSwapped := p.aerSwapped.filter (· != e) ++ if fatal != e.fatal then [e] else [] }
          | none => p)

/-! ## Completions -/

/-- COMPLETION_TIMEOUT (R314, R315, R326, R327): a read has waited CPL_TO_MS: its tag becomes void; it is counted, and unless its function
is in FLR its user sees the failure. -/
def execCompletionTimeout (l : Fin 16) (tag : Nat) (s : State) : Out :=
  match (s.hlink l).reads.find? fun r => r.tag == tag with
  | none => .next s
  | some r =>
    if s.up < r.issued + s.cplTimeout l then .next s
    else
      let s := (s.onLink l fun k => { k with reads := k.reads.filter fun x => x.tag != tag, void := k.void ++ [(tag, s.up)] }).bump .HL_STAT l 4
      let s := if (s.pcie r.fn).flr.isSome then s.readLost r
        else s.readFails r .completionTimeout
      done (s.afterRead r.fn)

/-- COMPLETION_RX (R315, R325, R327): a completion for a void tag is discarded and counted as late; one for a function that may not master
the bus is discarded and counted, in FLR discarded; else it reaches the user of its data. One for no request is an Unexpected
Completion. -/
def execCompletionRx (l : Fin 16) (tag : Nat) (status : CplStatus) (s : State) : Out :=
  if (s.hlink l).void.any fun v => v.1 == tag then
    .next ((s.onLink l fun k => { k with void := k.void.filter fun v => v.1 != tag }).bump .HL_STAT l 3)
  else match (s.hlink l).reads.find? fun r => r.tag == tag with
    | none => if s.isSet HL_LINK_STATUS.UP l then done (s.pcieError (2 * l) .unexpectedCompletion) else .next s
    | some r =>
      let t := s.dropRead l tag
      let p := s.pcie r.fn
      let t := if !p.busMaster then (t.bump .HL_STAT l 3).readLost r
        else if p.flr.isSome then t.readLost r
        else match cplError status with
          | some e => t.readFails r e
          | none => t.readEnds r
      done (t.afterRead r.fn)

/-- VOID_TAG_REUSE (R327): one completion timeout after it became void, a tag may be used again. -/
def execVoidTagReuse (l : Fin 16) (tag : Nat) (s : State) : Out :=
  match (s.hlink l).void.find? fun v => v.1 == tag with
  | none => .next s
  | some v =>
    if s.up < v.2 + s.cplTimeout l then .next s
    else .next (s.onLink l fun k => { k with void := k.void.filter fun x => x.1 != tag })

/-! ## IDE -/

/-- IDE_CHECK_FAIL (R332): the TLP is dropped; its stream returns to Insecure with its keys erased, and the failure is counted and
logged. -/
def execIdeCheckFail (l : Fin 16) (slot : Fin 4) (s : State) : Out :=
  if bits (s.fld HL_IDE_STATUS.STATE l) (2 * slot + 1) (2 * slot) = 0 then .next s
  else
    let s := s.put HL_IDE_STATUS.STATE (setBits (s.fld HL_IDE_STATUS.STATE l) (2 * slot + 1) (2 * slot) 0) l
    let s := s.onSec fun x => { x with ideKeys := x.ideKeys.keep fun k => k / 2 != 8 * l.val + slot.val }
    done (((s.sat HL_IDE_STATUS.CHECK_FAIL 1 l).pcieError (2 * l) .ideCheckFailed).linkEvent l 6)

end Sys2Proof.Machine
end

