-- ==== Sys2Proof/Machine/Lookaside.lean ====
section
/-! DEFINITION. The commands and events of the lookaside cipher cores, the inline units' faults, and the compression units
(15_crypto_root_of_trust, 16_compression_telemetry). -/
namespace Sys2Proof.Machine

/-- GCM_ENC (R386): a request starts on a core. -/
def execGcmEnc (place : Nat) (s : State) : Out := done (s.startCrypto place opGcmEnc)
/-- GCM_DEC (R386, R388, R389). -/
def execGcmDec (place : Nat) (s : State) : Out := done (s.startCrypto place opGcmDec)
/-- XTS_ENC (R386). -/
def execXtsEnc (place : Nat) (s : State) : Out := done (s.startCrypto place opXtsEnc)
/-- XTS_DEC (R386). -/
def execXtsDec (place : Nat) (s : State) : Out := done (s.startCrypto place opXtsDec)
/-- CMAC (R386). -/
def execCmac (place : Nat) (s : State) : Out := done (s.startCrypto place opCmac)
/-- CRYPTO_HASH, the HASH operation (R386). -/
def execCryptoHash (place : Nat) (s : State) : Out := done (s.startCrypto place opHash)
/-- HMAC (R386). -/
def execHmac (place : Nat) (s : State) : Out := done (s.startCrypto place opHmac)

/-- CRYPTO_COMPLETE (R387 to R390): the request on a core ends, or goes into its second pass. `reply` is how host reads end. -/
def execCryptoComplete (core : Fin 128) (reply : CplStatus) (s : State) : Out :=
  match s.sec.jobs.find? fun j => j.core == core.val with
  | none => .next s
  | some j => done (s.finishCrypto j reply)

/-- KEY_UNWRAP (R392): the entry at an index is fetched into the key cache. -/
def execKeyUnwrap (index : Fin 1048576) (s : State) : Out := done (s.readKey index).1

/-- CIPHER_PARITY_FAULT (R390): a lookaside core reports a parity error; its request is to end with CRYPTO_FAULT, and the core is
tested. -/
def execCipherParityFault (core : Fin 128) (s : State) : Out :=
  let s := (s.fire 20 (core / 16) core initCrypto).startTest 6 core
  done (s.onSec fun x => { x with jobs := x.jobs.map fun j => if j.core == core.val then { j with fault := true } else j })

/-- INLINE_PARITY_FAULT (R391): a core of an inline unit (0 to 7 pipelines, 8 + L host links) reports a parity error: the frame or
TLP it processes, the next that the unit is given in this model, is not forwarded; and the core is tested. -/
def execInlineParityFault (unit : Fin 24) (core : Nat) (s : State) : Out :=
  if unitCores unit ≤ core then .next s
  else
    let s := if unit.val < 8 then s.fire 20 (16 + unit) (inlineTest unit core) initCrypto else s.fire 21 (unit - 8) (inlineTest unit core) initCrypto
    let s := s.onSec fun x => { x with faulty := if x.faulty.contains unit.val then x.faulty else x.faulty ++ [unit.val] }
    done (s.startTest 7 (inlineTest unit core))

/-- ZSTD_C (R420, R421): a request starts on a unit. -/
def execZstdC (place : Nat) (s : State) : Out := done (s.startCmp place 1)
/-- ZSTD_D (R420, R422). -/
def execZstdD (place : Nat) (s : State) : Out := done (s.startCmp place 2)
/-- DEFL_C (R420, R421). -/
def execDeflC (place : Nat) (s : State) : Out := done (s.startCmp place 3)
/-- DEFL_D (R420, R422). -/
def execDeflD (place : Nat) (s : State) : Out := done (s.startCmp place 4)

/-- CMP_COMPLETE (R421 to R423): the request on a unit ends. `reply` is how host reads end. -/
def execCmpComplete (unit : Fin 16) (reply : CplStatus) (s : State) : Out :=
  match s.tel.jobs.find? fun j => j.unit == unit.val with
  | none => .next s
  | some j => done (s.finishCmp j reply)

end Sys2Proof.Machine
end

