-- ==== Sys2Proof/Machine/Modes.lean ====
section
/-! DEFINITION. The commands and events of modes, power, clocks and resets (02_modes_power_clocks). -/
namespace Sys2Proof.Machine

/-! ## Mode requests (R25). A write of GLB_MODE acts the same whatever its REQ; each row is the write that names its mode. -/

/-- REQ_DAY (R25). -/
def execReqDay (req : Requester) (w : Word) (s : State) : Out := if s.mode = NIGHT then .next s else done (s.writeMode (codeOf req) w)

/-- REQ_NOON (R25). -/
def execReqNoon (req : Requester) (w : Word) (s : State) : Out := if s.mode = NIGHT then .next s else done (s.writeMode (codeOf req) w)

/-- REQ_EVENING (R25). -/
def execReqEvening (req : Requester) (w : Word) (s : State) : Out := if s.mode = NIGHT then .next s else done (s.writeMode (codeOf req) w)

/-- REQ_DUSK (R29). -/
def execReqDusk (req : Requester) (w : Word) (s : State) : Out := if s.mode = NIGHT then .next s else done (s.writeMode (codeOf req) w)

/-- REQ_MIDNIGHT (R414). -/
def execReqMidnight (req : Requester) (w : Word) (s : State) : Out := if s.mode = NIGHT then .next s else done (s.writeMode (codeOf req) w)

/-- FORCE (R30). -/
def execForce (req : Requester) (w : Word) (s : State) : Out := if s.mode = NIGHT then .next s else done (s.writeMode (codeOf req) w)

/-- TRANSITION_COMPLETE (R24): the transition in progress completes; `record` is the PCIe configuration record that the boot ROM finds
where the transition leaves NIGHT (R310). -/
def execTransitionComplete (record : Option (List Word)) (s : State) : Out := done (s.completeTransition record)

/-! ## DUSK and EVENING -/

/-- DUSK_DRAIN_END (R30): nothing of R29 remains. -/
def execDuskDrainEnd (s : State) : Out :=
  if s.mode = DUSK ∧ !s.isSet GLB_MODE.TRANSIT ∧ s.drained then .next s.endDrain else .next s

/-- DUSK_DRAIN_TIMEOUT (R30): 1 s after the entry, once. -/
def execDuskDrainTimeout (s : State) : Out :=
  if s.mode = DUSK ∧ !s.isSet GLB_MODE.TRANSIT ∧ !s.modes.duskLate ∧ !s.drained ∧ s.modes.duskSince + perSec ≤ s.up then
    done ({ s with modes := { s.modes with duskLate := true } }.fire 0 1)
  else .next s

/-- AUTO_EVENING_ENTRY (R31): the three conditions have held for IDLE_US; not within 1 ms of leaving EVENING. -/
def execAutoEveningEntry (s : State) : Out :=
  if s.mode = DAY ∧ !s.isSet GLB_MODE.TRANSIT ∧ s.autoEnter ∧ s.idle ∧
      (s.modes.idleSince.getD s.up) + ofUs (s.fld GLB_EVENING_CTL.IDLE_US) ≤ s.up ∧ s.modes.eveningLeft.all fun t => t + ofMs 1 ≤ s.up then
    .next (s.beginTransition EVENING true 4)
  else .next s

/-- AUTO_EVENING_RETURN (R32). -/
def execAutoEveningReturn (s : State) : Out :=
  if s.mode = EVENING ∧ !s.isSet GLB_MODE.TRANSIT ∧ (s.fld GLB_EVENING_CTL.UP_KIB * 1024 ≤ s.occupancy ∨ s.darkWork) then
    .next (s.beginTransition DAY true 4)
  else .next s

/-- EVENING_CTL_WRITE (R34). -/
def execEveningCtlWrite (req : Requester) (w : Word) (s : State) : Out :=
  if s.mode = NIGHT then .next s else
  let s := s.writeReg .GLB_EVENING_CTL 0 0 w
  done (if s.isSet GLB_EVENING_CTL.AUTO_ENTER && !s.autoEnter then s.refuseMode (codeOf req) else s)

/-- DOMAIN_WAKE (R35): work reaches a gated domain, whose clock runs. -/
def execDomainWake (dom : Fin 48) (s : State) : Out :=
  .next (if dom.val < 16 then s.wakeCluster dom else s.wakeDomain dom)

/-- A domain other than a cluster has work. -/
def State.domainBusy (s : State) (d : Nat) : Bool :=
  if d < 24 then (s.sec.jobs.any fun j => j.core / 16 == d - 16) || s.tbe.msgs.any fun m => m.channel == 3
  else if d < 40 then (s.tel.jobs.any fun j => j.unit == d - 24) || s.tbe.msgs.any fun m => m.channel == 4
  else !s.net.snare.isEmpty

/-- DOMAIN_GATE (R35, R37): in DAY, a cipher group, compression unit or Snare scanner without work is gated unless it is held awake. -/
def execDomainGate (dom : Fin 48) (s : State) : Out :=
  if s.mode = DAY ∧ 16 ≤ dom.val ∧ !bitOf (s.fld PWR_HOLD_AWAKE.HOLD) dom ∧ !s.domainBusy dom then .next (s.setDomain dom false)
  else .next s

/-! ## Rails, PLLs, temperature -/

/-- The 5 mV step toward the setpoint that waits for its acknowledgement: none once the setpoint is reached, after the third failure,
and while the part is held in NIGHT (R513). -/
def State.avsStep (s : State) : Option Nat :=
  let r := s.fld PWR_AVS.REQUEST_MV
  let t := s.fld PWR_AVS.SETPOINT_MV
  if r = t ∨ 3 ≤ s.modes.avsFails ∨ s.modes.hold ≠ .no then none else some (if r < t then min t (r + 5) else max t (r - 5))

/-- The nominal voltage that the monitor of a rail compares with, in µV (R41): of a VDDA pair, `upper` is the 1.20 V rail; that of
VDD_CORE is the last acknowledged AVS request, or the lower of it and a pending step (R513). -/
def State.railNominal (s : State) (rail : Nat) (upper : Bool) : Nat :=
  match rail with
  | 0 => 1000 * min (s.fld PWR_AVS.REQUEST_MV) (s.avsStep.getD (s.fld PWR_AVS.REQUEST_MV))
  | 1 | 2 => 800000
  | 3 | 4 => if upper then 1200000 else 900000
  | 5 => 1100000
  | 6 => 1800000
  | _ => 3300000

/-- Warning and reset level of a rail, in percent below its nominal voltage (R41). -/
def railLevels (rail : Nat) : Nat × Nat :=
  match rail with
  | 0 => (6, 10)
  | 1 | 5 => (5, 9)
  | 2 => (5, 10)
  | 3 | 4 => (4, 8)
  | 6 => (8, 12)
  | _ => (10, 15)

/-- A rail at `uv` µV is below its warning level, below its reset level, and more than 1 % of nominal above its warning level (R41,
R525). -/
def State.railWarns (s : State) (rail : Nat) (upper : Bool) (uv : Nat) : Bool :=
  decide (100 * uv < (100 - (railLevels rail).1) * s.railNominal rail upper)
def State.railDown (s : State) (rail : Nat) (upper : Bool) (uv : Nat) : Bool :=
  decide (100 * uv < (100 - (railLevels rail).2) * s.railNominal rail upper)
def State.railClear (s : State) (rail : Nat) (upper : Bool) (uv : Nat) : Bool :=
  decide ((101 - (railLevels rail).1) * s.railNominal rail upper < 100 * uv)

/-- Number of the monitor of a rail: its index, or 8 more for the 1.20 V rail of a VDDA pair. -/
def monitorOf (rail : Nat) (upper : Bool) : Nat := rail + (if upper && (rail == 3 || rail == 4) then 8 else 0)

/-- SAG_BEGIN (R41, R42, R43, R525): the rail is at `uv` µV, below its warning level: its bits, the count and the event with its index.
The stretch of the clocks is timing. -/
def execSagBegin (rail : Fin 8) (upper : Bool) (uv : Nat) (s : State) : Out :=
  let b := 2 ^ rail.val
  if s.modes.hold = .aonDown ∨ !s.railWarns rail upper uv ∨ s.modes.sags.contains (monitorOf rail upper) then .next s
  else
    let t := { s with modes := { s.modes with sags := s.modes.sags ++ [monitorOf rail upper] } }
    if bitOf (s.fld PWR_SAG_STATUS.WARN_NOW) rail then .next t
    else
      let t := (t.put PWR_SAG_STATUS.WARN_NOW (s.fld PWR_SAG_STATUS.WARN_NOW ||| b)).put PWR_SAG_STATUS.WARN_SEEN
        (s.fld PWR_SAG_STATUS.WARN_SEEN ||| b)
      done (State.carSettle s ((t.sat PWR_SAG_STATUS.SAG_COUNT 1).fire 0 2 rail))

/-- SAG_END (R525): the rail, now at `uv` µV, has stayed for `ns` ns above its warning level by more than 1 % of its nominal voltage.
The sag of a VDDA pair ends when neither of its rails is in one. -/
def execSagEnd (rail : Fin 8) (upper : Bool) (uv ns : Nat) (s : State) : Out :=
  if !s.railClear rail upper uv ∨ ns < 1000 ∨ !s.modes.sags.contains (monitorOf rail upper) then .next s
  else
    let t := { s with modes := { s.modes with sags := s.modes.sags.filter (· != monitorOf rail upper) } }
    if t.modes.sags.contains (monitorOf rail !upper) ∧ (rail.val = 3 ∨ rail.val = 4) then .next t
    else done (State.carSettle s (t.put ⟨.PWR_SAG_STATUS, rail, rail⟩ 0))

/-- PLL_LOCK_LOST (R45, R83): TS_LOCK_LOST, and the slots that rest on the PLL are unusable at once. -/
def execPllLockLost (pll : Pll) (s : State) : Out :=
  if s.modes.hold = .aonDown then .next s
  else
    let t := s.put PWR_PLL_STATUS.TS_LOCK_LOST 1
    let t := if s.fld PWR_SAG_STATUS.WARN_NOW = 0 then t else t.fire 0 3
    match pll with
    | .alwaysOn => done (State.carSettle s ((t.put ⟨.PWR_PLL_STATUS, 0, 0⟩ 0).dropSlots fun _ => true))
    | .serdes pin =>
      let l := s.physicalLane pin
      let t := { t with modes := { t.modes with lostSerdes := if t.modes.lostSerdes.contains l then t.modes.lostSerdes else t.modes.lostSerdes ++ [l] } }
      let serves (p : Nat) : Bool := decide (p ≤ l) && decide (l < p + s.portWidth p)
      let uses (n : Nat) : Bool := s.slotKind n == 0 && serves (s.fld CAR_SRC_CFG.PORT 0 n)
      done (State.carSettle s (t.dropSlots uses))

/-- PLL_RELOCK (R83): the PLL locks again; slots become usable at their next accepted measurement. -/
def execPllRelock (pll : Pll) (s : State) : Out :=
  if s.modes.hold = .aonDown then .next s
  else match pll with
    | .alwaysOn => .next (s.put ⟨.PWR_PLL_STATUS, 0, 0⟩ 1)
    | .serdes l => .next { s with modes := { s.modes with lostSerdes := s.modes.lostSerdes.filter (· != s.physicalLane l) } }

/-- THROTTLE# is asserted, and ECLK and CCLK run at half their rate (R47); released in NIGHT (R501). -/
def State.throttlePin (s : State) : Bool := s.mode != NIGHT && s.isSet PWR_THERM.THROTTLE

/-- THERMAL_THROTTLE (R47): at 100 °C. -/
def execThermalThrottle (tj : BitVec 16) (s : State) : Out :=
  let t := s.put PWR_THERM.TJ tj.toNat
  if tj.toInt < 1600 ∨ s.isSet PWR_THERM.THROTTLE then .next t else done ((t.put PWR_THERM.THROTTLE 1).fire 0 4)

/-- THROTTLE_RELEASE (R47): below 95 °C. -/
def execThrottleRelease (tj : BitVec 16) (s : State) : Out :=
  let t := s.put PWR_THERM.TJ tj.toNat
  .next (if tj.toInt < 1520 then t.put PWR_THERM.THROTTLE 0 else t)

/-- THERMAL_SHUTDOWN (R47): at 115 °C, into NIGHT until POR#. -/
def execThermalShutdown (tj : BitVec 16) (s : State) : Out :=
  let t := s.put PWR_THERM.TJ tj.toNat
  if tj.toInt < 1840 ∨ s.modes.hold = .thermal ∨ s.modes.hold = .aonDown then .next t
  else done ((t.put PWR_THERM.SHUTDOWN_SEEN 1).deviceReset .thermal)

/-! ## Resets -/

/-- A supply monitor sees its rail below its reset level. -/
def State.railFalls (s : State) (r : Nat) : State :=
  { s with modes := { s.modes with lowRails := if s.modes.lowRails.contains r then s.modes.lowRails else s.modes.lowRails ++ [r] } }

/-- SUPPLY_RESET (R41, R46): a rail other than VDD_AON, at `uv` µV, is below its reset level. While POR# or VDD_AON holds the part in
reset the rail is only noted (R511). -/
def execSupplyReset (rail : Fin 8) (upper : Bool) (uv : Nat) (s : State) : Out :=
  if rail.val = 2 ∨ !s.railDown rail upper uv then .next s
  else
    let t := s.railFalls (monitorOf rail upper)
    if s.modes.hold = .porLow ∨ s.modes.hold = .aonDown then .next t else done (t.deviceReset .supply)

/-- AON_RESET (R41, R46): VDD_AON, at `uv` µV, falls below its reset level: the whole part resets and the counter stops. -/
def execAonReset (uv : Nat) (s : State) : Out :=
  if s.modes.hold = .aonDown ∨ !s.railDown 2 false uv then .next s else done (s.deviceReset .aon)

/-- A reset ends: held still while POR# is low, in a supply reset while a rail is low (R511), else the straps are latched. -/
def State.endHold (s : State) (straps : Nat) : State :=
  let s := { s with modes := { s.modes with hold := .no } }
  if s.modes.porLow then { s with modes := { s.modes with hold := .porLow } }
  else if s.modes.lowRails ≠ [] then s.deviceReset .supply
  else s.powerUp straps

/-- VDD_AON_POWER_UP (R41, R46): VDD_AON is back, at `uv` µV; the counter starts again, unsynchronized. A POR# that is low then is a cause too (R26). -/
def execVddAonPowerUp (uv : Nat) (straps : BitVec 9) (s : State) : Out :=
  if s.modes.hold = .aonDown ∧ !s.railDown 2 false uv then
    done ((if s.modes.porLow then s.put GLB_RESET_CAUSE.POR 1 else s).endHold straps.toNat)
  else .next s

/-- POR_ASSERT (R48): a device reset, unless VDD_AON is down. -/
def execPorAssert (s : State) : Out :=
  let t := { s with modes := { s.modes with porLow := true } }
  if s.modes.porLow ∨ s.modes.hold = .aonDown then .next t else done (t.deviceReset .por)

/-- POR_DEASSERT (R51, R511). -/
def execPorDeassert (straps : BitVec 9) (s : State) : Out :=
  let t := { s with modes := { s.modes with porLow := false } }
  if s.modes.hold = .porLow then done (t.endHold straps.toNat) else .next t

/-- RAIL_RECOVERY (R511): a low rail is back, at `uv` µV; the recovery of the last one ends a supply reset. -/
def execRailRecovery (rail : Fin 8) (upper : Bool) (uv : Nat) (straps : BitVec 9) (s : State) : Out :=
  let t := { s with modes := { s.modes with lowRails := s.modes.lowRails.filter (· != monitorOf rail upper) } }
  if s.railDown rail upper uv then .next s
  else if s.modes.hold = .supply ∧ t.modes.lowRails = [] then done (t.powerUp straps.toNat) else .next t

/-- A device reset was performed at this edge, of another source, and it found what `p` says: the present trigger meets it (R26). -/
def State.meetsReset (s : State) (src : ResetSource) (p : ResetMeet → Bool) : Bool :=
  s.metResets != [] && !s.metResets.contains src && s.modes.met.any p

/-- MANAGER_RESET (R26, R48): with the key, a device reset to TARGET; a wrong key raises source 7. -/
def execManagerReset (req : Requester) (w : Word) (s : State) : Out :=
  if s.mode = NIGHT ∧ !s.meetsReset (.manager (wfld w GLB_RESET_CTL.TARGET = 1)) (fun m => m.reachable) then .next s else
  if wfld w GLB_RESET_CTL.KEY = 0xD05C then done (s.deviceReset (.manager (wfld w GLB_RESET_CTL.TARGET = 1)))
  else done (s.fire 0 7 0 (codeOf req))

/-! ## The watchdog (R49) -/

/-- The watchdog counts from now, its first period. -/
def State.kick (s : State) : State := { s with modes := { s.modes with wdogSecond := false, wdogSince := s.up } }

/-- WDOG_KICK (R49). -/
def execWdogKick (_req : Requester) (_w : Word) (s : State) : Out := if s.mode = NIGHT then .next s else .next s.kick

/-- WDOG_FIRST_EXPIRY (R49). -/
def execWdogFirstExpiry (s : State) : Out :=
  if s.isSet GLB_WDOG_CTL.EN ∧ !s.modes.wdogSecond ∧ s.wdogDue ≤ s.up ∧ s.mode ≠ NIGHT then
    done (({ s with modes := { s.modes with wdogSecond := true, wdogSince := s.wdogDue } }.put GLB_WDOG_CTL.FIRST 1).fire 0 6)
  else .next s

/-- WDOG_SECOND_EXPIRY (R49); it may meet another device reset (R26). -/
def execWdogSecondExpiry (s : State) : Out :=
  if s.wdogExpires ∨ s.meetsReset .watchdog (fun m => m.wdogDue) then done (s.deviceReset .watchdog) else .next s

end Sys2Proof.Machine
end

