-- ==== Sys2Proof/Machine/Faults.lean ====
section
/-! DEFINITION. The commands and events of Gong: injection, severities, memory errors, self-tests and retirement, stalls
(18_faults_and_guarantees), and the inputs of the board that fire a source. -/
namespace Sys2Proof.Machine

/-! ## Writes -/

/-- INJECT (R460): GO fires the source once, with TYPE 6 and the writer as INITIATOR. -/
def execInject (req : Requester) (w : Word) (s : State) : Out :=
  if s.mode = NIGHT then .next s else
  if wfld w GONG_INJECT.GO = 1 then
    let src := wfld w GONG_INJECT.SOURCE
    done (s.fire (src / 32) (src % 32) 0 (codeOf req) 6)
  else .next s

/-- A write of GONG_CFG (R461): CLR_COUNTS zeroes GONG_COUNT. -/
def State.writeGongCfg (s : State) (w : Word) : State :=
  let u := (s.writeReg .GONG_CFG 0 0 w).put GONG_CFG.CLR_COUNTS 0
  if wfld w GONG_CFG.CLR_COUNTS = 1 then (List.range 256).foldl (fun t i => t.setRaw .GONG_COUNT 0 i 0) u else u

/-- CLR_COUNTS (R461). -/
def execClrCounts (_req : Requester) (w : Word) (s : State) : Out := if s.mode = NIGHT then .next s else .next (s.writeGongCfg w)

/-- SEV_WRITE (R461, R468): the severities change; a source whose status bit is set and whose severity becomes fatal gains a fatal
condition. -/
def execSevWrite (_req : Requester) (g : Fin 32) (w : Word) (s : State) : Out :=
  if s.mode = NIGHT then .next s else
  let u := s.writeReg .GONG_SEV 0 g w
  let u := if g.val = 0 then u.put (GONG_SEV.SEV 6) 2 else u
  done ((List.range 32).foldl (fun t k =>
    if bitOf (s.fld GONG_STATUS.SRC 0 g) k ∧ s.severity g k ≠ 3 ∧ u.severity g k = 3 then t.gainFatal g k false else t) u)

/-! ## Self-tests (R470 to R472) -/

/-- A source of the self-test fires. -/
def State.testFires (s : State) (g src : Nat) : State := s.fire g src 0 initGong 5

/-- A DDR channel's source `k` (R460). -/
def State.ddrSource (s : State) (c k : Nat) (addr : Nat := 0) : State := s.fire (18 + c / 4) (8 * (c % 4) + k) addr

/-- A core of an inline unit is retired (R391): an IDE unit without a core left makes every stream of its link Insecure. -/
def State.retireInline (s : State) (u core : Nat) : State :=
  let s := (s.onSec fun x => { x with inlineRetired := x.inlineRetired ++ [(u, core)] }).put CRY_STATUS.INLINE_RETIRED (s.fld CRY_STATUS.INLINE_RETIRED + 1)
  let s := if u < 8 then s.testFires 20 (24 + u) else s.testFires 21 (u - 8)
  let l := u - 8
  if u < 8 ∨ (List.range (unitCores u)).any (fun c => !s.sec.inlineRetired.contains (u, c)) ∨ s.fld HL_IDE_STATUS.STATE l = 0 then s
  else s.clearIde l

/-- What retirement does to a unit. -/
def State.retireUnit (s : State) (kind unit : Nat) : State :=
  match kind with
  | 2 => s.ddrSource (rowChannel unit) 6
  | 3 => s.onPort unit fun q => { q with retired := true }
  | 4 =>
    match (List.range 16).find? fun l => s.holdsGroup l (unit / 4) with
    | some l => s.onLink l fun k => { k with excluded := k.excluded ++ [unit] }
    | none => s
  | 5 => (List.range 8).foldl (fun t k => t.onThread (8 * unit + k) fun x => { x with mode := .faulted }) (s.put TBE_CTL.RETIRED 1 unit)
  | 6 =>
    let w := s.raw .CRY_RETIRED 0 (unit / 64)
    let s := s.setRaw .CRY_RETIRED 0 (unit / 64) (w ||| BitVec.ofNat 64 (2 ^ (unit % 64)))
    (s.put CRY_STATUS.LOOKASIDE_RETIRED (s.fld CRY_STATUS.LOOKASIDE_RETIRED + 1)).testFires 20 (8 + unit / 16)
  | 7 => s.retireInline (unit % 32) (unit / 32)
  | 8 => s.put CMP_STATUS.RETIRED (s.fld CMP_STATUS.RETIRED ||| 2 ^ unit)
  | _ => s

/-- A retirement is logged (R472). -/
def State.logRetirement (s : State) (kind unit : Nat) : State :=
  match (List.range 256).find? fun i => s.raw .GONG_RETIRE_LOG 0 (2 * i + 1) = 0 with
  | some i => (s.setRaw .GONG_RETIRE_LOG 0 (2 * i) (BitVec.ofNat 64 s.ts64)).setRaw .GONG_RETIRE_LOG 0 (2 * i + 1) (BitVec.ofNat 64 (kind + 256 * unit))
  | none => s.testFires 27 5

/-- A lasting unit (R471, R472). A row without a spare stays in service. -/
def State.lasting (s : State) (u : TestUnit) : State :=
  if u.kind ≤ 2 ∧ !u.spare then
    if u.kind = 1 then s.testFires 27 2 else s.ddrSource (rowChannel u.unit) 7
  else
    let s := (s.retireUnit u.kind u.unit).onGong fun g =>
      { g with retired := g.retired ++ [(u.kind, u.unit)], retiredCount := satAdd g.retiredCount 1 65535 }
    (s.logRetirement u.kind u.unit).testFires 27 4

/-- A transient unit (R471): its time is stored, over the oldest one where the table is full, and its spare is freed. -/
def State.transientUnit (s : State) (u : TestUnit) : State :=
  let others := s.gong.transient.filter fun e => !(e.kind == u.kind && e.unit == u.unit)
  let oldest := (others.map (·.ts)).foldl min (others.map (·.ts) |>.headD 0)
  let over' := decide (256 ≤ others.length)
  let kept := if over' then others.eraseIdx ((others.findIdx? fun e => e.ts == oldest).getD 0) else others
  let s := s.onGong fun g => { g with transient := kept ++ [{ u with spare := false }] }
  let s := if over' then s.testFires 27 7 else s
  (s.freeSpare u).testFires 27 3

/-- The next test of a KIND begins. -/
def State.nextTest (s : State) (kind : Nat) : State :=
  match s.gong.waiting.find? fun x => x.kind == kind with
  | some x =>
    if 4 ≤ (s.gong.running.filter fun y => y.kind == kind).length then s
    else (s.onGong fun g => { g with waiting := g.waiting.filter fun y => !(y.kind == kind && y.unit == x.unit) }).beginTest x
  | none => s

/-- A link is no longer held in Detect once no lane of it is under test. -/
def State.releaseDetect (s : State) (lane : Nat) : State :=
  match (List.range 16).find? fun l => s.holdsGroup l (lane / 4) with
  | some l =>
    if (List.range (s.linkLanes l)).any fun k => s.underTest 4 (4 * l + k) then s
    else s.onLink l fun k => { k with heldDetect := false }
  | none => s

/-- SELF_TEST_DONE (R471, R472): the test of a unit ends. -/
def execSelfTestDone (kind : Fin 11) (unit : Nat) (pass : Bool) (s : State) : Out :=
  match s.gong.running.find? fun u => u.kind == kind.val && u.unit == unit with
  | none => .next s
  | some u =>
    let s := s.onGong fun g => { g with running := g.running.filter fun x => !(x.kind == kind.val && x.unit == unit) }
    let window := s.fld GONG_CFG.LASTING_S * 4000000000
    let again := s.gong.transient.any fun e => e.kind == kind.val && e.unit == unit && decide (u.ts < e.ts + window)
    let s := if !pass || again then s.lasting u else s.transientUnit u
    let s := if kind.val = 4 then s.releaseDetect unit else s
    done (s.nextTest kind)

/-! ## Memory and register-file errors -/

/-- The sources of uncorrectable errors of the memories; cluster memory reports by the trap of the thread that reads it (R228). -/
def sramSource : SramMemory → Option (Nat × Nat)
  | .packetBuffer => some (27, 1)
  | .tables => some (24, 0)
  | .cluster _ => none
  | .coreL2 n => some (28, n)
  | .parse p => some (10 + p / 2, 8 * (p % 2))
  | .action p => some (10 + p / 2, 8 * (p % 2) + 1)
  | .scheduler => some (25, 0)
  | .keyCache => some (21, 16)
  | .transport => some (27, 16)
  | .histogram => some (22, 18)
  | .streamState => some (23, 8)
  | .ruleImage => some (23, 9)
  | .fabric => some (26, 6)

/-- Memories whose rows are tested (R470). -/
def sramTested : SramMemory → Bool
  | .packetBuffer | .tables | .cluster _ | .coreL2 _ => true
  | _ => false

/-- The reader of a word with an uncorrectable error: a packet before its verdict and a frame in a queue are dropped; a thread takes a
PARITY trap (R167, R200, R223, R283, R460). -/
def State.eccVictim (s : State) : EccVictim → State
  | .nobody => s
  | .feed p k =>
    match (s.pipe p).feeds.get [] k with
    | x :: rest => ((s.onPipe p fun q => { q with feeds := q.feeds.set [] k rest }).bump .PPL_STAT p 17).dropFrame x stDropped
    | [] => s
  | .walk p i =>
    match (let q := s.pipe p; q.parked ++ q.resumed ++ q.held.toList)[i]? with
    | some w => (((s.takeWalk p i).bump .PPL_STAT p 17).dropSeq w.pkt).dropFrame w.pkt stDropped
    | none => s
  | .queue k =>
    match s.squeue k with
    | x :: rest =>
      (((s.setQueue k rest).dropSeq x).dropFrame x stDropped).flowControl
    | [] => s
  | .thread t ins => if s.issues t then s.trap t (s.thread t).pc causeParity (if ins then 2 else 1) else s

/-- The source of an uncorrectable error of an SRAM word fires. -/
def State.sramFires (s : State) (m : SramMemory) (addr : Nat) : State :=
  match sramSource m with
  | some (g, k) => s.fire g k addr
  | none => s

/-- The trap of a thread that reads a bad word of its cluster's memory starts the test of the row, so a first-error record that it fills holds
the row's identifier (R464). -/
def State.rowRecord (s before : State) (m : SramMemory) (unit : Nat) : State :=
  match m with
  | .cluster c =>
    let g := 14 + c.val / 4
    if !before.isSet GONG_FIRST_INFO.VALID 0 g && s.isSet GONG_FIRST_INFO.VALID 0 g && s.fld GONG_FIRST_INFO.SOURCE 0 g == 8 * (c.val % 4) + 2 then
      s.setRaw .GONG_FIRST_ADDR 0 g (BitVec.ofNat 64 unit)
    else s
  | _ => s

/-- A row with an uncorrectable error is tested: its copy holds poisoned words (R470). -/
def State.poison (s : State) (kind unit : Nat) : State :=
  if s.underTest kind unit then s.onGong fun g => { g with poisoned := g.poisoned ++ [(kind, unit)] } else s

/-- An error in an SRAM row. -/
def State.sramError (s : State) (bank row : Nat) (m : SramMemory) (unc : Bool) (victim : EccVictim) : State :=
  let unit := bank + 4096 * row
  let addr := if sramTested m then unit else 0
  let s := if unc then s.sramFires m addr else if m = .packetBuffer then s.fire 27 0 addr else s
  let s := if sramTested m then s.startTest 1 unit else s
  if unc then ((s.eccVictim victim).rowRecord s m unit).poison 1 unit else s

/-- A read of a poisoned word (R470): reported to its reader and counted; no test starts. -/
def State.poisonedRead (s : State) (unit : Nat) (m : SramMemory) (victim : EccVictim) : State :=
  (s.sramFires m (if sramTested m then unit else 0)).eccVictim victim

/-- A cached counter half is discarded (R427). -/
def State.flowHalfLost (s : State) (p pair : Nat) (bytes : Bool) : State :=
  if (s.pairs p).any fun e => e.1 == pair then
    let s := s.setPairs p ((s.pairs p).map fun e => if e.1 = pair then (if bytes then (e.1, e.2.1, 0) else (e.1, 0, e.2.2)) else e)
    let s := if s.isSet CMP_FC_STATUS.LOST then s else (s.put CMP_FC_STATUS.LOST 1).put CMP_FC_STATUS.LOST_INDEX pair
    s.fire 22 16 0 initCmp
  else s

/-- MEMORY_ECC_ERROR (R458, R470, and the sources of each block). -/
def execMemoryEccError (err : EccError) (s : State) : Out :=
  if s.mode = NIGHT then .next s else
  match err with
  | .sram bank row m unc victim => done (s.sramError bank row.toNat m unc victim)
  | .poisonedSram bank row m victim =>
    let unit := bank.val + 4096 * row.toNat
    if s.gong.poisoned.contains (1, unit) then done (s.poisonedRead unit m victim) else .next s
  | .ddr c row addr unc =>
    let unit := c.val + 8 * row.toNat
    let s := (s.ddrSource c (b2n unc) addr).startTest 2 unit
    done (if unc then s.poison 2 unit else s)
  | .ddrBus c fault addr => done (s.ddrSource c (match fault with
    | .commandParity => 2
    | .writeCrc => 3
    | .training => 4) addr)
  | .poisonedDdr c row addr => if s.gong.poisoned.contains (2, c.val + 8 * row.toNat) then done (s.ddrSource c 1 addr) else .next s
  | .ccCache c line hart =>
    let unit := c.val + 4 * line.toNat
    let s := match hart with
      | some h => s.hartEvent (8 * c + h) 0x405 1
      | none => s
    done ((s.fire 28 c unit).startTest 9 unit)
  | .registerFile t => if s.issues t then done ((s.trap t (s.thread t).pc causeParity 0).startTest 5 (engineOf t)) else .next s
  | .cmpUnit u =>
    let hit (j : CmpJob) : CmpJob := if j.unit == u.val then { j with fault := true } else j
    let s := { s with tel := { s.tel with jobs := s.tel.jobs.map hit } }
    done ((s.fire 22 u u initCmp).startTest 8 u)
  | .scanner n => done ((s.fire 23 n n initSnare).startTest 10 n)
  | .controller f =>
    if s.isNvmeFn f then done (((s.fire 27 24 0 initNvm).onCtl f fun c => { c with cfs := true }).endController f) else .next s
  | .flowCounter p pair bytes => done (s.flowHalfLost p pair bytes)

/-! ## Stalls and the board -/

/-- STALL_DETECT (R478): a fabric request of a class has gone unanswered for `us` microseconds, the limit STALL_US or more; 0 acts
as 1. -/
def execStallDetect (cls : Fin 4) (us : Nat) (s : State) : Out :=
  if s.mode = NIGHT ∨ us < max 1 (s.fld GONG_CFG.STALL_US) then .next s else done (s.fire 26 cls)

/-- DRAM_OVER_TEMPERATURE (R460). -/
def execDramOverTemperature (c : Fin 8) (s : State) : Out := if s.mode = NIGHT then .next s else done (s.ddrSource c 5)

/-- REF25_IN_MISSING (R460). -/
def execRef25InMissing (s : State) : Out := done (s.fire 31 0)

/-- PCIE_REFCLK_MISSING (R312, R460): while a link in common-clock mode uses the input. -/
def execPcieRefclkMissing (n : Fin 4) (s : State) : Out :=
  if (List.range 16).any fun l => s.linkExists l && s.refClock l == some n.val
  then done (s.fire 31 (1 + n)) else .next s

/-- SMBUS_BUS_ERROR (R460). -/
def execSmbusBusError (port : Fin 2) (s : State) : Out := done (s.fire 31 (7 + port))

/-- UART_ERROR (R460). -/
def execUartError (s : State) : Out := done (s.fire 31 9)

/-! ## The VDD_CORE regulator (R513) -/

/-- AVS_ACK (R513). -/
def execAvsAck (s : State) : Out :=
  match s.avsStep with
  | some v => .next (({ s with modes := { s.modes with avsFails := 0 } }).put PWR_AVS.REQUEST_MV v)
  | none => .next s

/-- AVS_ACK_TIMEOUT (R513): the third failure sets ACK_ERR and ends the walk. -/
def execAvsAckTimeout (s : State) : Out :=
  match s.avsStep with
  | some _ =>
    let t := { s with modes := { s.modes with avsFails := s.modes.avsFails + 1 } }
    .next (if 3 ≤ t.modes.avsFails then t.put PWR_AVS.ACK_ERR 1 else t)
  | none => .next s

/-! ## Snare rule sets (R521) -/

/-- Blocks of Snare that no image uses. -/
def State.snareBlocks (s : State) : List Nat :=
  (List.range 640).filter fun b => s.blockOwner b == 8 && !s.net.images.any fun i => i.blocks.contains b

/-- An image of `len` bytes at `a` becomes rule set `r`: it is copied at once, and the one before it is old. -/
def State.loadImage (s : State) (a len r : Nat) : State :=
  let bs := s.snareBlocks.take (ceilDiv len 65536)
  let bytes := s.ddrRead a len
  let s := bs.zipIdx.foldl (fun t b => t.tblWrite (65536 * b.1) ((bytes.drop (65536 * b.2)).take 65536)) s
  let old := s.net.images.map fun i => if i.ruleSet = r then { i with old := true } else i
  { s with
    net := { s.net with images := old ++ [{ num := s.net.nextImage, ruleSet := r, blocks := bs }], nextImage := s.net.nextImage + 1 } }

/-- SNARE_LOAD (R521): a write of SNR_LOAD; GO loads an image, or is refused. -/
def execSnareLoad (_req : Requester) (w : Word) (s : State) : Out :=
  if s.mode = NIGHT then .next s else
  let u := s.writeReg .SNR_LOAD 0 0 w
  if wfld w SNR_LOAD.GO = 0 then .next u
  else
    let a := page4k (u.fld SNR_LOAD.ADDR)
    let len := leNat (s.ddrRead a 8)
    if s.isSet SNR_LOAD.BUSY ∨ 2 ^ 23 < len ∨ s.snareBlocks.length < ceilDiv len 65536 then .next (u.put SNR_LOAD.REFUSED 1)
    else .next ((u.loadImage a len (u.fld SNR_LOAD.RULE_SET)).put SNR_LOAD.BUSY 1)

/-- SNARE_LOAD_DONE (R521): no packet queued under an old image remains, so its blocks are free. -/
def execSnareLoadDone (s : State) : Out :=
  let old := s.net.images.filter (·.old)
  if !s.isSet SNR_LOAD.BUSY ∨ (s.net.snare.any fun w => old.any fun i => i.num == w.image) then .next s
  else .next (({ s with net := { s.net with images := s.net.images.filter fun i => !i.old } }).put SNR_LOAD.BUSY 0)

end Sys2Proof.Machine
end

