-- ==== Sys2Proof/Machine/Ptp.lean ====
section
/-! DEFINITION. The PTP unit (R61, R62, R67, R72, R127, R129, R130): the messages of IEEE 1588 received and sent, the foreign masters,
the state of a port, the delay mechanisms and unicast grants. The layouts and the rules that the manual takes from IEEE 1588 and
ITU-T G.8275 are theirs (PRESUMED, log entries 20 and 174). -/
namespace Sys2Proof.Machine

/-! ## Messages -/

/-- messageType of a message. -/
def ptpSync : Nat := 0
def ptpDelayReq : Nat := 1
def ptpPdelayReq : Nat := 2
def ptpPdelayResp : Nat := 3
def ptpFollowUp : Nat := 8
def ptpDelayResp : Nat := 9
def ptpPdelayFollowUp : Nat := 10
def ptpAnnounce : Nat := 11
def ptpSignaling : Nat := 12

/-- What the common header of a message carries; `correction` in 2^-32 ns, `id` the sender's portIdentity. -/
structure PtpHeader where
  kind : Nat
  version : Nat
  domain : Nat
  flags : Nat
  correction : Int
  id : Nat
  seq : Nat
  log : Int
deriving DecidableEq, Repr

/-- The header at the start of a message. -/
def ptpHeader (m : List Byte) : PtpHeader :=
  { kind := (m.getD 0 0).toNat % 16, version := (m.getD 1 0).toNat % 16, domain := (m.getD 4 0).toNat, flags := beNat (slice m 6 2)
    correction := signed 64 (beNat (slice m 8 8)) * 2 ^ 16, id := beNat (slice m 20 10), seq := beNat (slice m 30 2)
    log := signed 8 (m.getD 33 0).toNat }

/-- The timestamp at offset `o` of a message, in 2^-32 ns. -/
def ptpStamp (m : List Byte) (o : Nat) : Nat := beNat (slice m o 6) * perSec + beNat (slice m (o + 6) 4) * perNs

/-- A message and its sender's address, out of a frame that R61 hands over. -/
def ptpMessage (bs : List Byte) : List Byte × PtpPeer :=
  let e := etherAt bs
  let mac := beNat (slice bs 6 6)
  match beNat (slice bs e 2) with
  | 0x0800 => (bs.drop (e + 2 + 4 * ((bs.getD (e + 2) 0).toNat % 16) + 8), { mac, ip := beNat (slice bs (e + 14) 4) })
  | 0x86DD => (bs.drop (e + 50), { mac, ip := beNat (slice bs (e + 10) 16) })
  | _ => (bs.drop (e + 2), { mac })

/-- The interval that a logarithm names, within those of CAR_PTP_PORT; `d` where a message names none. -/
def ptpInterval (d log : Int) : Nat :=
  let l := if log = 127 then d else clampInt log (-7) 4
  if l < 0 then perSec / 2 ^ l.natAbs else perSec * 2 ^ l.natAbs

/-! ## The port -/

/-- The portIdentity of a port. -/
def State.ptpId (s : State) (p : Nat) : Nat := s.fld CAR_PTP_IDENTITY.IDENTITY * 65536 + p + 1

/-- The port uses the Peer-to-Peer delay mechanism (R60). -/
def State.peerToPeer (s : State) (p : Nat) : Bool := s.fld CAR_PTP_PORT.PROFILE 0 p == 1

/-- clockClass that Carillon advertises in its state (R62). -/
def State.advertisedClass (s : State) : Nat :=
  if s.isSet CAR_STATUS.UNSYNC then s.fld CAR_PTP_CLOCK.CLASS_FREE
  else if s.isSet CAR_STATUS.CARRY ∨ s.servo = HOLDOVER then s.fld CAR_PTP_CLOCK.CLASS_HOLDOVER
  else s.fld CAR_PTP_CLOCK.CLASS_LOCKED

/-- clockAccuracy that Carillon advertises: the smallest value whose range contains ε, never finer (R62); 0x31 beyond the
last edge. While no bound is published there is no ε, and it advertises 0xFE, unknown (DESIGN CHOICE, log entry 175). -/
def State.advertisedAccuracy (s : State) : Nat :=
  if s.isSet CAR_STATUS.UNSYNC then 0xFE
  else match s.eps with
    | none => 0xFE
    | some e =>
      ((List.range 26).map (· + 0x17)).find? (fun a => match accuracyFs a with
        | some fs => decide (e * 1000000 ≤ fs * perNs)
        | none => false) |>.getD 0x31

/-- The dataset that Carillon announces and compares with its masters' (R62). -/
def State.ownDataset (s : State) : PtpDataset :=
  { priority1 := s.fld CAR_PTP_CLOCK.PRIORITY1, clockClass := s.advertisedClass, accuracy := s.advertisedAccuracy, variance := 0xFFFF
    priority2 := s.fld CAR_PTP_CLOCK.PRIORITY2, identity := s.fld CAR_PTP_IDENTITY.IDENTITY
    utcOffset := s.int CAR_UTC.OFFSET, utcValid := s.isSet CAR_UTC.VALID, leap61 := s.isSet CAR_UTC.LEAP61, leap59 := s.isSet CAR_UTC.LEAP59 }

/-- The states of a port that the part uses of IEEE 1588's. -/
inductive PtpState where
  | disabled | listening | master | passive | slave
deriving DecidableEq, Repr

/-- The Announce interval of a port. -/
def State.announceInterval (s : State) (p : Nat) : Nat := ptpInterval 0 (s.int CAR_PTP_PORT.LOG_ANNOUNCE 0 p)

/-- The state of a port (R62): by its role, or by the comparison of the best of its masters with the part's own dataset. Masters of
other ports do not make a port passive, since R68 compares slots of several ports (log entry 174). -/
def State.ptpState (s : State) (p : Nat) : PtpState :=
  let profile := s.fld CAR_PTP_PORT.PROFILE 0 p
  let own := s.ownDataset
  if (s.ptp p).heldOff then .disabled
  else match s.fld CAR_PTP_PORT.ROLE 0 p, s.bestMaster p with
    | 0, _ => .disabled
    | 1, none => .listening
    | 1, some _ => .slave
    | 2, _ => .master
    | _, none => if (s.ptp p).since + 3 * s.announceInterval p ≤ s.up then .master else .listening
    | _, some m =>
      if keysLt (own.keys profile) (m.ds.keys profile) = some true then .master
      else if own.clockClass ≤ 127 then .passive else .slave

/-! ## Receive -/

/-- The dataset of an Announce. -/
def announced (h : PtpHeader) (m : List Byte) : PtpDataset :=
  { priority1 := (m.getD 47 0).toNat, clockClass := (m.getD 48 0).toNat, accuracy := (m.getD 49 0).toNat, variance := beNat (slice m 50 2)
    priority2 := (m.getD 52 0).toNat, identity := beNat (slice m 53 8), steps := beNat (slice m 61 2)
    utcOffset := signed 16 (beNat (slice m 44 2)), utcValid := bitOf h.flags 2, leap61 := bitOf h.flags 0, leap59 := bitOf h.flags 1 }

/-- An Announce (R62, R67): two of a master within four of its Announce intervals qualify it; the port's slots follow the best. -/
def State.takeAnnounce (s : State) (p : Nat) (h : PtpHeader) (peer : PtpPeer) (m : List Byte) : State :=
  let ds := announced h m
  if s.fld CAR_PTP_PORT.ROLE 0 p = 2 ∨ h.id / 65536 = s.fld CAR_PTP_IDENTITY.IDENTITY ∨ bitOf h.flags 8 ∨ 255 ≤ ds.steps then s
  else
    let old := ((s.ptp p).masters.find? (·.id == h.id)).getD { id := h.id }
    let interval := ptpInterval (s.int CAR_PTP_PORT.LOG_ANNOUNCE 0 p) h.log
    let qualified := old.qualified || old.heard.head?.any fun t => decide (s.up ≤ t + 4 * interval)
    let new : ForeignMaster := { id := h.id, peer, ds, interval, heard := (s.up :: old.heard).take 2, qualified }
    (s.onPtp p fun q => { q with masters := q.masters.filter (·.id != h.id) ++ [new] }).followMasters p

/-- The slots of a port take the offset that the delay mechanism gives (R72): t2 − t1, corrected, less the mean path
delay; none before a path delay is known. A degraded timestamp in either marks it (R44). -/
def State.takeOffset (s : State) (p : Nat) (synce : Int) : State :=
  let q := s.ptp p
  match q.fromMaster, q.delay, q.t2 with
  | some ms, some d, some t => (s.slotsOfPort p).foldl (fun x n => x.measure n (ms - d) t (q.degraded || q.delayDegraded) synce) s
  | _, _, _ => s

/-- A Sync of the port's master, which arrived at `t` (R72): the offset follows at once, or with its Follow_Up. -/
def State.takeSync (s : State) (p : Nat) (h : PtpHeader) (m : List Byte) (t : Int) (deg : Bool) (synce : Int) : State :=
  let two := bitOf h.flags 9
  let origin := ptpStamp m 34
  let u := s.onPtp p fun q => { q with
    t1 := if two then none else some origin, t2 := some t.toNat, degraded := deg, syncSeq := h.seq, syncCorr := h.correction
    syncInterval := ptpInterval (s.int CAR_PTP_PORT.LOG_SYNC 0 p) h.log
    fromMaster := if two then none else some (t - origin - h.correction - s.asym p) }
  if two then u else u.takeOffset p synce

/-- The Follow_Up of the last Sync. -/
def State.takeFollowUp (s : State) (p : Nat) (h : PtpHeader) (m : List Byte) (synce : Int) : State :=
  let q := s.ptp p
  match q.t1, q.t2 with
  | none, some t2 =>
    if h.seq ≠ q.syncSeq then s
    else
      let origin := ptpStamp m 34
      (s.onPtp p fun q => { q with
        t1 := some origin, fromMaster := some ((t2 : Int) - origin - q.syncCorr - h.correction - s.asym p) }).takeOffset p synce
  | _, _ => s

/-- A Delay_Resp to the port's last Delay_Req: the mean path delay (R72). -/
def State.takeDelayResp (s : State) (p : Nat) (h : PtpHeader) (m : List Byte) : State :=
  let q := s.ptp p
  match q.t3, q.fromMaster with
  | some t3, some ms =>
    if beNat (slice m 44 10) ≠ s.ptpId p ∨ h.seq ≠ q.reqSeq then s
    else
      let sm : Int := (ptpStamp m 34 : Int) - t3 - h.correction + s.asym p
      s.onPtp p fun q => { q with delay := some ((ms + sm) / 2), delayDegraded := q.degraded || q.t3Degraded, t3 := none }
  | _, _ => s

/-- A Pdelay_Resp to the port's last Pdelay_Req, which arrived at `t`: the mean path delay, at once or with its Follow_Up. -/
def State.takePdelayResp (s : State) (p : Nat) (h : PtpHeader) (m : List Byte) (t : Int) (deg : Bool) : State :=
  let q := s.ptp p
  match q.t3 with
  | some t3 =>
    if beNat (slice m 44 10) ≠ s.ptpId p ∨ h.seq ≠ q.reqSeq then s
    else if bitOf h.flags 9 then
      s.onPtp p fun q => { q with half := some ((ptpStamp m 34 : Int), t, h.correction), t3Degraded := q.t3Degraded || deg }
    else s.onPtp p fun q => { q with
      delay := some ((t - t3 - h.correction) / 2), delayDegraded := q.t3Degraded || deg, t3 := none, half := none }
  | none => s

/-- The Follow_Up of a Pdelay_Resp. -/
def State.takePdelayFollowUp (s : State) (p : Nat) (h : PtpHeader) (m : List Byte) : State :=
  let q := s.ptp p
  match q.t3, q.half with
  | some t3, some (receipt, t, corr) =>
    if beNat (slice m 44 10) ≠ s.ptpId p ∨ h.seq ≠ q.reqSeq then s
    else
      let turn : Int := (ptpStamp m 34 : Int) - receipt + corr + h.correction
      s.onPtp p fun q => { q with delay := some ((t - t3 - turn) / 2), delayDegraded := q.t3Degraded, t3 := none, half := none }
  | _, _ => s

/-- The requests of a Signaling message (G.8275.2): a TLV asks for a grant (type 4) or gives one back (type 6). -/
def signalRequests (h : PtpHeader) (peer : PtpPeer) : Nat → List Byte → List PtpRequest
  | 0, _ => []
  | n + 1, tlv =>
    if tlv.length < 4 then []
    else
      let type := beNat (slice tlv 0 2)
      let len := beNat (slice tlv 2 2)
      let rest := signalRequests h peer n (tlv.drop (4 + len))
      let want := (tlv.getD 4 0).toNat / 16
      let r (kind : Nat) : PtpRequest := { kind, id := h.id, seq := h.seq, correction := 0, t := beNat (slice tlv 6 4), peer, want }
      if type = 4 then r 13 :: rest else if type = 6 then r 14 :: rest else rest

/-- A message waits for its answer. -/
def State.ask (s : State) (p : Nat) (r : PtpRequest) : State := s.onPtp p fun q => { q with requests := q.requests ++ [r] }

/-- A message of the port's domain, which arrived at `t` (R61, R62, R72). -/
def State.takePtp (s : State) (p : Nat) (m : List Byte) (peer : PtpPeer) (t : Int) (deg : Bool) (synce : Int) : State :=
  let h := ptpHeader m
  let fromParent := (s.bestMaster p).any (·.id == h.id) && s.ptpState p == .slave
  let request (kind : Nat) : PtpRequest := { kind, id := h.id, seq := h.seq, correction := h.correction, t, peer }
  if h.version ≠ 2 ∨ h.domain ≠ s.fld CAR_PTP_PORT.DOMAIN 0 p then s
  else match h.kind with
    | 0 => if fromParent then s.takeSync p h m t deg synce else s
    | 1 => if s.ptpState p = .master ∧ !s.peerToPeer p then s.ask p (request 1) else s
    | 2 => if s.peerToPeer p then s.ask p (request 2) else s
    | 3 => if s.peerToPeer p then s.takePdelayResp p h m t deg else s
    | 8 => if fromParent then s.takeFollowUp p h m synce else s
    | 9 => if fromParent ∧ !s.peerToPeer p then s.takeDelayResp p h m else s
    | 10 => if s.peerToPeer p then s.takePdelayFollowUp p h m else s
    | 11 => s.takeAnnounce p h peer m
    | 12 =>
      if s.isSet CAR_PTP_PORT.UNICAST 0 p then
        s.onPtp p fun q => { q with requests := q.requests ++ signalRequests h peer m.length (m.drop 44) }
      else s
    | _ => s

/-- PTP_FRAME_RX (R61, R62, R72): the PTP unit takes the oldest frame that the MAC handed over; `synce` is the offset of the port's
recovered clock against AOCLK then (R66). A port that is off takes nothing from it, and over another transport than its own there
is no message for it. -/
def execPtpFrameRx (p : Fin 32) (synce : Int) (s : State) : Out :=
  match (s.ptp p).rx with
  | [] => .next s
  | f :: rest =>
    let s1 := s.onPtp p fun q => { q with rx := rest }
    let ethernet := beNat (slice f.bytes (etherAt f.bytes) 2) == 0x88F7
    if (s.ptp p).heldOff || !s.isSet CAR_PTP_PORT.ROLE 0 p || ethernet != (s.fld CAR_PTP_PORT.TRANSPORT 0 p == 0) then .next s1
    else
      let m := ptpMessage f.bytes
      carDone s (s1.takePtp p m.1 m.2 f.t f.degraded synce)

/-- ANNOUNCE_TIMEOUT (R67): three Announce intervals have passed since the last Announce of a master of the slot's port. The master
is no longer qualified, and the slot follows the next best, or stops being usable. -/
def execAnnounceTimeout (n : Fin 8) (s : State) : Out :=
  let p := s.fld CAR_SRC_CFG.PORT 0 n
  let gone (m : ForeignMaster) : Bool := m.heard.head?.all fun t => decide (t + 3 * m.interval ≤ s.up)
  if s.slotKind n = 0 ∧ s.slotEn n then
    carDone s ((s.onPtp p fun q => { q with masters := q.masters.filter fun m => !gone m }).followMasters p)
  else .next s

/-! ## Transmit -/

/-- A timestamp as a message holds it, and its fraction of a nanosecond. -/
def ptpTime (t : Nat) : List Byte := natBe 6 (t / perSec) ++ natBe 4 (t % perSec / perNs)

/-- A message: its header, and its body. -/
def State.ptpBytes (s : State) (p kind flags : Nat) (correction : Int) (seq : Nat) (log : Int) (body : List Byte) : List Byte :=
  let control := if kind = ptpSync then 0 else if kind = ptpDelayReq then 1 else if kind = ptpFollowUp then 2
    else if kind = ptpDelayResp then 3 else 5
  let flags := flags + if s.isSet CAR_PTP_PORT.UNICAST 0 p then 0x0400 else 0
  natBe 1 kind ++ natBe 1 0x12 ++ natBe 2 (34 + body.length) ++ natBe 1 (s.fld CAR_PTP_PORT.DOMAIN 0 p) ++ natBe 1 0 ++ natBe 2 flags ++
    natBe 8 (unsigned 64 (correction / 2 ^ 16)) ++ natBe 4 0 ++ natBe 10 (s.ptpId p) ++ natBe 2 seq ++ natBe 1 control ++
    natBe 1 (unsigned 8 log) ++ body

/-- The multicast address that a message of a port goes to. -/
def State.ptpGroup (s : State) (p kind : Nat) : PtpPeer :=
  let peer : Bool := kind == ptpPdelayReq || kind == ptpPdelayResp || kind == ptpPdelayFollowUp
  match s.fld CAR_PTP_PORT.TRANSPORT 0 p with
  | 1 => if peer then { mac := 0x01005E00006B, ip := 0xE000006B } else { mac := 0x01005E000181, ip := 0xE0000181 }
  | 2 => if peer then { mac := 0x33330000006B, ip := 0xFF02 * 2 ^ 112 + 0x6B } else { mac := 0x333300000181, ip := 0xFF0E * 2 ^ 112 + 0x181 }
  | _ => if peer then { mac := 0x0180C200000E } else { mac := 0x011B19000000 }

/-- A message in its frame (R127): from ETH_MAC_ADDR and the port's PTP address, tagged with VLAN while VLAN_EN is 1. -/
def State.ptpFrame (s : State) (p kind : Nat) (dest : PtpPeer) (m : List Byte) : List Byte :=
  let tag := if s.isSet ETH_PTP_IP4.VLAN_EN p then natBe 2 0x8100 ++ natBe 2 (s.fld ETH_PTP_IP4.VLAN p) else []
  let port := if kind < 4 then 319 else 320
  let udp (sum : Nat) : List Byte := natBe 2 port ++ natBe 2 port ++ natBe 2 (8 + m.length) ++ natBe 2 sum ++ m
  let src := s.ptpAddress p
  let rest := match s.fld CAR_PTP_PORT.TRANSPORT 0 p with
    | 1 =>
      let hdr (sum : Nat) : List Byte := [0x45, 0] ++ natBe 2 (28 + m.length) ++ [0, 0, 0, 0, 64, 17] ++ natBe 2 sum ++ natBe 4 src ++ natBe 4 dest.ip
      natBe 2 0x0800 ++ hdr (checksum (hdr 0)) ++ udp 0
    | 2 =>
      let addrs := natBe 16 src ++ natBe 16 dest.ip
      natBe 2 0x86DD ++ [0x60, 0, 0, 0] ++ natBe 2 (8 + m.length) ++ [17, 64] ++ addrs ++
        udp (checksum (addrs ++ natBe 4 (8 + m.length) ++ natBe 4 17 ++ udp 0))
    | _ => natBe 2 0x88F7 ++ m
  natBe 6 dest.mac ++ natBe 6 (s.fld ETH_MAC_ADDR.ADDR p) ++ tag ++ rest

/-- A message is sent to each of its destinations, through the same MAC as every frame (R61, R130, R138). -/
def State.sendPtp (s : State) (p kind : Nat) (dests : List PtpPeer) (m : List Byte) (phase : Nat) : State :=
  let s := s.onPtp p fun q => { q with
    sent := q.sent + 1, seqs := q.seqs.set 0 kind ((q.seqs.get 0 kind + 1) % 65536), lastSent := q.lastSent.set none kind (some s.up) }
  dests.foldl (fun t d =>
    let r := t.macSend p (t.ptpFrame p kind d m) true phase
    match r.2 with
    | some wire => r.1.toWire p wire phase
    | none => r.1) s

/-- Where a message that a time transmitter sends unasked goes: to the multicast address, or to those with a grant for it. -/
def State.ptpAudience (s : State) (p kind : Nat) : List PtpPeer :=
  if s.isSet CAR_PTP_PORT.UNICAST 0 p then ((s.ptp p).grants.filter fun g => g.kind == kind && decide (s.up < g.ends)).map (·.peer)
  else [s.ptpGroup p kind]

/-- Where a message for one peer goes. -/
def State.ptpTarget (s : State) (p kind : Nat) (peer : PtpPeer) : List PtpPeer :=
  if s.isSet CAR_PTP_PORT.UNICAST 0 p then [peer] else [s.ptpGroup p kind]

/-- The interval of a message has fallen due (R62). -/
def State.ptpDue (s : State) (p kind : Nat) (log : Int) : Bool :=
  ((s.ptp p).lastSent.get none kind).all fun t => decide (t + ptpInterval 0 log ≤ s.up)

/-- sequenceId of the next message of a type. -/
def State.ptpSeq (s : State) (p kind : Nat) : Nat := (s.ptp p).seqs.get 0 kind

/-- The port transmits two-step: by TWO_STEP, or because MACsec covers its PTP frames (R129). -/
def State.twoStep (s : State) (p : Nat) : Bool :=
  s.isSet CAR_PTP_PORT.TWO_STEP 0 p || (s.macsecOn p && !s.isSet ETH_MACSEC_CTL.PTP_BYPASS p)

/-- The oldest waiting message of a kind, and the state without it. -/
def State.nextAsked (s : State) (p : Nat) (kinds : List Nat) : Option (PtpRequest × State) :=
  ((s.ptp p).requests.find? fun r => kinds.contains r.kind).map fun r => (r, s.onPtp p fun q => { q with requests := q.requests.erase r })

/-- An Announce: what Carillon advertises (R62), with CAR_UTC and its traceability. -/
def State.sendAnnounce (s : State) (p phase : Nat) : State :=
  let d := s.ownDataset
  let log := s.int CAR_PTP_PORT.LOG_ANNOUNCE 0 p
  let flags := b2n d.leap61 + 2 * b2n d.leap59 + 4 * b2n d.utcValid + 8 + if s.isSet CAR_STATUS.UNSYNC then 0 else 0x30
  let source := match s.selected with
    | some n => if s.slotKind n = 0 then 0x40 else 0x20
    | none => 0xA0
  let body := ptpTime 0 ++ natBe 2 (unsigned 16 d.utcOffset) ++ [0] ++ natBe 1 d.priority1 ++ natBe 1 d.clockClass ++ natBe 1 d.accuracy ++
    natBe 2 d.variance ++ natBe 1 d.priority2 ++ natBe 8 d.identity ++ natBe 2 d.steps ++ natBe 1 source
  let u := s.sendPtp p ptpAnnounce (s.ptpAudience p ptpAnnounce) (s.ptpBytes p ptpAnnounce flags 0 (s.ptpSeq p ptpAnnounce) log body) phase
  u.onPtp p fun q => { q with advertised := some (d.clockClass, d.accuracy) }

/-- A Sync, whose departure it carries itself or leaves to a Follow_Up. -/
def State.sendSync (s : State) (p phase : Nat) : State :=
  let t := (s.txStamp p phase).toNat
  let two := s.twoStep p
  let seq := s.ptpSeq p ptpSync
  let m := s.ptpBytes p ptpSync (if two then 0x0200 else 0) (if two then 0 else (t % perNs : Nat)) seq (s.int CAR_PTP_PORT.LOG_SYNC 0 p)
    (ptpTime (if two then 0 else t))
  (s.sendPtp p ptpSync (s.ptpAudience p ptpSync) m phase).onPtp p fun q => { q with followUp := if two then some (t, seq) else none }

/-- A delay request, or a peer delay request: its departure is kept with its degraded bit (R44, R72). -/
def State.sendDelayReq (s : State) (p kind : Nat) (dests : List PtpPeer) (phase : Nat) : State :=
  let t := (s.txStamp p phase).toNat
  let seq := s.ptpSeq p kind
  let m := s.ptpBytes p kind 0 0 seq 127 (ptpTime 0 ++ if kind = ptpPdelayReq then List.replicate 10 0 else [])
  (s.sendPtp p kind dests m phase).onPtp p fun q => { q with t3 := some t, reqSeq := seq, t3Degraded := s.portDegraded p, half := none }

/-- An answer to a request: `at_` is the time it carries. -/
def State.sendAnswer (s : State) (p kind flags : Nat) (r : PtpRequest) (at_ : Nat) (correction log : Int) (phase : Nat) : State :=
  s.sendPtp p kind (s.ptpTarget p kind r.peer) (s.ptpBytes p kind flags correction r.seq log (ptpTime at_ ++ natBe 10 r.id)) phase

/-- An answer to a Pdelay_Req: one-step it carries the turnaround, two-step it leaves its departure to a Follow_Up. -/
def State.sendPdelayResp (s : State) (p : Nat) (r : PtpRequest) (phase : Nat) : State :=
  let t := s.txStamp p phase
  if s.twoStep p then
    let u := s.sendAnswer p ptpPdelayResp 0x0200 r r.t.toNat (-((r.t.toNat % perNs : Nat) : Int)) 127 phase
    u.ask p { r with kind := 3, t }
  else s.sendAnswer p ptpPdelayResp 0 r 0 (r.correction + t - r.t) 127 phase

/-- Seconds that the part asks a grant for (G.8275.2). -/
def grantSeconds : Nat := 300

/-- A Signaling message: the answer to a request for a grant (type 5) or to one given back (type 7). -/
def State.sendGrant (s : State) (p : Nat) (r : PtpRequest) (phase : Nat) : State :=
  let log := if r.want = ptpAnnounce then s.fld CAR_PTP_PORT.LOG_ANNOUNCE 0 p else if r.want = ptpSync then s.fld CAR_PTP_PORT.LOG_SYNC 0 p
    else s.fld CAR_PTP_PORT.LOG_DELAY 0 p
  let tlv := if r.kind = 13 then natBe 2 5 ++ natBe 2 8 ++ natBe 1 (16 * r.want) ++ natBe 1 (unsigned 8 (signed 4 log)) ++ natBe 4 r.t.toNat ++ [0, 1]
    else natBe 2 7 ++ natBe 2 2 ++ natBe 1 (16 * r.want) ++ [0]
  let kept := (s.ptp p).grants.filter fun g => !(g.kind == r.want && g.id == r.id)
  let grants := if r.kind = 13 then kept ++ [{ kind := r.want, id := r.id, peer := r.peer, ends := s.up + r.t.toNat * perSec }] else kept
  (s.sendPtp p ptpSignaling [r.peer] (s.ptpBytes p ptpSignaling 0 0 (s.ptpSeq p ptpSignaling) 127 (natBe 10 r.id ++ tlv)) phase).onPtp p
    fun q => { q with grants }

/-- A Signaling message to every master heard: the port asks for Announce, Sync and Delay_Resp (G.8275.2). -/
def State.sendRequests (s : State) (p phase : Nat) : State :=
  let tlv (want log : Nat) : List Byte := natBe 2 4 ++ natBe 2 6 ++ natBe 1 (16 * want) ++ natBe 1 (unsigned 8 (signed 4 log)) ++ natBe 4 grantSeconds
  let tlvs := tlv ptpAnnounce (s.fld CAR_PTP_PORT.LOG_ANNOUNCE 0 p) ++ tlv ptpSync (s.fld CAR_PTP_PORT.LOG_SYNC 0 p) ++
    tlv ptpDelayResp (s.fld CAR_PTP_PORT.LOG_DELAY 0 p)
  let m := s.ptpBytes p ptpSignaling 0 0 (s.ptpSeq p ptpSignaling) 127 (List.replicate 10 0xFF ++ tlvs)
  s.sendPtp p ptpSignaling ((s.ptp p).masters.map (·.peer)) m phase

/-- Carillon may send on a port now: it carries frames, has a role, is not held off, is free, and no pause holds it (R62, R121, R126). -/
def State.ptpSends (s : State) (p phase : Nat) : Bool :=
  s.portCarries p && s.isSet CAR_PTP_PORT.ROLE 0 p && !(s.ptp p).heldOff && !s.sendsPattern p && s.portFree p phase &&
    !s.pausedBy p 8 && !s.pausedBy p 0

/-- PTP_MESSAGE_TX (R62, R126, R127, R129, R130): Carillon sends a message that the state of the port lets it send, when its interval
has fallen due or something waits for it. -/
def execPtpMessageTx (p : Fin 32) (msg : PtpSend) (phase : Fin 128) (s : State) : Out :=
  let st := s.ptpState p
  if !s.ptpSends p phase then .next s
  else match msg with
    | .announce =>
      if st = .master ∧ s.ptpDue p ptpAnnounce (s.int CAR_PTP_PORT.LOG_ANNOUNCE 0 p) then done (s.sendAnnounce p phase) else .next s
    | .sync => if st = .master ∧ s.ptpDue p ptpSync (s.int CAR_PTP_PORT.LOG_SYNC 0 p) then done (s.sendSync p phase) else .next s
    | .followUp => match (s.ptp p).followUp with
      | some (t, seq) =>
        let m := s.ptpBytes p ptpFollowUp 0 (t % perNs : Nat) seq (s.int CAR_PTP_PORT.LOG_SYNC 0 p) (ptpTime t)
        done ((s.sendPtp p ptpFollowUp (s.ptpAudience p ptpSync) m phase).onPtp p fun q => { q with followUp := none })
      | none => .next s
    | .delayReq =>
      match s.bestMaster p with
      | some b =>
        if st = .slave ∧ !s.peerToPeer p ∧ s.ptpDue p ptpDelayReq (s.int CAR_PTP_PORT.LOG_DELAY 0 p) then
          done (s.sendDelayReq p ptpDelayReq (s.ptpTarget p ptpDelayReq b.peer) phase)
        else .next s
      | none => .next s
    | .pdelayReq =>
      if s.peerToPeer p ∧ s.ptpDue p ptpPdelayReq (s.int CAR_PTP_PORT.LOG_DELAY 0 p) then
        done (s.sendDelayReq p ptpPdelayReq [s.ptpGroup p ptpPdelayReq] phase)
      else .next s
    | .delayResp => match s.nextAsked p [1] with
      | some (r, u) =>
        done (u.sendAnswer p ptpDelayResp 0 r r.t.toNat (r.correction - (r.t.toNat % perNs : Nat)) (s.int CAR_PTP_PORT.LOG_DELAY 0 p) phase)
      | none => .next s
    | .pdelayResp => match s.nextAsked p [2] with
      | some (r, u) => done (u.sendPdelayResp p r phase)
      | none => .next s
    | .pdelayRespFollowUp => match s.nextAsked p [3] with
      | some (r, u) => done (u.sendAnswer p ptpPdelayFollowUp 0 r r.t.toNat (r.correction + (r.t.toNat % perNs : Nat)) 127 phase)
      | none => .next s
    | .signaling => match s.nextAsked p [13, 14] with
      | some (r, u) => done (u.sendGrant p r phase)
      | none =>
        let last := (s.ptp p).lastSent.get none ptpSignaling
        if s.isSet CAR_PTP_PORT.UNICAST 0 p ∧ (st = .listening ∨ st = .slave) ∧ (s.ptp p).masters ≠ [] ∧
            last.all (fun t => decide (t + grantSeconds / 2 * perSec ≤ s.up)) then done (s.sendRequests p phase)
        else .next s

end Sys2Proof.Machine
end

