-- ==== Sys2Proof/Machine/Security.lean ====
section
/-! DEFINITION. The commands and events of keys, the root of trust and attestation (15_crypto_root_of_trust, and DOE of
12_pcie_endpoint). -/
namespace Sys2Proof.Machine

/-! ## Keys (R393 to R395). A write of CRY_KEY_CMD acts by its OP; each row is the write that names its OP. -/

/-- KEY_LOAD (R393). -/
def execKeyLoad (_req : Requester) (w : Word) (s : State) : Out :=
  if s.mode = NIGHT ∨ wfld w CRY_KEY_CMD.OP ≠ 1 then .next s else done (s.keyCommand w)

/-- KEY_IMPORT (R393). -/
def execKeyImport (_req : Requester) (w : Word) (s : State) : Out :=
  if s.mode = NIGHT ∨ wfld w CRY_KEY_CMD.OP ≠ 2 then .next s else done (s.keyCommand w)

/-- KEY_DELETE (R395). -/
def execKeyDelete (_req : Requester) (w : Word) (s : State) : Out :=
  if s.mode = NIGHT ∨ wfld w CRY_KEY_CMD.OP ≠ 3 then .next s else done (s.keyCommand w)

/-- KEY_QUERY (R393). -/
def execKeyQuery (_req : Requester) (w : Word) (s : State) : Out :=
  if s.mode = NIGHT ∨ wfld w CRY_KEY_CMD.OP ≠ 4 then .next s else done (s.keyCommand w)

/-- KEY_DELETE_COMPLETE (R395): every operation that read the key has ended. -/
def execKeyDeleteComplete (s : State) : Out :=
  match s.sec.deleting with
  | some i => if s.keyInUse i then .next s else .next ((s.onSec fun x => { x with deleting := none }).keyEnds krOk)
  | none => .next s

/-! ## Images (R404, R405) -/

/-- IMAGE_ACCEPTED (R404): the image read from flash passes the checks and runs. -/
def execImageAccepted (img : List Byte) (s : State) : Out :=
  if s.booting ∧ !s.sec.waitsImage ∧ s.imageCheck s.bootKind img = 0 then
    .next (s.runImage img (if s.mode = TWILIGHT then 3 else s.fld GLB_STRAPS.BOOT_SRC))
  else .next s

/-- IMAGE_REJECTED (R404, R405): `check` is the first check that fails, 7 for a flash read error, which the board's source 6 tells
too (R460). A rejected primary image leads to
TWILIGHT; a rejected golden image leaves the boot ROM waiting for one by mailbox. -/
def execImageRejected (img : List Byte) (check : Fin 8) (s : State) : Out :=
  if s.booting ∧ !s.sec.waitsImage ∧ check.val ≠ 0 ∧ (check.val = 7 ∨ s.imageCheck s.bootKind img = check.val) then
    let s := (s.put SEC_BOOT_STATUS.FAIL check).fire 29 1 0 initSec
    let s := if check.val = 7 then s.fire 31 6 else s
    if s.mode = TWILIGHT then done (s.onSec fun x => { x with waitsImage := true })
    else done (if s.isSet GLB_MODE.TRANSIT then s else s.beginTransition TWILIGHT false)
  else .next s

/-! ## Root-of-trust requests (R416, R417). Each row is the arrival of the request that it names. -/

/-- The opcode of a request. -/
def opcodeOf (msg : List Word) : Nat := getBits (msg.getD 0 0) 7 0

/-- GET_NONCE (R417). -/
def execGetNonce (r : Fin 8) (msg : List Word) (s : State) : Out :=
  if opcodeOf msg = 0x41 then done (s.secArrive r msg) else .next s

/-- RECOVER (R416): SIGNED_CMD with COMMAND 1. -/
def execRecover (r : Fin 8) (msg : List Word) (s : State) : Out :=
  if opcodeOf msg = 0x42 ∧ (s.signedCode r msg).all (· == 1) then done (s.secArrive r msg) else .next s

/-- SLOT_REVOKE (R416): SIGNED_CMD with COMMAND 2. -/
def execSlotRevoke (r : Fin 8) (msg : List Word) (s : State) : Out :=
  if opcodeOf msg = 0x42 ∧ (s.signedCode r msg).all (· == 2) then done (s.secArrive r msg) else .next s

/-- RETIRE (R412): SIGNED_CMD with COMMAND 3. -/
def execRetire (r : Fin 8) (msg : List Word) (s : State) : Out :=
  if opcodeOf msg = 0x42 ∧ (s.signedCode r msg).all (· == 3) then done (s.secArrive r msg) else .next s

/-- DEBUG_UNLOCK (R413): SIGNED_CMD with COMMAND 4. -/
def execDebugUnlock (r : Fin 8) (msg : List Word) (s : State) : Out :=
  if opcodeOf msg = 0x42 ∧ (s.signedCode r msg).all (· == 4) then done (s.secArrive r msg) else .next s

/-- IMAGE_LOAD (R405). -/
def execImageLoad (r : Fin 8) (msg : List Word) (s : State) : Out :=
  if opcodeOf msg = 0x43 then done (s.secArrive r msg) else .next s

/-- LIFECYCLE_ADVANCE (R412). -/
def execLifecycleAdvance (r : Fin 8) (msg : List Word) (s : State) : Out :=
  if opcodeOf msg = 0x44 then done (s.secArrive r msg) else .next s

/-- SLOT_PROGRAM (R417). -/
def execSlotProgram (r : Fin 8) (msg : List Word) (s : State) : Out :=
  if opcodeOf msg = 0x45 then done (s.secArrive r msg) else .next s

/-- MCTP_MESSAGE (R410, R417): an SPDM request, answered on its port, or a request of root-of-trust mailbox 2 or 3, whose words 0 to 2
lead the message. -/
def execMctpMessage (port : Fin 2) (spdm : Bool) (msg : List Byte) (s : State) : Out :=
  if s.mode = NIGHT then .next s
  else if spdm then
    let r := s.spdmReply false (s.sec.mctpSignature.get [] port) msg
    .next (s.drawn.onSec fun x => { x with mctp := (port.val, r.1) :: x.mctp, mctpSignature := x.mctpSignature.set [] port r.2 })
  else done (s.secArrive (2 + port) (leWords 3 msg ++ leWords ((msg.length - 24 + 7) / 8) (msg.drop 24)))

/-! ## Fuses, measurements, triggers -/

/-- ROLLBACK_CMD (R407). -/
def execRollbackCmd (req : Requester) (w : Word) (s : State) : Out := if s.mode = NIGHT then .next s else done (s.rollbackCommand (codeOf req) w)

/-- ROLLBACK_DONE (R407): the last fuse is blown. -/
def execRollbackDone (s : State) : Out :=
  match s.sec.rollback with
  | some (c, v) => .next (((s.put (SEC_ROLLBACK.COUNTER c) v).put SEC_ROLLBACK_CMD.BUSY 0).onSec fun x => { x with rollback := none })
  | none => .next s

/-- The manager, and not a thread, makes an access. -/
def isManager : Requester → Bool
  | .thread _ => false
  | _ => true

/-- MEASURE_EXTEND (R406): measurements 6 to 15, by the manager alone. A write that clears REFUSED and names measurement 0 is no
command (log entry 44). -/
def execMeasureExtend (req : Requester) (w : Word) (s : State) : Out :=
  if s.mode = NIGHT then .next s else
  let i := wfld w SEC_MEASURE_EXTEND.INDEX
  let u := s.writeReg .SEC_MEASURE_EXTEND 0 0 w
  if i = 0 ∧ wfld w SEC_MEASURE_EXTEND.REFUSED = 1 then .next u
  else if i < 6 ∨ !isManager req then .next (u.put SEC_MEASURE_EXTEND.REFUSED 1)
  else .next (u.extend i (wordBytes ((List.range 6).map fun k => s.raw .SEC_MEASURE_DATA 0 k)))

/-- LOCKDOWN (R414): a write of SEC_TRIGGER; LOCKDOWN is a security trigger. -/
def execLockdown (_req : Requester) (w : Word) (s : State) : Out :=
  if s.mode = NIGHT then .next s else
  let u := s.writeReg .SEC_TRIGGER 0 0 w
  done (if wfld w SEC_TRIGGER.LOCKDOWN = 1 then u.securityTrigger 0 else u)

/-- GLITCH_DETECT (R414). -/
def execGlitchDetect (s : State) : Out := done (if s.isSet SEC_TRIGGER.GLITCH_EN then s.securityTrigger 1 else s)

/-- OTP_CHECK (R414). -/
def execOtpCheck (ok : Bool) (s : State) : Out := done (if !ok && s.isSet SEC_TRIGGER.OTP_EN then s.securityTrigger 2 else s)

/-! ## DOE (R331) -/

/-- The DOE of a PF works: its link is up, and the part is not in NIGHT. -/
def State.doeRuns (s : State) (f : Nat) : Bool :=
  s.linkExists (f / 2) && s.isSet HL_LINK_STATUS.UP (f / 2) && (s.pcie f).flr.isNone && s.mode != NIGHT

/-- DOE_OBJECT (R331, R410). -/
def execDoeObject (pf : Fin 32) (obj : List Byte) (s : State) : Out := if s.doeRuns pf then done (s.doeObject pf obj) else .next s

/-- DOE_ABORT (R331): the object in progress is discarded, and DOE Error clears. -/
def execDoeAbort (pf : Fin 32) (s : State) : Out :=
  if s.doeRuns pf then .next (s.onPcie pf fun p => { p with doeResponse := [], doeError := false }) else .next s

end Sys2Proof.Machine
end

