-- ==== Sys2Proof/Machine/Telemetry.lean ====
section
/-! DEFINITION. The commands and events of telemetry (16_compression_telemetry): flow counters, record blocks, histograms and
sketches. -/
namespace Sys2Proof.Machine

/-! ## Exact flow counters (R426) -/

/-- READ of pair `i`: its halves are spilled, and the DDR values returned. -/
def State.fcRead (s : State) (i : Nat) : State :=
  let s := s.spillPair i
  (s.setRaw .CMP_FC_DATA 0 0 (BitVec.ofNat 64 (leNat (s.ddrRead (s.pairAddr i) 8)))).setRaw .CMP_FC_DATA 0 1
    (BitVec.ofNat 64 (leNat (s.ddrRead (s.pairAddr i + 8) 8)))

/-- CLEAR of pair `i`. -/
def State.fcClear (s : State) (i : Nat) : State := (s.spillPair i).ddrWrite (s.pairAddr i) (List.replicate 16 0)

/-- A write of CMP_FC_CMD; BUSY covers no step: each operation is one. -/
def State.fcCmd (s : State) (w : Word) : State :=
  match wfld w CMP_FC_CMD.OP with
  | 1 => s.fcRead (wfld w CMP_FC_CMD.INDEX)
  | 2 => s.fcClear (wfld w CMP_FC_CMD.INDEX)
  | 3 => s.spillAll
  | _ => s

/-! Each row is the write of CMP_FC_CMD that names its OP. -/

/-- FC_READ (R426). -/
def execFcRead (_req : Requester) (w : Word) (s : State) : Out :=
  if s.mode = NIGHT ∨ wfld w CMP_FC_CMD.OP ≠ 1 then .next s else .next (s.fcRead (wfld w CMP_FC_CMD.INDEX))

/-- FC_CLEAR (R426). -/
def execFcClear (_req : Requester) (w : Word) (s : State) : Out :=
  if s.mode = NIGHT ∨ wfld w CMP_FC_CMD.OP ≠ 2 then .next s else .next (s.fcClear (wfld w CMP_FC_CMD.INDEX))

/-- FC_FLUSH (R426). -/
def execFcFlush (_req : Requester) (w : Word) (s : State) : Out :=
  if s.mode = NIGHT ∨ wfld w CMP_FC_CMD.OP ≠ 3 then .next s else .next s.spillAll


/-! ## Flow records -/

/-- RECORD_BLOCK_CLOSE (R430, R431): the open block closes CLOSE_MS after its first record. -/
def execRecordBlockClose (s : State) : Out :=
  if s.tel.block ≠ [] ∧ s.tel.blockAt + ofMs (max 1 (s.fld CMP_REC_CFG.CLOSE_MS)) ≤ s.up then done s.closeBlock else .next s

/-! ## Histograms (R434) -/

/-- A write of CMP_HIST_CFG of histogram `h`: its fields, then the snapshot. -/
def State.writeHistCfg (s : State) (h : Nat) (w : Word) : State :=
  let s := s.writeReg .CMP_HIST_CFG 0 h (w &&& ~~~(BitVec.ofNat 64 32))
  if wfld w CMP_HIST_CFG.SNAP = 0 then s
  else
    let clear := s.isSet CMP_HIST_CFG.CLEAR_ON_SNAP 0 h
    let ts := s.ts64
    { s with tel := { s.tel with hists := s.tel.hists.modify {} h fun x =>
      let y : Histogram := { x with snap := x.counts, snapTs := ts, snapDegraded := x.degraded }
      if clear then { y with counts := {}, degraded := 0 } else y } }

/-- HIST_SNAP (R434): CMP_HIST_CFG is written with SNAP. -/
def execHistSnap (_req : Requester) (h : Fin 32) (w : Word) (s : State) : Out := if s.mode = NIGHT then .next s else .next (s.writeHistCfg h w)

/-! ## Sketches (R436, R437) -/

/-- A sketch write or command is refused. -/
def State.refuseSketch (s : State) (p : Nat) : State := (s.put CMP_SK_CFG.REFUSED 1 0 p).fire 22 19 0 initCmp

/-- The inactive bank of a sketch. -/
def State.inactiveBank (s : State) (p : Nat) : Nat := 1 - s.fld CMP_SK_CFG.ACTIVE 0 p

/-- A sketch bank is zeroed, with its N. -/
def State.zeroBank (s : State) (p bank : Nat) : State :=
  { s with tel := { s.tel with
    sketch := s.tel.sketch.keep fun k => k / (4 * 65536) != 2 * p + bank
    total := s.tel.total.set 0 (2 * p + bank) 0 } }

/-- SWAP: the banks flip, and CLEARED falls. -/
def State.swapSketch (s : State) (p : Nat) : State := (s.put CMP_SK_CFG.ACTIVE (s.inactiveBank p) 0 p).put CMP_SK_CFG.CLEARED 0 0 p

/-- CLEAR: the inactive bank starts to be zeroed. -/
def State.clearSketch (s : State) (p : Nat) : State :=
  let s := s.put CMP_SK_CFG.CLEARED 0 0 p
  { s with tel := { s.tel with clearing := if s.tel.clearing.contains p then s.tel.clearing else s.tel.clearing ++ [p] } }

/-- A write of CMP_SK_CFG is refused: it would change MODE or PROF while EN is 1, or it flips the banks while CLEARED is 0 (R437). -/
def State.skRefused (s : State) (p : Nat) (w : Word) : Bool :=
  s.isSet CMP_SK_CFG.EN 0 p && (wfld w CMP_SK_CFG.MODE != s.fld CMP_SK_CFG.MODE 0 p || wfld w CMP_SK_CFG.PROF != s.fld CMP_SK_CFG.PROF 0 p) ||
    wfld w CMP_SK_CFG.SWAP == 1 && !s.isSet CMP_SK_CFG.CLEARED 0 p

/-- A write of CMP_SK_CFG; a refused one changes nothing but REFUSED. -/
def State.writeSkCfg (s : State) (p : Nat) (w : Word) : State :=
  if s.skRefused p w then s.refuseSketch p
  else
    let s := s.writeReg .CMP_SK_CFG 0 p (w &&& ~~~(BitVec.ofNat 64 0x300))
    let s := if wfld w CMP_SK_CFG.SWAP = 1 then s.swapSketch p else s
    if wfld w CMP_SK_CFG.CLEAR = 1 then s.clearSketch p else s

/-- SKETCH_SWAP (R437): CMP_SK_CFG is written with SWAP. -/
def execSketchSwap (_req : Requester) (p : Fin 8) (w : Word) (s : State) : Out := if s.mode = NIGHT then .next s else done (s.writeSkCfg p w)

/-- SKETCH_CLEAR (R437): CMP_SK_CFG is written with CLEAR. -/
def execSketchClear (_req : Requester) (p : Fin 8) (w : Word) (s : State) : Out := if s.mode = NIGHT then .next s else done (s.writeSkCfg p w)

/-- SKETCH_CLEAR_DONE (R437): the inactive bank is zero, and CLEARED reads 1. -/
def execSketchClearDone (p : Fin 8) (s : State) : Out :=
  if s.tel.clearing.contains p.val then
    let s := s.zeroBank p (s.inactiveBank p)
    .next (({ s with tel := { s.tel with clearing := s.tel.clearing.filter (· != p.val) } }).put CMP_SK_CFG.CLEARED 1 0 p)
  else .next s

/-- Bytes of the keys that a profile forms now. -/
def State.profileLength (s : State) (p n : Nat) : Nat := (s.profileKey p (s.fld PPL_GEN.ACTIVE p) n []).length

/-- The estimate of a key in the inactive bank (R436). -/
def State.estimate (s : State) (p : Nat) (key : List Byte) : Nat :=
  let bank := s.inactiveBank p
  let seeds := [s.fld CMP_SK_SEED01.SEED0 0 p, s.fld CMP_SK_SEED01.SEED1 0 p, s.fld CMP_SK_SEED23.SEED2 0 p, s.fld CMP_SK_SEED23.SEED3 0 p]
  (seeds.zipIdx.map fun r => s.tel.sketch.get 0 (((2 * p + bank) * 4 + r.2) * 65536 + crc32c r.1 key % 65536)).foldl min (2 ^ 32 - 1)

/-- A write of CMP_SK_QUERY. -/
def State.skQuery (s : State) (w : Word) : State :=
  if wfld w CMP_SK_QUERY.GO = 0 then s
  else
    let p := wfld w CMP_SK_QUERY.SKETCH
    let key := (wordBytes ((List.range 8).map fun i => s.raw .CMP_SK_KEY 0 i)).take (s.profileLength p (s.fld CMP_SK_CFG.PROF 0 p))
    let e := s.estimate p key
    (s.put CMP_SK_RESULT.ESTIMATE e).put CMP_SK_RESULT.SATURATED (b2n (e == 2 ^ 32 - 1))

/-- SKETCH_QUERY (R436, R437): the estimate of the key in CMP_SK_KEY. -/
def execSketchQuery (_req : Requester) (w : Word) (s : State) : Out := if s.mode = NIGHT then .next s else .next (s.skQuery w)

end Sys2Proof.Machine
end

