-- ==== Sys2Proof/Machine/RegRead.lean ====
section
/-! DEFINITION. Reads of device register space (R2 to R8, R56): what each register returns, where its value is not simply the word
kept for it. -/
namespace Sys2Proof.Machine

/-! ## Views -/

/-- CAR_TIME_NSF: nanoseconds and the upper 16 bits of the fraction (R54). -/
def State.timeNsf (s : State) : Nat := place (s.now % perSec / perNs) 47 16 + place (s.now % perNs / 65536) 15 0

/-- CAR_STATUS: HOLD_S counts the seconds since t_last in HOLDOVER. -/
def State.carStatusView (s : State) : Word :=
  let held := if s.servo = HOLDOVER then min (2 ^ 32 - 1) ((s.now - s.car.tLast) / perSec) else 0
  putBits (s.raw .CAR_STATUS) 47 16 held

/-- CAR_LAST_MEAS: THETA, and its age in milliseconds, saturating; no measurement has no age. -/
def State.lastMeas (s : State) : Word :=
  let age := if s.car.tLast = 0 then 0 else min (2 ^ 32 - 1) ((s.now - s.car.tLast) / ofMs 1)
  putBits (s.raw .CAR_LAST_MEAS) 63 32 age

/-- GONG_ST_STATUS (R470 to R473). -/
def State.selfTestStatus (s : State) : Nat :=
  place (min 255 s.gong.running.length) 7 0 + place (min 255 s.gong.waiting.length) 15 8 +
    place (min 256 s.gong.transient.length) 24 16 + place (min 65535 s.gong.retiredCount) 47 32

/-- GLB_CC_IRQ of hart `h`: GONG follows its level (R466). -/
def State.ccIrq (s : State) (h : Nat) : Word := putBits (s.raw .GLB_CC_IRQ 0 h) 2 2 (b2n (s.gongIrq && s.gongTarget == h))

/-- Hart `h` may be in WFI (R444): it runs, is not in debug mode, and neither its external nor its timer interrupt is pending. -/
def State.maySleep (s : State) (h : Nat) : Bool :=
  s.coresRun (h / 8) && !bitOf (s.fld GLB_CC_STATUS.DEBUG) h && decide (s.ts64 < s.fld GLB_CC_MTIMECMP.CMP 0 h) &&
    getBits (s.ccIrq h) 2 0 &&& s.fld GLB_CC_IRQ.EN 0 h == 0

/-- GLB_CC_STATUS: whether a hart that may be in WFI is in it rests on its program, so it is free (log entry 95). -/
def State.coreStatus (s : State) : Word :=
  putBits (s.raw .GLB_CC_STATUS) 23 0 (((List.range 24).filter fun h => s.maySleep h && bitOf (Config.freeWord s.free).toNat h).foldl (fun a h => a + 2 ^ h) 0)

/-- ETH_LANE_STATUS of a lane: what the checker of CHECK finds in the received pattern is free (log entry 2). -/
def State.laneStatus (s : State) (n : Nat) : Word :=
  let w := s.raw .ETH_LANE_STATUS n
  if s.isSet ETH_LANE_CTL.CHECK n then
    putBits (putBits w 1 1 (bits (Config.freeWord s.free).toNat 0 0)) 47 16 (bits (Config.freeWord s.free).toNat 32 1)
  else w

/-- MBX_PEND word `j`: the mailboxes that have a message toward the manager (R452). -/
def State.mbxPend (s : State) (j : Nat) : Nat :=
  ((List.range 64).filter fun b => decide (64 * j + b < 2104) && !(s.mbox (64 * j + b)).toMgr.isEmpty).foldl (fun a b => a + 2 ^ b) 0

/-- The registers of a mailbox as one side sees them (R447 to R454): mailbox `m`, whether the side's own posts go toward the
manager, and the offset. -/
def State.mbxView (s : State) (m : Nat) (toMgr : Bool) (off : Nat) : Nat :=
  let b := s.mbox m
  let q := b.queue (!toMgr)
  match off with
  | 0x08 => match q with
    | x :: _ => 1 + place x.words.length 4 1 + place x.epoch 8 5 + place (b2n x.token) 9 9 + place q.length 19 16
    | [] => 0
  | 0x20 =>
    let g := b.flags toMgr
    place (roomOf (b.queue toMgr)) 3 0 + place (b2n g.full) 4 4 + place (b2n (s.mbxAbsent m toMgr)) 5 5 + place (b2n g.timeout) 6 6 +
      place (b2n g.discarded) 7 7 + place g.count 15 8 + place (s.mbxEpoch m toMgr) 19 16 + place (s.mbxEpoch m (!toMgr)) 23 20
  | o => if 0x40 ≤ o ∧ o < 0x80 then (match q with
      | x :: _ => (x.words.getD ((o - 0x40) / 8) 0).toNat
      | [] => 0) else 0

/-- A read of MBX_STATUS clears DISCARD_COUNT of its side. -/
def State.mbxClearCount (s : State) (m : Nat) (toMgr : Bool) : State :=
  s.onMbox m fun b => b.onFlags toMgr fun g => { g with count := 0 }

/-- A manager window acts on a mailbox that is available (R447). -/
def State.windowBox (s : State) (w : Nat) : Option Nat :=
  let m := s.fld MBX_SEL.MAILBOX 0 w
  if m ≤ 2096 ∧ s.mbxAvailable m then some m else none

/-- A register of a manager window. -/
def State.windowView (s : State) (w off : Nat) : Nat :=
  match s.windowBox w with
  | some m => s.mbxView m false off
  | none => 0

/-- TBC_STATUS: AWAKE and WAITING beside the state (R204, R227). -/
def State.tbcStatus (s : State) (c : Nat) : Word :=
  putBits (putBits (s.raw .TBC_STATUS c) 3 3 (b2n (s.domainAwake c))) 22 16 ((threadsOf c).filter fun t => (s.thread t).waits).length

/-- TBE_STATUS: packet slots and credits of an engine in use (R208). -/
def State.tbeStatus (s : State) (e : Nat) : Nat :=
  let ts := (threadsOfEngine e).map s.thread
  place (ts.map fun x => x.slots.length).sum 5 0 + place (ts.map Thread.credits).sum 14 8

/-- STATE of TBE_THREAD_STATUS; a stall at CHR reads as waiting, and so does a parked thread, which waits as in WFE (R205). -/
def Thread.stateCode (x : Thread) : Nat :=
  if x.halted then 4
  else match x.mode with
    | .idle => 0
    | .run => 1
    | .wfe _ | .twait _ | .chr | .parked => 2
    | .chs => 3
    | .faulted => 5

/-- A thread's register block in TBE, by register name. `k` is the repeat within the engine's instance. -/
def State.threadView (s : State) (e : Nat) (r : RegName) (k : Nat) : Word :=
  let x := s.thread (8 * e + k)
  match r with
  | .TBE_THREAD_CTL => putBits (s.raw .TBE_THREAD_CTL e k) 0 0 (b2n x.halted)
  | .TBE_THREAD_STATUS =>
    BitVec.ofNat 64 (x.stateCode + place x.staged 6 3 + place (b2n x.inTrap) 7 7 + place x.outstanding 14 8 + place x.slots.length 20 15)
  | .TBE_THREAD_PC => BitVec.ofNat 64 x.pc
  | .TBE_THREAD_EVT => BitVec.ofNat 64 (place x.emask 15 0 + place x.epend 31 16)
  | .TBE_THREAD_TRAP => BitVec.ofNat 64 (place x.cause 3 0 + place x.detail 7 4 + place x.tpc 23 8 + place x.taddr.toNat 63 32)
  | .TBE_THREAD_VEC => BitVec.ofNat 64 x.tvec
  | _ => 0

/-- The queue that FNC_Q_SEL of a function selects, while it is below QP_COUNT. -/
def State.selectedQueue (s : State) (f : Nat) : Option Nat :=
  let q := s.fld FNC_Q_SEL.QUEUE f
  if q < s.qpCount f then some (s.globalQueue f q) else none

/-- A queue register of the function's selected queue. -/
def State.queueView (s : State) (f : Nat) (r : RegName) (k : Nat) : Word :=
  match s.selectedQueue f with
  | none => 0
  | some g =>
    let x := s.pair g
    match r with
    | .FNC_Q_CFG => x.cfg
    | .FNC_Q_CTL => BitVec.ofNat 64 (b2n x.enable + 2 * b2n x.refused)
    | .FNC_Q_STATUS => BitVec.ofNat 64 (place x.state 1 0 + place x.err 15 8 + place x.errIndex 31 16 + place x.rxDrops 63 32)
    | .FNC_Q_IDX => BitVec.ofNat 64 (place (x.C 0) 15 0 + place (x.C 1) 31 16 + place (x.P 2) 47 32 + place (x.P 3) 63 48)
    | .FNC_Q_IRQ => x.irq
    | .FNC_Q_BASE => BitVec.ofNat 64 (x.base.get 0 k)
    | _ => 0

/-- FNC_PMC (R484, R489): device counter `n` where PMC_FN_MASK permits it, else NOACCESS alone. -/
def State.fnPmc (s : State) (f n : Nat) : Word :=
  if bitOf (s.fld PMC_FN_MASK.MASK 0 f) n then s.raw .PMC_CTR_VAL 0 n else BitVec.ofNat 64 (2 ^ 62)

/-- A word of CMP_HIST or CMP_HIST_SNAP: two counters of 32 bits; the snapshot carries its TS64 and DEGRADED besides (R433, R434). -/
def State.histView (s : State) (snap : Bool) (i : Nat) : Nat :=
  let h := s.tel.hists.get {} (i / 256)
  let w := i % 256
  let c := if snap then h.snap else h.counts
  if w < 129 then c.get 0 (2 * w) + c.get 0 (2 * w + 1) * 2 ^ 32
  else if !snap then 0
  else if w = 129 then h.snapTs
  else if w = 130 then h.snapDegraded
  else 0

/-- SCH_L2_CFG: the pauses in force on the node's port (R125, R126). -/
def State.nodeView (s : State) (k : Nat) : Word :=
  let w := putBits (s.raw .SCH_L2_CFG 0 k) 1 1 (b2n (decide (k < 32) && s.pausedBy k 8))
  putBits w 15 8 (((List.range 8).filter fun p => decide (k < 32) && s.pausedBy k p).foldl (fun a p => a + 2 ^ p) 0)

/-- Whole bytes of a bucket kept in 10⁻⁶ bytes, rounded down, as 32 bits. -/
def bucketBytes (t : Int) : Nat := unsigned 32 (t / 1000000)

/-- NVM_STATUS (R376). -/
def State.nvmStatusView (s : State) : Nat :=
  place (min (2 ^ 32 - 1) s.nvm.dirty) 31 0 + place (b2n (s.nvm.dirty == 0)) 32 32 + place s.nvm.cmds.length 49 33

/-- PMC_OVF word `j`. -/
def State.pmcOvf (s : State) (j : Nat) : Nat :=
  ((List.range 64).filter fun b => s.isSet PMC_CTR_VAL.OVF 0 (64 * j + b)).foldl (fun a b => a + 2 ^ b) 0

/-! ## What a 64-bit read returns -/

/-- The word behind register `r` of instance `n`, repeat `k`, as requester `q` (an initiator code) reads it. Registers not named hold
their word as it is. -/
def State.regWord (s : State) (q : Nat) (r : RegName) (n k : Nat) : Word :=
  let num (v : Nat) : Word := BitVec.ofNat 64 v
  match r with
  | .CAR_TIME_NSF => num s.timeNsf
  | .PPL_PARSE_STATE | .PPL_PARSE_TRANS | .PPL_KEY_PROF | .PPL_STAGE_CFG => s.progWord r n k
  | .PPL_GEN_GLOBAL | .ETH_SYNCE_SEL => if n = 0 then s.raw r n k else 0
  | .CAR_TIME_SEC => num (s.bus.sec.get 0 q)
  | .CAR_TIME_TS64 => num s.ts64
  | .CAR_STATUS => s.carStatusView
  | .CAR_EPS_BASE => num (s.bus.epsBase.get 0 q)
  | .CAR_EPS_GROWTH => num (s.bus.epsGrowth.get 0 q)
  | .CAR_EPS_PARTS => BitVec.ofNat 64 (s.epsParts.1 + 2 ^ 32 * s.epsParts.2)
  | .CAR_LAST_MEAS => s.lastMeas
  | .GONG_STATUS_SUM => num s.statusSum
  | .GONG_ST_STATUS => num s.selfTestStatus
  | .GLB_CC_IRQ => s.ccIrq k
  | .GLB_CC_STATUS => s.coreStatus
  | .ETH_LANE_STATUS => s.laneStatus n
  | .MBX_PEND => num (s.mbxPend k)
  | .MBX_SEL => s.raw .MBX_SEL 0 k
  | .MBX_HEAD => num (s.windowView k 0x08)
  | .MBX_STATUS => num (s.windowView k 0x20)
  | .MBX_CTL => 0
  | .MBX_IN_DATA => num (s.windowView (k / 8) (0x40 + 8 * (k % 8)))
  | .MBX_OUT_DATA => if (s.windowBox (k / 8)).isSome then s.raw .MBX_OUT_DATA 0 k else 0
  | .TBC_STATUS => s.tbcStatus n
  | .TBE_STATUS => num (s.tbeStatus n)
  | .TBE_THREAD_CTL | .TBE_THREAD_STATUS | .TBE_THREAD_PC | .TBE_THREAD_EVT | .TBE_THREAD_TRAP | .TBE_THREAD_VEC => s.threadView n r k
  | .TBE_THREAD_G => (s.thread (8 * n + k / 32)).reg (k % 32)
  | .TBE_THREAD_S => s.srd (8 * n + k / 16) (s.thread (8 * n + k / 16)) (k % 16)
  | .TBL_STASH => num (s.tbl.stash.get 0 (k / 16) / 2 ^ (64 * (k % 16)))
  | .FNC_Q_CFG | .FNC_Q_CTL | .FNC_Q_STATUS | .FNC_Q_IDX | .FNC_Q_IRQ | .FNC_Q_BASE => s.queueView n r k
  | .FNC_FN_INFO => putBits (putBits (s.raw .FNC_FN_INFO n) 12 0 (s.qpCount n)) 27 16 (s.vecCount n)
  | .FNC_PMC => s.fnPmc n k
  | .CMP_STATUS => putBits (s.raw .CMP_STATUS) 15 0 (getBits (s.raw .PWR_DOMAIN_STATUS) 39 24)
  | .CMP_HIST => num (s.histView false k)
  | .CMP_HIST_SNAP => num (s.histView true k)
  | .CMP_SK_N => num (s.tel.total.get 0 (2 * k + s.inactiveBank k))
  | .PMC_OVF => num (s.pmcOvf k)
  | .SCH_STATUS => putBits (s.raw .SCH_STATUS) 16 0 (min (2 ^ 17 - 1) (s.occupancy / 1024))
  | .SCH_L2_CFG => s.nodeView k
  | .SCH_SHAPER => if k % 2 = 1 then num (bucketBytes (s.tokens (k / 2))) else s.raw r 0 k
  | .PPL_POLICER =>
    if k % 4 = 3 then
      let b := s.policerNow n (k / 4)
      num (bucketBytes (b.tc : Int) + place (bucketBytes (b.te : Int)) 63 32)
    else s.raw r n k
  | .PPL_GEN => putBits (s.raw .PPL_GEN n) 31 16 (min 65535 (s.oldCount n))
  | .HL_LINK_STATUS => putBits (putBits (s.raw .HL_LINK_STATUS n) 46 32 (s.hlink n).reads.length) 62 48 (s.hlink n).void.length
  | .NVM_STATUS => num s.nvmStatusView
  | r => s.raw r n k

/-- What a 64-bit read of a register returns (R4): WO and reserved bits read zero. -/
def State.regValue (s : State) (q : Nat) (r : RegName) (n k : Nat) : Word := s.regWord q r n k &&& readMask r.layout

/-! ## What a read does -/

/-- The effect of a 64-bit read besides its answer (R4, R56): RC fields clear, the copies of R56 are taken, TBC_MEM_DATA steps. -/
def State.readEffect (s : State) (q : Nat) (r : RegName) (n k : Nat) : State :=
  match r with
  | .CAR_TIME_NSF => { s with bus := { s.bus with sec := s.bus.sec.set 0 q (s.seconds % 2 ^ 48) } }
  | .CAR_EPS_TIME =>
    { s with bus := { s.bus with
      epsBase := s.bus.epsBase.set 0 q (s.raw .CAR_EPS_BASE).toNat, epsGrowth := s.bus.epsGrowth.set 0 q (s.raw .CAR_EPS_GROWTH).toNat } }
  | .TBC_MEM_DATA => (s.memDataRead n).1
  | .GLB_CC_STATUS => s.drawn
  | .ETH_LANE_STATUS => (s.clearRc r n k).drawn
  | .FNC_Q_STATUS => match s.selectedQueue n with
    | some g => s.onPair g fun x => { x with rxDrops := 0 }
    | none => s
  | .MBX_STATUS => match s.windowBox k with
    | some m => s.mbxClearCount m false
    | none => s
  | r => if r.layout.rc = 0 then s else s.clearRc r n k

/-- A 64-bit read of a register: its value is the answer, and the read's effect follows. -/
def State.regRead (s : State) (q : Nat) (r : RegName) (n k : Nat) : State :=
  let v := if r = .TBC_MEM_DATA then (s.memDataRead n).2 else s.regValue q r n k
  let t := s.readEffect q r n k
  { t with bus := { t.bus with resp := some v } }

/-- A time register that may be read in halves (R8): CAR_TIME_TS64 and GONG_FIRST_TS. -/
def isTimeReg (r : RegName) : Bool := r == .CAR_TIME_TS64 || r == .GONG_FIRST_TS

/-- The holding register of R8 for a requester and a time register. -/
def holdKey (q : Nat) (r : RegName) (n k : Nat) : Nat := q * 2 ^ 60 + regCode r n k

/-- A 32-bit read of the low half of a time register (R8): the high half is kept for the requester. -/
def State.readLow (s : State) (q : Nat) (r : RegName) (n k : Nat) : State :=
  let v := (s.regValue q r n k).toNat
  { s with bus := { s.bus with resp := some (BitVec.ofNat 64 (v % 2 ^ 32)), hold := s.bus.hold.set 0 (holdKey q r n k) (v / 2 ^ 32) } }

/-- A 32-bit read of its high half: what was kept; zero before the requester's first low-half read. -/
def State.readHigh (s : State) (q : Nat) (r : RegName) (n k : Nat) : State :=
  { s with bus := { s.bus with resp := some (BitVec.ofNat 64 (s.bus.hold.get 0 (holdKey q r n k))) } }

end Sys2Proof.Machine
end

