-- ==== Sys2Proof/Machine/Tables.lean ====
section
/-! DEFINITION. The commands and events of the lookup tables (07_tables_learning). -/
namespace Sys2Proof.Machine

/-- A write of TBL_CMD starting operation `op` (R175, R529): the command runs to its end, RESULT and LOCATION are set, and
READ_SLOT and FIND return the entry in TBL_CMD_DATA. BUSY covers no step: a command is whole. -/
def State.tblCmd (s : State) (op : Nat) (w : Word) : State :=
  let image := leNat (wordBytes ((List.range 16).map fun i => s.raw .TBL_CMD_DATA 0 i))
  let r := s.tableCommand op (wfld w TBL_CMD.TABLE) (wfld w TBL_CMD.INDEX) (wfld w TBL_CMD.GEN_MASK) image
  let s := (r.1.put TBL_CMD_STATUS.RESULT r.2.result).put TBL_CMD_STATUS.LOCATION r.2.loc
  match r.2.entry with
  | some e => (List.range 16).foldl (fun t i => t.setRaw .TBL_CMD_DATA 0 i (BitVec.ofNat 64 (e / 2 ^ (64 * i)))) s
  | none => s

/-- INSERT (R176 to R179). -/
def execInsert (_req : Requester) (w : Word) (s : State) : Out := if s.mode = NIGHT then .next s else done (s.tblCmd 1 w)
/-- UPDATE (R179, R199). -/
def execUpdate (_req : Requester) (w : Word) (s : State) : Out := if s.mode = NIGHT then .next s else done (s.tblCmd 2 w)
/-- DELETE (R178, R179, R429). -/
def execDelete (_req : Requester) (w : Word) (s : State) : Out := if s.mode = NIGHT then .next s else done (s.tblCmd 3 w)
/-- READ_SLOT. -/
def execReadSlot (_req : Requester) (w : Word) (s : State) : Out := if s.mode = NIGHT then .next s else done (s.tblCmd 4 w)
/-- WRITE_INDEX (R181, R183). -/
def execWriteIndex (_req : Requester) (w : Word) (s : State) : Out := if s.mode = NIGHT then .next s else done (s.tblCmd 5 w)
/-- FIND (R174, R181). -/
def execFind (_req : Requester) (w : Word) (s : State) : Out := if s.mode = NIGHT then .next s else done (s.tblCmd 6 w)

/-! ## Configuration -/

/-- A block is used by an enabled table, the flow cache or a loaded Snare rule set (R169). -/
def State.blockUsed (s : State) (b : Nat) : Bool :=
  ((List.range 256).any fun t => s.isSet TBL_T_CFG.EN 0 t && !s.isTier t &&
    (s.tableRuns t).any fun r => decide (r.1 ≤ b) && decide (b < r.1 + r.2)) ||
  (s.isSet TBL_FLOW_CFG.EN && decide (s.fld TBL_FLOW_CFG.CACHE_BASE ≤ b) && decide (b < s.fld TBL_FLOW_CFG.CACHE_BASE + 512)) ||
  s.net.images.any fun i => i.blocks.contains b

/-- BLOCK_MAP_WRITE (R4, R169): the owners change, unless a block in use would change owner: then nothing changes and
REFUSED is set. A locked map ignores the write. -/
def execBlockMapWrite (_req : Requester) (k : Fin 40) (w : Word) (s : State) : Out :=
  if s.mode = NIGHT then .next s else
  if s.locked .TBL_BLOCK_MAP 0 then .next s
  else
    let s' := s.setRaw .TBL_BLOCK_MAP 0 k w
    if (List.range 16).any fun j => s'.blockOwner (16 * k + j) != s.blockOwner (16 * k + j) && s.blockUsed (16 * k + j) then
      .next (s.put TBL_CMD_STATUS.REFUSED 1)
    else .next s'

/-- Enabled range tables of a set. -/
def State.rangeTables (s : State) (set : Nat) : Nat :=
  ((List.range 256).filter fun t => s.isSet TBL_T_CFG.EN 0 t && s.fld TBL_T_CFG.KIND 0 t == 3 && s.fld TBL_T_CFG.SET 0 t == set &&
    !s.isTier t).length

/-- T_CFG_WRITE (R187): refused where it would give a set a fifth enabled range table, or names SLOT 0b11. -/
def execTCfgWrite (_req : Requester) (t : Fin 256) (w : Word) (s : State) : Out :=
  if s.mode = NIGHT then .next s else
  let s' := s.writeReg .TBL_T_CFG 0 t w
  let set := s'.fld TBL_T_CFG.SET 0 t
  if s'.fld TBL_T_CFG.SLOT 0 t = 3 ∨ (s'.isSet TBL_T_CFG.EN 0 t ∧ s'.fld TBL_T_CFG.KIND 0 t = 3 ∧ 4 < s'.rangeTables set) then
    .next (s.put TBL_CMD_STATUS.REFUSED 1)
  else .next s'

/-! ## Learning -/

/-- A record is written to the notification ring, or dropped (R192). -/
def State.notify (s : State) (type t new old ts : Nat) (key : List Byte) : State :=
  let size := 2 ^ within (s.fld TBL_LEARN_RING_CTL.LOG2) 8 20
  let prod := s.fld TBL_LEARN_RING_CTL.PROD
  let used := (prod + 2 ^ 24 - s.fld TBL_LEARN_RING_CTL.CONS) % 2 ^ 24
  if !s.isSet TBL_LEARN_RING_CTL.EN then s.bump .TBL_STAT 0 11
  else if size ≤ used then (s.bump .TBL_STAT 0 11).fire 24 5 0 initTables
  else
    let r := natLe 1 type ++ natLe 1 t ++ natLe 2 new ++ natLe 2 old ++ [0, 0] ++ natLe 8 ts ++ slice key 0 16
    (s.ddrWrite (page4k (s.fld TBL_LEARN_RING.ADDR) + 32 * (prod % size)) r).put TBL_LEARN_RING_CTL.PROD (prod + 1)

/-- The entry that learning writes for (S, t) (R188, R190). -/
def State.learnedEntry (s : State) (t : Nat) (key : List Byte) (src ts old : Nat) : Nat :=
  let e := setBits (setBits old (8 * 18 - 1) (8 * 16) src) (8 * 32 - 1) (8 * 24) ts
  let e := setBits e 23 8 (s.fld TBL_T_LEARN.ACT_BASE 0 t + src)
  setBits (setBits (setBits e 7 7 1) 3 3 1) (64 + 63) 64 (leNat (slice key 0 8))

/-- The twin of a table while TWIN_EN is 1 (R191). -/
def State.twinOf (s : State) (t : Nat) : Option Nat :=
  if s.isSet TBL_T_LEARN.TWIN_EN 0 t then some (s.fld TBL_T_LEARN.TWIN 0 t) else none

/-- Where the twin of a structure holds an entry's key: its structure of the same subtable, and the place; a direct-indexed table has one
place for an index. A twin that is disabled, unusable or indexed otherwise has none. -/
def State.twinSpot (s : State) (c : Cuckoo) (p : Spot) (e : Nat) : Option (Cuckoo × Option Spot) :=
  (s.twinOf c.table).bind fun w =>
    let mode := s.isSet TBL_T_CFG.MODE 0 c.table
    if !s.isSet TBL_T_CFG.EN 0 w || !s.usable w || s.isSet TBL_T_CFG.MODE 0 w != mode || s.fld TBL_T_CFG.KIND 0 w != s.fld TBL_T_CFG.KIND 0 c.table then none
    else if mode then
      match p with
      | .slot _ b i => (s.directSpot w (4 * b + i)).map fun x => (x.1, some x.2)
      | .stash _ => none
    else
      let d := s.cuckoo w c.sub
      some (d, (s.holders d (c.form.key c.kb e)).head?)

/-- An entry that the learning unit or the sweeper wrote is written by key in the twin table, where it keeps the place's VERSION (R191). -/
def State.twinWrite (s : State) (c : Cuckoo) (p : Spot) (e : Nat) : State :=
  match s.twinSpot c p e with
  | none => s
  | some (d, some q) => (s.setEntry d q (setBits e 47 24 (entVersion (s.entry d q)))).followTier d (d.form.key d.kb e)
  | some (d, none) => (s.cuckooPlace d e).1

/-- An entry that the sweeper removed is removed by key from the twin table (R191). -/
def State.twinRemove (s : State) (c : Cuckoo) (p : Spot) (e : Nat) : State :=
  match s.twinSpot c p e with
  | some (d, some q) => s.removeEntry d q
  | _ => s

/-- An entry that stays at its place is rewritten there and in the twin. -/
def State.rewrite (s : State) (c : Cuckoo) (p : Spot) (e : Nat) : State := (s.setEntry c p e).twinWrite c p e

/-- An entry at a place becomes (S, t) (R190). -/
def State.relearn (s : State) (c : Cuckoo) (p : Spot) (i : LearnItem) : State :=
  let old := s.entry c p
  let e := s.learnedEntry c.table i.key i.src i.ts old
  (s.rewrite c p e).followTier c (c.form.key c.kb e)

/-- The learning decision for one submission (table *Learning decisions*, R190). A DAMPED record names the submission that lost as the new
one, whichever of the two came first: "the notifications come out the same either way". -/
def State.learnOne (s : State) (i : LearnItem) : State :=
  let t := i.table
  let c := s.cuckoo t 0
  let race := within (s.fld TBL_T_LEARN.RACE_US 0 t) 1 1000 * 4000
  let hold := max race (max 1 (s.fld TBL_T_LEARN.MOVE_HOLD_MS 0 t) * 4000000)
  if !s.learns t then s
  else match s.holders c (leNat (slice i.key 0 8)) with
  | [] =>
    if 1048576 ≤ s.tbl.learned then (s.bump .TBL_STAT 0 3).fire 24 2 0 initTables
    else
      let e := EntryForm.headed.setGen (s.learnedEntry t i.key i.src i.ts 1) 3
      let r := s.cuckooPlace c e
      if r.2.1 = resFull then r.1
      else ((r.1.twinWrite c (.stash 0) e).bump .TBL_STAT 0 4).notify 1 t i.src 0 i.ts i.key
  | p :: _ =>
    let e := s.entry c p
    let sE := entSource e
    let tE := entTs e
    let damped (x : State) : State := ((x.bump .TBL_STAT 0 6).fire 24 3 0 initTables)
    if i.src = sE then s.rewrite c p (setBits e 3 3 1)
    else if entStatic e then s.bump .TBL_STAT 0 8
    else if i.ts < tE ∨ (i.ts = tE ∧ i.src < sE) then
      if tE - i.ts < race then (damped (s.relearn c p i)).notify 4 t sE i.src tE i.key
      else s.bump .TBL_STAT 0 7
    else if i.ts - tE < hold then (damped s).notify 4 t i.src sE i.ts i.key
    else ((s.relearn c p i).bump .TBL_STAT 0 5).notify 2 t i.src sE i.ts i.key

/-- LEARN_PROCESS (R189, R190): the unit takes the oldest submission. In DAWN and TWILIGHT it is off (R182). -/
def execLearnProcess (s : State) : Out :=
  match s.tbl.learn with
  | [] => .next s
  | i :: rest =>
    if s.mode = DAWN ∨ s.mode = TWILIGHT then .next s
    else done (({ s with tbl := { s.tbl with learn := rest } }).learnOne i)

/-! ## Aging -/

/-- The active generation, as the sweeper takes it (R193): the generations some pipeline has active. -/
def State.activeGens (s : State) : Nat :=
  (List.range 8).foldl (fun a p => if s.isSet PPL_CFG.EN p then a ||| 2 ^ s.fld PPL_GEN.ACTIVE p else a) 0

/-- The flow record of a visit to a tier entry that stays (R429): REASON 3, else 2; EXPORT_S follows. -/
def State.visitRecord (s : State) (c : Cuckoo) (p : Spot) : State :=
  let e := s.entry c p
  if !c.tier || !tierRecords e then s
  else
    let fin := bitOf e (8 * 61 + 1)
    let secs := (s.ts64 - entTs e) / 4000000000
    let act := s.fld CMP_REC_CFG.ACTIVE_S
    let due := act != 0 && decide (bits e (8 * 60 - 1) (8 * 56) + act ≤ secs)
    if fin || due then
      let n := setBits (setBits e (8 * 60 - 1) (8 * 56) secs) (8 * 61 + 1) (8 * 61 + 1) 0
      (s.setEntry c p n).flowRecord (tierRecord e (if fin then 3 else 2))
    else s

/-- On-chip buckets of a table, or buckets of the flow tier, that a sweep passes. -/
def State.sweepBuckets (s : State) (t : Nat) : Nat :=
  if s.isTier t then 2 * s.tierBuckets
  else if s.isSet TBL_T_CFG.MODE 0 t then ceilDiv (s.fld TBL_T_WAYS.BLOCKS 0 t * s.perBlock t) 4
  else if s.fld TBL_T_CFG.KIND 0 t = 2 then ((List.range (s.fld TBL_T_WAYS.SUB_COUNT 0 t)).map fun j => 2 * (s.cuckoo t j).buckets).sum
  else 2 * (s.cuckoo t 0).buckets

/-- The shortest sweep of a table, in nanoseconds (R195). -/
def State.leastSweep (s : State) (t : Nat) : Nat := s.sweepBuckets t * (if s.isTier t then 50 else 10)

/-- The period of a table's sweep in force, in nanoseconds: AGE_P_MS, 0 acting as 1, or the shortest sweep (R193, R195). -/
def State.sweepNs (s : State) (t : Nat) : Nat := max (max 1 (s.fld TBL_T_AGE.AGE_P_MS 0 t) * 1000000) (s.leastSweep t)

/-- The visit of place `i` of table `t` is due: the first, whenever it comes, and one at each whole period after it, at the first edge from
then on (R193). -/
def State.visitDue (s : State) (t i : Nat) : Bool :=
  let last := s.tbl.visits.get 0 (t * 2 ^ 32 + i)
  let d := s.up - (last - 1)
  let p := s.sweepNs t * perNs
  last == 0 || (decide (p ≤ d) && decide (d % p < 8 * perNs))

/-- A visit is noted, at the instant that its period gives it. -/
def State.noteVisit (s : State) (t i : Nat) : State :=
  let last := s.tbl.visits.get 0 (t * 2 ^ 32 + i)
  let at_ := if last = 0 then s.up else s.up - (s.up - (last - 1)) % (s.sweepNs t * perNs)
  { s with tbl := { s.tbl with visits := s.tbl.visits.set 0 (t * 2 ^ 32 + i) (at_ + 1) } }

/-- A sweep whose period is below 10 ns per on-chip bucket, or 50 ns per tier bucket, is slowed: AGE_SLOW and its source (R195). -/
def State.ageSlow (s : State) (t : Nat) : State :=
  if max 1 (s.fld TBL_T_AGE.AGE_P_MS 0 t) * 1000000 < s.leastSweep t ∧ !s.isSet TBL_T_AGE.AGE_SLOW 0 t then
    (s.put TBL_T_AGE.AGE_SLOW 1 0 t).fire 24 7 0 initTables
  else s

/-- The sweep's visit of the entry at a place (R193, R194): a hit since the last visit clears MISS; a second visit without one removes the
entry; the first marks it. -/
def State.sweepEntry (s : State) (t : Nat) (c : Cuckoo) (p : Spot) : State :=
  let e := s.entry c p
  let key := natLe 16 (c.form.key c.kb e)
  let hitC := c.tier && (s.cached key).any (·.hit)
  if !c.form.valid e || entStatic e || (c.form.gen e &&& s.activeGens) == 0 then s
  else if entHit e || hitC then
    let s1 := s.rewrite c p (setBits (setBits e 3 3 0) 5 4 0)
    let s1 := if hitC then s1.onCacheSet key fun ls => ls.map fun x => if x.key == key then { x with hit := false } else x else s1
    s1.visitRecord c p
  else if 1 ≤ entMiss e then
    let s1 := if c.tier ∧ tierRecords e then s.flowRecord (tierRecord e 1) else s
    let s1 := ((s1.removeEntry c p).twinRemove c p e).bump .TBL_STAT 0 10
    if s.isSet TBL_T_AGE.NOTIFY 0 t then s1.notify 3 t 0 (entSource e) s.ts64 key else s1
  else (s.rewrite c p (setBits e 5 4 1)).visitRecord c p

/-- SWEEP_VISIT (R191 to R194, R199, R429): a visit to one place of an aging table, as one read-modify-write. LPM and range
entries are never aged (R185), and a table that is another's twin is not walked (R191); in DAWN and TWILIGHT the sweeper is off (R182). Visits
to a place are a period apart, and a sweep too fast is slowed (R195). -/
def execSweepVisit (t : Fin 256) (slot : Nat) (s : State) : Out :=
  let kind := s.fld TBL_T_CFG.KIND 0 t
  if !s.isSet TBL_T_AGE.AGE_EN 0 t || !s.isSet TBL_T_CFG.EN 0 t || !s.usable t || s.mode == DAWN || s.mode == TWILIGHT ||
      (!s.isSet TBL_T_CFG.MODE 0 t && (kind == 1 || kind == 3) && !s.isTier t) || (List.range 256).any (fun x => s.twinOf x == some t.val) ||
      !s.visitDue t slot then .next s
  else
    let u := (s.ageSlow t).noteVisit t slot
    match (if u.isSet TBL_T_CFG.MODE 0 t then u.directSpot t slot else u.spotOf t slot) with
    | none => done u
    | some (c, p) => done (u.sweepEntry t c p)

end Sys2Proof.Machine
end

