-- ==== Sys2Proof/Machine/RegWrite.lean ====
section
/-! DEFINITION. Writes of device register space (R4, R5, R7): the registers whose write does more than its fields' access types say, block
by block, and the memories. -/
namespace Sys2Proof.Machine

/-- The state a meaning answers; a meaning that stops leaves the state. -/
def outState (o : Out) (s : State) : State :=
  match o with
  | .next t => t
  | _ => s

/-- The bits that a word of a directly mapped memory keeps; the others are zero. -/
def memMask (r : RegName) (k : Nat) : Word :=
  BitVec.ofNat 64 <| match r with
    | .TBL_SUB => 2 ^ 29 - 1
    | .SCH_DEST_MAP => 0x9FFF9FFF9FFF9FFF
    | .MBX_MCFG => 2 ^ 22 - 1
    | .CRY_MACSEC =>
      let w := k % 32
      if 18 ≤ w then 0
      else if w = 0 then 2 ^ 64 - 1
      else if w = 1 then 2 ^ 36 - 1
      else if w % 4 = 2 then 0xFFFFFFFF001FFFFF
      else if w % 4 = 1 then 2 ^ 32 - 1
      else 2 ^ 64 - 1
    | _ => 2 ^ 64 - 1

/-- A write of a directly mapped memory's word. -/
def State.writeMem (s : State) (r : RegName) (n k : Nat) (w : Word) : State := s.setRaw r n k (w &&& memMask r k)

/-! ## GLB, PWR, SEC, GONG -/

/-- A write of a GLB register (R25, R34, R48, R49, R443). The watchdog's period starts at the enable. -/
def State.writeGlb (s : State) (req : Requester) (r : RegName) (k : Nat) (w : Word) : State :=
  match r with
  | .GLB_MODE => s.writeMode (codeOf req) w
  | .GLB_RESET_CTL => outState (execManagerReset req w s) s
  | .GLB_WDOG_CTL =>
    let u := s.writeReg r 0 0 w
    if u.isSet GLB_WDOG_CTL.EN && !s.isSet GLB_WDOG_CTL.EN then u.kick else u
  | .GLB_WDOG_KICK => s.kick
  | .GLB_EVENING_CTL => outState (execEveningCtlWrite req w s) s
  | .GLB_CC_CTL => outState (execCcRun req w s) s
  | r => s.writeReg r 0 k w

/-- A write of a PWR register. In DAY a domain whose HOLD bit is set is awake (R37). -/
def State.writePwr (s : State) (r : RegName) (k : Nat) (w : Word) : State :=
  let u := s.writeReg r 0 k w
  if r = .PWR_HOLD_AWAKE ∧ u.mode = DAY then u.modeDomains DAY else u

/-- A write of a SEC register (R407, R411, R414). -/
def State.writeSec (s : State) (req : Requester) (r : RegName) (k : Nat) (w : Word) : State :=
  match r with
  | .SEC_ROLLBACK_CMD => s.rollbackCommand (codeOf req) w
  | .SEC_MEASURE_EXTEND => outState (execMeasureExtend req w s) s
  | .SEC_TRIGGER => outState (execLockdown req w s) s
  | r => s.writeReg r 0 k w

/-- Status bits of a group are cleared; a unit whose source is cleared is isolated no more (R468). -/
def State.writeStatus (s : State) (g : Nat) (w : Word) : State :=
  (s.writeReg .GONG_STATUS 0 g w).onGong fun x =>
    { x with isolated := x.isolated.filter fun i => !(i / 32 == g && bitOf w.toNat (i % 32)) }

/-- A write of GONG_FIRST_INFO (R464): VALID = 1 clears the whole record. -/
def State.writeFirst (s : State) (g : Nat) (w : Word) : State :=
  if wfld w GONG_FIRST_INFO.VALID = 1 then
    ((s.setRaw .GONG_FIRST_INFO 0 g 0).setRaw .GONG_FIRST_ADDR 0 g 0).setRaw .GONG_FIRST_TS 0 g 0
  else s

/-- A write of GONG_ACCESS (R463, R468): where SEV becomes fatal, every flag that is set gains a fatal condition of its group. -/
def State.writeAccess (s : State) (w : Word) : State :=
  let u := s.writeReg .GONG_ACCESS 0 0 w
  if s.fld GONG_ACCESS.SEV ≠ 3 ∧ u.fld GONG_ACCESS.SEV = 3 then
    (List.range 32).foldl (fun t g => if bitOf (u.fld GONG_ACCESS.FLAG) g then t.gainFatal g 0 true else t) u
  else u

/-- A write of a GONG register. -/
def State.writeGong (s : State) (req : Requester) (r : RegName) (k : Nat) (w : Word) : State :=
  match r with
  | .GONG_CFG => s.writeGongCfg w
  | .GONG_INJECT => outState (execInject req w s) s
  | .GONG_SEV => outState (execSevWrite req (Fin.ofNat 32 k) w s) s
  | .GONG_STATUS => s.writeStatus k w
  | .GONG_FIRST_INFO => s.writeFirst k w
  | .GONG_ACCESS => s.writeAccess w
  | r => s.writeReg r 0 k w

/-! ## CAR -/

/-- A write of CAR_ADJ takes effect only while SERVO_EN is 0; beyond the limit it is clamped, with event 12 (R53, R74). -/
def State.writeAdj (s : State) (w : Word) : State :=
  if s.isSet CAR_SERVO_CFG.SERVO_EN then s else s.setAdj (signed 32 (wfld w CAR_ADJ.ADJ) : Rat)

/-- A write of CAR_UTC (R85, R86): APPLIED clears; the other fields are set unless they are taken from PTP. -/
def State.writeUtc (s : State) (w : Word) : State :=
  let s := if wfld w CAR_UTC.APPLIED = 1 then s.put CAR_UTC.APPLIED 0 else s
  if s.isSet CAR_UTC.FROM_PTP then s
  else
    let v := getBits w 18 0
    ({ s with car := { s.car with utcWritten := v } }).setUtc v false

/-- A PPS input is written: the first edge after the enable is accepted without the window test (R63); slots that no longer fit are
dropped. -/
def State.writePps (s : State) (r : RegName) (i : Nat) (en : Field) (w : Word) : State :=
  let u := s.writeReg r 0 0 w
  let u := if u.isSet en && !s.isSet en then u.onPps i fun x => { x with free := true, rejected := 0 } else u
  (List.range 8).foldl State.dropUnfit u

/-- CAR_LINK_MAP of a link is written: a MAP_EPS below 40 is stored as 40, and an EN that falls ends the mapping (R93). -/
def State.writeLinkMap (s : State) (l : Nat) (w : Word) : State :=
  let u := s.writeReg .CAR_LINK_MAP 0 l w
  let u := if u.fld CAR_LINK_MAP.MAP_EPS 0 l < 40 then u.put CAR_LINK_MAP.MAP_EPS 40 0 l else u
  if s.isSet CAR_LINK_MAP.EN 0 l && !u.isSet CAR_LINK_MAP.EN 0 l then u.loseMap l else u

/-- A write of a CAR register. A change that bears on the bound carries it on; EPS_LIMIT acts at the next AOCLK edge (R82). -/
def State.writeCar (s : State) (req : Requester) (r : RegName) (k : Nat) (w : Word) : State :=
  let settled (u : State) : State := outState (carDone s u) s
  match r with
  | .CAR_ADJ => settled (s.writeAdj w)
  | .CAR_STEP_NS => outState (execStepWrite req w s) s
  | .CAR_SERVO_CFG => outState (execServoDisable req w s) s
  | .CAR_SRC_CFG => settled (s.writeSrcCfg k w)
  | .CAR_SRC_PATH => outState (execSrcPathWrite req (Fin.ofNat 8 k) w s) s
  | .CAR_UTC => settled (s.writeUtc w)
  | .CAR_PPS_IN => settled (s.writePps r 0 CAR_PPS_IN.EN w)
  | .CAR_GNSS_PPS => settled (s.writePps r 1 CAR_GNSS_PPS.EN w)
  | .CAR_PTP_PORT => settled (s.writePtpPort k w)
  | .CAR_PTP_IDENTITY => settled ((List.range 32).foldl State.checkHeldOff (s.writeReg r 0 k w))
  | .CAR_OSC | .CAR_OSC_R | .CAR_OSC_A | .CAR_OSC_W | .CAR_SRC_BUDGET => settled (s.writeReg r 0 k w)
  | .CAR_LINK_MAP => s.writeLinkMap k w
  | r => s.writeReg r 0 k w

/-! ## ETH, PPL, SCH, SNR -/

/-- A write of an ETH register of port `p`. -/
def State.writeEth (s : State) (req : Requester) (r : RegName) (p k : Nat) (w : Word) : State :=
  match r with
  | .ETH_PORT_CFG => outState (execPortCfgWrite req (Fin.ofNat 32 p) w s) s
  | .ETH_PORT_CTL => s.portCtl p w
  | .ETH_MAC_CFG | .ETH_PFC_CFG => (s.writeReg r p k w).flowControl
  | .ETH_SYNCE_SEL => if p = 0 then (s.writeReg r p k w).synceFollow else s
  | .ETH_SYNCE => (s.writeReg r p k w).synceFollow
  | r => s.writeReg r p k w

/-- A word of a pipeline's banked memory is written: ignored, with PPL_GEN.REFUSED, in the active bank (R156). A word of bank 1 ends the
program of the boot ROM there: its other words stay. -/
def State.writeBank (s : State) (r : RegName) (p k : Nat) (w : Word) : State :=
  let perBank := bankWords r
  if k / perBank = s.fld PPL_GEN.ACTIVE p then s.put PPL_GEN.REFUSED 1 p
  else
    let u := s.setRaw r p k (mergeWrite r.layout (s.locked r p) (s.progWord r p k) w ^^^ s.romWord r p k)
    if k / perBank = 1 then { u with net := { u.net with boot := u.net.boot.filter (· != p) } } else u

/-- A write of a PPL register. -/
def State.writePpl (s : State) (req : Requester) (r : RegName) (p k : Nat) (w : Word) : State :=
  match r with
  | .PPL_GEN => outState (execGenCommit req (Fin.ofNat 8 p) w s) s
  | .PPL_GEN_GLOBAL => if p = 0 then outState (execGlobalCommit req w s) s else s
  | .PPL_ACT_ADDR => s.actCommand p w
  | .PPL_STAGE_CFG | .PPL_PARSE_STATE | .PPL_PARSE_TRANS | .PPL_KEY_PROF => s.writeBank r p k w
  | .PPL_POLICER => outState (execPolicerWrite req (Fin.ofNat 8 p) k w s) s
  | r => s.writeReg r p k w

/-- A write of a SCH register or memory. Word 1 of a shaper entry is read only. -/
def State.writeSch (s : State) (req : Requester) (r : RegName) (k : Nat) (w : Word) : State :=
  match r with
  | .SCH_SHAPER => if k % 2 = 1 then s else outState (execShaperWrite req (k / 2) w s) s
  | .SCH_GROUP => outState (execGroupWrite req k w s) s
  | .SCH_L1 => outState (execL1Write req k w s) s
  | .SCH_DEST_MAP | .SCH_MODIFY | .SCH_TEMPLATE => s.writeMem r 0 k w
  | r => s.writeReg r 0 k w

/-! ## TBC, TBE, TBL -/

/-- A write of a TBC register. -/
def State.writeTbc (s : State) (r : RegName) (c k : Nat) (w : Word) : State :=
  match r with
  | .TBC_CTL => s.writeTbcCtl c w
  | .TBC_MEM_DATA => s.memDataWrite c w
  | .TBC_SHARE => s.writeShare c w
  | r => s.writeReg r c k w

/-- A write of a TBE register of engine `e`. -/
def State.writeTbe (s : State) (r : RegName) (e k : Nat) (w : Word) : State :=
  match r with
  | .TBE_THREAD_CTL => s.writeThreadCtl (8 * e + k) w
  | .TBE_THREAD_PC => s.writeThreadReg (8 * e + k) .pc w
  | .TBE_THREAD_VEC => s.writeThreadReg (8 * e + k) (.s 4) (w &&& 0xFFFF)
  | .TBE_THREAD_G => s.writeThreadReg (8 * e + k / 32) (.g (Fin.ofNat 32 k)) w
  | .TBE_THREAD_S => s.writeThreadReg (8 * e + k / 16) (.s (Fin.ofNat 16 k)) w
  | r => s.writeReg r e k w

/-- TBL_FLOW_CFG is written (R196, R197): EN is refused unless the 512 blocks from CACHE_BASE are the flow cache's. -/
def State.writeFlowCfg (s : State) (w : Word) : State :=
  let u := s.writeReg .TBL_FLOW_CFG 0 0 w
  let base := u.fld TBL_FLOW_CFG.CACHE_BASE
  if u.isSet TBL_FLOW_CFG.EN ∧ !((List.range 512).all fun i => decide (base + i < 640) && s.blockOwner (base + i) == 9) then
    s.put TBL_CMD_STATUS.REFUSED 1
  else u

/-- The pipelines named in a READERS value. -/
def readerCount (v : Nat) : Nat := ((List.range 8).filter (bitOf v)).length

/-- A write of a TBL register or memory. -/
def State.writeTbl (s : State) (req : Requester) (r : RegName) (k : Nat) (w : Word) : State :=
  match r with
  | .TBL_CMD =>
    let op := wfld w TBL_CMD.OP
    if 1 ≤ op ∧ op ≤ 6 then s.tblCmd op w else s.put TBL_CMD_STATUS.REFUSED 1
  | .TBL_BLOCK_MAP => outState (execBlockMapWrite req (Fin.ofNat 40 k) w s) s
  | .TBL_T_CFG => outState (execTCfgWrite req (Fin.ofNat 256 k) w s) s
  | .TBL_FLOW_CFG => s.writeFlowCfg w
  | .TBL_SET_CFG => if 2 < readerCount (wfld w TBL_SET_CFG.READERS) then s else s.writeReg r 0 k w
  | .TBL_SUB | .TBL_MASK => s.writeMem r 0 k w
  | .TBL_STASH => s
  | r => s.writeReg r 0 k w

/-! ## CRY, CMP, MBX, FNC, NVM, XPT -/

/-- A write of a CRY register or memory. -/
def State.writeCry (s : State) (r : RegName) (k : Nat) (w : Word) : State :=
  match r with
  | .CRY_KEY_CMD => s.keyCommand w
  | .CRY_MACSEC => s.writeMem r 0 k w
  | r => s.writeReg r 0 k w

/-- A write of a CMP register (R426, R434, R436, R437). -/
def State.writeCmp (s : State) (r : RegName) (k : Nat) (w : Word) : State :=
  match r with
  | .CMP_FC_CMD => s.fcCmd w
  | .CMP_HIST_CFG => s.writeHistCfg k w
  | .CMP_SK_CFG => s.writeSkCfg k w
  | .CMP_SK_SEED01 | .CMP_SK_SEED23 => if s.isSet CMP_SK_CFG.EN 0 k then s.refuseSketch k else s.writeReg r 0 k w
  | .CMP_SK_QUERY => s.skQuery w
  | .CMP_HIST | .CMP_HIST_SNAP => s
  | r => s.writeReg r 0 k w

/-- The sender-side flags of a mailbox side that a write of MBX_STATUS clears. -/
def State.mbxClearFlags (s : State) (m : Nat) (toMgr : Bool) (w : Word) : State :=
  s.onMbox m fun b => b.onFlags toMgr fun g =>
    { g with full := g.full && !bitOf w.toNat 4, timeout := g.timeout && !bitOf w.toNat 6, discarded := g.discarded && !bitOf w.toNat 7 }

/-- A write of a MBX register: a window acts on the mailbox it selects. -/
def State.writeMbx (s : State) (req : Requester) (r : RegName) (k : Nat) (w : Word) : State :=
  match r with
  | .MBX_MGR_CTL => outState (execMgrReset req w s) s
  | .MBX_POST => s.postAt (.window (Fin.ofNat 24 k)) w
  | .MBX_POP => s.popAt (.window (Fin.ofNat 24 k))
  | .MBX_STATUS => match s.windowBox k with
    | some m => s.mbxClearFlags m false w
    | none => s
  | .MBX_OUT_DATA => if (s.windowBox (k / 8)).isSome then s.setRaw r 0 k w else s
  | .MBX_CTL => s
  | .MBX_MCFG => s.writeMem r 0 k w
  | r => s.writeReg r 0 k w

/-- FNC_Q_CFG, FNC_Q_IRQ or FNC_Q_BASE of the selected queue: outside DISABLED the write is ignored, with REFUSED. -/
def State.writeQueueReg (s : State) (f : Nat) (r : RegName) (k : Nat) (w : Word) : State :=
  match s.selectedQueue f with
  | none => s
  | some g =>
    let v := w &&& BitVec.ofNat 64 r.layout.rw
    s.onPair g fun x =>
      if x.state ≠ DISABLED then { x with refused := true }
      else match r with
        | .FNC_Q_CFG => { x with cfg := v }
        | .FNC_Q_IRQ => { x with irq := v }
        | _ => { x with base := x.base.set 0 k v.toNat }

/-- A write of a FNC register of function `f` (R288, R303). -/
def State.writeFnc (s : State) (req : Requester) (r : RegName) (f k : Nat) (w : Word) : State :=
  match r with
  | .FNC_Q_CTL => s.queueCtl f w
  | .FNC_Q_CFG | .FNC_Q_IRQ | .FNC_Q_BASE => s.writeQueueReg f r k w
  | .FNC_Q_STATUS | .FNC_Q_IDX => s
  | .FNC_RES_CTL => outState (execResValidWrite req (Fin.ofNat 2080 f) w s) s
  | .FNC_RES_QP | .FNC_RES_VEC =>
    if s.isSet FNC_RES_CTL.VALID f then s.put FNC_RES_CTL.REFUSED 1 f else s.writeReg r f k w
  | .FNC_RES_TX => if s.isSet FNC_RES_CTL.VALID f then s.put FNC_RES_CTL.REFUSED 1 f else s.writeResTx f w
  | r => s.writeReg r f k w

/-- Controllers whose RDY falls with NVM_CFG.EN. -/
def State.nvmOff (s : State) : State := s.nvm.ctls.keys.foldl (fun t f => t.onCtl f fun c => { c with rdy := false }) s

/-- A write of a NVM register. While NVM_CFG.EN is 0, RDY is 0 on every controller. -/
def State.writeNvm (s : State) (r : RegName) (k : Nat) (w : Word) : State :=
  match r with
  | .NVM_CMD => s.nvmCommand w
  | .NVM_FN_RES => s.writeFnRes k w
  | .NVM_CFG =>
    let u := s.writeReg r 0 k w
    if u.isSet NVM_CFG.EN then u else u.nvmOff
  | r => s.writeReg r 0 k w

/-- A write of a XPT register or memory. -/
def State.writeXpt (s : State) (r : RegName) (k : Nat) (w : Word) : State :=
  match r with
  | .XPT_CMD => s.xptCommand w
  | .XPT_FN_CONN => s.xptFnWrite k false w
  | .XPT_FN_WIN => s.xptFnWrite k true w
  | .XPT_QP_BIND => s.bindQueue k w
  | r => s.writeReg r 0 k w

/-- A write of a HL register. -/
def State.writeHl (s : State) (r : RegName) (n k : Nat) (w : Word) : State :=
  match r with
  | .HL_LINK_CTL => (s.writeReg r n k w).releaseIde n
  | r => s.writeReg r n k w

/-! ## Any register -/

/-- A 64-bit write of a register by a requester. -/
def State.regWrite (s : State) (req : Requester) (r : RegName) (n k : Nat) (w : Word) : State :=
  match r.layout.block with
  | .GLB => s.writeGlb req r k w
  | .PWR => s.writePwr r k w
  | .SEC => s.writeSec req r k w
  | .GONG => s.writeGong req r k w
  | .CAR => s.writeCar req r k w
  | .ETH => s.writeEth req r n k w
  | .PPL => s.writePpl req r n k w
  | .SCH => s.writeSch req r k w
  | .SNR => outState (execSnareLoad req w s) s
  | .TBC => s.writeTbc r n k w
  | .TBE => s.writeTbe r n k w
  | .TBL => s.writeTbl req r k w
  | .CRY => s.writeCry r k w
  | .CMP => s.writeCmp r k w
  | .MBX => s.writeMbx req r k w
  | .FNC => s.writeFnc req r n k w
  | .NVM => s.writeNvm r k w
  | .XPT => s.writeXpt r k w
  | .HL => s.writeHl r n k w
  | .PMC | .DDR => s.writeReg r n k w

end Sys2Proof.Machine
end

