-- ==== Sys2Proof/Machine/RegAccess.lean ====
section
/-! DEFINITION. Accesses to device register space by every requester (00_scope, R463, R479, R480, R519), and memory requests of hosts to
the BARs of their functions (R286, R316, R321, R322, R333). -/
namespace Sys2Proof.Machine

/-! ## Device register space -/

/-- The cluster that serves the registers of a block instance: TBC instance `n`, or the engines of TBE. -/
def clusterServing (r : RegName) (n : Nat) : Option Nat :=
  match r.layout.block with
  | .TBC => some n
  | .TBE => some (n / 8)
  | _ => none

/-- A 64-bit read of a register by a requester: a gated cluster wakes, and the stand-in answers for an isolated one (R227, R480). A hart
counts it (R494). -/
def State.readReg (s : State) (req : Requester) (r : RegName) (n k : Nat) : State :=
  let s := s.accessedBy req
  match clusterServing r n with
  | some c => if s.clusterIsolated c then s.standIn.readOnes else (s.wakeCluster c).regRead (codeOf req) r n k
  | none => s.regRead (codeOf req) r n k

/-- A 64-bit write of a register by a requester. A RUN of an isolated cluster is refused (R468). A hart counts it (R494). -/
def State.storeReg (s : State) (req : Requester) (r : RegName) (n k : Nat) (w : Word) : State :=
  let s := s.accessedBy req
  match clusterServing r n with
  | some c =>
    if s.clusterIsolated c then
      (if r = .TBC_CTL ∧ wfld w TBC_CTL.RUN = 1 then s.refuseTbc c else s).standIn
    else (s.wakeCluster c).regWrite req r n k w
  | none => s.regWrite req r n k w

/-- An access without effect (R2, R519): the flag of the addressed block's group is set, and a read returns all ones. A hart counts it
(R494). -/
def State.noEffect (s : State) (req : Requester) (addr : Nat) (write : Bool) : State :=
  let s := s.accessedBy req
  if write then s.accessError req addr true else (s.accessError req addr false).readOnes

/-- A 32-bit read of a time register's half (R8); any other access that is narrow or misaligned has no effect (R2). -/
def State.narrow (s : State) (req : Requester) (addr size : Nat) (write : Bool) : State :=
  match regAt (addr / 8 * 8) with
  | some (r, n, k) =>
    if !write ∧ size = 4 ∧ isTimeReg r ∧ addr % 4 = 0 then
      if addr % 8 = 0 then s.readLow (codeOf req) r n k else s.readHigh (codeOf req) r n k
    else s.noEffect req addr write
  | none => s.noEffect req addr write

/-- An access of `size` bytes at a device register address: a write of `data`, or a read. -/
def State.busAccess (s : State) (req : Requester) (addr size : Nat) (data : Option Word) : State :=
  if size ≠ 8 ∨ addr % 8 ≠ 0 then s.narrow req addr size data.isSome
  else match regAt addr, data with
    | some (r, n, k), some w => s.storeReg req r n k w
    | some (r, n, k), none => s.readReg req r n k
    | none, d => s.noEffect req addr d.isSome

/-- NARROW_ACCESS (R2, R8, R463, R523): an access narrower than 64 bits, or misaligned. -/
def execNarrowAccess (req : Requester) (addr : Nat) (bytes : Nat) (write : Bool) (s : State) : Out :=
  if s.mode = NIGHT then .next s else
  if bytes = 8 ∧ addr % 8 = 0 then .next s else done (s.narrow req addr bytes write)

/-- RESERVED_ACCESS (R519, R520, R463): an access to an address that no register or memory occupies. -/
def execReservedAccess (req : Requester) (addr : Nat) (write : Bool) (s : State) : Out :=
  if s.mode = NIGHT then .next s else
  if (regAt (addr / 8 * 8)).isSome then .next s else done (s.noEffect req addr write)

/-- RC_READ (R6): a 64-bit read; RC fields are cleared after it. -/
def execRcRead (req : Requester) (r : RegName) (n k : Nat) (s : State) : Out :=
  if s.mode = NIGHT then .next s else
  if regExists r n k then done (s.readReg req r n k) else .next s

/-- TIME_LOW_HALF_READ (R8). -/
def execTimeLowHalfRead (req : Requester) (r : RegName) (n k : Nat) (s : State) : Out :=
  if s.mode = NIGHT then .next s else
  if regExists r n k && isTimeReg r then .next (s.readLow (codeOf req) r n k) else .next s

/-- TIME_NSF_READ (R54 to R56): the counter's nanoseconds, and a copy of its seconds for the requester. -/
def execTimeNsfRead (req : Requester) (s : State) : Out := if s.mode = NIGHT then .next s else .next (s.regRead (codeOf req) .CAR_TIME_NSF 0 0)

/-- EPS_TIME_READ (R56): TS64 of the published triple, and copies of its BASE and GROWTH for the requester. -/
def execEpsTimeRead (req : Requester) (s : State) : Out := if s.mode = NIGHT then .next s else .next (s.regRead (codeOf req) .CAR_EPS_TIME 0 0)

/-- REGISTER_WRITE (R4, R5, R7): a 64-bit write of a register. -/
def execRegisterWrite (req : Requester) (r : RegName) (n k : Nat) (w : Word) (s : State) : Out :=
  if s.mode = NIGHT then .next s else
  if regExists r n k then done (s.storeReg req r n k w) else .next s

/-! ## Hosts -/

/-- What a host request's read returns. -/
def State.answer (s : State) (w : Nat) : State := { s with bus := { s.bus with resp := some (BitVec.ofNat 64 w) } }

/-- A read of a page that holds `word`, or a write that it ignores. -/
def State.readOnlyPage (s : State) (word : Nat) (data : Option Word) : State :=
  match data with
  | some _ => s
  | none => s.answer word

/-- A request to a reserved range of a BAR: reads return zero, writes have no effect (R286, R321). -/
def State.reservedRange (s : State) (data : Option Word) : State := s.readOnlyPage 0 data

/-- A request completed with Unsupported Request (R328): a read returns all ones. -/
def State.unsupported (s : State) (f : Nat) (data : Option Word) : State :=
  let t := s.pcieError f .unsupportedRequest
  if data.isSome then t else t.readOnes

/-- The size of a host request, by its alignment: 8 bytes at a multiple of 8, else 4 (log entry 46). -/
def sizeAt (addr : Nat) : Nat := if addr % 8 = 4 then 4 else 8

/-- The manager PF's BAR0 (R322): device register space, while HOST_RD or HOST_WR allows; in MIDNIGHT both act as 0. -/
def State.managerBar (s : State) (l : Nat) (addr : Nat) (data : Option Word) : State :=
  let field := if data.isSome then HL_MGR_CTL.HOST_WR else HL_MGR_CTL.HOST_RD
  let f : Fin 2080 := Fin.ofNat 2080 (2 * l)
  if s.isSet field l ∧ s.mode ≠ MIDNIGHT then s.busAccess (.function f) addr (sizeAt addr) data
  else
    let t := (s.fire 29 0 0 (codeOf (.function f))).bump .HL_STAT l 8
    if data.isSome then t else t.readOnes

/-- What a host read finds at `off` of a field of 64 bits: the whole of it, or its upper half at an offset 4 mod 8 (log entry 46). -/
def halfAt (off v : Nat) : Nat := if off % 8 = 4 then v / 2 ^ 32 else v

/-- A word of the bounded time page of a link (R94, R95). -/
def State.timePageWord (s : State) (l off : Nat) : Nat :=
  if off < 0x48 then halfAt off (((s.linkTime l).page.words).getD (off / 8) 0).toNat else 0

/-- A mailbox page (R447): mailbox `m`, whose page's posts go toward the manager (true) or toward SEC. While the mailbox is not available
the page reads zero and ignores writes. -/
def State.mailboxPage (s : State) (req : Requester) (m : Fin 2104) (off : Nat) (data : Option Word) : State :=
  let up := decide (m.val < 2080)
  if !s.mbxAvailable m then s.reservedRange data
  else if off % 8 ≠ 0 then s.noEffect req 0xF80000 data.isSome
  else match data with
    | none =>
      if off = 0x20 then (s.answer (s.mbxView m up 0x20)).mbxClearCount m up
      else if off = 0x28 then s.answer (s.mbox m).ctl.toNat
      else if 0x80 ≤ off ∧ off < 0xC0 then s.answer ((s.mbox m).staged.get 0 ((off - 0x80) / 8)).toNat
      else s.answer (s.mbxView m up off)
    | some w =>
      if off = 0x10 then s.popAt (.page m)
      else if off = 0x18 then s.postAt (.page m) w
      else if off = 0x20 then s.mbxClearFlags m up w
      else if off = 0x28 then s.onMbox m fun b => { b with ctl := w &&& 0xFFF }
      else if 0x80 ≤ off ∧ off < 0xC0 then s.onMbox m fun b => { b with staged := b.staged.set 0 ((off - 0x80) / 8) w }
      else s

/-- Half-words of an MSI-X table entry: address, data, and Vector Control, whose bit 0 masks the vector. -/
def State.vectorWord (s : State) (f v half : Nat) : Nat :=
  let x := s.fn f
  if half = 0 then x.vecAddr.get 0 v else x.vecData.get 0 v + place (b2n (!x.vecOpen.contains v)) 32 32

/-- An entry's word takes a new value; a vector that is unmasked with its PBA bit set is sent (R306). -/
def State.setVector (s : State) (f v half value : Nat) : State :=
  if half = 0 then s.onFn f fun x => { x with vecAddr := x.vecAddr.set 0 v value }
  else
    let open_ := !bitOf value 32
    let t := s.onFn f fun x => { x with
      vecData := x.vecData.set 0 v (value % 2 ^ 32)
      vecOpen := if !open_ then x.vecOpen.filter (· != v) else if x.vecOpen.contains v then x.vecOpen else x.vecOpen ++ [v] }
    if open_ ∧ (t.fn f).pba.contains v then t.msix f v else t

/-- The MSI-X table of a function: 16 bytes an entry, written whole or by the upper 32 bits. -/
def State.msixTable (s : State) (f off : Nat) (data : Option Word) : State :=
  let v := off / 16
  let half := off % 16 / 8
  let old := s.vectorWord f v half
  match data with
  | none => s.answer (if off % 8 = 4 then old / 2 ^ 32 else old)
  | some w => s.setVector f v half (if off % 8 = 4 then old % 2 ^ 32 + w.toNat % 2 ^ 32 * 2 ^ 32 else w.toNat)

/-- A word of the PBA. -/
def State.pbaWord (s : State) (f j : Nat) : Nat :=
  ((List.range 64).filter fun b => (s.fn f).pba.contains (64 * j + b)).foldl (fun a b => a + 2 ^ b) 0

/-- A word of the VF halt summary of a PF (R304). -/
def State.haltWord (s : State) (pf j : Nat) : Nat :=
  ((List.range 64).filter fun b =>
    let k := 64 * j + b
    let f := 32 + s.vfBase pf + k
    decide (k < s.vfCeiling pf) && (List.range (s.qpCount f)).any fun q => (s.pair (s.globalQueue f q)).state == HALTED).foldl (fun a b => a + 2 ^ b) 0

/-- A doorbell page: a write is a doorbell; the page holds nothing, so what a read returns is free (log entry 2). -/
def State.doorbellPage (s : State) (f : Fin 2080) (page off : Nat) (data : Option Word) : State :=
  match data with
  | some w => s.doorbell f page (sizeAt off) (off % 8 = 0) w
  | none => (s.answer (Config.freeWord s.free).toNat).drawn

/-- The network layout of a function on link `l` (R286): a VF's BAR0, a PF's BAR0, the manager PF's BAR2. -/
def State.networkBar (s : State) (l : Nat) (f : Fin 2080) (addr : Nat) (data : Option Word) : State :=
  let pf := decide (f.val < 32)
  let req : Requester := .function f
  if addr < 0x10000 then s.doorbellPage f (addr / 4096) addr data
  else if addr < 0x11000 then s.readOnlyPage (s.timePageWord l (addr - 0x10000)) data
  else if addr < 0x12000 then s.mailboxPage req ⟨f.val, by omega⟩ (addr - 0x11000) data
  else if addr < 0x13000 then s.busAccess req (0x1000000 + 0x2000 * f.val + (addr - 0x12000)) (sizeAt addr) data
  else if !pf then
    if addr < 0x13400 then s.msixTable f (addr - 0x13000) data
    else if 0x14000 ≤ addr ∧ addr < 0x14008 then s.readOnlyPage (halfAt addr (s.pbaWord f 0)) data
    else s.reservedRange data
  else if addr < 0x13100 then s.readOnlyPage (halfAt addr (s.haltWord f ((addr - 0x13000) / 8))) data
  else if 0x14000 ≤ addr ∧ addr < 0x15000 ∧ s.mgrPf = some f.val then s.mailboxPage req 2097 (addr - 0x14000) data
  else if 0x20000 ≤ addr ∧ addr < 0x28000 then s.msixTable f (addr - 0x20000) data
  else if 0x28000 ≤ addr ∧ addr < 0x28100 then s.readOnlyPage (halfAt addr (s.pbaWord f ((addr - 0x28000) / 8))) data
  else if 0x200000 ≤ addr ∧ addr < 0x300000 then s.doorbellPage f (16 + (addr - 0x200000) / 4096) addr data
  else s.reservedRange data

/-- CAP of a controller (R364). -/
def nvmeCap : Nat := 0xFFFF + place 1 16 16 + place 60 31 24 + place 1 37 37 + place 4 55 52

/-- A 32-bit or 64-bit controller register of an NVMe function as it reads (R364; fields of the NVMe specification, log entry 33). -/
def State.nvmeReg (s : State) (f off : Nat) : Nat :=
  let c := s.nvmCtl f
  match off with
  | 0x00 => nvmeCap
  | 0x04 => nvmeCap / 2 ^ 32
  | 0x08 => 0x00020000
  | 0x14 => c.cc
  | 0x1C => b2n c.rdy + 2 * b2n c.cfs + place c.shst 3 2
  | 0x24 => c.aqa
  | 0x28 => c.asq
  | 0x2C => c.asq / 2 ^ 32
  | 0x30 => c.acq
  | 0x34 => c.acq / 2 ^ 32
  | _ => 0

/-- A write of a controller register: CC, AQA, ASQ and ACQ; the others are read only. -/
def State.writeNvmeReg (s : State) (f : Fin 2080) (off : Nat) (w : Word) : State :=
  let v := w.toNat
  match off with
  | 0x14 => s.writeCc f (v % 2 ^ 32)
  | 0x24 => s.onCtl f fun c => { c with aqa := v % 2 ^ 32 }
  | 0x28 => s.onCtl f fun c => { c with asq := v }
  | 0x2C => s.onCtl f fun c => { c with asq := c.asq % 2 ^ 32 + v % 2 ^ 32 * 2 ^ 32 }
  | 0x30 => s.onCtl f fun c => { c with acq := v }
  | 0x34 => s.onCtl f fun c => { c with acq := c.acq % 2 ^ 32 + v % 2 ^ 32 * 2 ^ 32 }
  | _ => s

/-- A doorbell of a controller: entry 2q is the tail of submission queue q, 2q + 1 the head of completion queue q (DSTRD 0). -/
def State.nvmeDoorbell (s : State) (f : Fin 2080) (off : Nat) (data : Option Word) : State :=
  match data with
  | none => (s.answer (Config.freeWord s.free).toNat).drawn
  | some w =>
    let i := off / 4
    if i % 2 = 0 then s.sqTail f (i / 2) w.toNat else s.cqHead f (i / 2) w.toNat

/-- The NVMe layouts of R321: a PF's MSI-X table and PBA lie higher than a VF's. -/
def State.nvmeBar (s : State) (f : Fin 2080) (addr : Nat) (data : Option Word) : State :=
  let pf := decide (f.val < 32)
  let tab := if pf then 0x10000 else 0x6000
  let pba := if pf then 0x18000 else 0x7000
  if addr < 0x1000 then
    (match data with
    | none => s.answer (s.nvmeReg f addr % 2 ^ (8 * sizeAt addr))
    | some w => s.writeNvmeReg f addr w)
  else if addr < 0x4000 then s.nvmeDoorbell f (addr - 0x1000) data
  else if 0x5000 ≤ addr ∧ addr < 0x6000 then s.mailboxPage (.function f) ⟨f.val, by omega⟩ (addr - 0x5000) data
  else if tab ≤ addr ∧ addr < tab + (if pf then 0x8000 else 0x400) then s.msixTable f (addr - tab) data
  else if pba ≤ addr ∧ addr < pba + (if pf then 0x100 else 8) then s.readOnlyPage (s.pbaWord f ((addr - pba) / 8)) data
  else s.reservedRange data

/-- In MIDNIGHT a BAR answers for its bounded time page and, on the manager PF, the root-of-trust mailbox; all else reads zero
(R316). -/
def State.midnightBar (s : State) (l : Nat) (f : Fin 2080) (addr : Nat) (data : Option Word) : State :=
  if s.isNvmeFn f then s.reservedRange data
  else if (0x10000 ≤ addr ∧ addr < 0x11000) ∨ (0x14000 ≤ addr ∧ addr < 0x15000 ∧ s.mgrPf = some f.val) then s.networkBar l f addr data
  else s.reservedRange data

/-- A function has the BAR named: BAR0, and BAR2 on the manager PF (R321). -/
def State.hasBar (s : State) (f bar : Nat) : Bool := bar == 0 || (bar == 2 && s.mgrPf == some f)

/-- A memory request that a function has accepted, at an offset in a BAR. -/
def State.barAccess (s : State) (l : Nat) (f : Fin 2080) (bar addr : Nat) (data : Option Word) : State :=
  if bar = 0 ∧ s.mgrPf = some f.val then s.managerBar l addr data
  else if s.mode = MIDNIGHT then s.midnightBar l f addr data
  else if s.isNvmeFn f then s.nvmeBar f addr data
  else s.networkBar l f addr data

/-- MGR_BAR_ACCESS (R322): a host's access to device register space through the manager PF's BAR0. -/
def execMgrBarAccess (addr : Nat) (data : Option Word) (s : State) : Out :=
  match s.mgrLink with
  | none => .next s
  | some l =>
    if s.mode = NIGHT ∨ !s.isSet HL_LINK_STATUS.UP l then .next s
    else
      let t := (s.bump .HL_STAT l 0).devEvent 0x30A
      done (if t.takesMemory l (2 * l) then t.managerBar l addr data else t.unsupported (2 * l) data)

/-- HOST_MEMORY_REQUEST (R286, R316, R321, R328, R333): a memory request of link `l` to offset `addr` of a BAR of function `f`;
`secure` tells whether it arrives inside a Secure stream. -/
def execHostMemoryRequest (l : Fin 16) (f : Fin 2080) (bar addr : Nat) (data : Option Word) (secure : Bool) (s : State) : Out :=
  if s.mode = NIGHT ∨ !s.isSet HL_LINK_STATUS.UP l then .next s
  else
    let t := (s.bump .HL_STAT l 0).devEvent 0x30A
    if t.isSet HL_LINK_CTL.IDE_REQ l && !secure then done ((t.bump .HL_STAT l 7).unsupported f data)
    else if !t.takesMemory l f ∨ !t.hasBar f bar then done (t.unsupported f data)
    else done (t.barAccess l f bar addr data)

/-! ## Debug -/

/-- What an open debug transport does (R445, R458): a register access; a hart that runs enters debug mode, which its cluster's source
tells; one in debug mode leaves it. -/
def State.debugPerforms (s : State) : DebugAccess → State
  | .register addr data => s.busAccess .jtag addr (sizeAt addr) data
  | .halt h =>
    if s.coresRun (h / 8) && !bitOf (s.fld GLB_CC_STATUS.DEBUG) h then (s.put ⟨.GLB_CC_STATUS, 24 + h, 24 + h⟩ 1).fire 28 (3 + h / 8) else s
  | .resume h => s.put ⟨.GLB_CC_STATUS, 24 + h, 24 + h⟩ 0

/-- DEBUG_ACCESS (R413, R414, R445): while debug is open, an access through JTAG; while it is closed, no effect but the debug trigger. -/
def execDebugAccess (access : DebugAccess) (s : State) : Out :=
  if s.mode = NIGHT then .next s
  else if s.isSet SEC_LIFECYCLE.DEBUG_OPEN then done (s.debugPerforms access)
  else if s.isSet SEC_TRIGGER.DEBUG_EN then done (s.securityTrigger 3)
  else .next s

end Sys2Proof.Machine
end

