-- ==== Sys2Proof/Machine/Dispatch.lean ====
section
/-! DEFINITION. What each command does: one arm per row of spec/opcode_table.json, in the table's order. -/
namespace Sys2Proof.Machine

/-- The command's effect on everything but the queue. -/
def exec (i : Instr) (s : State) : Host.Outcome State Fault Refusal :=
  match i with
  | .narrowAccess req addr bytes write => Sys2Proof.Machine.execNarrowAccess req addr bytes write s
  | .reservedAccess req addr write => Sys2Proof.Machine.execReservedAccess req addr write s
  | .rcRead req r n k => Sys2Proof.Machine.execRcRead req r n k s
  | .timeLowHalfRead req r n k => Sys2Proof.Machine.execTimeLowHalfRead req r n k s
  | .timeNsfRead req => Sys2Proof.Machine.execTimeNsfRead req s
  | .epsTimeRead req => Sys2Proof.Machine.execEpsTimeRead req s
  | .registerWrite req r n k w => Sys2Proof.Machine.execRegisterWrite req r n k w s
  | .reqDay req w => Sys2Proof.Machine.execReqDay req w s
  | .reqNoon req w => Sys2Proof.Machine.execReqNoon req w s
  | .reqEvening req w => Sys2Proof.Machine.execReqEvening req w s
  | .reqDusk req w => Sys2Proof.Machine.execReqDusk req w s
  | .reqMidnight req w => Sys2Proof.Machine.execReqMidnight req w s
  | .force req w => Sys2Proof.Machine.execForce req w s
  | .transitionComplete record => Sys2Proof.Machine.execTransitionComplete record s
  | .duskDrainEnd => Sys2Proof.Machine.execDuskDrainEnd s
  | .duskDrainTimeout => Sys2Proof.Machine.execDuskDrainTimeout s
  | .autoEveningEntry => Sys2Proof.Machine.execAutoEveningEntry s
  | .autoEveningReturn => Sys2Proof.Machine.execAutoEveningReturn s
  | .eveningCtlWrite req w => Sys2Proof.Machine.execEveningCtlWrite req w s
  | .domainWake dom => Sys2Proof.Machine.execDomainWake dom s
  | .domainGate dom => Sys2Proof.Machine.execDomainGate dom s
  | .sagBegin rail upper uv => Sys2Proof.Machine.execSagBegin rail upper uv s
  | .sagEnd rail upper uv ns => Sys2Proof.Machine.execSagEnd rail upper uv ns s
  | .pllLockLost pll => Sys2Proof.Machine.execPllLockLost pll s
  | .supplyReset rail upper uv => Sys2Proof.Machine.execSupplyReset rail upper uv s
  | .aonReset uv => Sys2Proof.Machine.execAonReset uv s
  | .thermalThrottle tj => Sys2Proof.Machine.execThermalThrottle tj s
  | .throttleRelease tj => Sys2Proof.Machine.execThrottleRelease tj s
  | .thermalShutdown tj => Sys2Proof.Machine.execThermalShutdown tj s
  | .porAssert => Sys2Proof.Machine.execPorAssert s
  | .porDeassert straps => Sys2Proof.Machine.execPorDeassert straps s
  | .wdogKick req w => Sys2Proof.Machine.execWdogKick req w s
  | .wdogFirstExpiry => Sys2Proof.Machine.execWdogFirstExpiry s
  | .wdogSecondExpiry => Sys2Proof.Machine.execWdogSecondExpiry s
  | .managerReset req w => Sys2Proof.Machine.execManagerReset req w s
  | .stepWrite req w => Sys2Proof.Machine.execStepWrite req w s
  | .checkerMismatch => Sys2Proof.Machine.execCheckerMismatch s
  | .ptpFrameRx p synce => Sys2Proof.Machine.execPtpFrameRx p synce s
  | .ptpMessageTx p msg phase => Sys2Proof.Machine.execPtpMessageTx p msg phase s
  | .announceTimeout n => Sys2Proof.Machine.execAnnounceTimeout n s
  | .ppsEdge gnss falling phase freq10m => Sys2Proof.Machine.execPpsEdge gnss falling phase freq10m s
  | .nmeaSentence sentence => Sys2Proof.Machine.execNmeaSentence sentence s
  | .nmeaHoldExpiry => Sys2Proof.Machine.execNmeaHoldExpiry s
  | .measurementMissing n => Sys2Proof.Machine.execMeasurementMissing n s
  | .wtrExpiry n => Sys2Proof.Machine.execWtrExpiry n s
  | .servoDisable req w => Sys2Proof.Machine.execServoDisable req w s
  | .srcPathWrite req n w => Sys2Proof.Machine.execSrcPathWrite req n w s
  | .srcEnableWrite req n w => Sys2Proof.Machine.execSrcEnableWrite req n w s
  | .epsPublish => Sys2Proof.Machine.execEpsPublish s
  | .carryHoldEnd => Sys2Proof.Machine.execCarryHoldEnd s
  | .leapApply => Sys2Proof.Machine.execLeapApply s
  | .ppsOutEdge => Sys2Proof.Machine.execPpsOutEdge s
  | .ptmDialogue l answer => Sys2Proof.Machine.execPtmDialogue l answer s
  | .pagePublish l => Sys2Proof.Machine.execPagePublish l s
  | .bellEdge l => Sys2Proof.Machine.execBellEdge l s
  | .bellFrame l => Sys2Proof.Machine.execBellFrame l s
  | .holdRelease node place => Sys2Proof.Machine.execHoldRelease node place s
  | .holdExpiry node place => Sys2Proof.Machine.execHoldExpiry node place s
  | .launchEnter p queue => Sys2Proof.Machine.execLaunchEnter p queue s
  | .launchSend p place phase => Sys2Proof.Machine.execLaunchSend p place phase s
  | .tokenRequest f nonce buf tag => Sys2Proof.Machine.execTokenRequest f nonce buf tag s
  | .tokenBatchClose => Sys2Proof.Machine.execTokenBatchClose s
  | .tokenReply => Sys2Proof.Machine.execTokenReply s
  | .portCfgWrite req p w => Sys2Proof.Machine.execPortCfgWrite req p w s
  | .portEnable req p w => Sys2Proof.Machine.execPortEnable req p w s
  | .txOffWrite req p w => Sys2Proof.Machine.execTxOffWrite req p w s
  | .restart req p w => Sys2Proof.Machine.execRestart req p w s
  | .linkUp p => Sys2Proof.Machine.execLinkUp p s
  | .linkDown p cdrLoss => Sys2Proof.Machine.execLinkDown p cdrLoss s
  | .tsMeasureDone p tx rx => Sys2Proof.Machine.execTsMeasureDone p tx rx s
  | .frameRx p frame corrected badCode phase => Sys2Proof.Machine.execFrameRx p frame corrected badCode phase s
  | .xoffRepeat p prio => Sys2Proof.Machine.execXoffRepeat p prio s
  | .pauseFrameRx p quanta => Sys2Proof.Machine.execPauseFrameRx p quanta s
  | .pfcFrameRx p enable quanta => Sys2Proof.Machine.execPfcFrameRx p enable quanta s
  | .pauseEnd p prio => Sys2Proof.Machine.execPauseEnd p prio s
  | .frameTx p phase => Sys2Proof.Machine.execFrameTx p phase s
  | .synceClockFail => Sys2Proof.Machine.execSynceClockFail s
  | .synceRestore => Sys2Proof.Machine.execSynceRestore s
  | .packetAdmit p => Sys2Proof.Machine.execPacketAdmit p s
  | .snareAnswer place ids onward => Sys2Proof.Machine.execSnareAnswer place ids onward s
  | .flowFetchDone t key => Sys2Proof.Machine.execFlowFetchDone t key s
  | .staleDrop p place => Sys2Proof.Machine.execStaleDrop p place s
  | .genCommit req p w => Sys2Proof.Machine.execGenCommit req p w s
  | .globalCommit req w => Sys2Proof.Machine.execGlobalCommit req w s
  | .genFlipDone p => Sys2Proof.Machine.execGenFlipDone p s
  | .actWrite req p w => Sys2Proof.Machine.execActWrite req p w s
  | .actRead req p w => Sys2Proof.Machine.execActRead req p w s
  | .poolDispatch pool => Sys2Proof.Machine.execPoolDispatch pool s
  | .reorderTimeout p domain => Sys2Proof.Machine.execReorderTimeout p domain s
  | .streamIdleEvict stream => Sys2Proof.Machine.execStreamIdleEvict stream s
  | .insert req w => Sys2Proof.Machine.execInsert req w s
  | .update req w => Sys2Proof.Machine.execUpdate req w s
  | .delete req w => Sys2Proof.Machine.execDelete req w s
  | .readSlot req w => Sys2Proof.Machine.execReadSlot req w s
  | .writeIndex req w => Sys2Proof.Machine.execWriteIndex req w s
  | .find req w => Sys2Proof.Machine.execFind req w s
  | .blockMapWrite req k w => Sys2Proof.Machine.execBlockMapWrite req k w s
  | .tCfgWrite req t w => Sys2Proof.Machine.execTCfgWrite req t w s
  | .learnProcess => Sys2Proof.Machine.execLearnProcess s
  | .sweepVisit t slot => Sys2Proof.Machine.execSweepVisit t slot s
  | .clusterRun req c w => Sys2Proof.Machine.execClusterRun req c w s
  | .clusterDrain req c w => Sys2Proof.Machine.execClusterDrain req c w s
  | .clusterUndrain req c w => Sys2Proof.Machine.execClusterUndrain req c w s
  | .clusterDrained c => Sys2Proof.Machine.execClusterDrained c s
  | .clusterReset req c w => Sys2Proof.Machine.execClusterReset req c w s
  | .memDataAccess req c data => Sys2Proof.Machine.execMemDataAccess req c data s
  | .shareWrite req c w => Sys2Proof.Machine.execShareWrite req c w s
  | .channelResponse place => Sys2Proof.Machine.execChannelResponse place s
  | .threadTimerExpiry t => Sys2Proof.Machine.execThreadTimerExpiry t s
  | .twaitEnd t => Sys2Proof.Machine.execTwaitEnd t s
  | .threadWatchdog t => Sys2Proof.Machine.execThreadWatchdog t s
  | .halt req t w => Sys2Proof.Machine.execHalt req t w s
  | .resume req t w => Sys2Proof.Machine.execResume req t w s
  | .step req t w => Sys2Proof.Machine.execStep req t w s
  | .abortStage req t w => Sys2Proof.Machine.execAbortStage req t w s
  | .threadCtlSev req t w => Sys2Proof.Machine.execThreadCtlSev req t w s
  | .clrEvt req t w => Sys2Proof.Machine.execClrEvt req t w s
  | .threadRegWrite req t reg w => Sys2Proof.Machine.execThreadRegWrite req t reg w s
  | .quietCluster c => Sys2Proof.Machine.execQuietCluster c s
  | .clusterGate c => Sys2Proof.Machine.execClusterGate c s
  | .alu t => Sys2Proof.Machine.execAlu t s
  | .ialu t => Sys2Proof.Machine.execIalu t s
  | .bfi t => Sys2Proof.Machine.execBfi t s
  | .movi t => Sys2Proof.Machine.execMovi t s
  | .atom t => Sys2Proof.Machine.execAtom t s
  | .hash t => Sys2Proof.Machine.execHash t s
  | .ld t => Sys2Proof.Machine.execLd t s
  | .st t => Sys2Proof.Machine.execSt t s
  | .br t => Sys2Proof.Machine.execBr t s
  | .jal t => Sys2Proof.Machine.execJal t s
  | .jalr t => Sys2Proof.Machine.execJalr t s
  | .chw t => Sys2Proof.Machine.execChw t s
  | .chs t => Sys2Proof.Machine.execChs t s
  | .chr t => Sys2Proof.Machine.execChr t s
  | .srd t => Sys2Proof.Machine.execSrd t s
  | .swr t => Sys2Proof.Machine.execSwr t s
  | .tread t => Sys2Proof.Machine.execTread t s
  | .twait t => Sys2Proof.Machine.execTwait t s
  | .wfe t => Sys2Proof.Machine.execWfe t s
  | .sev t => Sys2Proof.Machine.execSev t s
  | .sevt t => Sys2Proof.Machine.execSevt t s
  | .trap t => Sys2Proof.Machine.execTrap t s
  | .tret t => Sys2Proof.Machine.execTret t s
  | .crd t => Sys2Proof.Machine.execCrd t s
  | .fence t => Sys2Proof.Machine.execFence t s
  | .illegal t => Sys2Proof.Machine.execIllegal t s
  | .pktReturn place => Sys2Proof.Machine.execPktReturn place s
  | .pktDrop place => Sys2Proof.Machine.execPktDrop place s
  | .pktFrame place => Sys2Proof.Machine.execPktFrame place s
  | .pktNew place => Sys2Proof.Machine.execPktNew place s
  | .pktSend place => Sys2Proof.Machine.execPktSend place s
  | .tableLookup place => Sys2Proof.Machine.execTableLookup place s
  | .tableInsert place => Sys2Proof.Machine.execTableInsert place s
  | .tableUpdate place => Sys2Proof.Machine.execTableUpdate place s
  | .tableDelete place => Sys2Proof.Machine.execTableDelete place s
  | .tableWriteIndex place => Sys2Proof.Machine.execTableWriteIndex place s
  | .tableReadSlot place => Sys2Proof.Machine.execTableReadSlot place s
  | .tableFind place => Sys2Proof.Machine.execTableFind place s
  | .prefetch place => Sys2Proof.Machine.execPrefetch place s
  | .gcmEnc place => Sys2Proof.Machine.execGcmEnc place s
  | .gcmDec place => Sys2Proof.Machine.execGcmDec place s
  | .xtsEnc place => Sys2Proof.Machine.execXtsEnc place s
  | .xtsDec place => Sys2Proof.Machine.execXtsDec place s
  | .cmac place => Sys2Proof.Machine.execCmac place s
  | .cryptoHash place => Sys2Proof.Machine.execCryptoHash place s
  | .hmac place => Sys2Proof.Machine.execHmac place s
  | .cryptoComplete core reply => Sys2Proof.Machine.execCryptoComplete core reply s
  | .keyUnwrap index => Sys2Proof.Machine.execKeyUnwrap index s
  | .cipherParityFault core => Sys2Proof.Machine.execCipherParityFault core s
  | .inlineParityFault unit core => Sys2Proof.Machine.execInlineParityFault unit core s
  | .zstdC place => Sys2Proof.Machine.execZstdC place s
  | .zstdD place => Sys2Proof.Machine.execZstdD place s
  | .deflC place => Sys2Proof.Machine.execDeflC place s
  | .deflD place => Sys2Proof.Machine.execDeflD place s
  | .cmpComplete unit reply => Sys2Proof.Machine.execCmpComplete unit reply s
  | .xptWorkRequest place => Sys2Proof.Machine.execXptWorkRequest place s
  | .xptCqConsumer place => Sys2Proof.Machine.execXptCqConsumer place s
  | .take place => Sys2Proof.Machine.execTake place s
  | .complete place => Sys2Proof.Machine.execComplete place s
  | .mark place => Sys2Proof.Machine.execMark place s
  | .defer place => Sys2Proof.Machine.execDefer place s
  | .copy place reply => Sys2Proof.Machine.execCopy place reply s
  | .mbxChPost place => Sys2Proof.Machine.execMbxChPost place s
  | .mbxChRead place => Sys2Proof.Machine.execMbxChRead place s
  | .mbxChStatus place => Sys2Proof.Machine.execMbxChStatus place s
  | .frameSelect node reply => Sys2Proof.Machine.execFrameSelect node reply s
  | .shaperWrite req k w => Sys2Proof.Machine.execShaperWrite req k w s
  | .policerWrite req p k w => Sys2Proof.Machine.execPolicerWrite req p k w s
  | .groupWrite req k w => Sys2Proof.Machine.execGroupWrite req k w s
  | .l1Write req k w => Sys2Proof.Machine.execL1Write req k w s
  | .doorbell f page bytes aligned w => Sys2Proof.Machine.execDoorbell f page bytes aligned w s
  | .txFetch f q reply => Sys2Proof.Machine.execTxFetch f q reply s
  | .txCompletionWrite f q => Sys2Proof.Machine.execTxCompletionWrite f q s
  | .moderationTimer f q rx => Sys2Proof.Machine.execModerationTimer f q rx s
  | .queueEnable req f w => Sys2Proof.Machine.execQueueEnable req f w s
  | .queueDisable req f w => Sys2Proof.Machine.execQueueDisable req f w s
  | .queueDrained f q => Sys2Proof.Machine.execQueueDrained f q s
  | .resValidWrite req f w => Sys2Proof.Machine.execResValidWrite req f w s
  | .perstAssert l => Sys2Proof.Machine.execPerstAssert l s
  | .perstDeassert l => Sys2Proof.Machine.execPerstDeassert l s
  | .hostLinkUp l speed lanes flit reversed => Sys2Proof.Machine.execHostLinkUp l speed lanes flit reversed s
  | .hostLinkDown l lane => Sys2Proof.Machine.execHostLinkDown l lane s
  | .pfFlr f => Sys2Proof.Machine.execPfFlr f s
  | .vfFlr f => Sys2Proof.Machine.execVfFlr f s
  | .flrComplete f => Sys2Proof.Machine.execFlrComplete f s
  | .vfEnable pf numVfs => Sys2Proof.Machine.execVfEnable pf numVfs s
  | .vfDisable pf numVfs => Sys2Proof.Machine.execVfDisable pf numVfs s
  | .bmeClear f => Sys2Proof.Machine.execBmeClear f s
  | .completionTimeout l tag => Sys2Proof.Machine.execCompletionTimeout l tag s
  | .completionRx l tag status => Sys2Proof.Machine.execCompletionRx l tag status s
  | .mgrBarAccess addr data => Sys2Proof.Machine.execMgrBarAccess addr data s
  | .hostMemoryRequest l f bar addr data secure => Sys2Proof.Machine.execHostMemoryRequest l f bar addr data secure s
  | .ideCheckFail l slot => Sys2Proof.Machine.execIdeCheckFail l slot s
  | .doeObject pf obj => Sys2Proof.Machine.execDoeObject pf obj s
  | .doeAbort pf => Sys2Proof.Machine.execDoeAbort pf s
  | .connWrite req w => Sys2Proof.Machine.execConnWrite req w s
  | .connRead req w => Sys2Proof.Machine.execConnRead req w s
  | .connReset req w => Sys2Proof.Machine.execConnReset req w s
  | .quarantineEnd conn => Sys2Proof.Machine.execQuarantineEnd conn s
  | .winWrite req w => Sys2Proof.Machine.execWinWrite req w s
  | .winRead req w => Sys2Proof.Machine.execWinRead req w s
  | .winRevoke req w => Sys2Proof.Machine.execWinRevoke req w s
  | .qpBindWrite req q w => Sys2Proof.Machine.execQpBindWrite req q w s
  | .wrWrite q reply => Sys2Proof.Machine.execWrWrite q reply s
  | .wrWriteImm q reply => Sys2Proof.Machine.execWrWriteImm q reply s
  | .wrSend q reply => Sys2Proof.Machine.execWrSend q reply s
  | .wrRead q reply => Sys2Proof.Machine.execWrRead q reply s
  | .wrFetchAdd q reply => Sys2Proof.Machine.execWrFetchAdd q reply s
  | .wrCas q reply => Sys2Proof.Machine.execWrCas q reply s
  | .wrFlush q reply => Sys2Proof.Machine.execWrFlush q reply s
  | .wrOpen q reply => Sys2Proof.Machine.execWrOpen q reply s
  | .wrRevoke q reply => Sys2Proof.Machine.execWrRevoke q reply s
  | .revokeComplete win => Sys2Proof.Machine.execRevokeComplete win s
  | .write place => Sys2Proof.Machine.execWrite place s
  | .writeImm place => Sys2Proof.Machine.execWriteImm place s
  | .send place => Sys2Proof.Machine.execSend place s
  | .readReq place reply => Sys2Proof.Machine.execReadReq place reply s
  | .readResp place => Sys2Proof.Machine.execReadResp place s
  | .fetchAdd place reply => Sys2Proof.Machine.execFetchAdd place reply s
  | .cas place reply => Sys2Proof.Machine.execCas place reply s
  | .atomicResp place => Sys2Proof.Machine.execAtomicResp place s
  | .flush place => Sys2Proof.Machine.execFlush place s
  | .flushVisible conn psn => Sys2Proof.Machine.execFlushVisible conn psn s
  | .flushResp place => Sys2Proof.Machine.execFlushResp place s
  | .ack place => Sys2Proof.Machine.execAck place s
  | .nak place => Sys2Proof.Machine.execNak place s
  | .ackTimer conn => Sys2Proof.Machine.execAckTimer conn s
  | .retransmitTimeout conn psn => Sys2Proof.Machine.execRetransmitTimeout conn psn s
  | .rnrRetry conn psn => Sys2Proof.Machine.execRnrRetry conn psn s
  | .sarupRxCompletion conn => Sys2Proof.Machine.execSarupRxCompletion conn s
  | .ccEnable f w => Sys2Proof.Machine.execCcEnable f w s
  | .cstsRdySet f => Sys2Proof.Machine.execCstsRdySet f s
  | .ccDisable f w => Sys2Proof.Machine.execCcDisable f w s
  | .ccShutdown f w => Sys2Proof.Machine.execCcShutdown f w s
  | .shutdownComplete f => Sys2Proof.Machine.execShutdownComplete f s
  | .sqDoorbell f q v => Sys2Proof.Machine.execSqDoorbell f q v s
  | .cqDoorbell f q v => Sys2Proof.Machine.execCqDoorbell f q v s
  | .commandFetch f sq reply => Sys2Proof.Machine.execCommandFetch f sq reply s
  | .commandDispatch h => Sys2Proof.Machine.execCommandDispatch h s
  | .createIoSq h => Sys2Proof.Machine.execCreateIoSq h s
  | .deleteIoSq h => Sys2Proof.Machine.execDeleteIoSq h s
  | .createIoCq h => Sys2Proof.Machine.execCreateIoCq h s
  | .deleteIoCq h => Sys2Proof.Machine.execDeleteIoCq h s
  | .getLogPage h => Sys2Proof.Machine.execGetLogPage h s
  | .identify h => Sys2Proof.Machine.execIdentify h s
  | .abort h => Sys2Proof.Machine.execAbort h s
  | .setFeatures h => Sys2Proof.Machine.execSetFeatures h s
  | .getFeatures h => Sys2Proof.Machine.execGetFeatures h s
  | .asyncEventRequest h => Sys2Proof.Machine.execAsyncEventRequest h s
  | .nvmeRead h => Sys2Proof.Machine.execNvmeRead h s
  | .nvmeWrite h => Sys2Proof.Machine.execNvmeWrite h s
  | .nvmeFlush h => Sys2Proof.Machine.execNvmeFlush h s
  | .compare h => Sys2Proof.Machine.execCompare h s
  | .writeZeroes h => Sys2Proof.Machine.execWriteZeroes h s
  | .datasetManagement h => Sys2Proof.Machine.execDatasetManagement h s
  | .nsWrite req w => Sys2Proof.Machine.execNsWrite req w s
  | .nsRead req w => Sys2Proof.Machine.execNsRead req w s
  | .attach req w => Sys2Proof.Machine.execAttach req w s
  | .detach req w => Sys2Proof.Machine.execDetach req w s
  | .fnResWrite req f w => Sys2Proof.Machine.execFnResWrite req f w s
  | .keyLoad req w => Sys2Proof.Machine.execKeyLoad req w s
  | .keyImport req w => Sys2Proof.Machine.execKeyImport req w s
  | .keyDelete req w => Sys2Proof.Machine.execKeyDelete req w s
  | .keyDeleteComplete => Sys2Proof.Machine.execKeyDeleteComplete s
  | .keyQuery req w => Sys2Proof.Machine.execKeyQuery req w s
  | .imageAccepted img => Sys2Proof.Machine.execImageAccepted img s
  | .imageRejected img check => Sys2Proof.Machine.execImageRejected img check s
  | .getNonce r msg => Sys2Proof.Machine.execGetNonce r msg s
  | .recover r msg => Sys2Proof.Machine.execRecover r msg s
  | .slotRevoke r msg => Sys2Proof.Machine.execSlotRevoke r msg s
  | .retire r msg => Sys2Proof.Machine.execRetire r msg s
  | .debugUnlock r msg => Sys2Proof.Machine.execDebugUnlock r msg s
  | .imageLoad r msg => Sys2Proof.Machine.execImageLoad r msg s
  | .lifecycleAdvance r msg => Sys2Proof.Machine.execLifecycleAdvance r msg s
  | .slotProgram r msg => Sys2Proof.Machine.execSlotProgram r msg s
  | .rollbackCmd req w => Sys2Proof.Machine.execRollbackCmd req w s
  | .rollbackDone => Sys2Proof.Machine.execRollbackDone s
  | .measureExtend req w => Sys2Proof.Machine.execMeasureExtend req w s
  | .lockdown req w => Sys2Proof.Machine.execLockdown req w s
  | .glitchDetect => Sys2Proof.Machine.execGlitchDetect s
  | .otpCheck ok => Sys2Proof.Machine.execOtpCheck ok s
  | .debugAccess access => Sys2Proof.Machine.execDebugAccess access s
  | .fcRead req w => Sys2Proof.Machine.execFcRead req w s
  | .fcClear req w => Sys2Proof.Machine.execFcClear req w s
  | .fcFlush req w => Sys2Proof.Machine.execFcFlush req w s
  | .recordBlockClose => Sys2Proof.Machine.execRecordBlockClose s
  | .histSnap req h w => Sys2Proof.Machine.execHistSnap req h w s
  | .sketchClear req p w => Sys2Proof.Machine.execSketchClear req p w s
  | .sketchClearDone p => Sys2Proof.Machine.execSketchClearDone p s
  | .sketchSwap req p w => Sys2Proof.Machine.execSketchSwap req p w s
  | .sketchQuery req w => Sys2Proof.Machine.execSketchQuery req w s
  | .ccRun req w => Sys2Proof.Machine.execCcRun req w s
  | .mtimerExpiry h => Sys2Proof.Machine.execMtimerExpiry h s
  | .post req place w => Sys2Proof.Machine.execPost req place w s
  | .pop req place w => Sys2Proof.Machine.execPop req place w s
  | .mgrReset req w => Sys2Proof.Machine.execMgrReset req w s
  | .mailboxTimeout m toManager => Sys2Proof.Machine.execMailboxTimeout m toManager s
  | .inject req w => Sys2Proof.Machine.execInject req w s
  | .clrCounts req w => Sys2Proof.Machine.execClrCounts req w s
  | .sevWrite req g w => Sys2Proof.Machine.execSevWrite req g w s
  | .selfTestDone kind unit pass => Sys2Proof.Machine.execSelfTestDone kind unit pass s
  | .stallDetect cls us => Sys2Proof.Machine.execStallDetect cls us s
  | .snareLoad req w => Sys2Proof.Machine.execSnareLoad req w s
  | .snareLoadDone => Sys2Proof.Machine.execSnareLoadDone s
  | .vddAonPowerUp uv straps => Sys2Proof.Machine.execVddAonPowerUp uv straps s
  | .railRecovery rail upper uv straps => Sys2Proof.Machine.execRailRecovery rail upper uv straps s
  | .pllRelock pll => Sys2Proof.Machine.execPllRelock pll s
  | .recoveredClockLock p => Sys2Proof.Machine.execRecoveredClockLock p s
  | .ref25InMissing => Sys2Proof.Machine.execRef25InMissing s
  | .pcieRefclkMissing n => Sys2Proof.Machine.execPcieRefclkMissing n s
  | .memoryEccError err => Sys2Proof.Machine.execMemoryEccError err s
  | .dramOverTemperature c => Sys2Proof.Machine.execDramOverTemperature c s
  | .hostLinkRecovery l error lane => Sys2Proof.Machine.execHostLinkRecovery l error lane s
  | .hostConfigWrite f item => Sys2Proof.Machine.execHostConfigWrite f item s
  | .voidTagReuse l tag => Sys2Proof.Machine.execVoidTagReuse l tag s
  | .avsAck => Sys2Proof.Machine.execAvsAck s
  | .avsAckTimeout => Sys2Proof.Machine.execAvsAckTimeout s
  | .leapFlagClear => Sys2Proof.Machine.execLeapFlagClear s
  | .smbusBusError port => Sys2Proof.Machine.execSmbusBusError port s
  | .uartError => Sys2Proof.Machine.execUartError s
  | .mctpMessage port spdm msg => Sys2Proof.Machine.execMctpMessage port spdm msg s

end Sys2Proof.Machine
end

