-- ==== Sys2Proof/Machine/Tick.lean ====
section
/-! DEFINITION. One edge of AOCLK: what happens when no command waits (R52, R53, R57, R59, R71, R82; log entry 1). -/
namespace Sys2Proof.Machine

/-- The counter holds 48 bits of seconds (R52). -/
def counterSpan : Nat := 2 ^ 48 * perSec

/-- A counter `d` units on, within its span. -/
def movedBy (t : Nat) (d : Int) : Nat := (((t : Int) + d) % (counterSpan : Int)).toNat

/-- What one edge adds: 8 ns and ADJ (R52). -/
def State.perEdge (s : State) : Int := (8 * perNs : Nat) + s.adj

/-- The counter, its checker and the deviation of a carried bound take one edge; the EPS_LIMIT written comes into force. -/
def State.advance (s : State) : State :=
  { s with
    edges := s.edges + 1
    car := { s.car with
      time := movedBy s.car.time s.perEdge
      checker := movedBy s.car.checker s.perEdge
      carry := s.car.carry.map fun c => { c with dev := c.dev + (s.adj - c.adjF) }
      limit := s.fld CAR_SERVO_LIMIT.EPS_LIMIT } }

/-- A remembered instant of device time, moved with a step, so that the intervals since it stay as they were. -/
def shifted (d : Int) (t : Nat) : Nat := ((t : Int) + d).toNat

/-- The instants that Carillon remembers move with a step. -/
def State.shiftInstants (s : State) (d : Int) : State :=
  let s := { s with car := { s.car with
    tLast := if s.car.tLast = 0 then 0 else shifted d s.car.tLast
    ppsSecond := none
    published := s.car.published.map (shifted d)
    ppsUntil := shifted d s.car.ppsUntil } }
  let s := (List.range 8).foldl (fun t n => t.onSlot n fun c =>
    { c with tLast := c.tLast.map (shifted d), betterSince := c.betterSince.map (shifted d), seen := c.seen.map (shifted d) }) s
  (List.range 2).foldl (fun t n => t.onPps n fun q => { q with last := q.last.map (shifted d) }) s

/-- The steps accepted before this edge add, and their sum is applied (R57); none is applied while HELD is 1 (R57, R58): one that
the measurement reaching LOCKED has asked for is dropped. CAR_LEAP_TIME follows the counter's new day (R85). -/
def State.applySteps (s : State) : State :=
  if s.car.steps = [] then s
  else if s.held then { s with car := { s.car with steps := [] } }
  else
    let d := s.car.steps.sum
    let s := s.shiftInstants d
    let s := ({ s with car := { s.car with time := movedBy s.car.time d, checker := movedBy s.car.checker d, steps := [] } }).put
      CAR_STATUS.TOD_VALID 1
    if s.car.leapSecond = none then s.put CAR_LEAP_TIME.SEC s.leapTime else s

/-- The counter and its checker differ: event 13, HELD 0 and FREERUN (R59). -/
def State.checkCounter (s : State) : State :=
  if s.car.checker = s.car.time then s else (s.carEvent 13).enterServo FREERUN

/-- FREERUN is left for ACQUIRE while the servo is enabled and a slot is selected (R71). -/
def State.leaveFreerun (s : State) : State :=
  if s.servo = FREERUN ∧ s.isSet CAR_SERVO_CFG.SERVO_EN ∧ s.car.selected then s.enterServo ACQUIRE else s

/-! ## Events counted by cycles (R483, R485, R486) -/

/-- The counters that count now: those whose PMC_CTR_CFG is held with EN set, unless FREEZE stops all. -/
def State.pmcOn (s : State) : List Nat :=
  let base := regCode .PMC_CTR_CFG 0 0
  if s.isSet PMC_CFG.FREEZE then []
  else s.regs.entries.filterMap fun e =>
    if base ≤ e.1 ∧ e.1 < base + 1344 ∧ s.isSet PMC_CTR_CFG.EN 0 (e.1 - base) then some (e.1 - base) else none

/-- PCLK cycles of the edge just taken, 12.8 an edge. -/
def State.pclkEdge (s : State) : Nat := s.edges * 128 / 10 - (s.edges - 1) * 128 / 10

/-- What a device counter takes of an event at an edge, and whether it is that number or any number up to it: how many DDR accesses, grants by
age and TLPs there are is not the model's to say (log entry 183). -/
def deviceCycles (ev : Nat) : Nat × Bool := if ev = 0x303 ∨ ev = 0x304 ∨ ev = 0x30A ∨ ev = 0x30B then (2 ^ 16, true) else (0, false)

/-- The same for a counter of pipeline `p`. -/
def State.pipeCycles (s : State) (p ev : Nat) : Nat × Bool :=
  let q := s.pipe p
  let holds (b : Bool) : Nat × Bool := (if b then s.pclkEdge else 0, false)
  if !(s.inService || s.mode == DUSK || ((s.mode == DAWN || s.mode == TWILIGHT) && (p == 0 || p == 4))) then (0, false)
  else match ev with
    | 0x201 => holds true
    | 0x203 => holds ((List.range 18).any fun k => !(q.feeds.get [] k).isEmpty)
    | 0x209 => holds q.held.isSome
    | 0x20B => holds (decide (0 < s.oldCount p))
    | _ => (0, false)

/-- The same for a counter of cluster `c`. -/
def State.clusterCycles (s : State) (c ev : Nat) : Nat × Bool :=
  if !(s.engineClock && s.domainAwake c) then (0, false)
  else match ev with
    | 0x104 => (1, false)
    | 0x106 => (b2n ((threadsOf c).all fun t => (s.thread t).waits), false)
    | _ => (0, false)

/-- The same for a counter of engine `e`, in ECLK cycles, with the threads that it counts; how its issue slots were given is free. -/
def State.engineCycles (s : State) (e ev threads : Nat) : Nat × Bool :=
  let n := s.eclkPerEdge
  let any (g : Thread → Bool) : Nat × Bool := (if (List.range 8).any fun i => bitOf threads i && g (s.thread (8 * e + i)) then n else 0, false)
  if !(s.engineClock && s.domainAwake (e / 8)) then (0, false)
  else match ev with
    | 0x001 => (n, false)
    | 0x003 | 0x010 => (n, true)
    | 0x004 => (if (List.range 8).any fun i => (s.thread (8 * e + i)).mode == .run && !(s.thread (8 * e + i)).halted then 0 else n, false)
    | 0x005 => any Thread.waits
    | 0x006 => any fun x => x.mode == .chs
    | 0x007 => any fun x => x.mode == .chr
    | _ => (0, false)

/-- What counter `k` takes at an edge. -/
def State.edgeCount (s : State) (k : Nat) : Nat × Bool :=
  let ev := s.fld PMC_CTR_CFG.EVENT 0 k
  if k < 64 then deviceCycles ev
  else if k < 192 then s.pipeCycles ((k - 64) / 16) ev
  else if k < 320 then s.clusterCycles ((k - 192) / 8) ev
  else s.engineCycles ((k - 320) / 8) ev (s.fld PMC_CTR_CFG.THREADS 0 k)

/-- Counter `k` takes the cycles of an edge. -/
def State.countEdge (s : State) (k : Nat) : State :=
  let r := s.edgeCount k
  if r.1 = 0 then s
  else if r.2 then (State.pmcAdd 2 s k ((Config.freeWord s.free).toNat % (r.1 + 1))).drawn
  else State.pmcAdd 2 s k r.1

/-- One edge of the counters that count cycles. -/
def State.pmcEdge (s : State) : State := s.pmcOn.foldl State.countEdge s

/-- One edge of AOCLK. While the always-on supply is down there is none. -/
def State.tick (s : State) : State :=
  if s.modes.hold = .aonDown then s
  else
    let a := s.advance.applySteps
    ((State.carSettle a a.nmeaMissing.quietBells.checkCounter.leaveFreerun).devEvent 0x301).watchIdle.taborEdge.pmcEdge.hartEdge.settle

end Sys2Proof.Machine
end

