-- ==== Sys2Proof/Safety.lean ====
section
/-! DEFINITION. What counts as a safe run, and the vocabulary of the claims: what a step leaves alone. -/
namespace Sys2Proof.Machine

/-- A run of `n` steps from `s` never stops: no fault and no refusal. -/
def Safe (n : Nat) (s : State) : Prop := ∃ t, Sys2Proof.core.run n s = .next t

/-- The command answers a next state with the property `P`. -/
def Completes (c : Instr) (s : State) (P : State → Prop) : Prop := ∃ t, exec c s = .next t ∧ P t

/-- No fatal action waits and no unit is isolated (R468): what a command leaves is then what its own rule says. -/
def Quiet (s : State) : Prop := s.gong.act = 0 ∧ s.gong.isolated = []

/-- Source `src` of group `g` is not fatal: firing it resets nothing (R461, R468). -/
def Mild (s : State) (g src : Nat) : Prop := s.severity g src ≠ 3

/-- Every register but those named holds in `t` what it holds in `s`. -/
def RegsBut (l : List RegName) (s t : State) : Prop := ∀ r, r ∉ l → ∀ n i, t.raw r n i = s.raw r n i

/-- Every byte of every addressed memory of the part and of the hosts is the same: DDR, host memory, engine memory and table blocks. -/
def SameMemory (s t : State) : Prop := t.ddr = s.ddr ∧ t.host = s.host ∧ t.tbe.mem = s.tbe.mem ∧ t.tbl.mem = s.tbl.mem

/-- Beyond the registers, `t` is `s`. -/
def RegsOnly (s t : State) : Prop := t = { s with regs := t.regs }

/-- Nothing changes from `s` to `t` but registers among those named: no other register, no byte of memory, no queue, no unit's state. -/
def Only (l : List RegName) (s t : State) : Prop := RegsOnly s t ∧ RegsBut l s t

/-- The modes' own state when a transition from the mode of `s` to `m` begins: whether it is automatic, when and by whom it began, and since
when a wake from EVENING lasts (R26, R31 to R33). -/
def State.noted (s : State) (m : Nat) (auto : Bool) (rank init : Nat := 0) : ModeState :=
  { s.modes with auto, began := some { edge := s.edges, rank, init }, wakeSince := if s.mode = EVENING ∧ m = DAY then some s.up else none }

/-- The registers that a Gong source writes when it fires (R460 to R469). -/
def gongRegs : List RegName := [.GONG_COUNT, .GONG_STATUS, .GONG_FIRST_INFO, .GONG_FIRST_ADDR, .GONG_FIRST_TS]

/-- Thread `t` issues an instruction of kind `k` now: its engine and cluster run, it is neither halted nor waiting, and its next word is of
that kind. -/
def State.runs (s : State) (t : Nat) (k : ZKind) : Prop := s.issues t ∧ zkind (s.nextWord t) = k ∧ (s.thread t).mode = .run

/-- What is left when thread `t` has completed the instruction that state `s` has it at, `u` being the state with the instruction's own
effect: the thread continues at `pc`, the completion is counted and sampled, a single step ends (R222, R485, R490). -/
def State.goes (s : State) (t : Nat) (u : State) (pc : Nat) (addr : Nat := 0) : State :=
  ((u.onThread t fun y => { y with pc := pc % 65536, mode := if y.mode == .run then .run else y.mode }).retire t (s.thread t).pc
    (s.nextWord t) addr).settle

/-- Register `n` of thread `t` takes `v`; g0 takes nothing (R203). -/
def State.sets (s : State) (t n : Nat) (v : Word) : State := s.onThread t fun x => x.setReg n v

/-- Every thread but `t` is as before, and so is all of engine memory. -/
def ThreadOnly (t : Nat) (s u : State) : Prop := (∀ k, k ≠ t → u.thread k = s.thread k) ∧ u.tbe.mem = s.tbe.mem

end Sys2Proof.Machine
end

