-- ==== Sys2Proof/WellFormed.lean ====
section
/-! DEFINITION. Which commands are well formed: operands that the rows' rules allow. The meanings are total, so that an ill-formed
command answers too; these checks say which commands can arise. -/
namespace Sys2Proof

open Machine

/-- A mailbox message has one to eight words (R446, R448). -/
def wordsOk (msg : List Word) : Bool := decide (1 ≤ msg.length) && decide (msg.length ≤ 8)

/-- An access that R2 calls narrow or misaligned. -/
def narrowOk (addr bytes : Nat) : Bool := decide (bytes = 1 ∨ bytes = 2 ∨ bytes = 4 ∨ bytes = 8) && decide (bytes ≠ 8 ∨ addr % 8 ≠ 0)

/-- A completion status that a row may carry stands for a read that reached host memory; none for one that did not leave. -/
def sarupQueueOk : SarupQueue → Bool
  | .host _ q => decide (q < 32768)
  | .engine _ => true

/-- Well-formed commands. -/
def Instr.wellFormed : Instr → Bool
  | .narrowAccess _ addr bytes _ => narrowOk addr bytes
  | .reservedAccess _ addr _ => addr % 8 == 0 && (regAt addr).isNone
  | .rcRead _ r n k => regExists r n k
  | .timeLowHalfRead _ r n k => regExists r n k && (r == .CAR_TIME_TS64 || r == .GONG_FIRST_TS)
  | .registerWrite _ r n k _ => regExists r n k
  | .transitionComplete (some record) => decide (record.length ≤ 512)
  | .tokenRequest _ nonce _ _ => nonce.length == 32
  | .ptmDialogue _ (some a) => decide (a.master < 2 ^ 64)
  | .launchEnter _ queue => decide (queue < 65536)
  | .linkDown p lanes => lanes.all fun l => decide (p.val ≤ l) && decide (l < 32)
  | .frameRx _ frame _ _ _ => decide (18 ≤ frame.length)
  | .pfcFrameRx _ _ quanta => quanta.length == 8
  | .reorderTimeout _ domain => decide (domain < 4096)
  | .doorbell _ page bytes _ _ => decide (page < 272) && decide (bytes = 4 ∨ bytes = 8)
  | .hostLinkUp _ speed lanes _ _ => decide (1 ≤ speed) && decide (speed ≤ 6) && [1, 2, 4, 8, 16].contains lanes
  | .hostMemoryRequest _ _ bar _ _ _ => bar == 0 || bar == 2
  | .completionTimeout _ tag | .completionRx _ tag _ | .voidTagReuse _ tag => decide (tag < 2 ^ 14)
  | .quarantineEnd conn | .ackTimer conn | .sarupRxCompletion conn => decide (conn < 262144)
  | .flushVisible conn psn | .retransmitTimeout conn psn | .rnrRetry conn psn => decide (conn < 262144) && decide (psn < 2 ^ 32)
  | .wrWrite q _ | .wrWriteImm q _ | .wrSend q _ | .wrRead q _ | .wrFetchAdd q _ | .wrCas q _ | .wrFlush q _ | .wrOpen q _
  | .wrRevoke q _ => sarupQueueOk q
  | .getNonce _ msg | .recover _ msg | .slotRevoke _ msg | .retire _ msg | .debugUnlock _ msg | .imageLoad _ msg
  | .lifecycleAdvance _ msg | .slotProgram _ msg => wordsOk msg
  | .mctpMessage _ _ msg => decide (1 ≤ msg.length)
  | .imageRejected _ check => check.val != 0
  | .vfEnable _ n => decide (n ≤ 2048)
  | .vfDisable _ n => decide (n ≤ 2048)
  | .timeNsfRead _ | .epsTimeRead _ | .reqDay _ _ | .reqNoon _ _ | .reqEvening _ _ | .reqDusk _ _ | .reqMidnight _ _ | .force _ _
  | .duskDrainEnd | .duskDrainTimeout | .autoEveningEntry | .autoEveningReturn | .eveningCtlWrite _ _ | .domainWake _
  | .domainGate _ | .sagBegin _ _ _ | .sagEnd _ _ _ _ | .pllLockLost _ | .supplyReset _ _ _ | .aonReset _ | .thermalThrottle _
  | .throttleRelease _ | .thermalShutdown _ | .porAssert | .porDeassert _ | .wdogKick _ _ | .wdogFirstExpiry | .wdogSecondExpiry
  | .managerReset _ _ | .stepWrite _ _ | .checkerMismatch | .ptpFrameRx _ _ | .ptpMessageTx _ _ _ | .announceTimeout _
  | .ppsEdge _ _ _ _ | .nmeaSentence _ | .nmeaHoldExpiry | .measurementMissing _ | .wtrExpiry _ | .servoDisable _ _
  | .srcPathWrite _ _ _ | .srcEnableWrite _ _ _ | .epsPublish | .carryHoldEnd | .leapApply | .ppsOutEdge | .pagePublish _
  | .bellEdge _ | .bellFrame _ | .holdRelease _ _ | .holdExpiry _ _ | .launchSend _ _ _ | .tokenBatchClose | .tokenReply
  | .portCfgWrite _ _ _ | .portEnable _ _ _ | .txOffWrite _ _ _ | .restart _ _ _ | .linkUp _ | .tsMeasureDone _ _ _
  | .xoffRepeat _ _ | .pauseFrameRx _ _ | .pauseEnd _ _ | .frameTx _ _ | .synceClockFail | .synceRestore | .packetAdmit _
  | .snareAnswer _ _ _ | .flowFetchDone _ _ | .staleDrop _ _ | .genCommit _ _ _ | .globalCommit _ _ | .genFlipDone _
  | .actWrite _ _ _ | .actRead _ _ _ | .poolDispatch _ | .streamIdleEvict _ | .insert _ _ | .update _ _ | .delete _ _
  | .readSlot _ _ | .writeIndex _ _ | .find _ _ | .blockMapWrite _ _ _ | .tCfgWrite _ _ _ | .learnProcess | .sweepVisit _ _
  | .clusterRun _ _ _ | .clusterDrain _ _ _ | .clusterUndrain _ _ _ | .clusterDrained _ | .clusterReset _ _ _
  | .memDataAccess _ _ _ | .shareWrite _ _ _ | .channelResponse _ | .threadTimerExpiry _ | .twaitEnd _ | .threadWatchdog _
  | .halt _ _ _ | .resume _ _ _ | .step _ _ _ | .abortStage _ _ _ | .threadCtlSev _ _ _ | .clrEvt _ _ _ | .threadRegWrite _ _ _ _
  | .quietCluster _ | .clusterGate _ | .alu _ | .ialu _ | .bfi _ | .movi _ | .atom _ | .hash _ | .ld _ | .st _ | .br _ | .jal _
  | .jalr _ | .chw _ | .chs _ | .chr _ | .srd _ | .swr _ | .tread _ | .twait _ | .wfe _ | .sev _ | .sevt _ | .trap _ | .tret _
  | .crd _ | .fence _ | .illegal _ | .pktReturn _ | .pktDrop _ | .pktFrame _ | .pktNew _ | .pktSend _ | .tableLookup _
  | .tableInsert _ | .tableUpdate _ | .tableDelete _ | .tableWriteIndex _ | .tableReadSlot _ | .tableFind _ | .prefetch _
  | .gcmEnc _ | .gcmDec _ | .xtsEnc _ | .xtsDec _ | .cmac _ | .cryptoHash _ | .hmac _ | .cryptoComplete _ _ | .keyUnwrap _
  | .cipherParityFault _ | .inlineParityFault _ _ | .zstdC _ | .zstdD _ | .deflC _ | .deflD _ | .cmpComplete _ _
  | .xptWorkRequest _ | .xptCqConsumer _ | .take _ | .complete _ | .mark _ | .defer _ | .copy _ _ | .mbxChPost _ | .mbxChRead _
  | .mbxChStatus _ | .frameSelect _ _ | .shaperWrite _ _ _ | .policerWrite _ _ _ _ | .groupWrite _ _ _ | .l1Write _ _ _
  | .txFetch _ _ _ | .txCompletionWrite _ _ | .moderationTimer _ _ _ | .queueEnable _ _ _ | .queueDisable _ _ _
  | .queueDrained _ _ | .resValidWrite _ _ _ | .perstAssert _ | .perstDeassert _ | .hostLinkDown _ _ | .pfFlr _ | .vfFlr _
  | .flrComplete _ | .bmeClear _ | .mgrBarAccess _ _ | .ideCheckFail _ _ | .doeObject _ _ | .doeAbort _ | .connWrite _ _
  | .connRead _ _ | .connReset _ _ | .winWrite _ _ | .winRead _ _ | .winRevoke _ _ | .qpBindWrite _ _ _ | .revokeComplete _
  | .write _ | .writeImm _ | .send _ | .readReq _ _ | .readResp _ | .fetchAdd _ _ | .cas _ _ | .atomicResp _ | .flush _
  | .flushResp _ | .ack _ | .nak _ | .ccEnable _ _ | .cstsRdySet _ | .ccDisable _ _ | .ccShutdown _ _ | .shutdownComplete _
  | .sqDoorbell _ _ _ | .cqDoorbell _ _ _ | .commandFetch _ _ _ | .commandDispatch _ | .createIoSq _ | .deleteIoSq _
  | .createIoCq _ | .deleteIoCq _ | .getLogPage _ | .identify _ | .abort _ | .setFeatures _ | .getFeatures _
  | .asyncEventRequest _ | .nvmeRead _ | .nvmeWrite _ | .nvmeFlush _ | .compare _ | .writeZeroes _ | .datasetManagement _
  | .nsWrite _ _ | .nsRead _ _ | .attach _ _ | .detach _ _ | .fnResWrite _ _ _ | .keyLoad _ _ | .keyImport _ _ | .keyDelete _ _
  | .keyDeleteComplete | .keyQuery _ _ | .imageAccepted _ | .rollbackCmd _ _ | .rollbackDone | .measureExtend _ _ | .lockdown _ _
  | .glitchDetect | .otpCheck _ | .debugAccess _ | .fcRead _ _ | .fcClear _ _ | .fcFlush _ _ | .recordBlockClose
  | .histSnap _ _ _ | .sketchClear _ _ _ | .sketchClearDone _ | .sketchSwap _ _ _ | .sketchQuery _ _ | .ccRun _ _
  | .mtimerExpiry _ | .post _ _ _ | .pop _ _ _ | .mgrReset _ _ | .mailboxTimeout _ _ | .inject _ _ | .clrCounts _ _
  | .sevWrite _ _ _ | .selfTestDone _ _ _ | .stallDetect _ _ | .snareLoad _ _ | .snareLoadDone | .vddAonPowerUp _ _
  | .railRecovery _ _ _ _ | .pllRelock _ | .recoveredClockLock _ | .ref25InMissing | .pcieRefclkMissing _ | .memoryEccError _
  | .dramOverTemperature _ | .hostLinkRecovery _ _ _ | .hostConfigWrite _ _ | .avsAck | .avsAckTimeout | .leapFlagClear
  | .smbusBusError _ | .uartError
  | .transitionComplete none | .ptmDialogue _ none => true

end Sys2Proof
end

