-- ==== Sys2Proof/Certificates/Slice0/Obligations.lean ====
section
/-! DEFINITION. The statements for the provers: what the commands of the block do, and what every step keeps. -/
open Sys2Proof Sys2Proof.Machine

/-- In every mode but NIGHT, NARROW_ACCESS (any access narrower than 64 bits or misaligned that is no half read of a time register) and RESERVED_ACCESS (a place that no register occupies) complete without effect: u being s with the access counted for the hart that makes it, if one does, a read answers all ones, and with GONG_ACCESS.SEV not fatal nothing else changes but GONG_ACCESS, where bit g of the addressed block's group is set unless SEV masks it, and the first-error record. It rests on R2, R463, R494, R519, 00_scope, 18_errors_gong. -/
def Obligations.IneffectiveAccesses : Prop :=
  ∀ (req : Requester) (addr bytes : Nat) (write : Bool) (s u : State), s.mode ≠ NIGHT → Quiet s → u = s.accessedBy req →
    (¬ (bytes = 8 ∧ addr % 8 = 0) → (write ∨ bytes ≠ 4 ∨ addr % 4 ≠ 0 ∨ ∀ x, regAt (addr / 8 * 8) = some x → isTimeReg x.1 = false) →
      exec (.narrowAccess req addr bytes write) s = .next (s.noEffect req addr write).settle) ∧
    (regAt (addr / 8 * 8) = none → exec (.reservedAccess req addr write) s = .next (s.noEffect req addr write).settle) ∧
    (s.fld GONG_ACCESS.SEV ≠ 3 → ∀ t, t = (s.noEffect req addr write).settle →
      RegsBut (.GONG_ACCESS :: gongRegs) s t ∧
      t = { u with regs := t.regs, bus := if write then s.bus else { s.bus with resp := some (BitVec.allOnes 64) } } ∧
      (s.fld GONG_ACCESS.SEV ≠ 0 → u.accessGroup (blockAt addr) < 32 →
        t.fld ⟨.GONG_ACCESS, u.accessGroup (blockAt addr), u.accessGroup (blockAt addr)⟩ = 1))

/-- In every mode but NIGHT a 64-bit read of a register that exists (RC_READ) answers its value and has its read effect, a write that has no row of its own (REGISTER_WRITE) acts by the field types and the block's rules, and TIME_LOW_HALF_READ answers the low half of a time register and keeps the high half for this requester and this register. TIME_NSF_READ answers the time of day and keeps the seconds of the same counter value for the requester, and EPS_TIME_READ likewise keeps the base and growth published with it; they change nothing else. It rests on R2, R4, R5, R6, R8, R56, 00_scope. -/
def Obligations.RegisterAccessesComplete : Prop :=
  ∀ (req : Requester) (r : RegName) (n k : Nat) (w : Word) (s : State), s.mode ≠ NIGHT →
    (regExists r n k → exec (.rcRead req r n k) s = .next (s.readReg req r n k).settle) ∧
    (regExists r n k → exec (.registerWrite req r n k w) s = .next (s.storeReg req r n k w).settle) ∧
    (regExists r n k → isTimeReg r →
      exec (.timeLowHalfRead req r n k) s = .next { s with bus := { s.bus with
        resp := some (BitVec.ofNat 64 ((s.regValue (codeOf req) r n k).toNat % 2 ^ 32))
        hold := s.bus.hold.set 0 (holdKey (codeOf req) r n k) ((s.regValue (codeOf req) r n k).toNat / 2 ^ 32) } }) ∧
    exec (.timeNsfRead req) s = .next { s with bus := { s.bus with
      resp := some (BitVec.ofNat 64 s.timeNsf &&& readMask RegName.CAR_TIME_NSF.layout)
      sec := s.bus.sec.set 0 (codeOf req) (s.seconds % 2 ^ 48) } } ∧
    exec (.epsTimeRead req) s = .next { s with bus := { s.bus with
      resp := some (s.raw .CAR_EPS_TIME &&& readMask RegName.CAR_EPS_TIME.layout)
      epsBase := s.bus.epsBase.set 0 (codeOf req) (s.raw .CAR_EPS_BASE).toNat
      epsGrowth := s.bus.epsGrowth.set 0 (codeOf req) (s.raw .CAR_EPS_GROWTH).toNat } }

/-- After a write of word w by the field types of a register, each bit of the register is: for RW and WO the written bit; for RWL the written bit unless the block's LOCK is 1, when it keeps its value; for W1C cleared where a 1 is written and kept where a 0 is; for W1S set where a 1 is written and kept where a 0 is; for every other bit (RO, RC, reserved) what it was. No other register and nothing else changes. The types of a register's bits are taken from its code line; no bit of a register has two of these types. It rests on R4, R5, 00_scope. -/
def Obligations.WriteByAccessType : Prop :=
  ∀ (s : State) (r : RegName) (n i : Nat) (w : Word) (j : Nat), j < 64 →
    let l := r.layout
    let old := (s.raw r n i).getLsbD j
    let new := ((s.writeReg r n i w).raw r n i).getLsbD j
    (l.rw.testBit j ∨ l.wo.testBit j → new = w.getLsbD j) ∧
    (l.rwl.testBit j → s.locked r n = false → new = w.getLsbD j) ∧
    (l.rwl.testBit j → s.locked r n = true → new = old) ∧
    (l.w1c.testBit j → new = (old && !w.getLsbD j)) ∧
    (l.w1s.testBit j → new = (old || w.getLsbD j)) ∧
    ((l.rw ||| l.wo ||| l.rwl ||| l.w1c ||| l.w1s).testBit j = false → new = old) ∧
    Only [r] s (s.writeReg r n i w)

/-- With the command c at the front, step s is exec of c on s with the rest of the queue; with an empty queue step s passes one edge of AOCLK, the model's choice of log entry 1. It rests on 00_scope. -/
def Obligations.StepRunsFront : Prop :=
  (∀ (c : Instr) (rest : List Instr) (s : State), s.pending = c :: rest → step s = exec c { s with pending := rest }) ∧
    ∀ s : State, s.pending = [] → step s = .next s.tick

/-- Right after reset every register reads the reset value of its layout but for GONG_SEV of group 0, whose fixed field is 0b10, and PWR_PLL_STATUS, whose two always-on locks are set; the mode is DAWN without a transition; no command waits; no byte of DDR, host or engine memory is listed and each reads zero (log entry 3); the counter and its checker are at 0 and agree. It rests on R51, R52, R56, R461, R524, 02_modes_power_clocks, 03_carillon_time_core. -/
def Obligations.ResetState : Prop :=
  (∀ (r : RegName) (n i : Nat), regCode r n i ≠ regCode .PWR_PLL_STATUS 0 0 → State.reset.raw r n i = resetWord r n i) ∧
    State.reset.raw .PWR_PLL_STATUS 0 0 = 3 ∧ State.reset.mode = DAWN ∧ State.reset.fld GLB_MODE.TRANSIT = 0 ∧
    State.reset.pending = [] ∧ State.reset.ddr.wf ∧ State.reset.host.wf ∧ State.reset.tbe.mem.wf ∧ State.reset.tbl.mem.wf ∧
    (∀ a, State.reset.ddr.read a = 0) ∧ State.reset.car.time = 0 ∧ State.reset.car.checker = State.reset.car.time ∧ Quiet State.reset

/-- No command but AON_RESET, the loss of VDD_AON, changes the counter or its checker, in every state and with every operand; one AOCLK edge (a step with an empty queue, while VDD_AON is up) adds 8 ns + ADJ to both, and then, unless HELD is 1, the sum of the accepted steps. So the counter changes only by this addition and by permitted steps. It rests on R52, R57, R59, R46. -/
def Obligations.CounterMovesAtEdgesOnly : Prop :=
  (∀ (c : Instr) (s t : State), (∀ uv, c ≠ .aonReset uv) → exec c s = .next t → t.car.time = s.car.time ∧ t.car.checker = s.car.checker) ∧
    ∀ s t : State, s.pending = [] → s.modes.hold ≠ .aonDown → step s = .next t →
      t.car.time = movedBy (movedBy s.car.time s.perEdge) (if s.held then 0 else s.car.steps.sum) ∧
      t.car.checker = movedBy (movedBy s.car.checker s.perEdge) (if s.held then 0 else s.car.steps.sum)

/-- For every state in which the checker counter equals the counter, they are equal after the next step too: after any command, including resets of the device and the loss of VDD_AON, and after any AOCLK edge. Only the injected difference of CHECKER_MISMATCH, which leaves both registers alone, reports one. It rests on R59, R52, R57, R46, R90. -/
def Obligations.CheckerAgrees : Prop :=
  ∀ s t : State, s.car.checker = s.car.time → step s = .next t → t.car.checker = t.car.time

/-- For every state, a step that answers a next state leaves the queue without its front command and otherwise as it was (an empty queue stays empty): no command, reset or edge adds, drops or reorders a waiting command. The queue is the model's own. It rests on 00_scope. -/
def Obligations.QueueFirstInFirstOut : Prop :=
  ∀ s t : State, step s = .next t → t.pending = s.pending.tail

/-- For every state, whatever commands wait, a step answers a next state: no fault and no refusal, for all 341 commands at all operands; so a run of any number of steps from any state is safe. An operand that the rules refuse is answered as the rules say, within a next state. It rests on 00_scope. -/
def Obligations.EveryStepAnswers : Prop :=
  ∀ s : State, (∃ t, step s = .next t) ∧ ∀ n, Safe n s

/-- In a mode from which the table Mode transitions lists the change, with no transition in progress, REQ_DAY, REQ_NOON, REQ_EVENING and REQ_DUSK complete: TRANSIT reads 1, REQ the mode asked for, MODE what it read, DUSK_END the bit written, and nothing outside GLB_MODE changes but the note that the change is no automatic one. It rests on R25, 02_modes_power_clocks. -/
def Obligations.ModeRequestAccepted : Prop :=
  ∀ (req : Requester) (w : Word) (s : State), Quiet s → s.fld GLB_MODE.TRANSIT = 0 → wfld w GLB_MODE.FORCE = 0 →
    let began (m : Nat) (t : State) : Prop :=
      t.fld GLB_MODE.TRANSIT = 1 ∧ t.fld GLB_MODE.REQ = m ∧ t.mode = s.mode ∧ t.fld GLB_MODE.DUSK_END = wfld w GLB_MODE.DUSK_END ∧
      RegsBut [.GLB_MODE] s t ∧ t = { s with regs := t.regs, modes := s.noted m false 3 (codeOf req) }
    (wfld w GLB_MODE.REQ = DAY → s.mode = DAWN ∨ s.mode = NOON ∨ s.mode = EVENING → ∃ t, exec (.reqDay req w) s = .next t ∧ began DAY t) ∧
    (wfld w GLB_MODE.REQ = NOON → s.mode = DAY → ∃ t, exec (.reqNoon req w) s = .next t ∧ began NOON t) ∧
    (wfld w GLB_MODE.REQ = EVENING → s.mode = DAY → ∃ t, exec (.reqEvening req w) s = .next t ∧ began EVENING t) ∧
    (wfld w GLB_MODE.REQ = DUSK → s.mode = DAY ∨ s.mode = NOON ∨ s.mode = EVENING → ∃ t, exec (.reqDusk req w) s = .next t ∧ began DUSK t)

/-- When nothing of R29 remains in DUSK the drain ends and the part moves to the mode in DUSK_END (DUSK_DRAIN_END); in DAY with AUTO_ENTER set, the idle conditions held for IDLE_US and no EVENING left within 1 ms it begins the entry of EVENING (AUTO_EVENING_ENTRY); in EVENING with occupancy at UP_KIB or work for a domain that is off it begins the return to DAY (AUTO_EVENING_RETURN). MODE still reads the mode being left, TRANSIT 1 and REQ the destination, and only GLB_MODE and the note of the transition are written. It rests on R30, R31, R32, 02_modes_power_clocks. -/
def Obligations.AutomaticTransitions : Prop :=
  ∀ s : State, s.fld GLB_MODE.TRANSIT = 0 →
    let began (m : Nat) (auto : Bool) (rank : Nat) (t : State) : Prop :=
      t.fld GLB_MODE.TRANSIT = 1 ∧ t.fld GLB_MODE.REQ = m ∧ t.mode = s.mode ∧
      RegsBut [.GLB_MODE] s t ∧ t = { s with regs := t.regs, modes := s.noted m auto rank }
    (s.mode = DUSK → s.drained → s.fld GLB_MODE.DUSK_END = 0 → ∃ t, exec .duskDrainEnd s = .next t ∧ began NIGHT false 0 t) ∧
    (s.mode = DUSK → s.drained → s.fld GLB_MODE.DUSK_END = 1 → ∃ t, exec .duskDrainEnd s = .next t ∧ began DAY false 0 t) ∧
    (∀ since, s.mode = DAY → s.autoEnter → s.idle → s.modes.idleSince = some since → since + ofUs (s.fld GLB_EVENING_CTL.IDLE_US) ≤ s.up →
      (∀ left, s.modes.eveningLeft = some left → left + ofMs 1 ≤ s.up) →
      ∃ t, exec .autoEveningEntry s = .next t ∧ began EVENING true 4 t) ∧
    (s.mode = EVENING → s.fld GLB_EVENING_CTL.UP_KIB * 1024 ≤ s.occupancy ∨ s.darkWork →
      ∃ t, exec .autoEveningReturn s = .next t ∧ began DAY true 4 t)

/-- REQ_MIDNIGHT in any mode but NIGHT and MIDNIGHT, a transition in progress or not, sets bit 16 of SEC_TRIGGER (the register trigger) and begins the entry of MIDNIGHT, which abandons any other transition (where a request of the same edge is refused for it, log entry 160, the refusal is noted too: the statement is of a request that meets none). FORCE in DUSK, written with REQ equal to DUSK, ends the drain at once: REQ then reads DAY or NIGHT as the DUSK_END bit written says. MODE keeps its value until the transition completes and no other register changes. It rests on R25, R30, R414, 02_modes_power_clocks. -/
def Obligations.MidnightRequestAndForce : Prop :=
  ∀ (req : Requester) (w : Word) (s : State), Quiet s →
    (s.mode ≠ NIGHT → s.mode ≠ MIDNIGHT → wfld w GLB_MODE.REQ = MIDNIGHT → s.meets 3 = false →
      Completes (.reqMidnight req w) s fun t =>
        t.fld ⟨.SEC_TRIGGER, 16, 16⟩ = 1 ∧ t.fld GLB_MODE.TRANSIT = 1 ∧ t.fld GLB_MODE.REQ = MIDNIGHT ∧ t.mode = s.mode ∧
        RegsBut [.GLB_MODE, .SEC_TRIGGER] s t ∧ t = { s with regs := t.regs, modes := s.noted MIDNIGHT false 2 }) ∧
    (s.mode = DUSK → s.fld GLB_MODE.TRANSIT = 0 → wfld w GLB_MODE.REQ = DUSK → wfld w GLB_MODE.FORCE = 1 →
      Completes (.force req w) s fun t =>
        t.fld GLB_MODE.TRANSIT = 1 ∧ t.fld GLB_MODE.REQ = (if wfld w GLB_MODE.DUSK_END = 0 then NIGHT else DAY) ∧ t.mode = s.mode ∧
        RegsBut [.GLB_MODE] s t ∧ t = { s with regs := t.regs, modes := s.noted (if wfld w GLB_MODE.DUSK_END = 0 then NIGHT else DAY) false })

/-- Where its condition holds, each of SUPPLY_RESET, AON_RESET (each with its rail's voltage, in µV, below the rail's reset level), THERMAL_SHUTDOWN, POR_ASSERT, WDOG_SECOND_EXPIRY, MANAGER_RESET (with the key 0xD05C) and the completion of the way from DUSK to NIGHT performs the device reset of its own source; POR_DEASSERT, RAIL_RECOVERY and VDD_AON_POWER_UP (the rail at its reset level or above) end the hold that keeps the part in NIGHT and start the boot with the straps latched. The end of a step then performs a fatal action that waits. It rests on R46, R47, R48, R49, R50, R511, 02_modes_power_clocks. -/
def Obligations.DeviceResetCommandsComplete : Prop :=
  ∀ (s : State) (rail : Fin 8) (upper : Bool) (uv : Nat) (tj : BitVec 16) (req : Requester) (w : Word) (straps : BitVec 9) (cfg : Option (List Word)),
    (rail.val ≠ 2 → 100 * uv < (100 - (railLevels rail).2) * s.railNominal rail upper → s.modes.hold ≠ .porLow → s.modes.hold ≠ .aonDown →
      exec (.supplyReset rail upper uv) s = .next ((s.railFalls (monitorOf rail upper)).deviceReset .supply).settle) ∧
    (s.modes.hold ≠ .aonDown → uv < 720000 → exec (.aonReset uv) s = .next (s.deviceReset .aon).settle) ∧
    (1840 ≤ tj.toInt → s.modes.hold ≠ .thermal → s.modes.hold ≠ .aonDown →
      exec (.thermalShutdown tj) s = .next (((s.put PWR_THERM.TJ tj.toNat).put PWR_THERM.SHUTDOWN_SEEN 1).deviceReset .thermal).settle) ∧
    (s.modes.porLow = false → s.modes.hold ≠ .aonDown →
      exec .porAssert s = .next (({ s with modes := { s.modes with porLow := true } }).deviceReset .por).settle) ∧
    (s.isSet GLB_WDOG_CTL.EN → s.modes.wdogSecond → s.wdogDue ≤ s.up → s.mode ≠ NIGHT →
      exec .wdogSecondExpiry s = .next (s.deviceReset .watchdog).settle) ∧
    (s.mode ≠ NIGHT → wfld w GLB_RESET_CTL.KEY = 0xD05C →
      exec (.managerReset req w) s = .next (s.deviceReset (.manager (wfld w GLB_RESET_CTL.TARGET = 1))).settle) ∧
    (s.fld GLB_MODE.TRANSIT = 1 → s.fld GLB_MODE.REQ = NIGHT →
      exec (.transitionComplete cfg) s = .next (s.deviceReset .dusk).settle) ∧
    (s.modes.hold = .porLow → s.modes.lowRails = [] →
      exec (.porDeassert straps) s =
        .next (({ s with modes := { s.modes with porLow := false, hold := .no } }).powerUp straps.toNat).settle) ∧
    (s.modes.hold = .supply → (100 - (railLevels rail).2) * s.railNominal rail upper ≤ 100 * uv → (∀ r ∈ s.modes.lowRails, r = monitorOf rail upper) →
      exec (.railRecovery rail upper uv straps) s = .next (({ s with modes := { s.modes with lowRails := [] } }).powerUp straps.toNat).settle) ∧
    (s.modes.hold = .aonDown → 720000 ≤ uv → s.modes.porLow = false → s.modes.lowRails = [] →
      exec (.vddAonPowerUp uv straps) s = .next (({ s with modes := { s.modes with hold := .no } }).powerUp straps.toNat).settle)

/-- After a device reset of any source MODE reads NIGHT and GLB_RESET_CAUSE the causes that its source leaves; packets, table entries, threads, queue pairs, controllers, connections and mailboxes are as after reset; the contents of DDR and of host memory, the queue of commands and the counter of AOCLK edges are kept; PERST# of each link stays as its pin is. A reset other than that of VDD_AON keeps the Carillon time. It rests on R48, R50, R51, R52, 02_modes_power_clocks. -/
def Obligations.DeviceResetEffect : Prop :=
  ∀ (s : State) (src : ResetSource),
    let t := s.deviceReset src
    t.mode = NIGHT ∧ t.raw .GLB_RESET_CAUSE = causeAfter s src ∧
    t.net = State.reset.net ∧ t.tbl = State.reset.tbl ∧ t.tbe = State.reset.tbe ∧ t.hq = State.reset.hq ∧
    t.nvm = State.reset.nvm ∧ t.xpt = State.reset.xpt ∧ t.mbx = State.reset.mbx ∧ t.tel = State.reset.tel ∧
    t.ddr = s.ddr ∧ t.host = s.host ∧ t.pending = s.pending ∧
    (src ≠ .aon → t.car.time = s.car.time ∧ t.car.checker = s.car.checker) ∧ (src = .aon → t.car.time = 0 ∧ t.car.checker = 0)

/-- With the condition its rule names met, each event has the effect of its rule: the end of a transition enters the mode; a drain that lasts 1 s raises group 0 source 1 once; EVENING_CTL_WRITE stores the word and refuses an AUTO_ENTER that the rule refuses; a domain wakes or is gated; a rail whose voltage, in µV, is below its warning level is recorded as a sag and raises group 0 source 2, and one that was 1 us above that level by 1 % of nominal ends it; a lost PLL lock sets TS_LOCK_LOST and drops the slots it serves; THROTTLE, the watchdog's kick and its first expiry, and the AVS walk go as their rules say. It rests on R24, R30, R34, R35, R42, R45, R47, R49, R83, R513, R525, 02_modes_power_clocks. -/
def Obligations.PowerEventsComplete : Prop :=
  ∀ (s : State) (req : Requester) (w : Word) (dom : Fin 48) (rail : Fin 8) (upper : Bool) (uv ns : Nat) (tj : BitVec 16) (lane : Fin 32) (cfg : Option (List Word)),
    (s.fld GLB_MODE.TRANSIT = 1 → s.fld GLB_MODE.REQ ≠ NIGHT →
      exec (.transitionComplete cfg) s = .next (s.enterMode (s.fld GLB_MODE.REQ) cfg).settle) ∧
    (s.mode = DUSK → s.fld GLB_MODE.TRANSIT = 0 → s.modes.duskLate = false → s.drained = false → s.modes.duskSince + perSec ≤ s.up →
      exec .duskDrainTimeout s = .next (({ s with modes := { s.modes with duskLate := true } }).fire 0 1).settle) ∧
    (s.mode ≠ NIGHT → (s.writeReg .GLB_EVENING_CTL 0 0 w).isSet GLB_EVENING_CTL.AUTO_ENTER = false ∨ (s.writeReg .GLB_EVENING_CTL 0 0 w).autoEnter → Quiet s →
      exec (.eveningCtlWrite req w) s = .next (s.writeReg .GLB_EVENING_CTL 0 0 w)) ∧
    (s.mode ≠ NIGHT → (s.writeReg .GLB_EVENING_CTL 0 0 w).isSet GLB_EVENING_CTL.AUTO_ENTER → (s.writeReg .GLB_EVENING_CTL 0 0 w).autoEnter = false →
      exec (.eveningCtlWrite req w) s = .next ((s.writeReg .GLB_EVENING_CTL 0 0 w).refuseMode (codeOf req)).settle) ∧
    (16 ≤ dom.val → s.engineClock → exec (.domainWake dom) s = .next (s.put ⟨.PWR_DOMAIN_STATUS, dom, dom⟩ 1)) ∧
    (s.mode = DAY → 16 ≤ dom.val → bitOf (s.fld PWR_HOLD_AWAKE.HOLD) dom = false → s.domainBusy dom = false →
      exec (.domainGate dom) s = .next (s.put ⟨.PWR_DOMAIN_STATUS, dom, dom⟩ 0)) ∧
    (∀ u, s.modes.hold ≠ .aonDown → 100 * uv < (100 - (railLevels rail).1) * s.railNominal rail upper → s.modes.sags.contains (monitorOf rail upper) = false →
      bitOf (s.fld PWR_SAG_STATUS.WARN_NOW) rail = false → u = { s with modes := { s.modes with sags := s.modes.sags ++ [monitorOf rail upper] } } →
      exec (.sagBegin rail upper uv) s = .next (State.carSettle s ((((u.put PWR_SAG_STATUS.WARN_NOW (s.fld PWR_SAG_STATUS.WARN_NOW ||| 2 ^ rail.val)).put
        PWR_SAG_STATUS.WARN_SEEN (s.fld PWR_SAG_STATUS.WARN_SEEN ||| 2 ^ rail.val)).sat PWR_SAG_STATUS.SAG_COUNT 1).fire 0 2 rail)).settle) ∧
    (∀ u, s.modes.sags.contains (monitorOf rail upper) → (101 - (railLevels rail).1) * s.railNominal rail upper < 100 * uv → 1000 ≤ ns →
      u = { s with modes := { s.modes with sags := s.modes.sags.filter (· != monitorOf rail upper) } } → u.modes.sags.contains (monitorOf rail !upper) = false →
      exec (.sagEnd rail upper uv ns) s = .next (State.carSettle s (u.put ⟨.PWR_SAG_STATUS, rail, rail⟩ 0)).settle) ∧
    (s.modes.hold ≠ .aonDown → s.fld PWR_SAG_STATUS.WARN_NOW = 0 →
      exec (.pllLockLost .alwaysOn) s =
        .next (State.carSettle s (((s.put PWR_PLL_STATUS.TS_LOCK_LOST 1).put ⟨.PWR_PLL_STATUS, 0, 0⟩ 0).dropSlots fun _ => true)).settle) ∧
    (s.modes.hold ≠ .aonDown → exec (.pllRelock .alwaysOn) s = .next (s.put ⟨.PWR_PLL_STATUS, 0, 0⟩ 1)) ∧
    (s.modes.hold ≠ .aonDown →
      exec (.pllRelock (.serdes lane)) s = .next { s with modes := { s.modes with lostSerdes := s.modes.lostSerdes.filter (· != s.physicalLane lane) } }) ∧
    (1600 ≤ tj.toInt → s.fld PWR_THERM.THROTTLE = 0 →
      exec (.thermalThrottle tj) s = .next (((s.put PWR_THERM.TJ tj.toNat).put PWR_THERM.THROTTLE 1).fire 0 4).settle) ∧
    (tj.toInt < 1520 → exec (.throttleRelease tj) s = .next ((s.put PWR_THERM.TJ tj.toNat).put PWR_THERM.THROTTLE 0)) ∧
    (s.mode ≠ NIGHT → exec (.wdogKick req w) s = .next { s with modes := { s.modes with wdogSecond := false, wdogSince := s.up } }) ∧
    (s.isSet GLB_WDOG_CTL.EN → s.modes.wdogSecond = false → s.wdogDue ≤ s.up → s.mode ≠ NIGHT →
      exec .wdogFirstExpiry s = .next ((({ s with modes := { s.modes with wdogSecond := true, wdogSince := s.wdogDue } }).put GLB_WDOG_CTL.FIRST 1).fire 0 6).settle) ∧
    (∀ v, s.avsStep = some v → exec .avsAck s = .next (({ s with modes := { s.modes with avsFails := 0 } }).put PWR_AVS.REQUEST_MV v)) ∧
    (∀ v, s.avsStep = some v → s.modes.avsFails < 2 →
      exec .avsAckTimeout s = .next { s with modes := { s.modes with avsFails := s.modes.avsFails + 1 } })

/-- An accepted STEP_WRITE queues the step SEC × 10⁹ + NS for the next AOCLK edge and a refused one sets STEP_REFUSED and raises event 6; a checker mismatch raises event 13 and enters FREERUN; SERVO_DISABLE enters FREERUN; a PATH below FLOOR is stored as FLOOR with event 5; SRC_ENABLE_WRITE writes the slot; the triple of R80 is published, a microsecond after the last; the carry's hold ends after 2 s; a leap second changes OFFSET by one, LEAP61 clears at the end of an inserted second; PPS_OUT rises once where device time plus OFFSET reached a whole second since the edge of AOCLK before, and stays high for WIDTH_US. Each measurement's consequences settle in the same step. It rests on R57, R59, R74, R75, R78, R79, R80, R85, R87, 03_carillon_time_core. -/
def Obligations.CarillonCommandsComplete : Prop :=
  ∀ (s : State) (req : Requester) (w : Word) (n : Fin 8),
    (s.mode ≠ NIGHT → s.stepAccepted w →
      exec (.stepWrite req w) s = .next { s with car := { s.car with
        steps := s.car.steps ++ [(s.int CAR_STEP_SEC.SEC * 1000000000 + stepNs w) * perNs] } }) ∧
    (s.mode ≠ NIGHT → s.stepAccepted w = false →
      exec (.stepWrite req w) s = .next ((s.put CAR_STATUS.STEP_REFUSED 1).carEvent 6).settle) ∧
    exec .checkerMismatch s = .next (State.carSettle s ((s.carEvent 13).enterServo FREERUN)).settle ∧
    (s.mode ≠ NIGHT → (s.writeReg .CAR_SERVO_CFG 0 0 w).fld CAR_SERVO_CFG.SERVO_EN = 0 →
      exec (.servoDisable req w) s = .next (State.carSettle s ((s.writeReg .CAR_SERVO_CFG 0 0 w).enterServo FREERUN)).settle) ∧
    (s.mode ≠ NIGHT → s.locked .CAR_SRC_PATH 0 = false → wfld w CAR_SRC_PATH.PATH < s.fld CAR_GRADE_FLOOR.FLOOR →
      exec (.srcPathWrite req n w) s =
        .next (State.carSettle s ((s.put CAR_SRC_PATH.PATH (s.fld CAR_GRADE_FLOOR.FLOOR) 0 n).carEvent 5)).settle) ∧
    (s.mode ≠ NIGHT → s.locked .CAR_SRC_PATH 0 = false → s.fld CAR_GRADE_FLOOR.FLOOR ≤ wfld w CAR_SRC_PATH.PATH →
      exec (.srcPathWrite req n w) s = .next (State.carSettle s (s.put CAR_SRC_PATH.PATH (wfld w CAR_SRC_PATH.PATH) 0 n)).settle) ∧
    (s.mode ≠ NIGHT → exec (.srcEnableWrite req n w) s = .next (State.carSettle s (s.writeSrcCfg n w)).settle) ∧
    ((∀ t, s.car.published = some t → t + ofUs 1 ≤ s.now) → exec .epsPublish s = .next (State.carSettle s ((State.carSettle s s).publishTriple)).settle) ∧
    (∀ c, s.car.carry = some c → s.isSet CAR_STATUS.CARRY → c.tC + 2 * perSec ≤ s.now →
      exec .carryHoldEnd s = .next { s with car := { s.car with carry := some { c with hold := false } } }) ∧
    (s.fld CAR_LEAP_TIME.SEC ≠ 0 → s.fld CAR_LEAP_TIME.SEC ≤ s.seconds → s.fld CAR_UTC.LEAP61 = 0 → s.fld CAR_UTC.FROM_PTP = 0 → Mild s 1 11 → Quiet s →
      Completes .leapApply s fun t =>
        t.int CAR_UTC.OFFSET = signed 16 (unsigned 16 (s.int CAR_UTC.OFFSET - 1)) ∧ t.fld CAR_UTC.APPLIED = 1 ∧ t.fld CAR_UTC.LEAP59 = 0 ∧
        t.fld CAR_LEAP_TIME.SEC = 0 ∧ RegsBut ([.CAR_UTC, .CAR_LEAP_TIME] ++ gongRegs) s t ∧ t.car.time = s.car.time) ∧
    (∀ sec, s.car.leapSecond = some sec → sec + 1 ≤ s.seconds → s.fld CAR_UTC.FROM_PTP = 0 →
      Completes .leapFlagClear s fun t => t.fld CAR_UTC.LEAP61 = 0 ∧ t.car.leapSecond = none ∧ RegsBut [.CAR_UTC] s t) ∧
    (∀ x, x = s.ppsOutTime → s.isSet CAR_PPS_OUT.EN → s.fld CAR_PPS_OUT.SQUELCH = 0 ∨ s.fld CAR_STATUS.UNSYNC = 0 →
      ((x % perSec : Nat) : Int) < 8 * perNs + s.adj → s.car.ppsSecond ≠ some (x / perSec) →
      exec .ppsOutEdge s = .next { s with car := { s.car with
        ppsUntil := s.now - x % perSec + ofUs (max 1 (s.fld CAR_PPS_OUT.WIDTH_US)), ppsEdges := s.car.ppsEdges + 1, ppsSecond := some (x / perSec) } })

/-- The PTP unit of a port with a role that is not held off takes the oldest frame that the MAC handed over, as its type says where version and domain are the port's (an Announce is kept for its master, a Sync of the master it follows is measured); a port free to send sends an Announce or a Sync as a time transmitter, a Follow_Up that waits, a delay request to the master it follows and a peer delay request, each when due. An announce timeout drops the masters not heard for three intervals; a measurement not seen when the next is due is a miss. An accepted edge of PPS_IN, of the polarity of FALLING, with TOD_VALID measures on every slot of its kind; a rejected one counts a rejection and raises event 7. A sentence with a bad checksum raises event 9; one that follows an edge by at most 900 ms is held for the next edge (ASSOC 0) and dropped at its limit. The wait to restore ends in a change of slot. It rests on R61, R62, R63, R64, R65, R67, R69, R72, R126, R129, 03_carillon_time_core. -/
def Obligations.CarillonInputsComplete : Prop :=
  ∀ (s : State) (p : Fin 32) (phase : Fin 128) (synce : Int) (n : Fin 8) (x : NmeaSentence) (freq : Int),
    (∀ f rest u m h, (s.ptp p).rx = f :: rest → (s.ptp p).heldOff = false → s.isSet CAR_PTP_PORT.ROLE 0 p →
      (beNat (slice f.bytes (etherAt f.bytes) 2) = 0x88F7 ↔ s.fld CAR_PTP_PORT.TRANSPORT 0 p = 0) →
      u = s.onPtp p (fun q => { q with rx := rest }) → m = ptpMessage f.bytes → h = ptpHeader m.1 →
      exec (.ptpFrameRx p synce) s = .next (State.carSettle s (u.takePtp p m.1 m.2 f.t f.degraded synce)).settle ∧
      (h.version ≠ 2 ∨ h.domain ≠ u.fld CAR_PTP_PORT.DOMAIN 0 p → u.takePtp p m.1 m.2 f.t f.degraded synce = u) ∧
      (h.version = 2 → h.domain = u.fld CAR_PTP_PORT.DOMAIN 0 p →
        (h.kind = 11 → u.takePtp p m.1 m.2 f.t f.degraded synce = u.takeAnnounce p h m.2 m.1) ∧
        (∀ b, h.kind = 0 → u.bestMaster p = some b → b.id = h.id → u.ptpState p = .slave →
          u.takePtp p m.1 m.2 f.t f.degraded synce = u.takeSync p h m.1 f.t f.degraded synce))) ∧
    (s.ptpSends p phase →
      (s.ptpState p = .master → s.ptpDue p ptpAnnounce (s.int CAR_PTP_PORT.LOG_ANNOUNCE 0 p) → exec (.ptpMessageTx p .announce phase) s = .next (s.sendAnnounce p phase).settle) ∧
      (s.ptpState p = .master → s.ptpDue p ptpSync (s.int CAR_PTP_PORT.LOG_SYNC 0 p) → exec (.ptpMessageTx p .sync phase) s = .next (s.sendSync p phase).settle) ∧
      (∀ t seq, (s.ptp p).followUp = some (t, seq) → exec (.ptpMessageTx p .followUp phase) s =
        .next ((s.sendPtp p ptpFollowUp (s.ptpAudience p ptpSync) (s.ptpBytes p ptpFollowUp 0 (t % perNs : Nat) seq (s.int CAR_PTP_PORT.LOG_SYNC 0 p) (ptpTime t))
          phase).onPtp p fun q => { q with followUp := none }).settle) ∧
      (∀ b, s.ptpState p = .slave → s.peerToPeer p = false → s.bestMaster p = some b → s.ptpDue p ptpDelayReq (s.int CAR_PTP_PORT.LOG_DELAY 0 p) →
        exec (.ptpMessageTx p .delayReq phase) s = .next (s.sendDelayReq p ptpDelayReq (s.ptpTarget p ptpDelayReq b.peer) phase).settle) ∧
      (s.peerToPeer p → s.ptpDue p ptpPdelayReq (s.int CAR_PTP_PORT.LOG_DELAY 0 p) →
        exec (.ptpMessageTx p .pdelayReq phase) s = .next (s.sendDelayReq p ptpPdelayReq [s.ptpGroup p ptpPdelayReq] phase).settle)) ∧
    (∀ k, k = s.fld CAR_SRC_CFG.PORT 0 n → s.slotKind n = 0 → s.slotEn n →
      exec (.announceTimeout n) s = .next (State.carSettle s ((s.onPtp k fun q => { q with masters := q.masters.filter fun m =>
        !(m.heard.head?.all fun t => decide (t + 3 * m.interval ≤ s.up)) }).followMasters k)).settle) ∧
    (∀ due, s.slotEn n → (s.slot n).seen = some due → due + 2 * s.expects n ≤ s.now →
      exec (.measurementMissing n) s = .next (State.carSettle s ((s.onSlot n fun c => { c with seen := some (due + s.expects n) }).missOne n)).settle) ∧
    (∀ falling, falling = s.isSet CAR_PPS_IN.FALLING → s.isSet CAR_PPS_IN.EN →
      (s.edgeAccepted false (s.at phase) → s.isSet CAR_STATUS.TOD_VALID → (s.ppsIn 0).held = none →
        exec (.ppsEdge false falling phase freq) s = .next (State.carSettle s ((s.slotsOfKind 2).foldl
          (fun y m => y.measure m (s.ppsTheta (s.at phase)) (s.at phase) s.sagCommon freq)
          (s.onPps 0 fun q => { q with free := false, rejected := 0, last := some (s.at phase), degraded := s.sagCommon, paired := false, heard := false, told := false, held := none }))).settle) ∧
      (s.edgeAccepted false (s.at phase) = false →
        exec (.ppsEdge false falling phase freq) s = .next (State.carSettle s (((s.slotsOfKind 2).foldl
          (fun y m => (y.onSlot m fun c => { c with seen := some (s.dueOf m (s.at phase)) }).rejectMeasurement m)
          (s.onPps 0 fun q => { q with rejected := (s.ppsIn 0).rejected + 1, free := decide (4 ≤ (s.ppsIn 0).rejected + 1) })).carEvent 7)).settle)) ∧
    (s.isSet CAR_NMEA.EN → x.baud.val = s.fld CAR_NMEA.BAUD → x.checksumOk = false → exec (.nmeaSentence x) s = .next (s.carEvent 9).settle) ∧
    (∀ e, s.isSet CAR_NMEA.EN → x.baud.val = s.fld CAR_NMEA.BAUD → x.checksumOk → x.rmc = false → (s.ppsIn 1).last = some e → s.now ≤ e + ofMs 900 →
      (s.ppsIn 1).heard = false → s.fld CAR_NMEA.ASSOC = 0 →
      exec (.nmeaSentence x) s = .next (s.onPps 1 fun q => { q with heard := true, held := some ((x.utc : Int) + s.int CAR_UTC.OFFSET).toNat })) ∧
    (∀ h e, (s.ppsIn 1).held = some h → (s.ppsIn 1).last = some e → e + perSec + s.ppsWindow true * perNs < s.now →
      exec .nmeaHoldExpiry s = .next (s.onPps 1 fun q => { q with held := none })) ∧
    (∀ since m, (s.slot n).betterSince = some since → s.selected = some m → s.isSet CAR_SERVO_CFG.REVERT → s.isSet CAR_SRC_STATUS.USABLE 0 n →
      s.slotBefore n m → since + s.fld CAR_SERVO_CFG.WTR_S * perSec ≤ s.now →
      exec (.wtrExpiry n) s = .next (State.carSettle s (s.changeSlot (some n))).settle)

/-- On a link where PTM runs and a dialogue is due, one that succeeds adds the pair of the dialogue before (the newest 64 are kept), and one that fails counts and, at the fourth in a row, loses the map with its pairs and sets NO_MAP on the page; a page is published on a link that is up with the map enabled, 990 us or more after the last; the bell line rises once where device time plus ADVANCE reached a whole second since the edge of AOCLK before, with the frame that the line sends 16 us later; a token request in service joins the batch being gathered; at a whole millisecond of device time a batch of at most 1,024 closes; a signed batch is answered request by request. It rests on R91, R96, R103, R104, R111, R112, R114, 04_time_delivery. -/
def Obligations.TimeDeliveryCommandsComplete : Prop :=
  ∀ (s : State) (l : Fin 16) (a : PtmAnswer) (f : Fin 2080) (nonce : List Byte) (buf tag : Word),
    (s.ptmRuns l → s.ptmDue l →
      (∀ u, u = s.onLinkTime l (fun t => { t with
          pairs := withPair t.pairs (s.ptmPair l a), failed := 0, good := t.good + 1, asked := some s.up, span := some a.span }) →
        (s.fld CAR_LINK_STATUS.MAPPED 0 l = 1 ∨ (s.linkTime l).good + 1 < 16 → exec (.ptmDialogue l (some a)) s = .next u) ∧
        (s.fld CAR_LINK_STATUS.MAPPED 0 l = 0 → 16 ≤ (s.linkTime l).good + 1 →
          exec (.ptmDialogue l (some a)) s = .next ((u.put CAR_LINK_STATUS.MAPPED 1 0 l).bumpEpoch l))) ∧
      ((s.linkTime l).failed < 3 → exec (.ptmDialogue l none) s =
        .next ((s.sat CAR_LINK_STATUS.FAILS 1 0 l).onLinkTime l fun t => { t with failed := t.failed + 1, asked := some s.up, span := none })) ∧
      ((s.linkTime l).failed = 3 → Completes (.ptmDialogue l none) s fun t =>
        t.fld CAR_LINK_STATUS.MAPPED 0 l = 0 ∧ (t.linkTime l).pairs = [] ∧ (t.linkTime l).page = (s.linkTime l).page.unmapped ∧
        RegsBut [.CAR_LINK_STATUS] s t)) ∧
    (s.isSet CAR_LINK_MAP.EN 0 l → s.isSet HL_LINK_STATUS.UP l → s.mode ≠ NIGHT → (∀ t, (s.linkTime l).published = some t → t + ofUs 990 ≤ s.now) →
      exec (.pagePublish l) s = .next ((s.newPage l).1.publishPage l (s.newPage l).2)) ∧
    (∀ x, x = s.bellTime l → s.bellRuns l → ((x % perSec : Nat) : Int) < 8 * perNs + s.adj → (s.linkTime l).edge ≠ some (x / perSec) →
      exec (.bellEdge l) s = .next (s.onLinkTime l fun t => { t with
        bell := true, bellAt := some (s.up - x % perSec), edge := some (x / perSec), frame := s.bellFrame l (x / perSec) })) ∧
    (∀ t, s.bellRuns l → (s.linkTime l).bell → (s.linkTime l).bellAt = some t → t + ofUs 16 ≤ s.up →
      exec (.bellFrame l) s = .next (s.onLinkTime l fun x => { x with bell := false, frames := x.frames + 1 })) ∧
    (s.tokenRefusal f = none → Quiet s →
      Completes (.tokenRequest f nonce buf tag) s fun t =>
        (∃ r : TokenRequest, t.td.waiting = s.td.waiting ++ [r] ∧ r.fn = f ∧ r.nonce = slice nonce 0 32 ∧ r.buf = buf.toNat ∧ r.tag = tag.toNat) ∧
        t = { s with td := { s.td with waiting := t.td.waiting } }) ∧
    (s.td.waiting ≠ [] → s.td.lastClose ≠ s.millisecond → ((s.now % ofMs 1 : Nat) : Int) < 8 * perNs + s.adj →
      exec .tokenBatchClose s = .next (State.put { s with td := { s.td with
        waiting := s.td.waiting.drop 1024, lastClose := s.millisecond
        batches := s.td.batches ++ [{ number := s.fld CAR_TOKEN_BATCH.BATCH + 1, close := ts64Of (s.millisecond * ofMs 1), leaves := s.td.waiting.take 1024 }] } }
          CAR_TOKEN_BATCH.BATCH (s.fld CAR_TOKEN_BATCH.BATCH + 1))) ∧
    (∀ b rest, s.td.batches = b :: rest →
      exec .tokenReply s = .next (b.leaves.zipIdx.foldl (fun (t : State) r => t.answerToken b r.2 r.1) { s with td := { s.td with batches := rest } }).settle)

/-- A configuration is stored where no port with EN covers its lanes and the table supports it, and refused with REFUSED otherwise; writes of PORT_CTL enable, silence or restart the port; a running port's link comes up and goes down; a delay measurement inside the limit corrects the fixed delays and makes the port ready; frames are received and sent; XOFF repeats by half a pause time; PAUSE and PFC frames are obeyed and a pause ends; the recovered clock fails, locks and is restored; held frames are released or expire, and launched frames enter the calendar and leave at their slot. It rests on R105, R107, R109, R119, R120, R122, R124, R125, R126, R131, R136, 05_ethernet_ports. -/
def Obligations.PortCommandsComplete : Prop :=
  ∀ (s : State) (req : Requester) (p : Fin 32) (w : Word) (tx rx : Int) (fr : List Byte) (bad : Bool) (corrected : Nat) (phase : Fin 128),
    (s.mode ≠ NIGHT → s.laneOwned p = false → cfgSupported p w → (∀ i < cfgWidth w, s.fld ETH_PORT_CTL.EN (p + i) = 0) → s.fld ETH_PORT_CTL.EN p = 0 →
      exec (.portCfgWrite req p w) s = .next (s.writeReg .ETH_PORT_CFG p 0 w)) ∧
    (s.mode ≠ NIGHT → s.laneOwned p = false → cfgSupported p w = false ∨ s.fld ETH_PORT_CTL.EN p = 1 →
      exec (.portCfgWrite req p w) s = .next (s.put ETH_PORT_CTL.REFUSED 1 p)) ∧
    (s.mode ≠ NIGHT → exec (.portEnable req p w) s = .next (s.portCtl p w).settle ∧ exec (.txOffWrite req p w) s = .next (s.portCtl p w).settle ∧
      exec (.restart req p w) s = .next (s.portCtl p w).settle) ∧
    (s.portRuns p → s.fld ETH_PORT_STATUS.LINK p = 0 → (∀ i < s.portWidth p, s.underTest 3 (p + i) = false) →
      Completes (.linkUp p) s fun t =>
        t.fld ETH_PORT_STATUS.LINK p = 1 ∧ t.fld ETH_PORT_STATUS.FEC_ALIGN p = 1 ∧ t.fld ETH_PORT_STATUS.LOCAL_FAULT p = 0 ∧
        t.fld ETH_PORT_STATUS.REMOTE_FAULT p = 0 ∧ t.fld ETH_PORT_STATUS.TS_READY p = s.fld ETH_PORT_STATUS.TS_READY p ∧
        (t.port p).tsBad = false ∧ RegsBut [.ETH_LANE_STATUS, .ETH_PORT_STATUS] s t ∧ t = { s with regs := t.regs, ports := t.ports }) ∧
    (s.fld ETH_PORT_STATUS.LINK p = 0 → exec (.linkDown p []) s = .next (s.linkDown p).settle) ∧
    (s.fld ETH_PORT_STATUS.LINK p = 1 → s.fld ETH_PORT_STATUS.TS_READY p = 0 → (s.port p).tsBad = false → tx.natAbs ≤ 16 → rx.natAbs ≤ 16 →
      exec (.tsMeasureDone p tx rx) s = .next ((((s.put ETH_TS_INT.TX_INT (unsigned 16 (s.fld ETH_TS_INT.TX_INT p - (s.port p).addTx + tx)) p).put
        ETH_TS_INT.RX_INT (unsigned 16 (s.fld ETH_TS_INT.RX_INT p - (s.port p).addRx + rx)) p).put ETH_PORT_STATUS.TS_READY 1 p).onPort p
          fun q => { q with addTx := tx, addRx := rx })) ∧
    (s.portCarries p → s.fld ETH_PORT_CTL.LOOP p ≠ 2 →
      exec (.frameRx p fr corrected bad phase) s = .next (s.rxFrame p fr corrected bad phase).settle) ∧
    (s.flowOn p 8 → s.xoffSent p 8 ≠ 0 → s.xonBytes p ≤ s.keyOccupancy p 8 →
      s.xoffSent p 8 + s.quantaTime p (s.fld ETH_PFC_CFG.QUANTA p) / 2 ≤ s.up + 1 →
      exec (.xoffRepeat p none) s = .next ((s.sendControl p 8 (s.fld ETH_PFC_CFG.QUANTA p)).setXoff p 8 (s.up + 1))) ∧
    (∀ q : BitVec 16, s.portCarries p → exec (.pauseFrameRx p q) s = .next (s.takePause p q.toNat)) ∧
    (∀ (e : BitVec 8) (q : List Nat), s.portCarries p → exec (.pfcFrameRx p e q) s = .next (s.takePfc p e.toNat q)) ∧
    (∀ k : Fin 8, s.pausedBy p k = false → exec (.pauseEnd p (some k)) s = .next (s.onPort p fun q => { q with paused := q.paused.set 0 k 0 })) ∧
    (∀ (x : Packet) (rest : List Packet), s.portCarries p → s.sendsPattern p = false → s.portFree p phase → s.net.txq.get [] p = x :: rest →
      (∀ c ∈ s.net.calendar.get [] p, s.txStamp p phase +
        (s.bytesTime p ((((s.macSend p x.bytes false phase).2.map List.length).getD 0) + 12) : Nat) ≤ s.slotBegins p c) →
      exec (.frameTx p phase) s =
        .next ((State.txFrame { s with net := { s.net with txq := s.net.txq.set [] p rest } } p x phase).flowControl).settle) ∧
    exec .synceClockFail s = .next (s.clockLost (s.fld ETH_SYNCE_SEL.PORT)) ∧
    (∀ since, (s.port (s.fld ETH_SYNCE_SEL.PORT)).recovSince = some since → s.synceReady → s.isSet ETH_SYNCE_SEL.HOLDOVER →
      since + max 1 (s.fld ETH_SYNCE_SEL.WTR_S) * perSec ≤ s.up →
      exec .synceRestore s = .next ((s.put ETH_SYNCE_SEL.HOLDOVER 0).put ETH_SYNCE_SEL.ACTIVE 1)) ∧
    (s.isSet ETH_SYNCE.RECOV_EN p → s.fld ETH_SYNCE.RECOV_LOCK p = 0 →
      exec (.recoveredClockLock p) s = .next ((s.put ETH_SYNCE.RECOV_LOCK 1 p).onPort p fun q => { q with recovSince := some s.up }).synceFollow)

/-- The node's selection takes the frame that the hierarchy picks and hands it on; shaper and policer words are stored under the masks of their fields and fill or empty their bucket; a group or an L1 node with frames queued cannot move to another parent (refused) and is otherwise stored; a held frame is released once earliest reaches its HOLD value, or discarded at HOLD_MAX_MS; a frame with LAUNCH enters its calendar and leaves at its slot. It rests on R105, R107, R109, R260, R262, R263, R264, R271, R272, 10_scheduling_shaping. -/
def Obligations.SchedulerCommandsComplete : Prop :=
  ∀ (s : State) (req : Requester) (node : Fin 52) (p : Fin 8) (e : Fin 32) (k place : Nat) (w : Word) (phase : Fin 128),
    (∀ k d q, s.framesFlow → (s.clearHeads node).pick node = some (k, d, q) → (s.clearHeads node).headRx k = none →
      exec (.frameSelect node none) s = .next ((State.dispatch { s.clearHeads node with net := { (s.clearHeads node).net with deficitL1 := d, deficitQ := q } } node k)).settle) ∧
    (s.mode ≠ NIGHT → k < 12340 → getBits (w &&& BitVec.ofNat 64 (2 ^ 61 - 1)) 60 60 = 1 →
      exec (.shaperWrite req k w) s = .next ((s.setRaw .SCH_SHAPER 0 (2 * k) (w &&& BitVec.ofNat 64 (2 ^ 61 - 1))).setTokens k 0)) ∧
    (s.mode ≠ NIGHT → k < 12340 → getBits (w &&& BitVec.ofNat 64 (2 ^ 61 - 1)) 60 60 = 0 →
      exec (.shaperWrite req k w) s = .next ((s.setRaw .SCH_SHAPER 0 (2 * k) (w &&& BitVec.ofNat 64 (2 ^ 61 - 1))).setTokens k
        ((getBits (w &&& BitVec.ofNat 64 (2 ^ 61 - 1)) 55 32 * 1000000 : Nat) : Int))) ∧
    (s.mode ≠ NIGHT → k < 32768 → k % 4 ≠ 3 →
      Completes (.policerWrite req p k w) s fun t =>
        t.raw .PPL_POLICER p k = w &&& BitVec.ofNat 64 (policerMask k) ∧ RegsBut [.PPL_POLICER] s t ∧
        (t.net.policers.get {} (8192 * p + k / 4)).edge = s.edges ∧
        t = { s with regs := t.regs, net := { s.net with policers := t.net.policers } }) ∧
    (s.mode ≠ NIGHT → k < 16384 → k % 2 = 1 ∨ getBits w 11 0 = s.groupParent (k / 2) ∨ s.groupFrames (k / 2) = [] →
      exec (.groupWrite req k w) s = .next (s.setRaw .SCH_GROUP 0 k (w &&& BitVec.ofNat 64 (if k % 2 = 0 then 2 ^ 64 - 1 - 0xE000 else 2 ^ 40 - 1)))) ∧
    (s.mode ≠ NIGHT → k < 16384 → k % 2 = 0 → getBits w 11 0 ≠ s.groupParent (k / 2) → s.groupFrames (k / 2) ≠ [] →
      exec (.groupWrite req k w) s = .next s.refuseSched.settle) ∧
    (s.mode ≠ NIGHT → k < 4096 → getBits w 5 0 = s.l1Parent k →
      exec (.l1Write req k w) s = .next (s.setRaw .SCH_L1 0 k (w &&& BitVec.ofNat 64 (2 ^ 28 - 1 - 0x80)))) ∧
    (∀ h : HeldFrame, (s.net.holds.get [] node)[place]? = some h → h.released = false → s.framesFlow → s.holdReached h.pkt →
      exec (.holdRelease node place) s =
        .next ((s.sample 6 node (ts64Of h.since : Int) (s.ts64 : Int) s.sagCommon).afterHold node place h).flowControl.settle) ∧
    (∀ h : HeldFrame, (s.net.holds.get [] node)[place]? = some h → h.released = false → h.sinceUp + s.holdMax ≤ s.up →
      exec (.holdExpiry node place) s = .next ((s.unhold node place).dropSelected h.pkt stHoldExpired).flowControl.settle) ∧
    (∀ (i : Nat) (h : HeldFrame), ((s.net.holds.get [] e).findIdx? fun h => h.released && h.pkt.l0 == k && h.pkt.dest == .port e) = some i →
      (s.net.holds.get [] e)[i]? = some h → s.launchWaits h.pkt = false →
      exec (.launchEnter e k) s = .next ((s.unhold e i).toOutput h.pkt).settle) ∧
    (∀ x : Packet, (s.net.calendar.get [] e)[0]? = some x → s.portCarries e → s.sendsPattern e = false → s.pausedFrame e x = false →
      s.portFree e phase → ((x.launch * perQuarter : Nat) : Int) ≤ s.txStamp e phase + launchSlack →
      exec (.launchSend e 0 phase) s = .next ((State.txFrame { s with net := { s.net with calendar := s.net.calendar.set [] e ((s.net.calendar.get [] e).eraseIdx 0) } } e
        { x with late := x.late || decide (((x.launch * perQuarter : Nat) : Int) + launchSlack < s.txStamp e phase) } phase).flowControl).settle)

/-- A running pipeline takes first the packet that waits at its end, then one whose flow entry came, then the next of its feeds; a Snare answer with no match sends the packet to its verdict; a fetched flow entry fills the cache and resumes the packets parked on its key; a packet 10 ms after its lookup is dropped as stale; an idle stream is forgotten; a pool's frame is dispatched; a reorder gap that timed out is skipped and what waits behind it flows. It rests on R145, R148, R150, R155, R160, R165, R168, R201, 06_packet_pipeline. -/
def Obligations.PipelineEventsComplete : Prop :=
  ∀ (s : State) (p : Fin 8) (w : Walk) (rest : List Walk) (x : Packet) (k place : Nat) (xs : List Packet) (t : Fin 256) (key : List Byte) (pool : Fin 16) (ids onward : List (BitVec 32)),
    (∀ u : State, u = (s.onPipe p fun q => { q with resumed := rest }).pipeEvent p 0x204 →
      s.pipeRuns p → (s.pipe p).held = none → (s.pipe p).resumed = w :: rest → u.stale w = false →
      exec (.packetAdmit p) s = .next (u.goWalk p w).flowControl.settle) ∧
    (s.pipeRuns p → (s.pipe p).held = none → (s.pipe p).resumed = [] → (s.pipe p).parked.length < 2048 → (s.pipe p).nextFeed = some (k, x, xs) →
      exec (.packetAdmit p) s = .next ((s.onPipe p fun q => { q with turn := k, feeds := q.feeds.set [] k xs }).admitPacket p x).flowControl.settle) ∧
    ((∃ n : Fin 8, s.scannerServes n) → s.net.snare[place]? = some w → s.fld PPL_SCAN_PROF.STREAM w.pkt.pipe (w.scan.getD 0) = 0 →
      exec (.snareAnswer place ids onward) s =
        .next ((State.scanned { s with net := { s.net with snare := s.net.snare.eraseIdx place } } w.pkt.pipe w ids).flowControl).settle) ∧
    ((∃ n : Fin 8, s.scannerServes n) → s.net.snare[place]? = some w → s.fld PPL_SCAN_PROF.STREAM w.pkt.pipe (w.scan.getD 0) = 0 → s.stale w = false →
      exec (.snareAnswer place [] onward) s = .next ((State.finalVerdict { s with net := { s.net with snare := s.net.snare.eraseIdx place } } w.pkt.pipe
        { w with pkt := { w.pkt with depthCut := decide (w.pkt.payload + 4096 < w.pkt.bytes.length) } }).flowControl).settle) ∧
    (s.isTier t → s.tbl.fetches.contains key →
      ∀ u : State, u = { s with tbl := { s.tbl with fetches := s.tbl.fetches.filter (· != key) } } →
        exec (.flowFetchDone t key) s = .next ((List.range 8).foldl (fun (v : State) p => v.onPipe p fun q =>
          { q with resumed := q.resumed ++ q.parked.filter (fun w => w.key == key), parked := q.parked.filter fun w => w.key != key })
            (u.cacheFill (u.tierLine key)))) ∧
    (((s.pipe p).parked ++ (s.pipe p).resumed ++ (s.pipe p).held.toList)[place]? = some w → s.stale w → w.pkt.pipe = p.val →
      exec (.staleDrop p place) s = .next ((s.takeWalk p place).dropStale w).settle) ∧
    (((s.pipe p).parked ++ (s.pipe p).resumed ++ (s.pipe p).held.toList) = [] → s.net.snare[place]? = some w → s.stale w → w.pkt.pipe = p.val →
      exec (.staleDrop p place) s = .next (State.dropStale { s with net := { s.net with snare := s.net.snare.eraseIdx place } } w).settle) ∧
    (∀ y : Stream, s.net.streams[place]? = some y → y.lastAt + max 1 (s.fld PPL_REORDER_CFG.STREAM_IDLE_S y.pipe) * perSec ≤ s.up →
      exec (.streamIdleEvict place) s = .next { s with net := { s.net with streams := s.net.streams.eraseIdx place } }) ∧
    (((s.liveGroups 48).mergeSort.flatMap fun g => (List.range 8).map fun q => 8 * g + q).find? (fun k => s.queueEligible 48 k && s.pathOpen 48 k &&
        (s.squeue k).head?.any fun x => x.dest == .pool pool) = some k →
      exec (.poolDispatch pool) s = .next (s.dispatch 48 k).settle) ∧
    (∀ (e : ReorderEntry) (l : List ReorderEntry), (s.pipe p).reorder.get [] place = e :: l → (∀ d, e.deadline = some d → d ≤ s.up) → e.deadline.isSome → s.modes.wakeSince = none →
      exec (.reorderTimeout p place) s = .next (((((s.onPipe p fun q => { q with
        reorder := q.reorder.set [] place l, skipped := q.skipped.modify [] place fun m => m ++ [e.seq] }).bump .PPL_STAT p 13).pipeSource p 2).flushDomain p place
          (l.length + 1)).flowControl).settle)

/-- GEN_COMMIT with COMMIT set makes the other bank active and PENDING 1, unless a commit is pending there, when REFUSED sets and the bank stays; GLOBAL_COMMIT does the same for every pipeline of its mask in one step and leaves the others alone; GEN_FLIP_DONE, once no packet of the old generation is left, clears PENDING and sets DONE; ACT_WRITE stores the four words of PPL_ACT_DATA at the index and ACT_READ loads them, so a read after a write of the same index answers what was written. It rests on R155, R156, R157, R158, R159, 06_packet_pipeline. -/
def Obligations.PipelineCommandsComplete : Prop :=
  ∀ (s : State) (req : Requester) (p : Fin 8) (w : Word),
    (s.mode ≠ NIGHT → wfld w PPL_GEN.COMMIT = 1 → (s.writeReg .PPL_GEN p 0 w).fld PPL_GEN.PENDING p = 0 →
      Completes (.genCommit req p w) s fun t =>
        t.fld PPL_GEN.ACTIVE p = 1 - s.fld PPL_GEN.ACTIVE p ∧ t.fld PPL_GEN.PENDING p = 1 ∧ Only [.PPL_GEN] s t) ∧
    (s.mode ≠ NIGHT → wfld w PPL_GEN.COMMIT = 1 → (s.writeReg .PPL_GEN p 0 w).fld PPL_GEN.PENDING p = 1 →
      Completes (.genCommit req p w) s fun t =>
        t.fld PPL_GEN.ACTIVE p = s.fld PPL_GEN.ACTIVE p ∧ t.fld PPL_GEN.REFUSED p = 1 ∧ Only [.PPL_GEN] s t) ∧
    (s.mode ≠ NIGHT → wfld w PPL_GEN_GLOBAL.COMMIT_MASK ≠ 0 →
      Completes (.globalCommit req w) s fun t =>
        (∀ q < 8, bitOf (wfld w PPL_GEN_GLOBAL.COMMIT_MASK) q → s.fld PPL_GEN.PENDING q = 0 →
          t.fld PPL_GEN.ACTIVE q = 1 - s.fld PPL_GEN.ACTIVE q ∧ t.fld PPL_GEN.PENDING q = 1) ∧
        (∀ q < 8, bitOf (wfld w PPL_GEN_GLOBAL.COMMIT_MASK) q = false ∨ s.fld PPL_GEN.PENDING q = 1 → t.raw .PPL_GEN q = s.raw .PPL_GEN q) ∧
        Only [.PPL_GEN, .PPL_GEN_GLOBAL] s t) ∧
    (s.fld PPL_GEN.PENDING p = 1 → s.oldCount p = 0 →
      exec (.genFlipDone p) s = .next (((s.put PPL_GEN.PENDING 0 p).put PPL_GEN.DONE 1 p).pipeSource p 6).settle) ∧
    (s.mode ≠ NIGHT → wfld w PPL_ACT_ADDR.WRITE = 1 → wfld w PPL_ACT_ADDR.READ = 0 →
      Completes (.actWrite req p w) s fun t =>
        (∀ i < 4, t.net.actions.get 0 ((p * 65536 + wfld w PPL_ACT_ADDR.INDEX) * 4 + i) = (s.raw .PPL_ACT_DATA p i).toNat) ∧
        (∀ a, (∀ i < 4, a ≠ (p * 65536 + wfld w PPL_ACT_ADDR.INDEX) * 4 + i) → t.net.actions.get 0 a = s.net.actions.get 0 a) ∧
        RegsBut [.PPL_ACT_ADDR] s t ∧ t = { s with regs := t.regs, net := { s.net with actions := t.net.actions } }) ∧
    (s.mode ≠ NIGHT → wfld w PPL_ACT_ADDR.WRITE = 0 → wfld w PPL_ACT_ADDR.READ = 1 →
      Completes (.actRead req p w) s fun t =>
        (∀ i < 4, t.raw .PPL_ACT_DATA p i = BitVec.ofNat 64 (s.net.actions.get 0 ((p * 65536 + wfld w PPL_ACT_ADDR.INDEX) * 4 + i))) ∧
        Only [.PPL_ACT_ADDR, .PPL_ACT_DATA] s t)

/-- Out of NIGHT, INSERT, UPDATE, DELETE, READ_SLOT, WRITE_INDEX and FIND run their operation on the table that TBL_CMD names and give its result; blocks change owner where no enabled table uses them and are refused otherwise; a table's configuration is stored, refused with SLOT 3; the learning unit takes its queue in order outside DAWN and TWILIGHT; the sweeper's visit ages one slot of a table with AGE_EN. It rests on R171, R175, R184, R188, R193, 07_tables_learning. -/
def Obligations.TableCommandsComplete : Prop :=
  ∀ (s : State) (req : Requester) (w : Word) (k : Fin 40) (t : Fin 256) (slot : Nat),
    (s.mode ≠ NIGHT →
      exec (.insert req w) s = .next (s.tblCmd 1 w).settle ∧ exec (.update req w) s = .next (s.tblCmd 2 w).settle ∧
      exec (.delete req w) s = .next (s.tblCmd 3 w).settle ∧ exec (.readSlot req w) s = .next (s.tblCmd 4 w).settle ∧
      exec (.writeIndex req w) s = .next (s.tblCmd 5 w).settle ∧ exec (.find req w) s = .next (s.tblCmd 6 w).settle) ∧
    (s.mode ≠ NIGHT → s.locked .TBL_BLOCK_MAP 0 = false → (∀ b, s.blockUsed b = false) →
      exec (.blockMapWrite req k w) s = .next (s.setRaw .TBL_BLOCK_MAP 0 k w)) ∧
    (s.mode ≠ NIGHT → s.locked .TBL_BLOCK_MAP 0 = false →
      (∃ j < 16, (s.setRaw .TBL_BLOCK_MAP 0 k w).blockOwner (16 * k + j) ≠ s.blockOwner (16 * k + j) ∧ s.blockUsed (16 * k + j)) →
      exec (.blockMapWrite req k w) s = .next (s.put TBL_CMD_STATUS.REFUSED 1)) ∧
    (s.mode ≠ NIGHT → (s.writeReg .TBL_T_CFG 0 t w).fld TBL_T_CFG.SLOT 0 t ≠ 3 → (s.writeReg .TBL_T_CFG 0 t w).fld TBL_T_CFG.KIND 0 t ≠ 3 →
      exec (.tCfgWrite req t w) s = .next (s.writeReg .TBL_T_CFG 0 t w)) ∧
    (s.mode ≠ NIGHT → (s.writeReg .TBL_T_CFG 0 t w).fld TBL_T_CFG.SLOT 0 t = 3 →
      exec (.tCfgWrite req t w) s = .next (s.put TBL_CMD_STATUS.REFUSED 1)) ∧
    (∀ (i : LearnItem) (rest : List LearnItem), s.tbl.learn = i :: rest → s.mode ≠ DAWN → s.mode ≠ TWILIGHT →
      exec .learnProcess s = .next (State.learnOne { s with tbl := { s.tbl with learn := rest } } i).settle) ∧
    (∀ (c : Cuckoo) (p : Spot) (u : State), u = (s.ageSlow t).noteVisit t slot → s.isSet TBL_T_AGE.AGE_EN 0 t → s.isSet TBL_T_CFG.EN 0 t → s.usable t →
      s.mode ≠ DAWN → s.mode ≠ TWILIGHT → s.fld TBL_T_CFG.KIND 0 t ≠ 1 → s.fld TBL_T_CFG.KIND 0 t ≠ 3 →
      (∀ x < 256, s.twinOf x ≠ some t.val) → s.visitDue t slot → u.isSet TBL_T_CFG.MODE 0 t = false → u.spotOf t slot = some (c, p) →
      exec (.sweepVisit t slot) s = .next (u.sweepEntry t c p).settle)

/-- On a usable table with MODE 1 and an index inside it, WRITE_INDEX stores TBL_CMD_DATA at the entry of that index, with LEARNED 0, PRIORITY 0, HIT 1, MISS 0 and VERSION one above the old entry's; RESULT is OK and LOCATION the index. Every byte of table memory outside that entry, DDR and host memory, and every register but TBL_CMD_STATUS and the table's TBL_T_STATUS, are unchanged. An index beyond the table answers BAD_INDEX and stores nothing. It rests on R171, R172, R184, R180, 07_tables_learning. -/
def Obligations.DirectTableWritten : Prop :=
  ∀ (s : State) (req : Requester) (w : Word), s.mode ≠ NIGHT → s.usable (wfld w TBL_CMD.TABLE) → s.isSet TBL_T_CFG.MODE 0 (wfld w TBL_CMD.TABLE) → Quiet s →
    ∀ t i n a old image, t = wfld w TBL_CMD.TABLE → i = wfld w TBL_CMD.INDEX → n = s.entrySize t →
      a = s.fld TBL_T_WAYS.BASE0 0 t * 65536 + i * n → old = leNat (s.tblRead a n) →
      image = leNat (wordBytes ((List.range 16).map fun i => s.raw .TBL_CMD_DATA 0 i)) →
      (i < s.fld TBL_T_WAYS.BLOCKS 0 t * (65536 / n) → Completes (.writeIndex req w) s fun u =>
        u.tblRead a n =
          natLe n (setBits (setBits (setBits (setBits (setBits (image % 2 ^ (8 * n)) 7 7 0) 63 48 0) 3 3 1) 5 4 0) 47 24 (entVersion old + 1)) ∧
        u.tbl.rom = s.tbl.rom ∧ (∀ x, x < a ∨ a + n ≤ x → Memory.read u.tbl.mem x = Memory.read s.tbl.mem x) ∧
        u.fld TBL_CMD_STATUS.RESULT = 0 ∧ u.fld TBL_CMD_STATUS.LOCATION = i ∧
        RegsBut [.TBL_CMD_STATUS, .TBL_T_STATUS] s u ∧ u.ddr = s.ddr ∧ u.host = s.host) ∧
      (s.fld TBL_T_WAYS.BLOCKS 0 t * (65536 / n) ≤ i → Completes (.writeIndex req w) s fun u =>
        u.fld TBL_CMD_STATUS.RESULT = 6 ∧ Only [.TBL_CMD_STATUS] s u)

/-- On a cluster that is not isolated, out of NIGHT: RUN in LOADED starts the cluster and DRAIN and its removal move it between RUNNING, DRAINING and DRAINED; RESET, share writes and memory accesses act; a halt, resume, step, staging abort, SEV, event clear or register write of a halted thread acts on the thread. A response lands, a timer expires, a TWAIT ends, a watchdog traps, a drained cluster becomes DRAINED, a quiet one sets QUIET, an idle one is gated in DAY. It rests on R204, R205, R207, R208, R209, R215, R222, R223, R225, R226, R227, R249. -/
def Obligations.ClusterCommandsComplete : Prop :=
  ∀ (s : State) (req : Requester) (c : Fin 16) (t : Fin 1024) (w : Word),
    (∀ u v : State, u = s.wakeCluster c → v = (if wfld w TBC_CTL.REFUSED = 1 then u.put TBC_CTL.REFUSED 0 c else u) →
      s.mode ≠ NIGHT → s.clusterIsolated c = false →
      (v.canRun c → exec (.clusterRun req c w) s = .next ((v.startCluster c).drainCluster c (decide (wfld w TBC_CTL.DRAIN = 1))).settle) ∧
      (u.wakeCluster c = u → exec (.clusterReset req c w) s = .next ((v.clusterReset c).drainCluster c (decide (wfld w TBC_CTL.DRAIN = 1))).settle) ∧
      (u.wakeCluster c = u → wfld w TBC_CTL.RUN = 0 → wfld w TBC_CTL.RESET = 0 →
        exec (.clusterDrain req c w) s = .next (v.drainCluster c true).settle ∧ exec (.clusterUndrain req c w) s = .next (v.drainCluster c false).settle)) ∧
    (s.mode ≠ NIGHT → s.clusterIsolated c = false →
      exec (.clusterDrain req c w) s = .next ((s.wakeCluster c).writeTbcCtl c (withBit TBC_CTL.DRAIN 1 w)).settle ∧
      exec (.clusterUndrain req c w) s = .next ((s.wakeCluster c).writeTbcCtl c (withBit TBC_CTL.DRAIN 0 w)).settle) ∧
    (s.cluster c = DRAINING → s.clusterEmpty c → exec (.clusterDrained c) s = .next (s.put TBC_STATUS.STATE DRAINED c)) ∧
    (s.mode ≠ NIGHT → s.clusterIsolated c = false → exec (.memDataAccess req c none) s =
      .next { (s.wakeCluster c).stepMem c with bus := { ((s.wakeCluster c).stepMem c).bus with
        resp := some (BitVec.ofNat 64 (leNat (Memory.readBytes (s.wakeCluster c).tbe.mem ((s.wakeCluster c).memAddr c) 8))) } }) ∧
    (s.mode ≠ NIGHT → s.clusterIsolated c = false → 8 * wfld w TBC_SHARE.STATIC_CREDITS ≤ 64 → 8 * wfld w TBC_SHARE.STATIC_SLOTS ≤ 32 →
      (s.wakeCluster c).cluster c = EMPTY ∨ (s.wakeCluster c).cluster c = LOADED →
      exec (.shareWrite req c w) s = .next ((s.wakeCluster c).writeReg .TBC_SHARE c 0 w).settle) ∧
    (∀ r, s.tbe.resps[0]? = some r →
      exec (.channelResponse 0) s = .next (State.land { s with tbe := { s.tbe with resps := s.tbe.resps.eraseIdx 0 } } r).settle) ∧
    (∀ d, (s.thread t).timer = some d → d ≤ s.now →
      exec (.threadTimerExpiry t) s = .next ((s.onThread t fun x => { x with timer := none }).event t evTimer).settle) ∧
    (∀ ts x, (s.thread t).mode = .twait ts → ts ≤ s.ts64 → x = (s.event t evTime).thread t → x.halted = false →
      exec (.twaitEnd t) s = .next (((s.event t evTime).goesOn t fun y => { y with pc := (y.pc + 1) % 65536 }).retire t x.pc
        ((s.event t evTime).instrAt (clusterOf t) x.pc) 0).settle) ∧
    (∀ us, us = s.fld TBC_WDOG.WDOG_US (clusterOf t) → us ≠ 0 → s.issues t → (s.thread t).busySince + ofUs us ≤ s.up →
      exec (.threadWatchdog t) s = .next (s.trap t (s.thread t).pc 6 0 0 0 (s.nextWord t)).settle) ∧
    (s.mode ≠ NIGHT → s.clusterIsolated (clusterOf t) = false → ∀ v, v = s.wakeCluster (clusterOf t) →
      exec (.halt req t w) s = .next (v.writeThreadCtl t (withBit TBE_THREAD_CTL.HALT 1 w)).settle ∧
      exec (.resume req t w) s = .next (v.writeThreadCtl t (withBit TBE_THREAD_CTL.RESUME 1 w)).settle ∧
      exec (.step req t w) s = .next (v.writeThreadCtl t (withBit TBE_THREAD_CTL.STEP 1 w)).settle ∧
      exec (.abortStage req t w) s = .next (v.writeThreadCtl t (withBit TBE_THREAD_CTL.ABORT_STAGE 1 w)).settle ∧
      exec (.threadCtlSev req t w) s = .next (v.writeThreadCtl t (withBit TBE_THREAD_CTL.SEV 1 w)).settle ∧
      exec (.clrEvt req t w) s = .next (v.writeThreadCtl t w).settle ∧
      ((v.thread t).halted → exec (.threadRegWrite req t .pc w) s = .next (v.onThread t fun x => { x with pc := getBits w 15 0 }).settle) ∧
      (∀ n : Fin 32, (v.thread t).halted → exec (.threadRegWrite req t (.g n) w) s = .next (v.onThread t fun x => x.setReg n w).settle) ∧
      (∀ n : Fin 16, (v.thread t).halted → exec (.threadRegWrite req t (.s n) w) s = .next (v.debugSpecial t n w).settle)) ∧
    (∀ u v : State, v = s.wakeCluster (clusterOf t) → u = v.onThread t (fun x => { x with epend := x.epend &&& (65535 - wfld w TBE_THREAD_CTL.CLR_EVT) }) →
      s.mode ≠ NIGHT → s.clusterIsolated (clusterOf t) = false → v.wakeCluster (clusterOf t) = v →
      wfld w TBE_THREAD_CTL.HALT = 0 → wfld w TBE_THREAD_CTL.RESUME = 0 → wfld w TBE_THREAD_CTL.STEP = 0 →
      wfld w TBE_THREAD_CTL.ABORT_STAGE = 0 → wfld w TBE_THREAD_CTL.SEV = 0 → wfld w TBE_THREAD_CTL.REFUSED = 0 →
      exec (.halt req t w) s = .next (u.haltThread t).settle ∧ exec (.resume req t w) s = .next (u.resumeThread t false).settle ∧
      exec (.step req t w) s = .next (u.resumeThread t true).settle ∧ exec (.threadCtlSev req t w) s = .next (u.event t evSev).settle ∧
      exec (.clrEvt req t w) s = .next u.settle ∧
      ((u.thread t).halted → exec (.abortStage req t w) s = .next (u.onThread t fun x => { x with staging := {}, staged := 0 }).settle)) ∧
    (s.clusterRuns c → s.isSet TBC_STATUS.QUIET c = false → (∀ k ∈ threadsOf c, s.quiet k) → s.lasted s.tbe.quietSince c (ofUs 1) →
      exec (.quietCluster c) s = .next (((s.put TBC_STATUS.QUIET 1 c).bump .TBC_STAT c 3).clusterEvent c 5).settle) ∧
    (s.mode = DAY → s.domainAwake c → (∀ k ∈ threadsOf c, (s.thread k).waits ∧ (s.thread k).credits = 0) →
      s.lasted s.tbe.idleSince c (ofUs (max 1 (s.fld TBC_POWER.GATE_US c))) → bitOf (s.fld PWR_HOLD_AWAKE.HOLD) c = false →
      exec (.clusterGate c) s = .next (s.setDomain c false))

/-- With the cluster not isolated and its refusal source not fatal, out of NIGHT, DAWN and TWILIGHT: a write of TBC_MEM_DATA in EMPTY or LOADED stores the word's eight bytes at TBC_MEM_ADDR, advances the address by 8 and leaves the cluster LOADED; every byte outside is unchanged. In any other state it sets TBC_CTL.REFUSED and, but for Gong's record of it, changes nothing. RUN = 1 in any state but LOADED is refused so too, whatever the word's DRAIN, and starts nothing: no thread and no memory changes. Spec (R206): "A write to TBC_MEM_DATA is accepted only in EMPTY and LOADED. In any other state it is refused, changes nothing and sets TBC_CTL.REFUSED. The same holds for RUN = 1 in any state but LOADED. A refused RUN starts nothing." -/
def Obligations.MemDataAcceptedWhereStopped : Prop :=
  ∀ (s : State) (req : Requester) (c : Fin 16) (w : Word) (a : Nat), s.mode ≠ NIGHT → s.mode ≠ DAWN → s.mode ≠ TWILIGHT → s.clusterIsolated c = false →
    s.domainAwake c → Quiet s → Mild s (14 + c / 4) (8 * (c % 4) + 7) → a = s.memAddr c →
    (s.cluster c = EMPTY ∨ s.cluster c = LOADED → Completes (.memDataAccess req c (some w)) s fun u =>
      Memory.readBytes u.tbe.mem a 8 = natLe 8 w.toNat ∧ (∀ x, x < a ∨ a + 8 ≤ x → Memory.read u.tbe.mem x = Memory.read s.tbe.mem x) ∧
      u.fld TBC_MEM_ADDR.ADDR c = (s.fld TBC_MEM_ADDR.ADDR c + 8) % 2 ^ 18 ∧ u.cluster c = LOADED ∧
      u.tbe.threads = s.tbe.threads ∧ RegsBut [.TBC_MEM_ADDR, .TBC_STATUS] s u) ∧
    (s.cluster c ≠ EMPTY → s.cluster c ≠ LOADED → Completes (.memDataAccess req c (some w)) s fun u =>
      u.fld TBC_CTL.REFUSED c = 1 ∧ Only (.TBC_CTL :: gongRegs) s u) ∧
    (s.cluster c ≠ LOADED → Completes (.clusterRun req c w) s fun u =>
      u.fld TBC_CTL.REFUSED c = 1 ∧ u.cluster c = s.cluster c ∧ Only (.TBC_CTL :: gongRegs) s u)

/-- A message m that a channel takes is removed (u) and: PKT RETURN and SEND hand the slot's packet on, DROP discards it, FRAME moves a held slot's frame inside the window, NEW gives a free slot, each answering 0, with 16, 17 or 18 where R220 and R221 refuse; the six TABLE operations answer 16 + RESULT of the operation, LOOKUP its hit or miss; LOOKUP and PREFETCH of a flow-tier key not in the cache start its fetch and wait; PREFETCH gives no answer; an XPT work request waits on its thread's queue and CQ_CONSUMER moves the consumer index; a COPY that needs no host moves its data; MBX POST, READ and STATUS act on the cluster's mailbox. It rests on R214, R217, R218, R219, R220, R221, R360, R374, R376, R447. -/
def Obligations.ChannelMessagesComplete : Prop :=
  ∀ (s : State) (m : Msg) (u : State), u = s.takeMsg 0 →
    (∀ x, s.message 0 0 1 = some m → m.slot = some x →
      exec (.pktReturn 0) s = .next (((((u.poolSample x).sendSlot m x true).countSent m.thread).respond m 0).flowControl).settle) ∧
    (∀ x, s.message 0 0 2 = some m → m.slot = some x →
      exec (.pktDrop 0) s = .next (((((u.dropSeq x.pkt).dropSelected x.pkt stDropped).bump .TBC_STAT (clusterOf m.thread) 6).respond m 0).flowControl).settle) ∧
    (s.message 0 0 1 = some m → m.slot = none → exec (.pktReturn 0) s = .next (u.respond m 16).settle) ∧
    (∀ n start len later, s.message 0 0 3 = some m → n = getBits (m.word 1) 4 0 → start = getBits (m.word 2) 13 0 → len = getBits (m.word 2) 29 16 →
      later = reframe m.thread n start len u.tbe.msgs → m.epoch = u.epoch (clusterOf m.thread) →
      (u.thread m.thread).slots.any (fun y => y.num == n) ∨ later.2.1 →
      (0x400 ≤ start → start + len ≤ 0x4000 → later.2.2 = false →
        exec (.pktFrame 0) s = .next ((State.onThread { u with tbe := { u.tbe with msgs := later.1 } } m.thread
          fun x => x.onSlot n fun y => { y with start, len }).respond m 0)) ∧
      (0x400 ≤ start → start + len ≤ 0x4000 → later.2.2 →
        exec (.pktFrame 0) s = .next (State.respond { u with tbe := { u.tbe with msgs := later.1 } } m 0)) ∧
      (start < 0x400 ∨ 0x4000 < start + len → exec (.pktFrame 0) s = .next (u.respond m 17))) ∧
    (∀ n, s.message 0 0 4 = some m → u.freeSlotNum (engineOf m.thread) = some n → m.epoch = u.epoch (clusterOf m.thread) → u.slotFree m.thread →
      Completes (.pktNew 0) s fun v => (∃ x : Slot, x.num = n ∧ x.made ∧ x.len = min 0x3B00 (getBits (m.word 1) 13 0) ∧
        v = (u.drawn.drawn.drawn.giveSlot m.thread x).respond m 0 n)) ∧
    (∀ x y, s.message 0 0 5 = some m → m.slot = some x →
      y = { x with pkt := { x.pkt with seq := none, tx := if x.made then x.pkt.tx else none, inPort := if x.made then x.pkt.inPort else none } } →
      exec (.pktSend 0) s = .next ((((u.sendSlot m y false).countSent m.thread).respond m 0).flowControl).settle) ∧
    (∀ op r v, s.message 0 1 op = some m → r = u.tableCommand op m.table ((m.word 2).toNat % 2 ^ 32) m.gen (leNat (u.tableImage m)) →
      v = (r.1.tableRespond m r.2.result r.2.loc (r.2.entry.map fun e => (e, r.2.size))).settle →
      (op = 1 → exec (.tableInsert 0) s = .next v) ∧ (op = 2 → exec (.tableUpdate 0) s = .next v) ∧ (op = 3 → exec (.tableDelete 0) s = .next v) ∧
      (op = 4 → exec (.tableReadSlot 0) s = .next v) ∧ (op = 5 → exec (.tableWriteIndex 0) s = .next v) ∧ (op = 6 → exec (.tableFind 0) s = .next v)) ∧
    (∀ key a, s.message 0 1 7 = some m → s.isSet TBL_T_CFG.EN 0 m.table → s.usable m.table → s.tableServes m.table → key = imageKey (s.tableImage m) →
      ∀ v, v = u.tierTouch m.table key →
      (s.awaitsFetch m.table key = false → v.lookupTable m.table (m.gen % 2) key = .hit a none →
        exec (.tableLookup 0) s = .next (v.tableRespond m 0 a (v.hitEntry m.table (m.gen % 2) key none)).settle) ∧
      (s.awaitsFetch m.table key = false → v.lookupTable m.table (m.gen % 2) key = .miss → exec (.tableLookup 0) s = .next (v.tableRespond m 4 0 none).settle) ∧
      (s.awaitsFetch m.table key → exec (.tableLookup 0) s = .next (s.fetchKey (s.tierKey m.table key)).settle)) ∧
    (s.tbe.msgs[0]? = some m → m.channel = 2 →
      (s.awaitsFetch m.table (imageKey (s.tableImage m)) = false → m.epoch = u.epoch (clusterOf m.thread) →
        exec (.prefetch 0) s = .next (u.onThread m.thread fun x => { x.returnCredit with prefetches := x.returnCredit.prefetches - 1 })) ∧
      (∀ k, s.isSet TBL_T_CFG.EN 0 m.table → s.usable m.table → s.awaitsFetch m.table (imageKey (s.tableImage m)) → k = s.tierKey m.table (imageKey (s.tableImage m)) →
        (k ∉ s.tbl.fetches → exec (.prefetch 0) s = .next ((s.fetchKey k).devEvent 0x30D).settle) ∧
        (k ∈ s.tbl.fetches → exec (.prefetch 0) s = .next s.settle))) ∧
    (s.message 0 5 1 = some m → u.xptRuns → m.len = 7 → (u.engineQueue m.thread).isSome →
      exec (.xptWorkRequest 0) s = .next (u.onXpt fun x => { x with posted := x.posted.modify [] m.thread fun l => l ++ [m] })) ∧
    (∀ g n gone, s.message 0 5 2 = some m → u.engineQueue m.thread = some g → n = getBits (m.word 1) 15 0 → gone = (n + 65536 - (u.pair g).C 3) % 65536 →
      (u.pair g).state = ACTIVE → gone ≤ (u.pair g).used 3 →
      exec (.xptCqConsumer 0) s = .next ((u.onPair g fun q => { q with cons := q.cons.set 0 3 n, rxIrq := { q.rxIrq with times := q.rxIrq.times.drop gone } }).respond m 0).settle) ∧
    (s.message 0 7 1 = some m → s.copyCheck m = none → m.srcKind ≠ 8 → m.dstKind ≠ 8 → exec (.copy 0 none) s = .next (u.copyMove m).settle) ∧
    (s.message 0 8 1 = some m → m.mbxAddrOk → m.mbxLen ≠ 0 → m.mbxLen ≤ 8 →
      ∀ r, r = u.mbxPost (2080 + clusterOf m.thread) true (leWords 8 (u.threadRead m.thread m.mbxShared m.mbxAddr 64)) m.mbxLen →
      (r.2 = .queued → exec (.mbxChPost 0) s = .next (r.1.respond m 0).settle) ∧ (r.2 = .full → exec (.mbxChPost 0) s = .next (r.1.respond m 16).settle) ∧
      (r.2 = .absent → exec (.mbxChPost 0) s = .next (r.1.respond m 17).settle)) ∧
    (∀ x rest, s.message 0 8 2 = some m → m.mbxAddrOk → (u.mbox (2080 + clusterOf m.thread)).toFar = x :: rest →
      exec (.mbxChRead 0) s = .next (((u.threadWrite m.thread m.mbxShared m.mbxAddr (wordBytes x.words)).mbxPop (2080 + clusterOf m.thread) false).respond m 0
        (x.words.length + 16 * x.epoch)).settle) ∧
    (∀ b g, s.message 0 8 3 = some m → b = 2080 + clusterOf m.thread → g = (u.mbox b).far →
      exec (.mbxChStatus 0) s = .next ((u.onMbox b fun x => { x with far := { g with timeout := false, discarded := false, count := 0 } }).respond m 0
        (b2n g.timeout + 2 * b2n g.discarded + 4 * b2n (u.mbxAbsent b true) + 256 * g.count + 65536 * u.mbxEpoch b true)))

/-- With a free core, running engine clocks and CRY_CFG.EN, a sound request at the front of its channel whose key (unwrapped or cached) allows it becomes the job of the core that is free, its domain awake; HASH needs no key. With CMP_CFG.EN a sound compression request becomes a job of a free unit. A completion ends the core's or unit's job; KEY_UNWRAP brings a key into the cache; a parity fault marks the core's job, or the inline unit, and starts the unit's self-test. It rests on R386, R391, R392, R393, R394, R419, R420, R421, 15_crypto_root_of_trust, 16_compression_telemetry. -/
def Obligations.LookasideComplete : Prop :=
  ∀ (s : State) (m : Msg) (core : Nat) (u : State), u = s.takeMsg 0 →
    (∀ op r v, s.message 0 3 op = some m → s.freeCore = some core → s.engineClock → u.isSet CRY_CFG.EN → m.cHost = false → u.cryptoBad m none = false →
      r = u.readKey m.cKey → r.2.any (keyAllows m) →
      v = (((r.1.devEvent 0x305).wakeDomain (16 + core / 16)).onSec fun x => { x with jobs := x.jobs ++ [{ core, msg := m, key := r.2 }] }).settle →
      (op = opGcmEnc → exec (.gcmEnc 0) s = .next v) ∧ (op = opGcmDec → exec (.gcmDec 0) s = .next v) ∧ (op = opXtsEnc → exec (.xtsEnc 0) s = .next v) ∧
      (op = opXtsDec → exec (.xtsDec 0) s = .next v) ∧ (op = opCmac → exec (.cmac 0) s = .next v) ∧ (op = opHmac → exec (.hmac 0) s = .next v)) ∧
    (s.message 0 3 opHash = some m → s.freeCore = some core → s.engineClock → u.isSet CRY_CFG.EN → m.cHost = false → u.cryptoBad m none = false →
      exec (.cryptoHash 0) s = .next (((u.devEvent 0x305).wakeDomain (16 + core / 16)).onSec fun x => { x with jobs := x.jobs ++ [{ core, msg := m, key := none }] }).settle) ∧
    (∀ op v w, s.message 0 4 op = some m → s.freeUnit = some core → s.engineClock → u.isSet CMP_CFG.EN → m.zHost = false → u.cmpBad m none = false →
      v = (u.devEvent 0x306).wakeDomain (24 + core) → w = State.settle { v with tel := { v.tel with jobs := v.tel.jobs ++ [{ unit := core, msg := m }] } } →
      (op = 1 → exec (.zstdC 0) s = .next w) ∧ (op = 2 → exec (.zstdD 0) s = .next w) ∧
      (op = 3 → exec (.deflC 0) s = .next w) ∧ (op = 4 → exec (.deflD 0) s = .next w)) ∧
    (∀ (k : Fin 128) (reply : CplStatus) (j : CryptoJob), s.sec.jobs.find? (fun j => j.core == k.val) = some j →
      exec (.cryptoComplete k reply) s = .next (s.finishCrypto j reply).settle) ∧
    (∀ (k : Fin 16) (reply : CplStatus) (j : CmpJob), s.tel.jobs.find? (fun j => j.unit == k.val) = some j →
      exec (.cmpComplete k reply) s = .next (s.finishCmp j reply).settle) ∧
    (∀ i : Fin 1048576, exec (.keyUnwrap i) s = .next (s.readKey i).1.settle) ∧
    (∀ k : Fin 128, exec (.cipherParityFault k) s = .next ((((s.fire 20 (k / 16) k initCrypto).startTest 6 k).onSec fun x =>
      { x with jobs := x.jobs.map fun j => if j.core == k.val then { j with fault := true } else j })).settle) ∧
    (∀ (k : Fin 24) (c : Nat), k.val < 8 → c < 8 → s.sec.faulty.contains k.val = false →
      exec (.inlineParityFault k c) s = .next ((((s.fire 20 (16 + k) (inlineTest k c) initCrypto).onSec fun x =>
        { x with faulty := if x.faulty.contains k.val then x.faulty else x.faulty ++ [k.val] })).startTest 7 (inlineTest k c)).settle)

/-- Where thread t issues an instruction of a kind, exec of the kind's row gives the state in which rd has the instruction's result, memory the stored bytes, the staging buffer, the special register or the target's pending set the write, and the thread goes on at the stated PC (`goes`): ALU, IALU, BFI, MOVI, HASH, TREAD, SRD, SWR, LD, ST, ATOM, BR, JAL, JALR, CHS, CHR, WFE, SEV, SEVT, CRD, FENCE and TWAIT; WFE and TWAIT with nothing to end them wait, and FENCE while a store of the thread is posted; a word that is no instruction traps with cause 1. It rests on R238, R239, R240, R246, R247, R248, R252, R253, R254, R255, R260, 09_zorurn_isa. -/
def Obligations.ThreadInstructionsComplete : Prop :=
  ∀ (s : State) (t : Fin 1024) (w : Nat) (x : Thread), w = s.nextWord t → x = s.thread t →
    (s.runs t .alu → exec (.alu t) s = .next (s.goes t (s.sets t (zrd w) (aluResult (zfn w) (x.reg (zrs1 w)) (x.reg (zrs2 w)))) (x.pc + 1))) ∧
    (s.runs t .ialu → exec (.ialu t) s = .next (s.goes t (s.sets t (zrd w) (ialuResult (zifn w) (zimm12 w) (x.reg (zrs1 w)))) (x.pc + 1))) ∧
    (s.runs t .bfi → exec (.bfi t) s = .next (s.goes t (s.sets t (zrd w)
      (bfiResult (zifn w) (bits (zimm12 w) 5 0) (bits (zimm12 w) 11 6 + 1) (x.reg (zrs1 w)) (x.reg (zrd w)))) (x.pc + 1))) ∧
    (s.runs t .movi → bitOf w 13 = false →
      exec (.movi t) s = .next (s.goes t (s.sets t (zrd w) (BitVec.ofNat 64 (zimm16 w * 2 ^ (16 * bits w 12 11)))) (x.pc + 1))) ∧
    (s.runs t .hash → exec (.hash t) s = .next (s.goes t (s.sets t (zrd w)
      (hashResult (zfn w) (x.reg (zrs1 w)) (x.reg (zrs2 w)) (x.reg (zrd w)))) (x.pc + 1))) ∧
    (s.runs t .tread → exec (.tread t) s = .next (s.goes t (s.sets t (zrd w) (BitVec.ofNat 64 s.ts64)) (x.pc + 1))) ∧
    (s.runs t .srd → exec (.srd t) s = .next (s.goes t (s.sets t (zrd w) (s.srd t x (zrs1 w))) (x.pc + 1))) ∧
    (s.runs t .swr → exec (.swr t) s = .next (s.goes t (s.swr t (zrs1 w) (x.reg (zrd w))) (x.pc + 1))) ∧
    (s.runs t .br → brHolds (bits w 18 16) (x.reg (zrd w)) (x.reg (zrs1 w)) →
      exec (.br t) s = .next (s.goes t (s.engEvent t 0x00F) (pcPlus x.pc (signed 13 (bits w 31 19))))) ∧
    (s.runs t .br → brHolds (bits w 18 16) (x.reg (zrd w)) (x.reg (zrs1 w)) = false → exec (.br t) s = .next (s.goes t s (x.pc + 1))) ∧
    (s.runs t .jal → exec (.jal t) s =
      .next (s.goes t ((s.engEvent t 0x00F).sets t (zrd w) (BitVec.ofNat 64 ((x.pc + 1) % 65536))) (zimm16 w))) ∧
    (s.runs t .jalr → exec (.jalr t) s =
      .next (s.goes t ((s.engEvent t 0x00F).sets t (zrd w) (BitVec.ofNat 64 ((x.pc + 1) % 65536))) ((x.reg (zrs1 w)).toNat + zimm16 w))) ∧
    (∀ a n space bs v, a = memAddr w (x.reg (zrs1 w)) → n = 2 ^ bits w 20 19 → space = bits w 18 16 → bs = s.loadBytes t x space a.toNat n →
      v = leNat (if bitOf w 22 then bs.reverse else bs) → s.runs t .ld → s.inSpace t x space a.toNat n false → a.toNat % n = 0 →
      ∀ u, u = ((s.engEvent t 0x008).spaceEvent t space).touchEvent t space a.toNat n →
      exec (.ld t) s = .next (s.goes t ((if 4 ≤ space then (u.engEvent t 0x00B).devEvent 0x303 else u).sets t (zrd w)
        (if bitOf w 21 then BitVec.ofInt 64 (signed (8 * n) v) else BitVec.ofNat 64 v)) (x.pc + 1) a.toNat)) ∧
    (∀ a n space bs, a = memAddr w (x.reg (zrs1 w)) → n = 2 ^ bits w 20 19 → space = bits w 18 16 → bs = natLe n (x.reg (zrd w)).toNat →
      s.runs t .st → s.inSpace t x space a.toNat n true → a.toNat % n = 0 →
      exec (.st t) s = .next (s.goes t (((s.engEvent t 0x009).spaceEvent t space).storeBytes t space a.toNat
        (if bitOf w 22 then bs.reverse else bs)) (x.pc + 1) a.toNat)) ∧
    (∀ a n space old b, a = (x.reg (zrs1 w)).toNat → n = (if bitOf (zfn w) 2 then 8 else 4) → space = bits (zfn w) 5 3 → space ≤ 1 →
      old = leNat (s.threadRead t (space = 1) a n) → b = (x.reg (zrs2 w)).toNat % 2 ^ (8 * n) →
      s.runs t .atom → s.inSpace t x space a n true → a % n = 0 → ∀ u, u = (s.engEvent t 0x00A).spaceEvent t space →
      (bits (zfn w) 1 0 = 0 → exec (.atom t) s = .next (s.goes t ((u.threadWrite t (space = 1) a (natLe n ((old + b) % 2 ^ (8 * n)))).sets t (zrd w)
        (BitVec.ofNat 64 old)) (x.pc + 1) a)) ∧
      (bits (zfn w) 1 0 = 1 → exec (.atom t) s = .next (s.goes t ((u.threadWrite t (space = 1) a
        (natLe n (if old = (x.reg (zrd w)).toNat % 2 ^ (8 * n) then b else old))).sets t (zrd w) (BitVec.ofNat 64 old)) (x.pc + 1) a)) ∧
      (bits (zfn w) 1 0 = 2 → exec (.atom t) s = .next (s.goes t ((u.threadWrite t (space = 1) a (natLe n (old ||| b))).sets t (zrd w)
        (BitVec.ofNat 64 old)) (x.pc + 1) a))) ∧
    (∀ h, h = x.staging.get 0 0 → s.runs t .chs → s.sendable t h → s.creditFree t → getBits h 7 0 ≠ 2 →
      exec (.chs t) s = .next (s.goes t (((s.sendMessage t x).bump .TBC_STAT (clusterOf t) 7).engEvent t 0x00D) (x.pc + 1) h.toNat)) ∧
    (∀ r rest v, s.runs t .chr → x.unread = r :: rest → v = (if bits w 18 16 < getBits (r.headD 0) 19 16 then r.getD (bits w 18 16) 0 else 0) →
      exec (.chr t) s = .next (s.goes t (s.onThread t fun y => if bitOf w 19
        then { (y.setReg (zrd w) v).returnCredit with unread := rest, mode := .run }
        else { y.setReg (zrd w) v with mode := .run }) (x.pc + 1))) ∧
    (s.runs t .wfe → x.epend &&& x.emask ≠ 0 →
      exec (.wfe t) s = .next (s.goes t (s.sets t (zrd w) (BitVec.ofNat 64 (x.epend &&& x.emask))) (x.pc + 1))) ∧
    (s.runs t .wfe → x.epend &&& x.emask = 0 → exec (.wfe t) s = .next (s.onThread t fun y => { y with mode := .wfe (zrd w) }).settle) ∧
    (s.runs t .twait → (x.reg (zrs1 w)).toNat ≤ s.ts64 →
      exec (.twait t) s = .next (s.goes t (s.onThread t fun y => { y with epend := y.epend ||| 4 }) (x.pc + 1))) ∧
    (s.runs t .twait → s.ts64 < (x.reg (zrs1 w)).toNat →
      exec (.twait t) s = .next (s.onThread t fun y => { y with mode := .twait (x.reg (zrs1 w)).toNat }).settle) ∧
    (s.runs t .sev → exec (.sev t) s =
      .next (s.goes t ((threadsOf (clusterOf t)).foldl (fun u k => if k = t.val then u else u.event k evSev) s) (x.pc + 1))) ∧
    (s.runs t .sevt → exec (.sevt t) s = .next (s.goes t (s.event ((x.reg (zrs1 w)).toNat % 1024) evSev) (x.pc + 1))) ∧
    (s.runs t .crd → zimm16 w < 8 → bitOf (s.fld PMC_USER.CLUSTERS) (clusterOf t) → exec (.crd t) s =
      .next (s.goes t (s.sets t (zrd w) (s.raw .PMC_CTR_VAL 0 (pmcEngine (engineOf t) + zimm16 w))) (x.pc + 1))) ∧
    (s.runs t .crd → zimm16 w = 16 → exec (.crd t) s = .next (s.goes t (s.sets t (zrd w) (BitVec.ofNat 64 (s.tbe.cycles.get 0 (clusterOf t)))) (x.pc + 1))) ∧
    (s.runs t .crd → zimm16 w = 17 → exec (.crd t) s = .next (s.goes t (s.sets t (zrd w) (BitVec.ofNat 64 x.done)) (x.pc + 1))) ∧
    (s.runs t .fence → (∀ p ∈ s.tbe.posted, p.thread ≠ t.val) → exec (.fence t) s = .next (s.goes t s (x.pc + 1))) ∧
    (s.runs t .fence → (∃ p ∈ s.tbe.posted, p.thread = t.val) → exec (.fence t) s = .next s.settle) ∧
    (s.runs t .illegal → exec (.illegal t) s = .next (s.trap t x.pc 1 0 0 0 w).settle)

/-- A thread that issues a CHW (whose RD and POP are zero) goes on at the next PC with register RS1 in word WORD of its staging buffer; STAGED of TSTATUS counts the write. Nothing else of the thread changes but its count of completed instructions, no other thread, no byte of engine memory and no message: no other agent sees the word. A word with OP CHW and RD or POP set is no CHW. Spec (R251): "CHW writes register RS1 to word WORD of the thread's staging buffer, with RD and POP zero. It has no other effect, and no other agent sees the word (R214)." -/
def Obligations.ChwStages : Prop :=
  (∀ w, zkind w = .chw → zrd w = 0 ∧ bitOf w 19 = false) ∧
  ∀ (s : State) (t : Fin 1024) (w : Nat) (x : Thread), w = s.nextWord t → x = s.thread t → Quiet s → x.step = false → s.runs t .chw →
    Completes (.chw t) s fun u =>
      u.thread t = { x with staging := x.staging.set 0 (bits w 18 16) (x.reg (zrs1 w)), staged := min 15 (x.staged + 1), pc := (x.pc + 1) % 65536, done := x.done + 1 } ∧
      ThreadOnly t s u ∧ u.tbe.msgs = s.tbe.msgs ∧ u.tbe.resps = s.tbe.resps

/-- A word of OP TRAP is one only with RD and A zero. A thread that is not in a trap, has a vector and issues TRAP goes in one step to TVEC with TPC the index of the TRAP, CAUSE TRAP, DETAIL 0, CODE = IMM16, TADDR 0 and IN_TRAP set; its registers, events and staging buffer, every other thread and engine memory are unchanged. (The trap's Gong source is taken not to be fatal.) Spec (R258): "TRAP raises cause TRAP with CODE = IMM16, with RD and A zero." -/
def Obligations.TrapRaises : Prop :=
  (∀ w, zkind w = .trap → zrd w = 0 ∧ zrs1 w = 0) ∧
  ∀ (s : State) (t : Fin 1024) (x : Thread), x = s.thread t → Quiet s → x.step = false → x.inTrap = false → x.tvec ≠ 0 →
    Mild s (14 + clusterOf t / 4) (8 * (clusterOf t % 4)) → s.runs t .trap →
    Completes (.trap t) s fun u =>
      u.thread t = { x with tpc := x.pc, cause := 7, detail := 0, code := zimm16 (s.nextWord t), taddr := 0, busySince := s.up, inTrap := true, pc := x.tvec, mode := .run } ∧
      ThreadOnly t s u

/-- TRET has every field other than OP zero. A thread in a trap that issues TRET clears IN_TRAP and continues at TPC as it then reads, so at what a handler wrote there, or at TPC + 1 (modulo 65,536) when CAUSE is TRAP; nothing else of it changes but its count of completed instructions, no other thread and no byte of engine memory. Executed while IN_TRAP is 0 it traps with ILLEGAL. Spec (R257): "TRET, with every field other than OP zero, clears IN_TRAP. It continues at TPC, or at TPC + 1 when CAUSE is TRAP. A TRET executed while IN_TRAP is 0 traps with ILLEGAL." -/
def Obligations.TretEnds : Prop :=
  (∀ w, zkind w = .tret → bits w 31 6 = 0) ∧
  ∀ (s : State) (t : Fin 1024) (x : Thread), x = s.thread t → Quiet s → x.step = false → s.runs t .tret →
    (x.inTrap → Completes (.tret t) s fun u =>
      u.thread t = { x with inTrap := false, pc := (if x.cause = 7 then x.tpc + 1 else x.tpc) % 65536, done := x.done + 1 } ∧ ThreadOnly t s u) ∧
    (x.inTrap = false → exec (.tret t) s = .next (s.trap t x.pc 1 0 0 0 (s.nextWord t)).settle) ∧
    (x.inTrap = false → x.tvec ≠ 0 → Mild s (14 + clusterOf t / 4) (8 * (clusterOf t % 4)) → Completes (.tret t) s fun u =>
      u.thread t = { x with tpc := x.pc, cause := 1, detail := 0, code := 0, taddr := 0, busySince := s.up, inTrap := true, pc := x.tvec, mode := .run } ∧
      ThreadOnly t s u)

/-- ALU, IALU, BFI, HASH, TREAD and SRD of a thread that is not single-stepped leave rd with the function's result, PC one further modulo 65,536 and one more instruction counted; every other register of the thread, its special registers, events and staging buffer, every other thread and every byte of engine memory are unchanged. With rd 0 the register file is unchanged and g0 reads zero. (No source is fatal and none waits.) It rests on R203, R236, R237, R238, R239, R240, R241, R247, R248, R253. -/
def Obligations.RegisterResultFrame : Prop :=
  ∀ (s : State) (t : Fin 1024) (w : Nat) (x : Thread) (c : Instr) (v : Word), w = s.nextWord t → x = s.thread t → Quiet s → x.step = false →
    (s.runs t .alu ∧ c = .alu t ∧ v = aluResult (zfn w) (x.reg (zrs1 w)) (x.reg (zrs2 w)) ∨
     s.runs t .ialu ∧ c = .ialu t ∧ v = ialuResult (zifn w) (zimm12 w) (x.reg (zrs1 w)) ∨
     s.runs t .bfi ∧ c = .bfi t ∧ v = bfiResult (zifn w) (bits (zimm12 w) 5 0) (bits (zimm12 w) 11 6 + 1) (x.reg (zrs1 w)) (x.reg (zrd w)) ∨
     s.runs t .hash ∧ c = .hash t ∧ v = hashResult (zfn w) (x.reg (zrs1 w)) (x.reg (zrs2 w)) (x.reg (zrd w)) ∨
     s.runs t .tread ∧ c = .tread t ∧ v = BitVec.ofNat 64 s.ts64 ∨
     s.runs t .srd ∧ c = .srd t ∧ v = s.srd t x (zrs1 w)) →
    Completes c s fun u =>
      (∀ n, (u.thread t).reg n = if n = zrd w ∧ n ≠ 0 then v else x.reg n) ∧ (u.thread t).reg 0 = 0 ∧
      u.thread t = { x with g := (u.thread t).g, pc := (x.pc + 1) % 65536, done := x.done + 1 } ∧ ThreadOnly t s u

/-- With KEEP 0, rd = IMM16 << (16 × HW). With KEEP 1, the 16 bits of rd at HW are IMM16 and every other bit of rd is as before. The two high bits of A are zero in every MOVI. Nothing else of the thread but PC and the count, no other thread and no byte of engine memory change. (R241's sentences on the assembler are not part of it.) It rests on R241. -/
def Obligations.MoviBuildsConstants : Prop :=
  (∀ w, zkind w = .movi → bits w 15 14 = 0) ∧
  ∀ (s : State) (t : Fin 1024) (w hw : Nat) (x : Thread), w = s.nextWord t → hw = bits w 12 11 → x = s.thread t → Quiet s → x.step = false → s.runs t .movi → zrd w ≠ 0 →
    (bitOf w 13 = false → Completes (.movi t) s fun u =>
      u.thread t = { x.setReg (zrd w) (BitVec.ofNat 64 (zimm16 w * 2 ^ (16 * hw))) with pc := (x.pc + 1) % 65536, done := x.done + 1 } ∧ ThreadOnly t s u) ∧
    (bitOf w 13 → Completes (.movi t) s fun u =>
      getBits ((u.thread t).reg (zrd w)) (16 * hw + 15) (16 * hw) = zimm16 w ∧
      (∀ hi lo, hi < 64 → hi < 16 * hw ∨ 16 * hw + 15 < lo → getBits ((u.thread t).reg (zrd w)) hi lo = getBits (x.reg (zrd w)) hi lo) ∧
      (∀ n, n ≠ zrd w → (u.thread t).reg n = x.reg n) ∧ ThreadOnly t s u)

/-- A thread that is not in a trap, has a vector and issues LD or ST: where the access falls outside the valid addresses of its space, or stores where none is allowed, it traps with BOUNDS; where only the alignment is wrong, with MISALIGN; so BOUNDS where both apply. TADDR receives the computed address, TPC the instruction's index, and the thread is at its vector; its general registers, every other thread and every byte of engine memory are unchanged. Spec (R244): "When both apply, BOUNDS is taken. TADDR receives the computed address. An access that traps reads and writes nothing." -/
def Obligations.AccessTraps : Prop :=
  ∀ (s : State) (t : Fin 1024) (w : Nat) (x : Thread) (a : Word) (n : Nat) (c : Instr) (st : Bool), w = s.nextWord t → x = s.thread t → Quiet s → x.step = false →
    x.inTrap = false → x.tvec ≠ 0 → Mild s (14 + clusterOf t / 4) (8 * (clusterOf t % 4)) →
    a = memAddr w (x.reg (zrs1 w)) → n = 2 ^ bits w 20 19 →
    (s.runs t .ld ∧ c = .ld t ∧ st = false ∨ s.runs t .st ∧ c = .st t ∧ st = true) →
    (s.inSpace t x (bits w 18 16) a.toNat n st = false → Completes c s fun u =>
      u.thread t = { x with tpc := x.pc, cause := 3, detail := 0, code := 0, taddr := a, busySince := s.up, inTrap := true, pc := x.tvec, mode := .run } ∧
      ThreadOnly t s u) ∧
    (s.inSpace t x (bits w 18 16) a.toNat n st → a.toNat % n ≠ 0 → Completes c s fun u =>
      u.thread t = { x with tpc := x.pc, cause := 2, detail := 0, code := 0, taddr := a, busySince := s.up, inTrap := true, pc := x.tvec, mode := .run } ∧
      ThreadOnly t s u)

/-- An 8-byte aligned doorbell to an ACTIVE queue of a page of a network function moves the producer index inside the ring, halts the queue with BAD_DOORBELL outside it, or moves a completion consumer; any other doorbell to it is discarded and counted. The next queue's fetch issues its read or takes a chain; a chain that is complete writes its completion; a moderation timer that ran out signals the vector; an enable activates a DISABLED queue, a disable stops an ACTIVE one, which is DISABLED once drained; resources are assigned or refused. It rests on R287, R291, R292, R294, R299, R300, R305, R306, R307, 11_host_queue_interface. -/
def Obligations.HostQueueCommandsComplete : Prop :=
  ∀ (s : State) (req : Requester) (f : Fin 2080) (q page : Nat) (w : Word) (g : Nat) (x : QueuePair), g = s.globalQueue f q → x = s.pair g →
    (∀ t h y r n step, s.isNvmeFn f = false → s.hostReaches f → t = s.hostTlp f → h = t.globalQueue f q → y = t.pair h → page < doorbellPages f →
      getBits w 27 16 = q → r = getBits w 29 28 → n = getBits w 15 0 → getBits w 63 31 = 0 → q < t.qpCount f → getBits y.cfg 24 16 = page →
      y.state = ACTIVE → step = (n + 65536 - y.C r) % 65536 →
      (r < 2 → y.used r ≤ step → step ≤ y.size r →
        exec (.doorbell f page 8 true w) s = .next (t.onPair h fun z => { z with prod := z.prod.set 0 r n }).settle) ∧
      (r < 2 → step < y.used r ∨ y.size r < step → exec (.doorbell f page 8 true w) s = .next (t.haltQueue h stBadDoorbell n (r = 1)).settle) ∧
      (2 ≤ r → step ≤ y.used r → exec (.doorbell f page 8 true w) s = .next (t.completionDoorbell f h r n (bitOf w.toNat 30)).settle) ∧
      (2 ≤ r → y.used r < step → exec (.doorbell f page 8 true w) s = .next (t.haltQueue h stBadDoorbell n (r = 3)).settle)) ∧
    (∀ bytes aligned, s.isNvmeFn f = false → s.hostReaches f → page < doorbellPages f → bytes ≠ 8 ∨ aligned = false →
      exec (.doorbell f page bytes aligned w) s = .next ((s.hostTlp f).bump .FNC_FN_STAT f 0).settle) ∧
    (∀ l, s.linkOf f = some l → s.mode ≠ DUSK → s.isSarup g = false → s.nextFetch l = some (f.val, q) → s.readPending f (· == .txDescriptors f q) = false →
      ∀ t, t = (s.onLink l fun k => { k with lastFn := f }).onFn f (fun x => { x with lastQueue := q }) →
      exec (.txFetch f q none) s = .next (t.issueRead f (.txDescriptors f q)).settle ∧
      (∀ r, cplError r = none → exec (.txFetch f q (some r)) s = .next (t.fetchChain f q).settle) ∧
      (∀ r e, cplError r = some e → exec (.txFetch f q (some r)) s = .next (t.txReadFails f q e).settle)) ∧
    (∀ t, q < s.qpCount f → s.releaseChain f g = some t → exec (.txCompletionWrite f q) s = .next t.settle) ∧
    (∀ t rest, q < s.qpCount f → x.rxIrq.times = t :: rest → x.rxIrq.armed → getBits x.irq 41 32 ≠ 0 → t + ofUs (getBits x.irq 41 32) ≤ s.now → s.mode ≠ MIDNIGHT →
      exec (.moderationTimer f q true) s =
        .next ((s.onPair g fun q => { q with rxIrq := { q.rxIrq with armed := false } }).signal f (getBits x.irq 26 16)).settle) ∧
    (s.mode ≠ NIGHT → q = s.fld FNC_Q_SEL.QUEUE f → q < s.qpCount f → getBits w 1 1 = 0 →
      (getBits w 0 0 = 1 → x.state = DISABLED → exec (.queueEnable req f w) s = .next (s.onPair g QueuePair.activate).settle) ∧
      (getBits w 0 0 = 1 → x.state ≠ DISABLED → exec (.queueEnable req f w) s = .next (s.onPair g fun x => { x with refused := true }).settle) ∧
      (getBits w 0 0 = 0 → x.state = ACTIVE → exec (.queueDisable req f w) s =
        .next ((s.onPair g fun x => { x with state := STOPPING, enable := false }).stopHeld g).settle)) ∧
    (q < s.qpCount f → x.state = STOPPING → (∀ c ∈ x.chains, c.left = 0) →
      exec (.queueDrained f q) s = .next ((s.releaseChains f g x.chains.length).onPair g fun y => { y with state := DISABLED, chains := [] }).settle) ∧
    (s.mode ≠ NIGHT → wfld w FNC_RES_CTL.REFUSED = 0 →
      (wfld w FNC_RES_CTL.VALID = 1 → s.resRefused f = false → exec (.resValidWrite req f w) s = .next (s.put FNC_RES_CTL.VALID 1 f)) ∧
      (wfld w FNC_RES_CTL.VALID = 1 → s.isSet FNC_RES_CTL.VALID f = false → s.resRefused f →
        exec (.resValidWrite req f w) s = .next (s.put FNC_RES_CTL.REFUSED 1 f)) ∧
      (wfld w FNC_RES_CTL.VALID = 0 → s.isSet FNC_RES_CTL.VALID f → s.queueBusy f → exec (.resValidWrite req f w) s = .next (s.put FNC_RES_CTL.REFUSED 1 f)) ∧
      (wfld w FNC_RES_CTL.VALID = 0 → s.queueBusy f = false → exec (.resValidWrite req f w) s = .next (s.put FNC_RES_CTL.VALID 0 f)))

/-- PERST# resets and releases a link, a link comes up with its speed, lanes and mode, goes down or recovers; function-level resets start and end; VFs are enabled and disabled; a host clears and sets the Bus Master Enable and its other enables; a completion ends its read, an error or a timeout fails it, a late one under a void tag is dropped and counted, and a void tag is free again after the timeout; a failed IDE check ends the stream. It rests on R309, R310, R311, R314, R315, R317, R318, R320, R325, R326, R328, R331. -/
def Obligations.HostLinkCommandsComplete : Prop :=
  ∀ (s : State) (l : Fin 16) (f : Fin 2080) (pf : Fin 32) (n tag : Nat),
    (s.linkExists l → exec (.perstAssert l) s = .next ((s.onLink l fun k => { k with perst := true }).resetLink l true).settle) ∧
    (∀ u, u = s.onLink l (fun k => { k with perst := false }) → u.linkExists l → u.linksRun → (u.hlink l).heldDetect = false →
      exec (.perstDeassert l) s = .next (u.put HL_LINK_STATUS.LTSSM 1 l)) ∧
    (∀ (speed lanes : Nat) (flit rev : Bool), s.linkExists l → s.linksRun → (s.hlink l).perst = false → (s.hlink l).heldDetect = false → s.trainLanes l ≠ 0 →
      Completes (.hostLinkUp l speed lanes flit rev) s fun u =>
        u.fld HL_LINK_STATUS.UP l = 1 ∧ u.fld HL_LINK_STATUS.LTSSM l = 3 ∧ u.fld HL_LINK_STATUS.REVERSED l = b2n rev ∧ Only [.HL_LINK_STATUS] s u) ∧
    (s.isSet HL_LINK_STATUS.UP l → exec (.hostLinkDown l none) s = .next (s.resetLink l false).settle) ∧
    (s.isSet HL_LINK_STATUS.UP l → exec (.hostLinkRecovery l .none none) s = .next ((s.put HL_LINK_STATUS.LTSSM 4 l).flitError l .none).settle) ∧
    (∀ e a, s.isSet HL_LINK_STATUS.UP l → linkErrorAer e = some a →
      exec (.hostLinkRecovery l e none) s = .next (((s.put HL_LINK_STATUS.LTSSM 4 l).flitError l e).pcieError (2 * l) a).settle) ∧
    (f.val < 32 → s.fnPresent f → s.fnInReset f = false → exec (.pfFlr f) s = .next ((s.enabledVfs f).foldl State.startFlr (s.startFlr f)).settle) ∧
    (32 ≤ f.val → s.fnPresent f → s.fnInReset f = false → exec (.vfFlr f) s = .next (s.startFlr f).settle) ∧
    (∀ k p, s.linkOf f = some k → s.pfOf f = some p → 32 ≤ f.val → (s.pcie f).flr.isSome → (s.pcie p).flr = none → s.drainedFn f →
      exec (.flrComplete f) s = .next (s.endFlr k [f.val]).settle) ∧
    (s.isSet HL_LINK_STATUS.UP (pf.val / 2) → s.vfEnabled pf = false → n ≤ s.vfCeiling pf → s.mode ≠ DAWN → s.mode ≠ TWILIGHT → s.fnInReset pf = false →
      exec (.vfEnable pf n) s = .next (((s.setVfs pf true n).put HL_SRIOV_STATUS.CHANGED 1 (pf.val / 2)).linkEvent (pf.val / 2) 5).settle) ∧
    (∀ gone, s.isSet HL_LINK_STATUS.UP (pf.val / 2) → n ≤ s.vfCeiling pf → s.fnInReset pf = false → gone = s.enabledVfs pf →
      exec (.vfDisable pf n) s = .next (((((gone.foldl State.resetFn (gone.foldl State.startFlr s)).voidReads (pf.val / 2) fun r => gone.contains r.fn).setVfs pf false n).put
        HL_SRIOV_STATUS.CHANGED 1 (pf.val / 2)).linkEvent (pf.val / 2) 5).settle) ∧
    (∀ k, s.linkOf f = some k → (s.pcie f).busMaster → exec (.bmeClear f) s =
      .next (((((List.range ((s.onPcie f fun p => { p with busMaster := false }).qpCount f)).map ((s.onPcie f fun p => { p with busMaster := false }).globalQueue f)).foldl
        (fun t g => t.bmeHalt f g) (s.onPcie f fun p => { p with busMaster := false })).put HL_SRIOV_STATUS.BME_SEEN 1 k).linkEvent k 5).settle) ∧
    (∀ k, s.linkOf f = some k → s.fnPresent f → s.fnInReset f = false →
      exec (.hostConfigWrite f .busMasterSet) s = .next (s.onPcie f fun p => { p with busMaster := true }) ∧
      (∀ b, exec (.hostConfigWrite f (.memorySpace b)) s = .next (s.onPcie f fun p => { p with memSpace := b })) ∧
      (∀ b, exec (.hostConfigWrite f (.d3hot b)) s = .next (s.onPcie f fun p => { p with d3hot := b })) ∧
      (∀ b, exec (.hostConfigWrite f (.msixEnable b)) s = .next ((s.onPcie f fun p => { p with msixEnable := b }).sendPending f).settle) ∧
      exec (.hostConfigWrite f .aerClear) s = .next (s.onPcie f fun p => { p with aer := [], aerHeader := [] }) ∧
      (∀ b, exec (.hostConfigWrite f (.tags10 b)) s = .next (s.onPcie f fun p => { p with tag10 := b })) ∧
      (∀ b, exec (.hostConfigWrite f (.tags14 b)) s = .next (s.onPcie f fun p => { p with tag14 := b })) ∧
      (∀ (e : Fin 20) a b, aerErrors[e.val]? = some a → exec (.hostConfigWrite f (.aerMask e b)) s =
        .next (s.onPcie f fun p => { p with aerMask := p.aerMask.filter (· != a) ++ if b then [a] else [] })) ∧
      (∀ (e : Fin 20) a b, aerErrors[e.val]? = some a → exec (.hostConfigWrite f (.aerSeverity e b)) s =
        .next (s.onPcie f fun p => { p with aerSwapped := p.aerSwapped.filter (· != a) ++ if b != a.fatal then [a] else [] }))) ∧
    (∀ r, (s.hlink l).reads.find? (fun r => r.tag == tag) = some r → s.up ≥ r.issued + s.cplTimeout l →
      ∀ u, u = (s.onLink l fun k => { k with reads := k.reads.filter fun x => x.tag != tag, void := k.void ++ [(tag, s.up)] }).bump .HL_STAT l 4 →
      ((u.pcie r.fn).flr = none → exec (.completionTimeout l tag) s = .next ((u.readFails r .completionTimeout).afterRead r.fn).settle) ∧
      ((u.pcie r.fn).flr.isSome → exec (.completionTimeout l tag) s = .next ((u.readLost r).afterRead r.fn).settle)) ∧
    (∀ st, (s.hlink l).void.any (fun v => v.1 == tag) → exec (.completionRx l tag st) s =
      .next ((s.onLink l fun k => { k with void := k.void.filter fun v => v.1 != tag }).bump .HL_STAT l 3)) ∧
    (∀ st r, (s.hlink l).void.any (fun v => v.1 == tag) = false → (s.hlink l).reads.find? (fun r => r.tag == tag) = some r → (s.pcie r.fn).busMaster →
      (s.pcie r.fn).flr = none → cplError st = none → exec (.completionRx l tag st) s = .next (((s.dropRead l tag).readEnds r).afterRead r.fn).settle) ∧
    (∀ v, (s.hlink l).void.find? (fun v => v.1 == tag) = some v → v.2 + s.cplTimeout l ≤ s.up →
      exec (.voidTagReuse l tag) s = .next (s.onLink l fun k => { k with void := k.void.filter fun x => x.1 != tag })) ∧
    (∀ slot : Fin 4, bits (s.fld HL_IDE_STATUS.STATE l) (2 * slot + 1) (2 * slot) ≠ 0 → exec (.ideCheckFail l slot) s =
      .next ((((((s.put HL_IDE_STATUS.STATE (setBits (s.fld HL_IDE_STATUS.STATE l) (2 * slot + 1) (2 * slot) 0) l).onSec fun x =>
        { x with ideKeys := x.ideKeys.keep fun k => k / 2 != 8 * l.val + slot.val }).sat HL_IDE_STATUS.CHECK_FAIL 1 l).pcieError (2 * l) .ideCheckFailed).linkEvent l 6)).settle)

/-- On a link that is up, out of NIGHT, a request to a BAR that its function has and takes is counted and performed on that BAR, else answered as unsupported; one outside the Secure stream that IDE_REQ asks for is counted and unsupported; the manager BAR is reached where the manager PF takes memory requests. JTAG accesses are performed while debug is open, which also halts and resumes harts, the halt told by its cluster's source, and raise the debug trigger where it is closed with DEBUG_EN. A DOE object is answered and an abort clears the response and the error. It rests on R286, R316, R321, R322, R328, R332, R333, R413, R414, R445, R458. -/
def Obligations.HostAccessesComplete : Prop :=
  ∀ (s : State) (l : Fin 16) (f : Fin 2080) (pf : Fin 32) (bar addr : Nat) (data : Option Word) (sec : Bool) (t : State), s.mode ≠ NIGHT →
    (s.isSet HL_LINK_STATUS.UP l → t = (s.bump .HL_STAT l 0).devEvent 0x30A →
      (t.isSet HL_LINK_CTL.IDE_REQ l = false ∨ sec → t.takesMemory l f → t.hasBar f bar →
        exec (.hostMemoryRequest l f bar addr data sec) s = .next (t.barAccess l f bar addr data).settle) ∧
      (t.isSet HL_LINK_CTL.IDE_REQ l = false ∨ sec → t.takesMemory l f = false ∨ t.hasBar f bar = false →
        exec (.hostMemoryRequest l f bar addr data sec) s = .next (t.unsupported f data).settle) ∧
      (t.isSet HL_LINK_CTL.IDE_REQ l → sec = false →
        exec (.hostMemoryRequest l f bar addr data sec) s = .next ((t.bump .HL_STAT l 7).unsupported f data).settle)) ∧
    (∀ k, s.mgrLink = some k → s.isSet HL_LINK_STATUS.UP k → t = (s.bump .HL_STAT k 0).devEvent 0x30A → t.takesMemory k (2 * k) →
      exec (.mgrBarAccess addr data) s = .next (t.managerBar k addr data).settle) ∧
    (s.isSet SEC_LIFECYCLE.DEBUG_OPEN →
      exec (.debugAccess (.register addr data)) s = .next (s.busAccess .jtag addr (sizeAt addr) data).settle ∧
      (∀ h : Fin 24, s.coresRun (h / 8) → bitOf (s.fld GLB_CC_STATUS.DEBUG) h = false →
        exec (.debugAccess (.halt h)) s = .next ((s.put ⟨.GLB_CC_STATUS, 24 + h, 24 + h⟩ 1).fire 28 (3 + h / 8)).settle) ∧
      (∀ h : Fin 24, exec (.debugAccess (.resume h)) s = .next (s.put ⟨.GLB_CC_STATUS, 24 + h, 24 + h⟩ 0).settle)) ∧
    (s.isSet SEC_LIFECYCLE.DEBUG_OPEN = false → s.isSet SEC_TRIGGER.DEBUG_EN → ∀ d, exec (.debugAccess d) s = .next (s.securityTrigger 3).settle) ∧
    (∀ obj, s.doeRuns pf → exec (.doeObject pf obj) s = .next (s.doeObject pf obj).settle) ∧
    (s.doeRuns pf → exec (.doeAbort pf) s = .next (s.onPcie pf fun p => { p with doeResponse := [], doeError := false }))

/-- Out of NIGHT, not BUSY, a command of XPT_CMD writes the context of an IDLE connection whose queue it may have, returns a context or a descriptor, resets a connection, writes or revokes a window that is disabled or enabled. A binding write to a DISABLED queue is stored. A work request of a host queue whose turn it is issues its read, then is carried out; one posted by an engine is carried out on its ACTIVE queue. QUARANTINE ends after 500 ms, a revoke completes, a FLUSH is answered, and the acknowledgement, retransmission and refusal timers send; a completion is written and an engine queue's thread told. It rests on R334, R335, R340, R341, R344, R345, R348, R349, R351, R353, R354, R355. -/
def Obligations.SarupCommandsComplete : Prop :=
  ∀ (s : State) (req : Requester) (w : Word) (i : Nat), i = wfld w XPT_CMD.INDEX →
    (s.mode ≠ NIGHT → s.isSet XPT_CMD_STATUS.BUSY = false →
      (∀ f k, wfld w XPT_CMD.OP = 1 → i < 262144 → s.connState i = cIdle → s.queueOwner (bits (s.xptData 0) 28 14) = some (f, k) →
        s.isSarup (bits (s.xptData 0) 28 14) → s.ownsConn f i → exec (.connWrite req w) s = .next (s.connWrite i).settle) ∧
      (wfld w XPT_CMD.OP = 2 → i < 262144 →
        exec (.connRead req w) s = .next ((s.setXptData ((List.range 8).map (s.ctxWord i))).put XPT_CMD_STATUS.RESULT 0).settle) ∧
      (wfld w XPT_CMD.OP = 3 → i < 262144 → exec (.connReset req w) s = .next ((s.connReset i).put XPT_CMD_STATUS.RESULT 0).settle) ∧
      (wfld w XPT_CMD.OP = 4 → s.winEn i = false → exec (.winWrite req w) s = .next (s.winWrite i).settle) ∧
      (wfld w XPT_CMD.OP = 5 →
        exec (.winRead req w) s = .next ((s.setXptData ((List.range 4).map (s.winWord i))).put XPT_CMD_STATUS.RESULT 0).settle) ∧
      (wfld w XPT_CMD.OP = 6 → s.winEn i → exec (.winRevoke req w) s = .next ((((s.winOff i).put XPT_CMD_STATUS.BUSY 1).put
        XPT_CMD_STATUS.RESULT 0).onXpt fun x => { x with revoking := some i }).settle)) ∧
    (∀ g : Fin 32768, s.mode ≠ NIGHT → (s.pair g).state = DISABLED → exec (.qpBindWrite req g w) s = .next (s.setRaw .XPT_QP_BIND 0 g (w &&& 0xFFF)).settle) ∧
    (∀ (op : Nat) (q : SarupQueue) (reply : Option CplStatus) (u : State), s.xptRuns → s.mode ≠ DUSK →
      (∃ (f : Fin 2080) (k l : Nat) (v : WorkReq) (n : Nat) (t : State), q = .host f k ∧ s.linkOf f = some l ∧ s.wrAt f (s.globalQueue f k) = some (v, n) ∧ v.op = op ∧
        s.isSarup (s.globalQueue f k) ∧ s.nextFetch l = some (f.val, k) ∧ s.readPending f (· == .txDescriptors f k) = false ∧
        t = ((s.onLink l fun x => { x with lastFn := f }).onFn f fun x => { x with lastQueue := k }) ∧
        (reply = none ∧ u = (t.issueRead f (.txDescriptors f k)).settle ∨
          ∃ r, reply = some r ∧ cplError r = none ∧ u = (t.sarupFetch f k).settle)) ∨
      (∃ (e : Fin 1024) (m : Msg) (rest : List Msg) (g f k : Nat) (t : State), q = .engine e ∧ s.xpt.posted.get [] e = m :: rest ∧ s.engineQueue e = some g ∧
        s.queueOwner g = some (f, k) ∧ m.work.op = op ∧ t = s.onXpt (fun x => { x with posted := x.posted.set [] e rest }) ∧ (t.pair g).state = ACTIVE ∧
        t.wrBad f g m.work = false ∧ u = (t.runWork f g m.work (t.wrChain g m.work 0 0 (some m))).settle) →
      (op = 0 → exec (.wrWrite q reply) s = .next u) ∧ (op = 1 → exec (.wrWriteImm q reply) s = .next u) ∧ (op = 2 → exec (.wrSend q reply) s = .next u) ∧
      (op = 3 → exec (.wrRead q reply) s = .next u) ∧ (op = 4 → exec (.wrFetchAdd q reply) s = .next u) ∧ (op = 5 → exec (.wrCas q reply) s = .next u) ∧
      (op = 6 → exec (.wrFlush q reply) s = .next u) ∧ (op = 7 → exec (.wrOpen q reply) s = .next u) ∧ (op = 8 → exec (.wrRevoke q reply) s = .next u)) ∧
    (i < 262144 → s.connState i = cQuarantine → (s.conn i).since + ofMs 500 ≤ s.up →
      exec (.quarantineEnd i) s = .next ((s.setCtx i 0 (setBits (s.ctxWord i 0) 1 0 cIdle)).onConn i fun _ => {})) ∧
    (∀ g q es c cs r, s.hq.pairs.entries = (g, q) :: es → q.chains = c :: cs → c.left ≠ 0 → c.sarup = some r → r.revoke = some i →
      exec (.revokeComplete i) s = .next ((s.endRequests g (fun x _ => x.id == c.id) stOk).bump .XPT_STAT 0 13)) ∧
    (s.hq.pairs.entries = [] → s.xpt.revoking = some i →
      exec (.revokeComplete i) s = .next (((s.put XPT_CMD_STATUS.BUSY 0).bump .XPT_STAT 0 13).onXpt fun x => { x with revoking := none })) ∧
    (∀ psn x, (s.conn i).flushes.find? (fun x => x.1 == psn) = some x → s.connState i = cReady → s.xptRuns → 0 < psnDiff (s.conn i).recvBase psn →
      psnDiff (s.conn i).recvBase psn < 2 ^ 31 → exec (.flushVisible i psn) s = .next ((s.onConn i fun c => { c with
        flushes := c.flushes.filter (·.1 != psn) }).postResponse i { body := { op := oFlushResp, msgId := x.2 }, fixed := true }).settle) ∧
    (s.connState i = cReady → (s.conn i).ackCount ≠ 0 → (s.conn i).ackSince + ofUs (max 1 (s.fld XPT_CFG.ACK_US)) ≤ s.up →
      exec (.ackTimer i) s = .next (s.sendAck i).settle) ∧
    (∀ psn x, (s.conn i).out.find? (fun x => x.psn == psn) = some x → s.connState i = cReady →
      (x.rnrAt = none → s.sarupInside i psn = false → x.sentUp + ofUs (bits (s.ctxWord i 3) 15 0 * 2 ^ min (x.sends - 1) 3) ≤ s.up →
        (x.sends ≤ bits (s.ctxWord i 3) 19 16 → exec (.retransmitTimeout i psn) s = .next (s.sendPkt i x).settle) ∧
        (bits (s.ctxWord i 3) 19 16 < x.sends →
          exec (.retransmitTimeout i psn) s = .next ((s.failPsn i psn xRetryExceeded).fire 27 18 0 initXpt).settle)) ∧
      (∀ d, x.rnrAt = some d → d ≤ s.up → exec (.rnrRetry i psn) s = .next (((s.conn i).out.filter fun y => y.body.msgId == x.body.msgId &&
        y.body.op == x.body.op).foldl (fun u y => u.sendPkt i y) s).settle)) ∧
    (∀ n ns f k g t, g = s.connQueue i → (s.conn i).passed = n :: ns → n.refused = false → s.queueOwner g = some (f, k) → (s.pair g).full 3 = false →
      s.queueReach f g → (s.pair g).state = ACTIVE →
      t = ((s.onConn i fun c => { c with notes := c.notes.filter (fun x => !List.contains [n] x)
                                         sends := c.sends.filter fun x => !List.any [n] fun n => n.kind == 2 && n.ssn == x.ssn }).bump .XPT_STAT 0 12).writeCompletion
        f g 3 n.ts (place n.imm 31 0 + place i 49 32) (sarupWord2 n.start 0 n.kind 1 n.degraded false n.hdrTs.isSome n.len) (n.hdrTs.getD 0) →
      (s.engineThread g = none → exec (.sarupRxCompletion i) s = .next t.settle) ∧
      (∀ e, s.engineThread g = some e → exec (.sarupRxCompletion i) s = .next (t.event e evSev).settle))

/-- A packet waiting at the unit that R337 lets through, whose PSN is new and inside the window and whose function is Bus Master, is carried out by its opcode: WRITE, WRITE_IMM and SEND data are placed and noted, but the rest of a SEND already refused is refused; READ_REQ, FETCH_ADD and CAS of a DDR window, or of a host window whose read has ended well, post their response; READ_RESP is placed and may end its READ; ATOMIC_RESP and FLUSH_RESP end their request; FLUSH is remembered. Then the PSN is accepted. ACK and NAK, which take no PSN, are taken as R344 and R352 say. The packet leaves the input. It rests on R337, R341, R344, R346, R349, R350, R352, R356. -/
def Obligations.SarupPacketsComplete : Prop :=
  ∀ (s : State) (k g : Nat) (p : Packet) (h : SarupIn) (t : State), s.xpt.input[k]? = some (g, p) → s.sarupFate g p.bytes = .packet h →
    t = s.touchCtx h.conn →
    (h.body.op = oAck → exec (.ack k) s = .next ((t.takeAck h).xptTake k).settle) ∧
    (h.body.op = oNak → exec (.nak k) s = .next ((t.takeNak h).xptTake k).settle) ∧
    (psnDiff h.psn (t.conn h.conn).recvBase < 1024 → h.psn ∉ (t.conn h.conn).got → (t.pcie (t.connFn h.conn)).busMaster →
      (∀ fn a, t.winCheck h.conn h.body.key h.body.off h.body.payload.length 12 = some (fn, a) → t.xReach fn →
        (h.body.op = oWrite → exec (.write k) s = .next (((t.xWrite fn a h.body.payload).acceptPsn h.conn h).xptTake k).settle) ∧
        (h.body.op = oWriteImm → exec (.writeImm k) s =
          .next ((((t.xWrite fn a h.body.payload).notePacket h.conn h p 1 0 false).acceptPsn h.conn h).xptTake k).settle)) ∧
      (∀ x, h.body.op = oSend → (t.conn h.conn).sends.find? (fun x => x.ssn == h.body.key) = some x →
        (x.bufs ≠ [] → exec (.send k) s = .next ((t.placeSend h p x).xptTake k).settle) ∧
        (x.bufs = [] → exec (.send k) s = .next ((t.refusePkt h.conn h p 2).xptTake k).settle)) ∧
      (∀ a n, h.body.op = oReadReq → n = beNat (slice h.body.payload 0 4) → 4 ≤ h.body.payload.length →
        (∀ reply, t.winCheck h.conn h.body.key h.body.off n 13 = some (none, a) → exec (.readReq k reply) s =
          .next (((t.acceptPsn h.conn h).postResponse h.conn { body := { op := oReadResp, msgId := h.body.msgId, payload := t.xRead none a n }, len := n }).xptTake k).settle) ∧
        (∀ f r, t.winCheck h.conn h.body.key h.body.off n 13 = some (some f, a) → t.dmaOk f → t.readPending f (· == .sarup h.conn h.psn) = false →
          cplError r = none → exec (.readReq k (some r)) s = .next ((((t.linkCount f 1 1).acceptPsn h.conn h).postResponse h.conn
            { body := { op := oReadResp, msgId := h.body.msgId, payload := (t.linkCount f 1 1).xRead (some f) a n }, len := n }).xptTake k).settle)) ∧
      (h.body.op = oFetchAdd → 8 ≤ h.body.payload.length → ∀ (a : Nat) (new : Nat → Nat), new = (fun old => (old + beNat (slice h.body.payload 0 8)) % 2 ^ 64) →
        (∀ reply, t.winCheck h.conn h.body.key h.body.off 8 14 = some (none, a) → exec (.fetchAdd k reply) s =
          .next ((((t.xWrite none a (natLe 8 (new (leNat (t.xRead none a 8))))).acceptPsn h.conn h).postResponse h.conn
            { body := { op := oAtomicResp, msgId := h.body.msgId, payload := natBe 8 (leNat (t.xRead none a 8)) }, fixed := true }).xptTake k).settle) ∧
        (∀ f r u, t.winCheck h.conn h.body.key h.body.off 8 14 = some (some f, a) → t.dmaOk f → t.readPending f (· == .sarup h.conn h.psn) = false →
          cplError r = none → u = t.linkCount f 1 1 → exec (.fetchAdd k (some r)) s =
          .next ((((u.xWrite (some f) a (natLe 8 (new (leNat (u.xRead (some f) a 8))))).acceptPsn h.conn h).postResponse h.conn
            { body := { op := oAtomicResp, msgId := h.body.msgId, payload := natBe 8 (leNat (u.xRead (some f) a 8)) }, fixed := true }).xptTake k).settle)) ∧
      (h.body.op = oCas → 16 ≤ h.body.payload.length → ∀ (a : Nat) (new : Nat → Nat), new = (fun old => if old = beNat (slice h.body.payload 0 8) then beNat (slice h.body.payload 8 8) else old) →
        (∀ reply, t.winCheck h.conn h.body.key h.body.off 8 14 = some (none, a) → exec (.cas k reply) s =
          .next ((((t.xWrite none a (natLe 8 (new (leNat (t.xRead none a 8))))).acceptPsn h.conn h).postResponse h.conn
            { body := { op := oAtomicResp, msgId := h.body.msgId, payload := natBe 8 (leNat (t.xRead none a 8)) }, fixed := true }).xptTake k).settle) ∧
        (∀ f r u, t.winCheck h.conn h.body.key h.body.off 8 14 = some (some f, a) → t.dmaOk f → t.readPending f (· == .sarup h.conn h.psn) = false →
          cplError r = none → u = t.linkCount f 1 1 → exec (.cas k (some r)) s =
          .next ((((u.xWrite (some f) a (natLe 8 (new (leNat (u.xRead (some f) a 8))))).acceptPsn h.conn h).postResponse h.conn
            { body := { op := oAtomicResp, msgId := h.body.msgId, payload := natBe 8 (leNat (u.xRead (some f) a 8)) }, fixed := true }).xptTake k).settle)) ∧
      (∀ x r u, h.body.op = oReadResp → t.xReach (t.localFn (t.connFn h.conn) (t.connQueue h.conn)) → t.request h.conn 3 h.body.msgId = some (x, r) →
        u = (t.xWrite (t.localFn (t.connFn h.conn) (t.connQueue h.conn)) (r.addr + h.body.off) h.body.payload).onPair (t.connQueue h.conn) (fun q => { q with
          chains := q.chains.map fun y => if y.id = x.id then { y with sarup := some { r with placed := r.placed + h.body.payload.length } } else y }) →
        (r.placed + h.body.payload.length < x.len → exec (.readResp k) s = .next ((u.acceptPsn h.conn h).xptTake k).settle) ∧
        (x.len ≤ r.placed + h.body.payload.length → exec (.readResp k) s =
          .next (((u.endRequests (t.connQueue h.conn) (fun y _ => y.id == x.id) stOk).acceptPsn h.conn h).xptTake k).settle)) ∧
      (h.body.op = oAtomicResp → exec (.atomicResp k) s = .next (((t.endRequests (t.connQueue h.conn) (fun _ r => r.on h.conn &&
        (r.op == 4 || r.op == 5) && r.msgId == h.body.msgId) stOk (beNat (slice h.body.payload 0 8))).acceptPsn h.conn h).xptTake k).settle) ∧
      (h.body.op = oFlushResp → exec (.flushResp k) s = .next (((t.endRequests (t.connQueue h.conn) (fun _ r => r.on h.conn &&
        r.op == 6 && r.msgId == h.body.msgId) stOk).acceptPsn h.conn h).xptTake k).settle) ∧
      (h.body.op = oFlush → exec (.flush k) s = .next (((t.onConn h.conn fun c => { c with
        flushes := c.flushes ++ [(h.psn, h.body.msgId)] }).acceptPsn h.conn h).xptTake k).settle))

/-- Whatever its opcode, a packet that the unit accepts whose PSN lies in [B - 2^31, B), or whose bit is already set, is counted as a duplicate and acknowledged, and leaves the unit: no placement, no execution and no notification stands in the next state, whatever its payload, its window, or how a read ends. Spec (R347): "It is never placed, never executed and never notified." -/
def Obligations.SarupDuplicates : Prop :=
  ∀ (s : State) (k g : Nat) (p : Packet) (h : SarupIn) (t : State) (reply : Option CplStatus), s.xpt.input[k]? = some (g, p) →
    s.sarupFate g p.bytes = .packet h → t = s.touchCtx h.conn →
    2 ^ 31 ≤ psnDiff h.psn (t.conn h.conn).recvBase ∨ psnDiff h.psn (t.conn h.conn).recvBase < 1024 ∧ h.psn ∈ (t.conn h.conn).got →
    ∀ u, u = (((t.bump .XPT_STAT 0 3).sendAck h.conn).xptTake k).settle →
    (h.body.op = oWrite → exec (.write k) s = .next u) ∧ (h.body.op = oWriteImm → exec (.writeImm k) s = .next u) ∧ (h.body.op = oSend → exec (.send k) s = .next u) ∧
    (h.body.op = oReadReq → exec (.readReq k reply) s = .next u) ∧ (h.body.op = oReadResp → exec (.readResp k) s = .next u) ∧ (h.body.op = oFetchAdd → exec (.fetchAdd k reply) s = .next u) ∧
    (h.body.op = oCas → exec (.cas k reply) s = .next u) ∧ (h.body.op = oAtomicResp → exec (.atomicResp k) s = .next u) ∧ (h.body.op = oFlush → exec (.flush k) s = .next u) ∧
    (h.body.op = oFlushResp → exec (.flushResp k) s = .next u)

/-- Whatever its opcode, a packet that the unit accepts whose PSN lies in [B + 1,024, B + 2^31) is dropped: the count of beyond-window drops rises by one, source 22 of group 27 fires, and the packet leaves the unit; nothing is placed and no acknowledgement is sent. It rests on R346, R361, R362, 13_sarup_remote_memory. -/
def Obligations.SarupBeyondWindow : Prop :=
  ∀ (s : State) (k g : Nat) (p : Packet) (h : SarupIn) (t : State) (reply : Option CplStatus), s.xpt.input[k]? = some (g, p) →
    s.sarupFate g p.bytes = .packet h → t = s.touchCtx h.conn →
    1024 ≤ psnDiff h.psn (t.conn h.conn).recvBase → psnDiff h.psn (t.conn h.conn).recvBase < 2 ^ 31 →
    ∀ u, u = (((t.bump .XPT_STAT 0 4).fire 27 22 0 initXpt).xptTake k).settle →
    (h.body.op = oWrite → exec (.write k) s = .next u) ∧ (h.body.op = oWriteImm → exec (.writeImm k) s = .next u) ∧ (h.body.op = oSend → exec (.send k) s = .next u) ∧
    (h.body.op = oReadReq → exec (.readReq k reply) s = .next u) ∧ (h.body.op = oReadResp → exec (.readResp k) s = .next u) ∧ (h.body.op = oFetchAdd → exec (.fetchAdd k reply) s = .next u) ∧
    (h.body.op = oCas → exec (.cas k reply) s = .next u) ∧ (h.body.op = oAtomicResp → exec (.atomicResp k) s = .next u) ∧ (h.body.op = oFlush → exec (.flush k) s = .next u) ∧
    (h.body.op = oFlushResp → exec (.flushResp k) s = .next u)

/-- Out of NIGHT, not BUSY and with source 23 of group 27 not fatal, WIN_WRITE of an enabled window sets REFUSED and RESULT 1 (WINDOW_BUSY) of XPT_CMD_STATUS and fires its source; every byte of DDR, of every host and of engine memory, every other register and every unit stays as it was. It rests on R355, R361, 13_sarup_remote_memory. -/
def Obligations.EnabledWindowKept : Prop :=
  ∀ (s : State) (req : Requester) (w : Word), s.mode ≠ NIGHT → Quiet s → Mild s 27 23 → wfld w XPT_CMD.OP = 4 → s.isSet XPT_CMD_STATUS.BUSY = false →
    s.winEn (wfld w XPT_CMD.INDEX) → Completes (.winWrite req w) s fun t =>
      Only (.XPT_CMD_STATUS :: gongRegs) s t ∧ SameMemory s t ∧ t.fld XPT_CMD_STATUS.REFUSED = 1 ∧ t.fld XPT_CMD_STATUS.RESULT = 1

/-- A controller whose host enables it takes up its admin queues; it is ready once the front end serves; a disable ends its commands and resets it, a shutdown stops it and is complete when nothing is left. A doorbell moves a tail or a head, and waiting completions go out. The queue whose turn it is has its entry read, taken, or read again after an error. A held command that the ordering rules allow is dispatched by its row. NS_WRITE, NS_READ, ATTACH and DETACH act, out of NIGHT, where nothing is busy, and resources are assigned to a disabled NVMe function. It rests on R315, R363, R364, R365, R366, R367, R368, R369, R370, R373, R374. -/
def Obligations.StorageControllersComplete : Prop :=
  ∀ (s : State) (req : Requester) (f : Fin 2080) (v : BitVec 32) (w : Word) (q : Nat) (c : NvmCtl), c = s.nvmCtl f →
    (s.isNvmeFn f → s.hostReaches f → ∀ t d, t = s.hostTlp f → d = t.nvmCtl f →
      (bitOf v.toNat 0 → d.enabled = false → d.rdy = false → exec (.ccEnable f v) s = .next (t.onCtl f fun c => { c with
        cc := v.toNat, shst := 0, features := c.features.set 0 6 (t.fld NVM_FN_CFG.VWC_DEFAULT 0 f),
        sqs := c.sqs.set {} 0 { base := page4k c.asq, size := bits c.aqa 11 0 + 1 },
        cqs := c.cqs.set {} 0 { base := page4k c.acq, size := bits c.aqa 27 16 + 1, irq := true } }).settle) ∧
      (bitOf v.toNat 0 = false → d.enabled → exec (.ccDisable f v) s = .next ((t.endController f).nvmReset f v.toNat).settle) ∧
      (bits v.toNat 15 14 ≠ 0 → bitOf v.toNat 0 → d.enabled →
        exec (.ccShutdown f v) s = .next (t.onCtl f fun c => { c with cc := v.toNat, shst := if c.shst = 0 then 1 else c.shst }).settle) ∧
      (d.enabled → v.toNat % 65536 < (d.sq q).size →
        exec (.sqDoorbell f q v) s = .next (t.onSq f q fun x => { x with tail := v.toNat % 65536 }).settle) ∧
      (d.enabled → v.toNat % 65536 < (d.cq q).size → exec (.cqDoorbell f q v) s =
        .next ((t.onCq f q fun x => { x with head := v.toNat % 65536 }).postWaiting f q (d.cq q).waiting.length).settle)) ∧
    (c.enabled → s.isSet NVM_CFG.EN → s.inService → s.isSet NVM_FN_RES.VALID 0 f → s.fnInReset f = false →
      exec (.cstsRdySet f) s = .next (s.onCtl f fun c => { c with rdy := true })) ∧
    (c.shst = 1 → (∀ m ∈ s.nvm.cmds, m.fn = f.val → m.stage = .event) → s.nvm.dirty = 0 →
      exec (.shutdownComplete f) s = .next (s.onCtl f fun c => { c with shst := 2 })) ∧
    (s.ctlFetches f → s.nextSq f = some q → s.readPending f (· == .nvmeCommand f q) = false →
      exec (.commandFetch f q none) s = .next (s.issueRead f (.nvmeCommand f q)) ∧
      (∀ r, cplError r = none → exec (.commandFetch f q (some r)) s = .next ((s.linkCount f 1 1).fetchCmd f q).settle) ∧
      (∀ r e, cplError r = some e → exec (.commandFetch f q (some r)) s = .next (s.pcieError f e).settle)) ∧
    (∀ h m, s.nvmCmd h = some m → m.sq ≠ 0 → m.stage = .held → s.mayDispatch m →
      exec (.commandDispatch h) s = .next (s.toReady m).settle ∧
      (m.opcode = 0 → exec (.nvmeFlush h) s = .next (s.toReady m).settle) ∧ (m.opcode = 1 → exec (.nvmeWrite h) s = .next (s.toReady m).settle) ∧
      (m.opcode = 2 → exec (.nvmeRead h) s = .next (s.toReady m).settle) ∧ (m.opcode = 5 → exec (.compare h) s = .next (s.toReady m).settle) ∧
      (m.opcode = 8 → exec (.writeZeroes h) s = .next (s.toReady m).settle) ∧
      (m.opcode = 9 → exec (.datasetManagement h) s = .next (s.toReady m).settle)) ∧
    (s.mode ≠ NIGHT → ∀ n k g, n = wfld w NVM_CMD.NS → k = wfld w NVM_CMD.NSID → g = wfld w NVM_CMD.FUNCTION →
      (wfld w NVM_CMD.OP = 1 → (∀ a ∈ s.attachments, attached (s.attachment a.1 a.2) → attNs (s.attachment a.1 a.2) = n →
          attDirty (s.attachment a.1 a.2) = 0 ∧ s.attBusy a.1 a.2 = false) →
        ∀ d u, d = (fun i => (s.raw .NVM_CMD_DATA 0 i).toNat) →
        u = s.onNvm (fun x => { x with ns := (((x.ns.set 0 (4 * n) (d 0 % 2 ^ 52)).set 0 (4 * n + 1) (d 1 % 65536)).set 0 (4 * n + 2) (d 2)).set 0 (4 * n + 3) (d 3) }) →
        exec (.nsWrite req w) s = .next (u.put NVM_CMD_STATUS.RESULT 0).settle) ∧
      (wfld w NVM_CMD.OP = 2 → exec (.nsRead req w) s = .next (((List.range 4).foldl (fun t i => t.setRaw .NVM_CMD_DATA 0 i (BitVec.ofNat 64 (s.nsWord n i))) s).put
        NVM_CMD_STATUS.RESULT 0).settle) ∧
      (wfld w NVM_CMD.OP = 3 → g < 2080 → 0 < k → k ≤ 256 → s.isNvmeFn g → attached (s.attachment g k) = false → bitOf (s.nsWord n 0) 49 →
        exec (.attach req w) s = .next (((s.setAttachment g k (n + 2 ^ 12)).put NVM_CMD_STATUS.RESULT 0).nsChanged g k).settle) ∧
      (wfld w NVM_CMD.OP = 4 → g < 2080 → 0 < k → k ≤ 256 → s.isNvmeFn g → attached (s.attachment g k) → attDirty (s.attachment g k) = 0 → s.attBusy g k = false →
        exec (.detach req w) s = .next (((s.setAttachment g k 0).put NVM_CMD_STATUS.RESULT 0).nsChanged g k).settle)) ∧
    (s.mode ≠ NIGHT → s.isNvmeFn f → c.enabled = false → wfld w NVM_FN_RES.VALID = 0 ∨ s.nvmResRefused f w = false →
      exec (.fnResWrite req f w) s = .next (s.writeReg .NVM_FN_RES 0 f w).settle)

/-- An admin command that a controller holds is carried out as R363 to R365 and R380 give it and ends with its status: a queue is made or removed where its identifier, size, page and vector are allowed, a log page or an Identify structure goes to the host, a waiting command is aborted, a feature is set or read, an event request stays outstanding (at most four). A thread's TAKE gives the command at the front of its cluster's ready queue, COMPLETE ends one, MARK changes a DIRTY count that does not fall below 0, and DEFER records a deferred error. It rests on R363, R364, R365, R368, R370, R371, R372, R378, R380. -/
def Obligations.StorageCommandsComplete : Prop :=
  ∀ (s : State) (h : Nat) (m : NvmCmd) (c : NvmCtl), c = s.nvmCtl m.fn →
    (∀ cq, s.adminCmd h 1 = some m → cq = bits (m.dw 11) 31 16 → bits c.cc 19 16 = 6 → 2 ≤ m.qsize → m.qid ≠ 0 → m.qid ≤ s.nvmPairs m.fn → (c.sq m.qid).size = 0 →
      cq ≠ 0 → cq ≤ s.nvmPairs m.fn → (c.cq cq).size ≠ 0 → bitOf (m.dw 11) 0 → m.prp1 % c.page = 0 →
      exec (.createIoSq h) s = .next ((s.onSq m.fn m.qid fun _ => { base := m.prp1, size := m.qsize, cq }).endCmd m ncOk).settle) ∧
    (∀ iv, s.adminCmd h 5 = some m → iv = bits (m.dw 11) 31 16 → bits c.cc 23 20 = 4 → 2 ≤ m.qsize → m.qid ≠ 0 → m.qid ≤ s.nvmPairs m.fn → (c.cq m.qid).size = 0 →
      iv < s.nvmVectors m.fn → bitOf (m.dw 11) 0 → m.prp1 % c.page = 0 → exec (.createIoCq h) s =
        .next ((s.onCq m.fn m.qid fun _ => { base := m.prp1, size := m.qsize, vector := iv, irq := bitOf (m.dw 11) 1 }).endCmd m ncOk).settle) ∧
    (s.adminCmd h 0 = some m → m.qid ≠ 0 → (c.sq m.qid).size ≠ 0 → exec (.deleteIoSq h) s =
      .next (((s.endCmds (fun x => x.fn == m.fn && x.sq == m.qid) ncSqDeleted 4).onSq m.fn m.qid fun _ => {}).endCmd m ncOk).settle) ∧
    (s.adminCmd h 4 = some m → m.qid ≠ 0 → (c.cq m.qid).size ≠ 0 → (∀ e ∈ c.sqs.entries, e.1 = 0 ∨ e.2.cq ≠ m.qid) →
      exec (.deleteIoCq h) s = .next ((s.onCq m.fn m.qid fun _ => {}).endCmd m ncOk).settle) ∧
    (∀ page len off r, s.adminCmd h 2 = some m → s.logPage m.fn (bits (m.dw 10) 7 0) = some page → bits (m.dw 10) 7 0 = 1 ∨ bits (m.dw 10) 7 0 = 4 →
      len = 4 * (bits (m.dw 10) 31 16 + 65536 * bits (m.dw 11) 15 0 + 1) → off = m.dw 12 + 2 ^ 32 * m.dw 13 → off ≤ page.length → off % 4 = 0 →
      s.adminData m (slice page off (min len (2 ^ 21))) = (r, true) → bitOf (m.dw 10) 15 →
      exec (.getLogPage h) s = .next ((r.endCmd m ncOk).sendNotice m.fn).settle) ∧
    (∀ r, s.adminCmd h 6 = some m → bits (m.dw 10) 7 0 = 1 → s.adminData m (s.identifyCtl m.fn) = (r, true) →
      exec (.identify h) s = .next (r.endCmd m ncOk).settle) ∧
    (∀ r, s.adminCmd h 6 = some m → bits (m.dw 10) 7 0 = 0 → 0 < m.nsid → m.nsid ≤ 256 → attached (s.attachment m.fn m.nsid) →
      s.adminData m (s.identifyNs (attNs (s.attachment m.fn m.nsid))) = (r, true) → exec (.identify h) s = .next (r.endCmd m ncOk).settle) ∧
    (∀ x rest, s.adminCmd h 8 = some m → s.nvm.cmds = x :: rest → x.fn = m.fn → x.sq = m.qid → x.sq ≠ 0 → x.cid = bits (m.dw 10) 31 16 → x.stage = .held →
      exec (.abort h) s = .next (((s.endCmd x ncAborted).nvmStat 8).endCmd m ncOk 0).settle) ∧
    (s.adminCmd h 8 = some m → (∀ x ∈ s.nvm.cmds, x.cid ≠ bits (m.dw 10) 31 16) → exec (.abort h) s = .next ((s.nvmStat 9).endCmd m ncOk 1).settle) ∧
    (∀ fid, s.adminCmd h 9 = some m → fid = bits (m.dw 10) 7 0 → fid = 1 ∨ fid = 0x0B → bitOf (m.dw 10) 31 = false → exec (.setFeatures h) s =
      .next (((s.onCtl m.fn fun c => { c with features := c.features.set 0 fid (m.dw 11) }).endCmd m ncOk).sendNotice m.fn).settle) ∧
    (∀ fid, s.adminCmd h 0x0A = some m → fid = bits (m.dw 10) 7 0 → fid = 1 ∨ fid = 6 ∨ fid = 8 ∨ fid = 0x0B ∨ fid = 0xC0 →
      exec (.getFeatures h) s = .next (s.endCmd m ncOk (c.features.get 0 fid)).settle) ∧
    (s.adminCmd h 0x0A = some m → bits (m.dw 10) 7 0 = 7 → exec (.getFeatures h) s = .next (s.endCmd m ncOk (s.queueCounts m.fn)).settle) ∧
    (s.adminCmd h 0x0C = some m → (s.nvm.cmds.filter fun x => x.fn == m.fn && x.stage == .event).length < 4 →
      exec (.asyncEventRequest h) s = .next ((s.onCmd h fun x => { x with stage := .event }).sendNotice m.fn).settle) ∧
    (∀ x u, u = s.takeMsg 0 →
      (∀ rest k, s.message 0 6 1 = some x → u.nvm.ready.get [] (clusterOf x.thread) = k :: rest → x.epoch = u.epoch (clusterOf x.thread) → u.nvmCmd k = some m →
        Completes (.take 0) s fun t => ∃ ws, ws.length = 7 ∧ ws.head? = some (BitVec.ofNat 64 (m.dw 0 + 2 ^ 32 * m.nsid)) ∧ t = ((u.onNvm fun n => { n with
          ready := n.ready.set [] (clusterOf x.thread) rest }).onCmd k fun y => { y with stage := .taken x.thread }).respond x 0 k ws) ∧
      (∀ w, s.message 0 6 2 = some x → u.nvmCmd (getBits (x.word 1) 31 0) = some m → w = x.word 2 → exec (.complete 0) s = .next
        (((u.endCmd m (nvmStatus (getBits w 42 40) (getBits w 39 32) (getBits w 43 43 == 1)) (getBits w 31 0)).nvmStat 1).respond x 0).settle) ∧
      (∀ f k v, f = getBits (x.word 1) 11 0 → k = getBits (x.word 1) 20 12 → f < 2080 → attached (u.attachment f k) →
        v = (attDirty (u.attachment f k) : Int) + signed 32 (getBits (x.word 1) 63 32) →
        (s.message 0 6 3 = some x → 0 ≤ v → exec (.mark 0) s = .next ((u.setDirty f k (min v.toNat (2 ^ 32 - 1))).respond x 0)) ∧
        (s.message 0 6 4 = some x → exec (.defer 0) s = .next ((u.deferError f k (x.word 2).toNat (getBits (x.word 3) 31 0)).respond x 0).settle)))

/-- Outside NIGHT and MIDNIGHT, not BUSY, a key command loads a key of a known algorithm at a free index, imports one whose wrapping is accepted and names the index, deletes one (BUSY while an operation uses it) or answers a query; the deletion completes when no operation uses the key. While booting, an image that passes its checks runs and a rejected one records its check and leads to TWILIGHT, or there waits for an image. A rollback counter is moved up to its limit, a measurement 6 to 15 is extended for the manager, and LOCKDOWN, glitch and OTP checks raise the security trigger. It rests on R393, R395, R404, R405, R406, R407, R414. -/
def Obligations.KeyCommandsComplete : Prop :=
  ∀ (s : State) (req : Requester) (w : Word) (i : Nat), i = wfld w CRY_KEY_CMD.INDEX →
    (s.mode ≠ NIGHT → s.mode ≠ MIDNIGHT → s.isSet CRY_KEY_STATUS.BUSY = false →
      (∀ r, wfld w CRY_KEY_CMD.OP = 1 → wfld w CRY_KEY_CMD.ALG ≤ 5 → s.readKey i = (r, none) →
        exec (.keyLoad req w) s = .next ((r.storeKey i (keyOf w s.keyData)).keyEnds krOk).settle) ∧
      (∀ r q kek blob plain n, wfld w CRY_KEY_CMD.OP = 2 → wfld w CRY_KEY_CMD.ALG ≤ 5 → s.readKey i = (r, none) → n = keyLength (wfld w CRY_KEY_CMD.ALG) →
        blob = r.ddrRead (s.raw .CRY_KEY_DATA 0 0).toNat (16 + n) → r.readKey (getBits (s.raw .CRY_KEY_DATA 0 1) 19 0) = (q, some kek) → kek.alg = 5 →
        algoOk algKeyUnwrap [kek.material, blob] → plain = algo algKeyUnwrap [kek.material, blob] (8 + n) → leAt plain 0 8 = getBits w 47 24 →
        exec (.keyImport req w) s = .next ((q.storeKey i (keyOf w (plain.drop 8))).keyEnds krOk).settle) ∧
      (∀ r k u, wfld w CRY_KEY_CMD.OP = 3 → s.readKey i = (r, some k) →
        u = (r.ddrWrite (s.keyAddr i) (List.replicate 128 0)).onSec (fun x => { x with cache := x.cache.filter fun e => e.1 != i, images := x.images.keep fun k => k != i }) →
        (u.keyInUse i = false → exec (.keyDelete req w) s = .next (u.keyEnds krOk).settle) ∧
        (u.keyInUse i → exec (.keyDelete req w) s = .next ((u.onSec fun x => { x with deleting := some i }).put CRY_KEY_STATUS.BUSY 1).settle)) ∧
      (∀ r k, wfld w CRY_KEY_CMD.OP = 4 → s.readKey i = (r, some k) → exec (.keyQuery req w) s =
        .next ((((r.put CRY_KEY_STATUS.VALID 1).put CRY_KEY_STATUS.ALG k.alg).put CRY_KEY_STATUS.USE k.use).keyEnds krOk).settle) ∧
      (∀ r, wfld w CRY_KEY_CMD.OP = 4 → s.readKey i = (r, none) → exec (.keyQuery req w) s =
        .next ((((r.put CRY_KEY_STATUS.VALID 0).put CRY_KEY_STATUS.ALG 0).put CRY_KEY_STATUS.USE 0).keyEnds krOk).settle)) ∧
    (s.sec.deleting = some i → s.keyInUse i = false →
      exec .keyDeleteComplete s = .next ((s.onSec fun x => { x with deleting := none }).keyEnds krOk)) ∧
    (∀ img, s.booting → s.sec.waitsImage = false →
      (s.imageCheck s.bootKind img = 0 → exec (.imageAccepted img) s = .next (s.runImage img (if s.mode = TWILIGHT then 3 else s.fld GLB_STRAPS.BOOT_SRC))) ∧
      (∀ (k : Fin 8) u, k.val ≠ 0 → k.val = 7 ∨ s.imageCheck s.bootKind img = k.val → u = (if k.val = 7 then ((s.put SEC_BOOT_STATUS.FAIL k).fire 29 1 0 initSec).fire 31 6 else (s.put SEC_BOOT_STATUS.FAIL k).fire 29 1 0 initSec) →
        (u.mode = TWILIGHT → exec (.imageRejected img k) s = .next (u.onSec fun x => { x with waitsImage := true }).settle) ∧
        (u.mode ≠ TWILIGHT → u.isSet GLB_MODE.TRANSIT = false → exec (.imageRejected img k) s = .next (u.beginTransition TWILIGHT false).settle))) ∧
    (s.mode ≠ NIGHT →
      (∀ c v n, c = wfld w SEC_ROLLBACK_CMD.COUNTER → v = wfld w SEC_ROLLBACK_CMD.VALUE → s.isSet SEC_ROLLBACK_CMD.BUSY = false →
        s.fld (SEC_ROLLBACK.COUNTER c) < v → s.rollbackLimit c = some n → v ≤ n → exec (.rollbackCmd req w) s =
          .next (((s.writeReg .SEC_ROLLBACK_CMD 0 0 w).put SEC_ROLLBACK_CMD.BUSY 1).onSec fun x => { x with rollback := some (c, v) }).settle) ∧
      (∀ k, k = wfld w SEC_MEASURE_EXTEND.INDEX → 6 ≤ k → isManager req → exec (.measureExtend req w) s =
        .next ((s.writeReg .SEC_MEASURE_EXTEND 0 0 w).extend k (wordBytes ((List.range 6).map fun k => s.raw .SEC_MEASURE_DATA 0 k)))) ∧
      (wfld w SEC_TRIGGER.LOCKDOWN = 1 → exec (.lockdown req w) s = .next ((s.writeReg .SEC_TRIGGER 0 0 w).securityTrigger 0).settle) ∧
      (wfld w SEC_TRIGGER.LOCKDOWN ≠ 1 → exec (.lockdown req w) s = .next (s.writeReg .SEC_TRIGGER 0 0 w).settle)) ∧
    (∀ c v, s.sec.rollback = some (c, v) → exec .rollbackDone s =
      .next (((s.put (SEC_ROLLBACK.COUNTER c) v).put SEC_ROLLBACK_CMD.BUSY 0).onSec fun x => { x with rollback := none })) ∧
    (s.isSet SEC_TRIGGER.GLITCH_EN → exec .glitchDetect s = .next (s.securityTrigger 1).settle) ∧
    (s.isSet SEC_TRIGGER.OTP_EN → exec (.otpCheck false) s = .next (s.securityTrigger 2).settle) ∧
    exec (.otpCheck true) s = .next s.settle

/-- Out of NIGHT, a request by MCTP (requester 2 or 3) is carried out at once: a nonce is given; a signed command whose status is good and whose code is that of the row has its effect, uses its nonce up and is answered; an image that passes its checks runs. A request of requester 0 is posted in its mailbox and served with what waits there; served with room for the answer, LIFECYCLE_ADVANCE moves the life cycle on and SLOT_PROGRAM stores the hash of its keys. A message of MCTP that is SPDM is answered on its port. It rests on R405, R410, R411, R412, R413, R416, R417, R418. -/
def Obligations.RootOfTrustRequestsComplete : Prop :=
  ∀ (s : State) (msg : List Word), s.mode ≠ NIGHT →
    (∀ r : Fin 8, r = 2 ∨ r = 3 →
      (∀ n, opcodeOf msg = 0x41 → n = slice (Config.freeBytes s.free 48) 0 48 → exec (.getNonce r msg) s =
        .next ((s.drawn.onSec fun x => { x with nonces := ⟨Store.put r.val (n, s.up) x.nonces.entries⟩ }).rotReply r msg rotOk n).settle) ∧
      (∀ code c t v, opcodeOf msg = 0x42 → s.fld SEC_LIFECYCLE.STATE ≠ 3 → s.sec.refuseUntil.get 0 r ≤ s.up → c = s.rotRead r msg 8192 → cmdCode c = code →
        s.signedStatus r c = rotOk → s.signedEffect c = some t →
        v = ((t.onSec fun x => { x with nonces := x.nonces.keep fun k => k != r.val, rejects := x.rejects.set 0 r 0 }).rotReply r msg rotOk).settle →
        (code = 1 → exec (.recover r msg) s = .next v) ∧ (code = 2 → exec (.slotRevoke r msg) s = .next v) ∧
        (code = 3 → exec (.retire r msg) s = .next v) ∧ (code = 4 → exec (.debugUnlock r msg) s = .next v)) ∧
      (∀ n img, opcodeOf msg = 0x43 → s.sec.waitsImage → n = getBits (msg.getD 2 0) 63 0 → n ≤ 0x2000000 → img = s.rotRead r msg n →
        s.imageCheck s.bootKind img = 0 → exec (.imageLoad r msg) s = .next ((s.runImage img 2).rotReply r msg rotOk).settle)) ∧
    (∀ t, t = (s.mbxPost 2096 false msg msg.length).1 →
      (opcodeOf msg = 0x44 → exec (.lifecycleAdvance 0 msg) s = .next (t.secServe 2096).settle) ∧
      (opcodeOf msg = 0x45 → exec (.slotProgram 0 msg) s = .next (t.secServe 2096).settle)) ∧
    (∀ x rest u, (s.mbox 2096).toFar = x :: rest → roomOf (s.mbox 2096).toMgr ≠ 0 → u = s.mbxPop 2096 false →
      (getBits (x.words.getD 0 0) 7 0 = 0x44 → u.fld SEC_LIFECYCLE.STATE = 0 →
        s.secTake 2096 = ((u.put SEC_LIFECYCLE.STATE 1).fire 29 6 0 initSec).rotReply 0 x.words rotOk) ∧
      (∀ k a, getBits (x.words.getD 0 0) 7 0 = 0x45 → k = (x.words.getD 2 0).toNat → a = (x.words.getD 1 0).toNat → k < 4 → u.fld SEC_LIFECYCLE.STATE < 2 →
        bitOf (u.fld SEC_SLOT_STATUS.PROGRAMMED) k = false → 2 ^ 40 ≤ a → a + 2689 ≤ 2 ^ 40 + 2 ^ 39 →
        s.secTake 2096 = ((u.put ⟨.SEC_SLOT_STATUS, k, k⟩ 1).onSec fun y => { y with slots := y.slots.set [] k (hash384 (u.ddrRead (a - 2 ^ 40) 2689)) }).rotReply 0 x.words rotOk)) ∧
    (∀ (p : Fin 2) bs,
      (∀ q, q = s.spdmReply false (s.sec.mctpSignature.get [] p) bs → exec (.mctpMessage p true bs) s =
        .next (s.drawn.onSec fun x => { x with mctp := (p.val, q.1) :: x.mctp, mctpSignature := x.mctpSignature.set [] p q.2 })) ∧
      exec (.mctpMessage p false bs) s = .next (s.rotRequest (2 + p) (leWords 3 bs ++ leWords ((bs.length - 24 + 7) / 8) (bs.drop 24))).settle)

/-- Outside NIGHT and MIDNIGHT, not BUSY, a LOAD or IMPORT of a known algorithm at an index that holds a key ends with RESULT 1 (KEY_BUSY) and REFUSED set and stores nothing: the key, its image and the rest of DDR are as the look-up left them. However a key command ends, CRY_KEY_DATA0 to 7 read zero then, so no command leaves a key there. It rests on R393, 15_crypto_root_of_trust. -/
def Obligations.KeysStayIn : Prop :=
  (∀ (s : State) (req : Requester) (w : Word) (r : State) (k : KeyEntry) (u : State), s.mode ≠ NIGHT → s.mode ≠ MIDNIGHT → s.isSet CRY_KEY_STATUS.BUSY = false →
      wfld w CRY_KEY_CMD.ALG ≤ 5 → s.readKey (wfld w CRY_KEY_CMD.INDEX) = (r, some k) → u = r.keyEnds krBusy →
      (wfld w CRY_KEY_CMD.OP = 1 → exec (.keyLoad req w) s = .next u.settle) ∧ (wfld w CRY_KEY_CMD.OP = 2 → exec (.keyImport req w) s = .next u.settle) ∧
      Only [.CRY_KEY_STATUS, .CRY_KEY_DATA] r u ∧ u.fld CRY_KEY_STATUS.RESULT = 1 ∧ u.fld CRY_KEY_STATUS.REFUSED = 1) ∧
    ∀ (s : State) (result j : Nat), j < 8 → (s.keyEnds result).raw .CRY_KEY_DATA 0 j = 0

/-- Out of NIGHT, a flow counter pair is read, cleared or all are flushed to DDR; a record block closes when its time is over; a snapshot copies a histogram's counts with the time of now, and clears them where CLEAR_ON_SNAP is set; a sketch's banks flip where the inactive one is cleared, else the write is refused and changes only REFUSED; a clear begins and, done, leaves the inactive bank zero and CLEARED set; a query gives the estimate of the key. It rests on R426, R430, R431, R434, R436, R437. -/
def Obligations.TelemetryCommandsComplete : Prop :=
  ∀ (s : State) (req : Requester) (w : Word),
    (s.mode ≠ NIGHT →
      (∀ i u, i = wfld w CMP_FC_CMD.INDEX → u = s.spillPair i →
        (wfld w CMP_FC_CMD.OP = 1 → exec (.fcRead req w) s = .next ((u.setRaw .CMP_FC_DATA 0 0 (BitVec.ofNat 64 (leNat (u.ddrRead (u.pairAddr i) 8)))).setRaw .CMP_FC_DATA 0 1
          (BitVec.ofNat 64 (leNat (u.ddrRead (u.pairAddr i + 8) 8))))) ∧
        (wfld w CMP_FC_CMD.OP = 2 → exec (.fcClear req w) s = .next (u.ddrWrite (s.pairAddr i) (List.replicate 16 0)))) ∧
      (wfld w CMP_FC_CMD.OP = 3 → exec (.fcFlush req w) s = .next s.spillAll) ∧
      (∀ (h : Fin 32) u, u = s.writeReg .CMP_HIST_CFG 0 h (w &&& ~~~(BitVec.ofNat 64 32)) → wfld w CMP_HIST_CFG.SNAP = 1 →
        (u.isSet CMP_HIST_CFG.CLEAR_ON_SNAP 0 h = false → exec (.histSnap req h w) s =
          .next { u with tel := { u.tel with hists := u.tel.hists.modify {} h fun x => { x with snap := x.counts, snapTs := u.ts64, snapDegraded := x.degraded } } }) ∧
        (u.isSet CMP_HIST_CFG.CLEAR_ON_SNAP 0 h → exec (.histSnap req h w) s =
          .next { u with tel := { u.tel with hists := u.tel.hists.modify {} h fun x => { x with snap := x.counts, snapTs := u.ts64, snapDegraded := x.degraded, counts := {}, degraded := 0 } } })) ∧
      (∀ (p : Fin 8) u, (s.isSet CMP_SK_CFG.EN 0 p → wfld w CMP_SK_CFG.MODE = s.fld CMP_SK_CFG.MODE 0 p ∧ wfld w CMP_SK_CFG.PROF = s.fld CMP_SK_CFG.PROF 0 p) →
        u = s.writeReg .CMP_SK_CFG 0 p (w &&& ~~~(BitVec.ofNat 64 0x300)) →
        (wfld w CMP_SK_CFG.SWAP = 1 → wfld w CMP_SK_CFG.CLEAR = 0 →
          (s.isSet CMP_SK_CFG.CLEARED 0 p → exec (.sketchSwap req p w) s =
            .next ((u.put CMP_SK_CFG.ACTIVE (1 - u.fld CMP_SK_CFG.ACTIVE 0 p) 0 p).put CMP_SK_CFG.CLEARED 0 0 p).settle) ∧
          (s.isSet CMP_SK_CFG.CLEARED 0 p = false → exec (.sketchSwap req p w) s = .next ((s.put CMP_SK_CFG.REFUSED 1 0 p).fire 22 19 0 initCmp).settle)) ∧
        (wfld w CMP_SK_CFG.SWAP = 0 → wfld w CMP_SK_CFG.CLEAR = 1 → exec (.sketchClear req p w) s = .next (u.clearSketch p).settle)) ∧
      (∀ p key e, wfld w CMP_SK_QUERY.GO = 1 → p = wfld w CMP_SK_QUERY.SKETCH →
        key = (wordBytes ((List.range 8).map fun i => s.raw .CMP_SK_KEY 0 i)).take (s.profileLength p (s.fld CMP_SK_CFG.PROF 0 p)) → e = s.estimate p key →
        exec (.sketchQuery req w) s = .next ((s.put CMP_SK_RESULT.ESTIMATE e).put CMP_SK_RESULT.SATURATED (b2n (e == 2 ^ 32 - 1))))) ∧
    (s.tel.block ≠ [] → s.tel.blockAt + ofMs (max 1 (s.fld CMP_REC_CFG.CLOSE_MS)) ≤ s.up → exec .recordBlockClose s = .next s.closeBlock.settle) ∧
    (∀ (p : Fin 8) u, p.val ∈ s.tel.clearing → u = s.zeroBank p (1 - s.fld CMP_SK_CFG.ACTIVE 0 p) → exec (.sketchClearDone p) s =
      .next (State.put { u with tel := { u.tel with clearing := u.tel.clearing.filter (· != p.val) } } CMP_SK_CFG.CLEARED 1 0 p))

/-- Out of NIGHT: a write of GLB_CC_CTL in service clears the wait and debug status of every hart that it holds in reset and gives a cluster that ran its next epoch; where its place is reached, a post puts LEN staged words in the mailbox of the place; a pop removes the message at the front; a reset of the manager's side discards every queue toward it, zeroes the staged words, raises its epoch modulo 16 and fires source 3 of group 30. A timer at or before the time ends its hart's WFI, and a message unread for its timeout sets TIMEOUT. It rests on R442, R443, R444, R447, R448, R449, R450, R451, R453, R454. -/
def Obligations.MailboxCommandsComplete : Prop :=
  ∀ (s : State) (req : Requester) (w : Word),
    (s.mode ≠ NIGHT →
      (∀ u, u = s.writeReg .GLB_CC_CTL 0 0 w → s.mode ≠ DAWN → s.mode ≠ TWILIGHT → exec (.ccRun req w) s =
        .next (((List.range 2).filter fun c => !bitOf (u.fld GLB_CC_CTL.RUN) c).foldl (fun t c =>
          if bitOf (s.fld GLB_CC_CTL.RUN) c then (t.holdCores (c + 1)).onGong fun g =>
            { g with coreEpochs := g.coreEpochs.modify 0 (c + 1) fun e => (e + 1) % 16 } else t.holdCores (c + 1)) u)) ∧
      (∀ p m toMgr words len, s.placeReached p → s.mbxSide p = some (m, toMgr, words) → len = wfld w MBX_POST.LEN → isTokenPost toMgr words len = false → m < 2096 →
        exec (.post req p w) s = .next (s.mbxPost m toMgr words len).1.settle) ∧
      (∀ p m toMgr words, s.placeReached p → s.mbxSide p = some (m, toMgr, words) → m < 2096 → exec (.pop req p w) s = .next (s.mbxPop m (!toMgr)).settle) ∧
      (∀ u v, wfld w MBX_MGR_CTL.RESET = 1 → u = s.writeReg .MBX_MGR_CTL 0 0 w →
        v = (List.range 192).foldl (fun t i => t.setRaw .MBX_OUT_DATA 0 i 0) ((u.mbx.keys.filter (· ≤ 2096)).foldl (fun t m => t.mbxDiscard m true) u) →
        exec (.mgrReset req w) s = .next ((v.put MBX_MGR_CTL.EPOCH ((v.fld MBX_MGR_CTL.EPOCH + 1) % 16)).fire 30 3).settle)) ∧
    (∀ h : Fin 24, s.fld GLB_CC_MTIMECMP.CMP 0 h ≤ s.ts64 → exec (.mtimerExpiry h) s = .next (s.put ⟨.GLB_CC_STATUS, h, h⟩ 0)) ∧
    (∀ (m : Fin 2104) toMgr x rest, (s.mbox m).queue toMgr = x :: rest → x.posted + ofMs (s.mbxTimeout m) ≤ s.up → ((s.mbox m).flags toMgr).timeout = false →
      exec (.mailboxTimeout m toMgr) s = .next (s.mbxSetTimeout m toMgr).settle)

/-- With source 2 of group 30 (and source 0, for an absent receiver) not fatal: a post of LEN 0 or above 8 changes nothing but its counter; a post to a receiver that is present, whose queue has fewer than LEN free words, sets FULL for its sender; a post to an absent receiver sets TIMEOUT. Neither changes any queue of any mailbox, any staged word, any memory or any unit. A pop with no message changes nothing. It rests on R448, R449, R450, 17_control_cores_mailboxes. -/
def Obligations.MailboxRefusals : Prop :=
  ∀ (s : State) (req : Requester) (p : MbxPlace) (w : Word) (m : Nat) (toMgr : Bool) (words : List Word) (len : Nat), s.placeReached p → Quiet s →
    s.mbxSide p = some (m, toMgr, words) → m < 2096 →
    (len = wfld w MBX_POST.LEN → isTokenPost toMgr words len = false → Mild s 30 2 →
      (len = 0 ∨ 8 < len → exec (.post req p w) s = .next (s.bump .MBX_STAT 0 6)) ∧
      (0 < len → len ≤ 8 → s.mbxAbsent m toMgr = false → roomOf ((s.mbox m).queue toMgr) < len → Completes (.post req p w) s fun t =>
        t = { s with regs := t.regs, mbx := t.mbx } ∧ RegsBut (.MBX_STAT :: gongRegs) s t ∧
        t.mbox m = ((s.mbox m).onFlags toMgr fun g => { g with full := true }) ∧ ∀ k, k ≠ m → t.mbox k = s.mbox k) ∧
      (0 < len → len ≤ 8 → s.mbxAbsent m toMgr → Mild s 30 0 → Completes (.post req p w) s fun t =>
        t = { s with regs := t.regs, mbx := t.mbx } ∧ RegsBut (.MBX_STAT :: gongRegs) s t ∧
        t.mbox m = ((s.mbox m).onFlags toMgr fun g => { g with timeout := true }) ∧ ∀ k, k ≠ m → t.mbox k = s.mbox k)) ∧
    ((s.mbox m).queue (!toMgr) = [] → exec (.pop req p w) s = .next s)

/-- Out of NIGHT, GO fires the source it names with TYPE 6, CLR_COUNTS zeroes every GONG_COUNT, severities of a group without a set status bit are written. A test that passes a first time files its unit as transient, one that fails as lasting; the next test of its kind begins. Memory errors, stalls and faults of the board fire their sources and start the tests of R470. A rule set that fits is loaded, and is done when no packet waits under an old image. A step of the VDD_CORE regulator is acknowledged, or fails. It rests on R390, R391, R460, R461, R470, R471, R472, R478, R513, R521. -/
def Obligations.FaultCommandsComplete : Prop :=
  ∀ (s : State) (req : Requester) (w : Word),
    (s.mode ≠ NIGHT →
      (wfld w GONG_INJECT.GO = 1 → exec (.inject req w) s =
        .next (s.fire (wfld w GONG_INJECT.SOURCE / 32) (wfld w GONG_INJECT.SOURCE % 32) 0 (codeOf req) 6).settle) ∧
      (wfld w GONG_CFG.CLR_COUNTS = 1 → exec (.clrCounts req w) s =
        .next ((List.range 256).foldl (fun t i => t.setRaw .GONG_COUNT 0 i 0) ((s.writeReg .GONG_CFG 0 0 w).put GONG_CFG.CLR_COUNTS 0))) ∧
      (∀ g : Fin 32, g ≠ 0 → s.fld GONG_STATUS.SRC 0 g = 0 → exec (.sevWrite req g w) s = .next (s.writeReg .GONG_SEV 0 g w).settle) ∧
      (∀ u a len, wfld w SNR_LOAD.GO = 1 → u = s.writeReg .SNR_LOAD 0 0 w → a = page4k (u.fld SNR_LOAD.ADDR) → len = leNat (s.ddrRead a 8) →
        s.isSet SNR_LOAD.BUSY = false → len ≤ 2 ^ 23 → ceilDiv len 65536 ≤ s.snareBlocks.length →
        exec (.snareLoad req w) s = .next ((u.loadImage a len (u.fld SNR_LOAD.RULE_SET)).put SNR_LOAD.BUSY 1))) ∧
    (∀ (k : Fin 11) n x rest t, s.gong.running = x :: rest → x.kind = k.val → x.unit = n → k ≠ 4 →
      t = s.onGong (fun g => { g with running := g.running.filter fun y => !(y.kind == k.val && y.unit == n) }) →
      (t.gong.transient.any (fun e => e.kind == k.val && e.unit == n && decide (x.ts < e.ts + t.fld GONG_CFG.LASTING_S * 4000000000)) = false →
        exec (.selfTestDone k n true) s = .next ((t.transientUnit x).nextTest k).settle) ∧
      exec (.selfTestDone k n false) s = .next ((t.lasting x).nextTest k).settle) ∧
    (s.mode ≠ NIGHT → ∀ cls us, max 1 (s.fld GONG_CFG.STALL_US) ≤ us → exec (.stallDetect cls us) s = .next (s.fire 26 cls).settle) ∧
    (s.isSet SNR_LOAD.BUSY → (∀ p ∈ s.net.snare, ∀ i ∈ s.net.images, i.old → i.num ≠ p.image) → exec .snareLoadDone s =
      .next (State.put { s with net := { s.net with images := s.net.images.filter fun i => !i.old } } SNR_LOAD.BUSY 0)) ∧
    exec .ref25InMissing s = .next (s.fire 31 0).settle ∧
    (∀ (n : Fin 4) (l : Nat), l < 16 → s.linkExists l → s.refClock l = some n.val →
      exec (.pcieRefclkMissing n) s = .next (s.fire 31 (1 + n)).settle) ∧
    (s.mode ≠ NIGHT → ∀ c, exec (.dramOverTemperature c) s = .next (s.fire (18 + c / 4) (8 * (c % 4) + 5)).settle) ∧
    (∀ p, exec (.smbusBusError p) s = .next (s.fire 31 (7 + p)).settle) ∧
    exec .uartError s = .next (s.fire 31 9).settle ∧
    (s.mode ≠ NIGHT →
      (∀ (c : Fin 8) row addr unc u, u = (s.fire (18 + c / 4) (8 * (c % 4) + b2n unc) addr).startTest 2 (c.val + 8 * row.toNat) →
        exec (.memoryEccError (.ddr c row addr unc)) s = .next (if unc then u.poison 2 (c.val + 8 * row.toNat) else u).settle) ∧
      (∀ (c : Fin 8) (row : BitVec 26) addr, (2, c.val + 8 * row.toNat) ∈ s.gong.poisoned →
        exec (.memoryEccError (.poisonedDdr c row addr)) s = .next (s.fire (18 + c / 4) (8 * (c % 4) + 1) addr).settle) ∧
      (∀ c line, exec (.memoryEccError (.ccCache c line none)) s =
        .next ((s.fire 28 c (c.val + 4 * line.toNat)).startTest 9 (c.val + 4 * line.toNat)).settle) ∧
      (∀ c line h, exec (.memoryEccError (.ccCache c line (some h))) s =
        .next (((s.hartEvent (8 * c + h) 0x405 1).fire 28 c (c.val + 4 * line.toNat)).startTest 9 (c.val + 4 * line.toNat)).settle) ∧
      (∀ b r, exec (.memoryEccError (.sram b r .packetBuffer false .nobody)) s =
        .next ((s.fire 27 0 (b.val + 4096 * r.toNat)).startTest 1 (b.val + 4096 * r.toNat)).settle) ∧
      (∀ n, exec (.memoryEccError (.scanner n)) s = .next ((s.fire 23 n n initSnare).startTest 10 n).settle)) ∧
    (∀ v, s.avsStep = some v →
      exec .avsAck s = .next (State.put { s with modes := { s.modes with avsFails := 0 } } PWR_AVS.REQUEST_MV v) ∧
      (s.modes.avsFails = 2 → exec .avsAckTimeout s = .next (State.put { s with modes := { s.modes with avsFails := 3 } } PWR_AVS.ACK_ERR 1)) ∧
      (s.modes.avsFails < 2 → exec .avsAckTimeout s = .next { s with modes := { s.modes with avsFails := s.modes.avsFails + 1 } }))

/-- For every source whose severity is not fatal, GO of GONG_INJECT adds one to the source's GONG_COUNT, which saturates. A masked source does no more. Any other sets the source's status bit; while VALID is 0 the group's first-error record takes the source, its severity, the writer's code, TYPE 6, ADDR 0 and the device time; while VALID is 1 MORE rises by one, saturating, and the record stays, unless it holds an event of this AOCLK edge that the new one outranks: then the record is the new event's. Nothing but Gong's registers changes. It rests on R460, R461, R464, R465, 18_errors_gong. -/
def Obligations.InjectReports : Prop :=
  ∀ (s : State) (req : Requester) (w : Word) (g src : Nat), s.mode ≠ NIGHT → Quiet s → wfld w GONG_INJECT.GO = 1 → g = wfld w GONG_INJECT.SOURCE / 32 →
    src = wfld w GONG_INJECT.SOURCE % 32 → Mild s g src →
    Completes (.inject req w) s fun t => Only gongRegs s t ∧
      t.fld (countField (32 * g + src)) 0 ((32 * g + src) / 4) = satAdd (s.fld (countField (32 * g + src)) 0 ((32 * g + src) / 4)) 1 65535 ∧
      (s.severity g src = 0 → RegsBut [.GONG_COUNT] s t) ∧
      (s.severity g src ≠ 0 → t.fld ⟨.GONG_STATUS, src, src⟩ 0 g = 1 ∧
        (s.isSet GONG_FIRST_INFO.VALID 0 g = false →
          t.raw .GONG_FIRST_INFO 0 g = BitVec.ofNat 64 (place 1 0 0 + place src 5 1 + place (s.severity g src) 8 7 + place (codeOf req) 20 9 + place 6 23 21) ∧
          t.raw .GONG_FIRST_ADDR 0 g = 0 ∧ t.raw .GONG_FIRST_TS 0 g = BitVec.ofNat 64 s.ts64) ∧
        (s.isSet GONG_FIRST_INFO.VALID 0 g → s.outranks g src false (s.severity g src) →
          t.raw .GONG_FIRST_INFO 0 g = BitVec.ofNat 64 (place 1 0 0 + place src 5 1 + place (s.severity g src) 8 7 + place (codeOf req) 20 9 + place 6 23 21 +
            place (satAdd (s.fld GONG_FIRST_INFO.MORE 0 g) 1 (2 ^ 32 - 1)) 63 32) ∧
          t.raw .GONG_FIRST_ADDR 0 g = 0 ∧ t.raw .GONG_FIRST_TS 0 g = BitVec.ofNat 64 s.ts64) ∧
        (s.isSet GONG_FIRST_INFO.VALID 0 g → s.outranks g src false (s.severity g src) = false →
          t.fld GONG_FIRST_INFO.MORE 0 g = satAdd (s.fld GONG_FIRST_INFO.MORE 0 g) 1 (2 ^ 32 - 1) ∧
          (∀ f ∈ [GONG_FIRST_INFO.VALID, GONG_FIRST_INFO.SOURCE, GONG_FIRST_INFO.ACCESS, GONG_FIRST_INFO.SEV, GONG_FIRST_INFO.INITIATOR, GONG_FIRST_INFO.TYPE],
            t.fld f 0 g = s.fld f 0 g) ∧
          t.raw .GONG_FIRST_ADDR 0 g = s.raw .GONG_FIRST_ADDR 0 g ∧ t.raw .GONG_FIRST_TS 0 g = s.raw .GONG_FIRST_TS 0 g))
end

