-- ==== Sys2Proof/Laws/Bits.lean ====
section
/-! SUPPORT. Laws of the bit fields: a field reads what was put into it, cut to its width, and putting one field leaves the bits
outside it alone. -/
namespace Sys2Proof.Machine

theorem testBit_bits (v hi lo j : Nat) : (bits v hi lo).testBit j = (decide (j < hi + 1 - lo) && v.testBit (lo + j)) := by
  simp [bits, Nat.testBit_mod_two_pow, Nat.testBit_shiftRight]

theorem testBit_place (v hi lo j : Nat) :
    (place v hi lo).testBit j = (decide (lo ≤ j) && (decide (j - lo < hi + 1 - lo) && v.testBit (j - lo))) := by
  simp [place, Nat.testBit_mod_two_pow, Nat.testBit_shiftLeft]

theorem testBit_maskOf (hi lo j : Nat) : (maskOf hi lo).testBit j = (decide (lo ≤ j) && decide (j - lo < hi + 1 - lo)) := by
  simp [maskOf, Nat.testBit_two_pow_sub_one, Nat.testBit_shiftLeft]

/-- Bit `j` of a word with a field replaced. -/
theorem getLsbD_putBits (w : Word) (hi lo v j : Nat) :
    (putBits w hi lo v).getLsbD j =
      (decide (j < 64) && (if lo ≤ j ∧ j - lo < hi + 1 - lo then v.testBit (j - lo) else w.getLsbD j)) := by
  simp only [putBits, BitVec.getLsbD_or, BitVec.getLsbD_and, BitVec.getLsbD_not, BitVec.getLsbD_ofNat, testBit_place, testBit_maskOf]
  by_cases hj : j < 64
  · by_cases h1 : lo ≤ j <;> by_cases h2 : j - lo < hi + 1 - lo <;> simp [hj, h1, h2]
  · simp [hj, BitVec.getLsbD_of_ge w j (by omega)]

/-- A field reads what was put into it, cut to its width. -/
theorem getBits_putBits_same (w : Word) (hi lo v : Nat) (h : hi < 64) (hl : lo ≤ hi) :
    getBits (putBits w hi lo v) hi lo = v % 2 ^ (hi + 1 - lo) := by
  apply Nat.eq_of_testBit_eq
  intro j
  have e : (putBits w hi lo v).toNat.testBit (lo + j) = (putBits w hi lo v).getLsbD (lo + j) := rfl
  rw [getBits, testBit_bits, e, getLsbD_putBits, Nat.testBit_mod_two_pow]
  by_cases hj : j < hi + 1 - lo
  · have h1 : lo + j < 64 := by omega
    simp [hj, h1]
  · simp [hj]

/-- A field that shares no bit with the one put keeps its value. -/
theorem getBits_putBits_ne (w : Word) (hi lo v hi' lo' : Nat) (h : hi' < 64) (hd : hi' < lo ∨ hi < lo') :
    getBits (putBits w hi lo v) hi' lo' = getBits w hi' lo' := by
  apply Nat.eq_of_testBit_eq
  intro j
  have e : ∀ x : Word, x.toNat.testBit (lo' + j) = x.getLsbD (lo' + j) := fun _ => rfl
  rw [getBits, getBits, testBit_bits, testBit_bits, e, e, getLsbD_putBits]
  by_cases hj : j < hi' + 1 - lo'
  · have h1 : lo' + j < 64 := by omega
    have h2 : ¬ (lo ≤ lo' + j ∧ lo' + j - lo < hi + 1 - lo) := by omega
    simp [h1, h2]
  · simp [hj]

theorem getBits_lt (w : Word) (hi lo : Nat) : getBits w hi lo < 2 ^ (hi + 1 - lo) := Nat.mod_lt _ (Nat.two_pow_pos _)

end Sys2Proof.Machine
end

