-- ==== Sys2Proof/Laws/Store.lean ====
section
/-! SUPPORT. Laws of the sparse tables: a read after a write to the same key gives the value written, a write leaves every other key
alone, and every operation keeps the canonical form. -/
namespace Sys2Proof

namespace Store

variable {α : Type}

theorem look_put_same (k : Nat) (v : α) (l : List (Nat × α)) : look (put k v l) k = some v := by
  induction l with
  | nil => simp [put, look]
  | cons e l ih =>
    obtain ⟨a, w⟩ := e
    simp only [put]
    split
    · simp [look]
    · split
      · simp [look]
      · simp [look, *]

theorem look_put_ne (k j : Nat) (v : α) (l : List (Nat × α)) (h : k ≠ j) : look (put k v l) j = look l j := by
  induction l with
  | nil => simp [put, look, h]
  | cons e l ih =>
    obtain ⟨a, w⟩ := e
    simp only [put]
    split
    · simp [look, h]
    · split
      · subst a; simp [look, h]
      · simp [look, ih]

theorem look_drop_same (k : Nat) (l : List (Nat × α)) : look (drop k l) k = none := by
  induction l with
  | nil => rfl
  | cons e l ih =>
    obtain ⟨a, w⟩ := e
    simp only [drop]
    split
    · exact ih
    · simp [look, *]

theorem look_drop_ne (k j : Nat) (l : List (Nat × α)) (h : k ≠ j) : look (drop k l) j = look l j := by
  induction l with
  | nil => rfl
  | cons e l ih =>
    obtain ⟨a, w⟩ := e
    simp only [drop]
    split
    · subst a; simp [look, h, ih]
    · simp [look, ih]

@[simp] theorem get_set_same [DecidableEq α] (d : α) (s : Store α) (k : Nat) (v : α) : (s.set d k v).get d k = v := by
  unfold set
  split
  · simp [get, look_drop_same, *]
  · simp [get, look_put_same]

theorem get_set_ne [DecidableEq α] (d e : α) (s : Store α) (k j : Nat) (v : α) (h : k ≠ j) : (s.set d k v).get e j = s.get e j := by
  unfold set
  split
  · simp [get, look_drop_ne k j _ h]
  · simp [get, look_put_ne k j v _ h]

/-! ## The canonical form -/

/-- Every key of a list lies above `b`. -/
def above (b : Nat) (l : List (Nat × α)) : Prop := ∀ e ∈ l, b < e.1

theorem rising_cons (a : Nat) (v : α) (l : List (Nat × α)) : rising ((a, v) :: l) = true ↔ above a l ∧ rising l = true := by
  induction l generalizing a v with
  | nil => simp [rising, above]
  | cons e l ih =>
    obtain ⟨b, w⟩ := e
    simp only [rising, Bool.and_eq_true, decide_eq_true_eq]
    constructor
    · rintro ⟨h, r⟩
      refine ⟨?_, r⟩
      intro x hx
      rcases List.mem_cons.mp hx with rfl | hx
      · exact h
      · exact Nat.lt_trans h (((ih b w).mp r).1 x hx)
    · rintro ⟨h, r⟩
      exact ⟨h (b, w) (by simp), r⟩

theorem mem_drop {k : Nat} {l : List (Nat × α)} {x : Nat × α} (h : x ∈ drop k l) : x ∈ l := by
  induction l with
  | nil => exact h
  | cons e l ih =>
    obtain ⟨a, w⟩ := e
    simp only [drop] at h
    split at h
    · exact List.mem_cons_of_mem _ (ih h)
    · rcases List.mem_cons.mp h with rfl | h
      · simp
      · exact List.mem_cons_of_mem _ (ih h)

theorem rising_drop (k : Nat) (l : List (Nat × α)) (h : rising l = true) : rising (drop k l) = true := by
  induction l with
  | nil => rfl
  | cons e l ih =>
    obtain ⟨a, w⟩ := e
    obtain ⟨ha, hr⟩ := (rising_cons a w l).mp h
    simp only [drop]
    split
    · exact ih hr
    · exact (rising_cons a w _).mpr ⟨fun x hx => ha x (mem_drop hx), ih hr⟩

theorem mem_put {k : Nat} {v : α} {l : List (Nat × α)} {x : Nat × α} (h : x ∈ put k v l) : x = (k, v) ∨ x ∈ l := by
  induction l with
  | nil => simpa [put] using h
  | cons e l ih =>
    obtain ⟨a, w⟩ := e
    simp only [put] at h
    split at h
    · simpa using h
    · split at h
      · rcases List.mem_cons.mp h with rfl | h <;> simp [*]
      · rcases List.mem_cons.mp h with rfl | h
        · simp
        · rcases ih h with h | h <;> simp [h]

theorem rising_put (k : Nat) (v : α) (l : List (Nat × α)) (h : rising l = true) : rising (put k v l) = true := by
  induction l with
  | nil => rfl
  | cons e l ih =>
    obtain ⟨a, w⟩ := e
    obtain ⟨ha, hr⟩ := (rising_cons a w l).mp h
    simp only [put]
    split
    · rename_i hk
      refine (rising_cons k v _).mpr ⟨?_, h⟩
      intro x hx
      rcases List.mem_cons.mp hx with rfl | hx
      · exact hk
      · exact Nat.lt_trans hk (ha x hx)
    · split
      · subst a
        exact (rising_cons k v _).mpr ⟨ha, hr⟩
      · refine (rising_cons a w _).mpr ⟨?_, ih hr⟩
        intro x hx
        rcases mem_put hx with rfl | hx
        · simp only; omega
        · exact ha x hx

theorem rising_filter (p : Nat × α → Bool) (l : List (Nat × α)) (h : rising l = true) : rising (l.filter p) = true := by
  induction l with
  | nil => rfl
  | cons e l ih =>
    obtain ⟨a, w⟩ := e
    obtain ⟨ha, hr⟩ := (rising_cons a w l).mp h
    simp only [List.filter_cons]
    split
    · exact (rising_cons a w _).mpr ⟨fun x hx => ha x (List.mem_of_mem_filter hx), ih hr⟩
    · exact ih hr

variable [DecidableEq α]

theorem wf_iff (d : Nat → α) (s : Store α) : s.wf d = true ↔ rising s.entries = true ∧ ∀ e ∈ s.entries, e.2 ≠ d e.1 := by
  simp [wf, List.all_eq_true]

/-- A write with the value that its key reads as when unlisted keeps the canonical form. -/
theorem wf_set (d : Nat → α) (s : Store α) (k : Nat) (v : α) (h : s.wf d = true) : (s.set (d k) k v).wf d = true := by
  obtain ⟨hr, hd⟩ := (wf_iff d s).mp h
  unfold set
  split
  · exact (wf_iff d _).mpr ⟨rising_drop k _ hr, fun e he => hd e (mem_drop he)⟩
  · rename_i hv
    refine (wf_iff d _).mpr ⟨rising_put k v _ hr, fun e he => ?_⟩
    rcases mem_put he with rfl | he
    · exact hv
    · exact hd e he

theorem wf_modify (d : Nat → α) (s : Store α) (k : Nat) (f : α → α) (h : s.wf d = true) : (s.modify (d k) k f).wf d = true :=
  wf_set d s k _ h

theorem wf_keep (d : Nat → α) (s : Store α) (p : Nat → Bool) (h : s.wf d = true) : (s.keep p).wf d = true := by
  obtain ⟨hr, hd⟩ := (wf_iff d s).mp h
  exact (wf_iff d _).mpr ⟨rising_filter _ _ hr, fun e he => hd e (List.mem_of_mem_filter he)⟩

end Store

/-! ## Memories of bytes -/

@[simp] theorem Memory.read_write_same (m : Memory) (a : Nat) (b : Byte) : Memory.read (Memory.write m a b) a = b :=
  Store.get_set_same _ m a b

theorem Memory.read_write_ne (m : Memory) (a c : Nat) (b : Byte) (h : a ≠ c) : Memory.read (Memory.write m a b) c = Memory.read m c :=
  Store.get_set_ne _ _ m a c b h

theorem Memory.wf_write (m : Memory) (a : Nat) (b : Byte) (h : Memory.wf m = true) : Memory.wf (Memory.write m a b) = true :=
  Store.wf_set (fun _ => Memory.unwritten) m a b h

theorem Memory.wf_writeBytes (m : Memory) (a : Nat) (bs : List Byte) (h : Memory.wf m = true) :
    Memory.wf (Memory.writeBytes m a bs) = true := by
  induction bs generalizing m a with
  | nil => exact h
  | cons b bs ih => exact ih _ _ (Memory.wf_write m a b h)

theorem Memory.wf_zero (m : Memory) (a n : Nat) (h : Memory.wf m = true) : Memory.wf (Memory.zero m a n) = true :=
  Store.wf_keep (fun _ => Memory.unwritten) m _ h

/-- A write of several bytes leaves every byte outside them alone. -/
theorem Memory.read_writeBytes_outside (m : Memory) (a c : Nat) (bs : List Byte) (h : c < a ∨ a + bs.length ≤ c) :
    Memory.read (Memory.writeBytes m a bs) c = Memory.read m c := by
  induction bs generalizing m a with
  | nil => rfl
  | cons b bs ih =>
    simp only [List.length_cons] at h
    rw [Memory.writeBytes, ih _ _ (by omega), Memory.read_write_ne _ _ _ _ (by omega)]

/-- A write of several bytes is read back. -/
theorem Memory.readBytes_writeBytes (m : Memory) (a : Nat) (bs : List Byte) :
    Memory.readBytes (Memory.writeBytes m a bs) a bs.length = bs := by
  have get : ∀ (bs : List Byte) (m : Memory) (a i : Nat), i < bs.length →
      Memory.read (Memory.writeBytes m a bs) (a + i) = bs.getD i 0 := by
    intro bs
    induction bs with
    | nil => intro m a i h; simp at h
    | cons b bs ih =>
      intro m a i h
      cases i with
      | zero => rw [Memory.writeBytes, Memory.read_writeBytes_outside _ _ _ _ (by omega)]; simp
      | succ i =>
        rw [Memory.writeBytes, show a + (i + 1) = a + 1 + i by omega, ih _ _ _ (by simpa using h)]
        simp
  have all : ∀ (n i : Nat) (m' : Memory), i + n = bs.length → (∀ j, j < bs.length → Memory.read m' (a + j) = bs.getD j 0) →
      Memory.readBytes m' (a + i) n = bs.drop i := by
    intro n
    induction n with
    | zero => intro i m' hi _; simp [Memory.readBytes]; omega
    | succ n ih =>
      intro i m' hi hm
      have hlt : i < bs.length := by omega
      rw [Memory.readBytes, hm i hlt, show a + i + 1 = a + (i + 1) by omega, ih (i + 1) m' (by omega) hm,
        List.drop_eq_getElem_cons hlt]
      simp [List.getD_eq_getElem?_getD, List.getElem?_eq_getElem hlt]
  simpa using all bs.length 0 _ (by omega) (get bs m a)

end Sys2Proof
end

