-- ==== Sys2Proof/Laws/State.lean ====
section
/-! SUPPORT. Laws of the state: what each primitive update of a register, a count or a field leaves alone, and what a register or a field
reads as after it. -/
namespace Sys2Proof.Machine

/-! ## Keys of registers -/

/-- The register whose constructor has a given index. -/
def regOfIdx (n : Nat) : Option RegName := RegName.all[n]?

theorem regOfIdx_ctorIdx (r : RegName) : regOfIdx r.ctorIdx = some r := by cases r <;> rfl

theorem ctorIdx_inj {r q : RegName} (h : r.ctorIdx = q.ctorIdx) : r = q := by
  have a := regOfIdx_ctorIdx r
  rw [h, regOfIdx_ctorIdx q] at a
  exact (Option.some.inj a).symm

/-- Registers of different names never share a key. -/
theorem regCode_ne_of_name {r q : RegName} (h : r ≠ q) (n i m j : Nat) : regCode r n i ≠ regCode q m j := by
  intro e
  apply h
  apply ctorIdx_inj
  unfold regCode at e
  have h1 := Nat.mod_lt i (Nat.two_pow_pos 20)
  have h2 := Nat.mod_lt j (Nat.two_pow_pos 20)
  have h3 := Nat.mod_lt n (Nat.two_pow_pos 20)
  have h4 := Nat.mod_lt m (Nat.two_pow_pos 20)
  omega

/-- Blocks or repeats that differ below 2^20 never share a key. -/
theorem regCode_ne_of_place (r q : RegName) {n i m j : Nat} (hn : n < 2 ^ 20) (hm : m < 2 ^ 20) (hi : i < 2 ^ 20) (hj : j < 2 ^ 20)
    (h : n ≠ m ∨ i ≠ j) : regCode r n i ≠ regCode q m j := by
  intro e
  unfold regCode at e
  rw [Nat.mod_eq_of_lt hn, Nat.mod_eq_of_lt hm, Nat.mod_eq_of_lt hi, Nat.mod_eq_of_lt hj] at e
  rcases h with h | h <;> omega

/-! ## Registers -/

@[simp] theorem raw_setRaw_same (s : State) (r : RegName) (n i : Nat) (w : Word) : (s.setRaw r n i w).raw r n i = w :=
  Store.get_set_same _ _ _ _

theorem raw_setRaw_of_ne (s : State) (r q : RegName) (n i m j : Nat) (w : Word) (h : regCode r n i ≠ regCode q m j) :
    (s.setRaw r n i w).raw q m j = s.raw q m j :=
  Store.get_set_ne _ _ _ _ _ _ h

theorem raw_setRaw_ne (s : State) (r q : RegName) (n i m j : Nat) (w : Word) (h : r ≠ q) :
    (s.setRaw r n i w).raw q m j = s.raw q m j :=
  raw_setRaw_of_ne s r q n i m j w (regCode_ne_of_name h n i m j)

theorem raw_put_ne (s : State) (f : Field) (v n i : Nat) (q : RegName) (m j : Nat) (h : f.reg ≠ q) :
    (s.put f v n i).raw q m j = s.raw q m j :=
  raw_setRaw_ne _ _ _ _ _ _ _ _ h

theorem raw_sat_ne (s : State) (f : Field) (d n i : Nat) (q : RegName) (m j : Nat) (h : f.reg ≠ q) :
    (s.sat f d n i).raw q m j = s.raw q m j :=
  raw_put_ne _ _ _ _ _ _ _ _ h

theorem raw_bump_ne (s : State) (r : RegName) (n i d : Nat) (q : RegName) (m j : Nat) (h : r ≠ q) :
    (s.bump r n i d).raw q m j = s.raw q m j :=
  raw_setRaw_ne _ _ _ _ _ _ _ _ h

@[simp] theorem raw_bump_same (s : State) (r : RegName) (n i d : Nat) :
    (s.bump r n i d).raw r n i = s.raw r n i + BitVec.ofNat 64 d :=
  raw_setRaw_same _ _ _ _ _

@[simp] theorem raw_writeReg_same (s : State) (r : RegName) (n i : Nat) (w : Word) :
    (s.writeReg r n i w).raw r n i = mergeWrite r.layout (s.locked r n) (s.raw r n i) w :=
  raw_setRaw_same _ _ _ _ _

theorem raw_writeReg_ne (s : State) (r : RegName) (n i : Nat) (w : Word) (q : RegName) (m j : Nat) (h : r ≠ q) :
    (s.writeReg r n i w).raw q m j = s.raw q m j :=
  raw_setRaw_ne _ _ _ _ _ _ _ _ h

/-- A field reads what was put into it, cut to its width. -/
theorem fld_put_same (s : State) (f : Field) (v n i : Nat) (h : f.hi < 64) (hl : f.lo ≤ f.hi) :
    (s.put f v n i).fld f n i = v % 2 ^ (f.hi + 1 - f.lo) := by
  simp [State.fld, State.put, getBits_putBits_same, h, hl]

/-- A field of the same register that shares no bit with the one put keeps its value. -/
theorem fld_put_apart (s : State) (f g : Field) (v n i : Nat) (hr : f.reg = g.reg) (hg : g.hi < 64) (hd : g.hi < f.lo ∨ f.hi < g.lo) :
    (s.put f v n i).fld g n i = s.fld g n i := by
  simp [State.fld, State.put, ← hr, getBits_putBits_ne, hg, hd]

/-- A field of another register keeps its value. -/
theorem fld_put_ne (s : State) (f g : Field) (v n i m j : Nat) (h : f.reg ≠ g.reg) : (s.put f v n i).fld g m j = s.fld g m j := by
  simp [State.fld, raw_put_ne s f v n i g.reg m j h]

theorem fld_setRaw_ne (s : State) (r : RegName) (n i : Nat) (w : Word) (g : Field) (m j : Nat) (h : r ≠ g.reg) :
    (s.setRaw r n i w).fld g m j = s.fld g m j := by
  simp [State.fld, raw_setRaw_ne s r g.reg n i m j w h]

/-! ## What the primitive updates leave alone -/

/-! ### setRaw -/
@[simp] theorem setRaw_bus (s : State) (r : RegName) (n i : Nat) (w : Word) : (s.setRaw r n i w).bus = s.bus := rfl
@[simp] theorem setRaw_modes (s : State) (r : RegName) (n i : Nat) (w : Word) : (s.setRaw r n i w).modes = s.modes := rfl
@[simp] theorem setRaw_gong (s : State) (r : RegName) (n i : Nat) (w : Word) : (s.setRaw r n i w).gong = s.gong := rfl
@[simp] theorem setRaw_car (s : State) (r : RegName) (n i : Nat) (w : Word) : (s.setRaw r n i w).car = s.car := rfl
@[simp] theorem setRaw_td (s : State) (r : RegName) (n i : Nat) (w : Word) : (s.setRaw r n i w).td = s.td := rfl
@[simp] theorem setRaw_ports (s : State) (r : RegName) (n i : Nat) (w : Word) : (s.setRaw r n i w).ports = s.ports := rfl
@[simp] theorem setRaw_hl (s : State) (r : RegName) (n i : Nat) (w : Word) : (s.setRaw r n i w).hl = s.hl := rfl
@[simp] theorem setRaw_net (s : State) (r : RegName) (n i : Nat) (w : Word) : (s.setRaw r n i w).net = s.net := rfl
@[simp] theorem setRaw_tbl (s : State) (r : RegName) (n i : Nat) (w : Word) : (s.setRaw r n i w).tbl = s.tbl := rfl
@[simp] theorem setRaw_tbe (s : State) (r : RegName) (n i : Nat) (w : Word) : (s.setRaw r n i w).tbe = s.tbe := rfl
@[simp] theorem setRaw_hq (s : State) (r : RegName) (n i : Nat) (w : Word) : (s.setRaw r n i w).hq = s.hq := rfl
@[simp] theorem setRaw_tel (s : State) (r : RegName) (n i : Nat) (w : Word) : (s.setRaw r n i w).tel = s.tel := rfl
@[simp] theorem setRaw_sec (s : State) (r : RegName) (n i : Nat) (w : Word) : (s.setRaw r n i w).sec = s.sec := rfl
@[simp] theorem setRaw_mbx (s : State) (r : RegName) (n i : Nat) (w : Word) : (s.setRaw r n i w).mbx = s.mbx := rfl
@[simp] theorem setRaw_nvm (s : State) (r : RegName) (n i : Nat) (w : Word) : (s.setRaw r n i w).nvm = s.nvm := rfl
@[simp] theorem setRaw_xpt (s : State) (r : RegName) (n i : Nat) (w : Word) : (s.setRaw r n i w).xpt = s.xpt := rfl
@[simp] theorem setRaw_edges (s : State) (r : RegName) (n i : Nat) (w : Word) : (s.setRaw r n i w).edges = s.edges := rfl
@[simp] theorem setRaw_ddr (s : State) (r : RegName) (n i : Nat) (w : Word) : (s.setRaw r n i w).ddr = s.ddr := rfl
@[simp] theorem setRaw_host (s : State) (r : RegName) (n i : Nat) (w : Word) : (s.setRaw r n i w).host = s.host := rfl
@[simp] theorem setRaw_free (s : State) (r : RegName) (n i : Nat) (w : Word) : (s.setRaw r n i w).free = s.free := rfl
@[simp] theorem setRaw_pending (s : State) (r : RegName) (n i : Nat) (w : Word) : (s.setRaw r n i w).pending = s.pending := rfl

/-! ### put -/
@[simp] theorem put_bus (s : State) (f : Field) (v n i : Nat) : (s.put f v n i).bus = s.bus := rfl
@[simp] theorem put_modes (s : State) (f : Field) (v n i : Nat) : (s.put f v n i).modes = s.modes := rfl
@[simp] theorem put_gong (s : State) (f : Field) (v n i : Nat) : (s.put f v n i).gong = s.gong := rfl
@[simp] theorem put_car (s : State) (f : Field) (v n i : Nat) : (s.put f v n i).car = s.car := rfl
@[simp] theorem put_td (s : State) (f : Field) (v n i : Nat) : (s.put f v n i).td = s.td := rfl
@[simp] theorem put_ports (s : State) (f : Field) (v n i : Nat) : (s.put f v n i).ports = s.ports := rfl
@[simp] theorem put_hl (s : State) (f : Field) (v n i : Nat) : (s.put f v n i).hl = s.hl := rfl
@[simp] theorem put_net (s : State) (f : Field) (v n i : Nat) : (s.put f v n i).net = s.net := rfl
@[simp] theorem put_tbl (s : State) (f : Field) (v n i : Nat) : (s.put f v n i).tbl = s.tbl := rfl
@[simp] theorem put_tbe (s : State) (f : Field) (v n i : Nat) : (s.put f v n i).tbe = s.tbe := rfl
@[simp] theorem put_hq (s : State) (f : Field) (v n i : Nat) : (s.put f v n i).hq = s.hq := rfl
@[simp] theorem put_tel (s : State) (f : Field) (v n i : Nat) : (s.put f v n i).tel = s.tel := rfl
@[simp] theorem put_sec (s : State) (f : Field) (v n i : Nat) : (s.put f v n i).sec = s.sec := rfl
@[simp] theorem put_mbx (s : State) (f : Field) (v n i : Nat) : (s.put f v n i).mbx = s.mbx := rfl
@[simp] theorem put_nvm (s : State) (f : Field) (v n i : Nat) : (s.put f v n i).nvm = s.nvm := rfl
@[simp] theorem put_xpt (s : State) (f : Field) (v n i : Nat) : (s.put f v n i).xpt = s.xpt := rfl
@[simp] theorem put_edges (s : State) (f : Field) (v n i : Nat) : (s.put f v n i).edges = s.edges := rfl
@[simp] theorem put_ddr (s : State) (f : Field) (v n i : Nat) : (s.put f v n i).ddr = s.ddr := rfl
@[simp] theorem put_host (s : State) (f : Field) (v n i : Nat) : (s.put f v n i).host = s.host := rfl
@[simp] theorem put_free (s : State) (f : Field) (v n i : Nat) : (s.put f v n i).free = s.free := rfl
@[simp] theorem put_pending (s : State) (f : Field) (v n i : Nat) : (s.put f v n i).pending = s.pending := rfl

/-! ### sat -/
@[simp] theorem sat_bus (s : State) (f : Field) (d n i : Nat) : (s.sat f d n i).bus = s.bus := rfl
@[simp] theorem sat_modes (s : State) (f : Field) (d n i : Nat) : (s.sat f d n i).modes = s.modes := rfl
@[simp] theorem sat_gong (s : State) (f : Field) (d n i : Nat) : (s.sat f d n i).gong = s.gong := rfl
@[simp] theorem sat_car (s : State) (f : Field) (d n i : Nat) : (s.sat f d n i).car = s.car := rfl
@[simp] theorem sat_td (s : State) (f : Field) (d n i : Nat) : (s.sat f d n i).td = s.td := rfl
@[simp] theorem sat_ports (s : State) (f : Field) (d n i : Nat) : (s.sat f d n i).ports = s.ports := rfl
@[simp] theorem sat_hl (s : State) (f : Field) (d n i : Nat) : (s.sat f d n i).hl = s.hl := rfl
@[simp] theorem sat_net (s : State) (f : Field) (d n i : Nat) : (s.sat f d n i).net = s.net := rfl
@[simp] theorem sat_tbl (s : State) (f : Field) (d n i : Nat) : (s.sat f d n i).tbl = s.tbl := rfl
@[simp] theorem sat_tbe (s : State) (f : Field) (d n i : Nat) : (s.sat f d n i).tbe = s.tbe := rfl
@[simp] theorem sat_hq (s : State) (f : Field) (d n i : Nat) : (s.sat f d n i).hq = s.hq := rfl
@[simp] theorem sat_tel (s : State) (f : Field) (d n i : Nat) : (s.sat f d n i).tel = s.tel := rfl
@[simp] theorem sat_sec (s : State) (f : Field) (d n i : Nat) : (s.sat f d n i).sec = s.sec := rfl
@[simp] theorem sat_mbx (s : State) (f : Field) (d n i : Nat) : (s.sat f d n i).mbx = s.mbx := rfl
@[simp] theorem sat_nvm (s : State) (f : Field) (d n i : Nat) : (s.sat f d n i).nvm = s.nvm := rfl
@[simp] theorem sat_xpt (s : State) (f : Field) (d n i : Nat) : (s.sat f d n i).xpt = s.xpt := rfl
@[simp] theorem sat_edges (s : State) (f : Field) (d n i : Nat) : (s.sat f d n i).edges = s.edges := rfl
@[simp] theorem sat_ddr (s : State) (f : Field) (d n i : Nat) : (s.sat f d n i).ddr = s.ddr := rfl
@[simp] theorem sat_host (s : State) (f : Field) (d n i : Nat) : (s.sat f d n i).host = s.host := rfl
@[simp] theorem sat_free (s : State) (f : Field) (d n i : Nat) : (s.sat f d n i).free = s.free := rfl
@[simp] theorem sat_pending (s : State) (f : Field) (d n i : Nat) : (s.sat f d n i).pending = s.pending := rfl

/-! ### bump -/
@[simp] theorem bump_bus (s : State) (r : RegName) (n i d : Nat) : (s.bump r n i d).bus = s.bus := rfl
@[simp] theorem bump_modes (s : State) (r : RegName) (n i d : Nat) : (s.bump r n i d).modes = s.modes := rfl
@[simp] theorem bump_gong (s : State) (r : RegName) (n i d : Nat) : (s.bump r n i d).gong = s.gong := rfl
@[simp] theorem bump_car (s : State) (r : RegName) (n i d : Nat) : (s.bump r n i d).car = s.car := rfl
@[simp] theorem bump_td (s : State) (r : RegName) (n i d : Nat) : (s.bump r n i d).td = s.td := rfl
@[simp] theorem bump_ports (s : State) (r : RegName) (n i d : Nat) : (s.bump r n i d).ports = s.ports := rfl
@[simp] theorem bump_hl (s : State) (r : RegName) (n i d : Nat) : (s.bump r n i d).hl = s.hl := rfl
@[simp] theorem bump_net (s : State) (r : RegName) (n i d : Nat) : (s.bump r n i d).net = s.net := rfl
@[simp] theorem bump_tbl (s : State) (r : RegName) (n i d : Nat) : (s.bump r n i d).tbl = s.tbl := rfl
@[simp] theorem bump_tbe (s : State) (r : RegName) (n i d : Nat) : (s.bump r n i d).tbe = s.tbe := rfl
@[simp] theorem bump_hq (s : State) (r : RegName) (n i d : Nat) : (s.bump r n i d).hq = s.hq := rfl
@[simp] theorem bump_tel (s : State) (r : RegName) (n i d : Nat) : (s.bump r n i d).tel = s.tel := rfl
@[simp] theorem bump_sec (s : State) (r : RegName) (n i d : Nat) : (s.bump r n i d).sec = s.sec := rfl
@[simp] theorem bump_mbx (s : State) (r : RegName) (n i d : Nat) : (s.bump r n i d).mbx = s.mbx := rfl
@[simp] theorem bump_nvm (s : State) (r : RegName) (n i d : Nat) : (s.bump r n i d).nvm = s.nvm := rfl
@[simp] theorem bump_xpt (s : State) (r : RegName) (n i d : Nat) : (s.bump r n i d).xpt = s.xpt := rfl
@[simp] theorem bump_edges (s : State) (r : RegName) (n i d : Nat) : (s.bump r n i d).edges = s.edges := rfl
@[simp] theorem bump_ddr (s : State) (r : RegName) (n i d : Nat) : (s.bump r n i d).ddr = s.ddr := rfl
@[simp] theorem bump_host (s : State) (r : RegName) (n i d : Nat) : (s.bump r n i d).host = s.host := rfl
@[simp] theorem bump_free (s : State) (r : RegName) (n i d : Nat) : (s.bump r n i d).free = s.free := rfl
@[simp] theorem bump_pending (s : State) (r : RegName) (n i d : Nat) : (s.bump r n i d).pending = s.pending := rfl

/-! ### writeReg -/
@[simp] theorem writeReg_bus (s : State) (r : RegName) (n i : Nat) (w : Word) : (s.writeReg r n i w).bus = s.bus := rfl
@[simp] theorem writeReg_modes (s : State) (r : RegName) (n i : Nat) (w : Word) : (s.writeReg r n i w).modes = s.modes := rfl
@[simp] theorem writeReg_gong (s : State) (r : RegName) (n i : Nat) (w : Word) : (s.writeReg r n i w).gong = s.gong := rfl
@[simp] theorem writeReg_car (s : State) (r : RegName) (n i : Nat) (w : Word) : (s.writeReg r n i w).car = s.car := rfl
@[simp] theorem writeReg_td (s : State) (r : RegName) (n i : Nat) (w : Word) : (s.writeReg r n i w).td = s.td := rfl
@[simp] theorem writeReg_ports (s : State) (r : RegName) (n i : Nat) (w : Word) : (s.writeReg r n i w).ports = s.ports := rfl
@[simp] theorem writeReg_hl (s : State) (r : RegName) (n i : Nat) (w : Word) : (s.writeReg r n i w).hl = s.hl := rfl
@[simp] theorem writeReg_net (s : State) (r : RegName) (n i : Nat) (w : Word) : (s.writeReg r n i w).net = s.net := rfl
@[simp] theorem writeReg_tbl (s : State) (r : RegName) (n i : Nat) (w : Word) : (s.writeReg r n i w).tbl = s.tbl := rfl
@[simp] theorem writeReg_tbe (s : State) (r : RegName) (n i : Nat) (w : Word) : (s.writeReg r n i w).tbe = s.tbe := rfl
@[simp] theorem writeReg_hq (s : State) (r : RegName) (n i : Nat) (w : Word) : (s.writeReg r n i w).hq = s.hq := rfl
@[simp] theorem writeReg_tel (s : State) (r : RegName) (n i : Nat) (w : Word) : (s.writeReg r n i w).tel = s.tel := rfl
@[simp] theorem writeReg_sec (s : State) (r : RegName) (n i : Nat) (w : Word) : (s.writeReg r n i w).sec = s.sec := rfl
@[simp] theorem writeReg_mbx (s : State) (r : RegName) (n i : Nat) (w : Word) : (s.writeReg r n i w).mbx = s.mbx := rfl
@[simp] theorem writeReg_nvm (s : State) (r : RegName) (n i : Nat) (w : Word) : (s.writeReg r n i w).nvm = s.nvm := rfl
@[simp] theorem writeReg_xpt (s : State) (r : RegName) (n i : Nat) (w : Word) : (s.writeReg r n i w).xpt = s.xpt := rfl
@[simp] theorem writeReg_edges (s : State) (r : RegName) (n i : Nat) (w : Word) : (s.writeReg r n i w).edges = s.edges := rfl
@[simp] theorem writeReg_ddr (s : State) (r : RegName) (n i : Nat) (w : Word) : (s.writeReg r n i w).ddr = s.ddr := rfl
@[simp] theorem writeReg_host (s : State) (r : RegName) (n i : Nat) (w : Word) : (s.writeReg r n i w).host = s.host := rfl
@[simp] theorem writeReg_free (s : State) (r : RegName) (n i : Nat) (w : Word) : (s.writeReg r n i w).free = s.free := rfl
@[simp] theorem writeReg_pending (s : State) (r : RegName) (n i : Nat) (w : Word) : (s.writeReg r n i w).pending = s.pending := rfl

/-! ### clearRc -/
@[simp] theorem clearRc_bus (s : State) (r : RegName) (n i : Nat) : (s.clearRc r n i).bus = s.bus := rfl
@[simp] theorem clearRc_modes (s : State) (r : RegName) (n i : Nat) : (s.clearRc r n i).modes = s.modes := rfl
@[simp] theorem clearRc_gong (s : State) (r : RegName) (n i : Nat) : (s.clearRc r n i).gong = s.gong := rfl
@[simp] theorem clearRc_car (s : State) (r : RegName) (n i : Nat) : (s.clearRc r n i).car = s.car := rfl
@[simp] theorem clearRc_td (s : State) (r : RegName) (n i : Nat) : (s.clearRc r n i).td = s.td := rfl
@[simp] theorem clearRc_ports (s : State) (r : RegName) (n i : Nat) : (s.clearRc r n i).ports = s.ports := rfl
@[simp] theorem clearRc_hl (s : State) (r : RegName) (n i : Nat) : (s.clearRc r n i).hl = s.hl := rfl
@[simp] theorem clearRc_net (s : State) (r : RegName) (n i : Nat) : (s.clearRc r n i).net = s.net := rfl
@[simp] theorem clearRc_tbl (s : State) (r : RegName) (n i : Nat) : (s.clearRc r n i).tbl = s.tbl := rfl
@[simp] theorem clearRc_tbe (s : State) (r : RegName) (n i : Nat) : (s.clearRc r n i).tbe = s.tbe := rfl
@[simp] theorem clearRc_hq (s : State) (r : RegName) (n i : Nat) : (s.clearRc r n i).hq = s.hq := rfl
@[simp] theorem clearRc_tel (s : State) (r : RegName) (n i : Nat) : (s.clearRc r n i).tel = s.tel := rfl
@[simp] theorem clearRc_sec (s : State) (r : RegName) (n i : Nat) : (s.clearRc r n i).sec = s.sec := rfl
@[simp] theorem clearRc_mbx (s : State) (r : RegName) (n i : Nat) : (s.clearRc r n i).mbx = s.mbx := rfl
@[simp] theorem clearRc_nvm (s : State) (r : RegName) (n i : Nat) : (s.clearRc r n i).nvm = s.nvm := rfl
@[simp] theorem clearRc_xpt (s : State) (r : RegName) (n i : Nat) : (s.clearRc r n i).xpt = s.xpt := rfl
@[simp] theorem clearRc_edges (s : State) (r : RegName) (n i : Nat) : (s.clearRc r n i).edges = s.edges := rfl
@[simp] theorem clearRc_ddr (s : State) (r : RegName) (n i : Nat) : (s.clearRc r n i).ddr = s.ddr := rfl
@[simp] theorem clearRc_host (s : State) (r : RegName) (n i : Nat) : (s.clearRc r n i).host = s.host := rfl
@[simp] theorem clearRc_free (s : State) (r : RegName) (n i : Nat) : (s.clearRc r n i).free = s.free := rfl
@[simp] theorem clearRc_pending (s : State) (r : RegName) (n i : Nat) : (s.clearRc r n i).pending = s.pending := rfl

/-! ### drawn -/
@[simp] theorem drawn_regs (s : State) : (s.drawn).regs = s.regs := rfl
@[simp] theorem drawn_bus (s : State) : (s.drawn).bus = s.bus := rfl
@[simp] theorem drawn_modes (s : State) : (s.drawn).modes = s.modes := rfl
@[simp] theorem drawn_gong (s : State) : (s.drawn).gong = s.gong := rfl
@[simp] theorem drawn_car (s : State) : (s.drawn).car = s.car := rfl
@[simp] theorem drawn_td (s : State) : (s.drawn).td = s.td := rfl
@[simp] theorem drawn_ports (s : State) : (s.drawn).ports = s.ports := rfl
@[simp] theorem drawn_hl (s : State) : (s.drawn).hl = s.hl := rfl
@[simp] theorem drawn_net (s : State) : (s.drawn).net = s.net := rfl
@[simp] theorem drawn_tbl (s : State) : (s.drawn).tbl = s.tbl := rfl
@[simp] theorem drawn_tbe (s : State) : (s.drawn).tbe = s.tbe := rfl
@[simp] theorem drawn_hq (s : State) : (s.drawn).hq = s.hq := rfl
@[simp] theorem drawn_tel (s : State) : (s.drawn).tel = s.tel := rfl
@[simp] theorem drawn_sec (s : State) : (s.drawn).sec = s.sec := rfl
@[simp] theorem drawn_mbx (s : State) : (s.drawn).mbx = s.mbx := rfl
@[simp] theorem drawn_nvm (s : State) : (s.drawn).nvm = s.nvm := rfl
@[simp] theorem drawn_xpt (s : State) : (s.drawn).xpt = s.xpt := rfl
@[simp] theorem drawn_edges (s : State) : (s.drawn).edges = s.edges := rfl
@[simp] theorem drawn_ddr (s : State) : (s.drawn).ddr = s.ddr := rfl
@[simp] theorem drawn_host (s : State) : (s.drawn).host = s.host := rfl
@[simp] theorem drawn_pending (s : State) : (s.drawn).pending = s.pending := rfl

/-! ### onPcie -/
@[simp] theorem onPcie_regs (s : State) (f : Nat) (g : PcieFn → PcieFn) : (s.onPcie f g).regs = s.regs := rfl
@[simp] theorem onPcie_bus (s : State) (f : Nat) (g : PcieFn → PcieFn) : (s.onPcie f g).bus = s.bus := rfl
@[simp] theorem onPcie_modes (s : State) (f : Nat) (g : PcieFn → PcieFn) : (s.onPcie f g).modes = s.modes := rfl
@[simp] theorem onPcie_gong (s : State) (f : Nat) (g : PcieFn → PcieFn) : (s.onPcie f g).gong = s.gong := rfl
@[simp] theorem onPcie_car (s : State) (f : Nat) (g : PcieFn → PcieFn) : (s.onPcie f g).car = s.car := rfl
@[simp] theorem onPcie_td (s : State) (f : Nat) (g : PcieFn → PcieFn) : (s.onPcie f g).td = s.td := rfl
@[simp] theorem onPcie_ports (s : State) (f : Nat) (g : PcieFn → PcieFn) : (s.onPcie f g).ports = s.ports := rfl
@[simp] theorem onPcie_net (s : State) (f : Nat) (g : PcieFn → PcieFn) : (s.onPcie f g).net = s.net := rfl
@[simp] theorem onPcie_tbl (s : State) (f : Nat) (g : PcieFn → PcieFn) : (s.onPcie f g).tbl = s.tbl := rfl
@[simp] theorem onPcie_tbe (s : State) (f : Nat) (g : PcieFn → PcieFn) : (s.onPcie f g).tbe = s.tbe := rfl
@[simp] theorem onPcie_hq (s : State) (f : Nat) (g : PcieFn → PcieFn) : (s.onPcie f g).hq = s.hq := rfl
@[simp] theorem onPcie_tel (s : State) (f : Nat) (g : PcieFn → PcieFn) : (s.onPcie f g).tel = s.tel := rfl
@[simp] theorem onPcie_sec (s : State) (f : Nat) (g : PcieFn → PcieFn) : (s.onPcie f g).sec = s.sec := rfl
@[simp] theorem onPcie_mbx (s : State) (f : Nat) (g : PcieFn → PcieFn) : (s.onPcie f g).mbx = s.mbx := rfl
@[simp] theorem onPcie_nvm (s : State) (f : Nat) (g : PcieFn → PcieFn) : (s.onPcie f g).nvm = s.nvm := rfl
@[simp] theorem onPcie_xpt (s : State) (f : Nat) (g : PcieFn → PcieFn) : (s.onPcie f g).xpt = s.xpt := rfl
@[simp] theorem onPcie_edges (s : State) (f : Nat) (g : PcieFn → PcieFn) : (s.onPcie f g).edges = s.edges := rfl
@[simp] theorem onPcie_ddr (s : State) (f : Nat) (g : PcieFn → PcieFn) : (s.onPcie f g).ddr = s.ddr := rfl
@[simp] theorem onPcie_host (s : State) (f : Nat) (g : PcieFn → PcieFn) : (s.onPcie f g).host = s.host := rfl
@[simp] theorem onPcie_free (s : State) (f : Nat) (g : PcieFn → PcieFn) : (s.onPcie f g).free = s.free := rfl
@[simp] theorem onPcie_pending (s : State) (f : Nat) (g : PcieFn → PcieFn) : (s.onPcie f g).pending = s.pending := rfl

/-! ### onLink -/
@[simp] theorem onLink_regs (s : State) (l : Nat) (g : HostLink → HostLink) : (s.onLink l g).regs = s.regs := rfl
@[simp] theorem onLink_bus (s : State) (l : Nat) (g : HostLink → HostLink) : (s.onLink l g).bus = s.bus := rfl
@[simp] theorem onLink_modes (s : State) (l : Nat) (g : HostLink → HostLink) : (s.onLink l g).modes = s.modes := rfl
@[simp] theorem onLink_gong (s : State) (l : Nat) (g : HostLink → HostLink) : (s.onLink l g).gong = s.gong := rfl
@[simp] theorem onLink_car (s : State) (l : Nat) (g : HostLink → HostLink) : (s.onLink l g).car = s.car := rfl
@[simp] theorem onLink_td (s : State) (l : Nat) (g : HostLink → HostLink) : (s.onLink l g).td = s.td := rfl
@[simp] theorem onLink_ports (s : State) (l : Nat) (g : HostLink → HostLink) : (s.onLink l g).ports = s.ports := rfl
@[simp] theorem onLink_net (s : State) (l : Nat) (g : HostLink → HostLink) : (s.onLink l g).net = s.net := rfl
@[simp] theorem onLink_tbl (s : State) (l : Nat) (g : HostLink → HostLink) : (s.onLink l g).tbl = s.tbl := rfl
@[simp] theorem onLink_tbe (s : State) (l : Nat) (g : HostLink → HostLink) : (s.onLink l g).tbe = s.tbe := rfl
@[simp] theorem onLink_hq (s : State) (l : Nat) (g : HostLink → HostLink) : (s.onLink l g).hq = s.hq := rfl
@[simp] theorem onLink_tel (s : State) (l : Nat) (g : HostLink → HostLink) : (s.onLink l g).tel = s.tel := rfl
@[simp] theorem onLink_sec (s : State) (l : Nat) (g : HostLink → HostLink) : (s.onLink l g).sec = s.sec := rfl
@[simp] theorem onLink_mbx (s : State) (l : Nat) (g : HostLink → HostLink) : (s.onLink l g).mbx = s.mbx := rfl
@[simp] theorem onLink_nvm (s : State) (l : Nat) (g : HostLink → HostLink) : (s.onLink l g).nvm = s.nvm := rfl
@[simp] theorem onLink_xpt (s : State) (l : Nat) (g : HostLink → HostLink) : (s.onLink l g).xpt = s.xpt := rfl
@[simp] theorem onLink_edges (s : State) (l : Nat) (g : HostLink → HostLink) : (s.onLink l g).edges = s.edges := rfl
@[simp] theorem onLink_ddr (s : State) (l : Nat) (g : HostLink → HostLink) : (s.onLink l g).ddr = s.ddr := rfl
@[simp] theorem onLink_host (s : State) (l : Nat) (g : HostLink → HostLink) : (s.onLink l g).host = s.host := rfl
@[simp] theorem onLink_free (s : State) (l : Nat) (g : HostLink → HostLink) : (s.onLink l g).free = s.free := rfl
@[simp] theorem onLink_pending (s : State) (l : Nat) (g : HostLink → HostLink) : (s.onLink l g).pending = s.pending := rfl

end Sys2Proof.Machine
end

