-- ==== Sys2Proof/Laws/Keep.lean ====
section
/-! SUPPORT. What no operation of the block touches: the queue of waiting commands, the counter and its checker (R52, R59). For each shared
operation one lemma says so, in a form that a rewrite peels off; for each command's meaning one lemma gathers them. -/
namespace Sys2Proof.Machine

/-- The queue and the two counters of `t` are those of `s`. -/
def Keeps (s t : State) : Prop := t.pending = s.pending ∧ t.car.time = s.car.time ∧ t.car.checker = s.car.checker

theorem Keeps.refl (s : State) : Keeps s s := ⟨rfl, rfl, rfl⟩

@[simp] theorem keeps_self (s : State) : Keeps s s := Keeps.refl s

@[simp] theorem keeps_mk (z : State) (a1 a2 a3 a4 a5 a6 a7 a8 a9 a10 a11 a12 a13 a14 a15 a16 a17 a18 a19 a20 a21 a22) :
    Keeps z (State.mk a1 a2 a3 a4 a5 a6 a7 a8 a9 a10 a11 a12 a13 a14 a15 a16 a17 a18 a19 a20 a21 a22) ↔
      a22 = z.pending ∧ a5.time = z.car.time ∧ a5.checker = z.car.checker := Iff.rfl

@[simp] theorem keeps_fold (z s : State) :
    (s.pending = z.pending ∧ s.car.time = z.car.time ∧ s.car.checker = z.car.checker) ↔ Keeps z s := Iff.rfl

theorem keeps_foldl {α : Type} (z : State) (f : State → α → State) (l : List α) (s : State)
    (h : ∀ y t x, Keeps y (f t x) ↔ Keeps y t) : Keeps z (l.foldl f s) ↔ Keeps z s := by
  induction l generalizing s with
  | nil => rfl
  | cons a l ih => rw [List.foldl_cons, ih, h]

theorem keeps_foldl_fst {α β : Type} (z : State) (f : State × β → α → State × β) (l : List α) (p : State × β)
    (h : ∀ y q x, Keeps y (f q x).1 ↔ Keeps y q.1) : Keeps z (l.foldl f p).1 ↔ Keeps z p.1 := by
  induction l generalizing p with
  | nil => rfl
  | cons a l ih => rw [List.foldl_cons, ih, h]

theorem keeps_foldr {α : Type} (z : State) (f : α → State → State) (l : List α) (s : State)
    (h : ∀ y t x, Keeps y (f x t) ↔ Keeps y t) : Keeps z (l.foldr f s) ↔ Keeps z s := by
  induction l with
  | nil => rfl
  | cons a l ih => rw [List.foldr_cons, h, ih]

@[simp] theorem keeps_ite (z a b : State) (c : Prop) [Decidable c] : Keeps z (if c then a else b) ↔ if c then Keeps z a else Keeps z b := by
  split <;> rfl

@[simp] theorem keeps_fst_ite {β : Type} (z : State) (a b : State × β) (c : Prop) [Decidable c] :
    Keeps z (if c then a else b).1 ↔ if c then Keeps z a.1 else Keeps z b.1 := by
  split <;> rfl

@[simp] theorem keeps_cond (z a b : State) (c : Bool) : Keeps z (bif c then a else b) ↔ bif c then Keeps z a else Keeps z b := by
  cases c <;> rfl

/-- Where a meaning answers a next state, it keeps what `s` has. -/
def KeepsOut (z : State) (o : Out) (s : State) : Prop := ∀ t, o = .next t → (Keeps z t ↔ Keeps z s)

@[simp] theorem keepsOut_next (z t s : State) : KeepsOut z (.next t) s ↔ (Keeps z t ↔ Keeps z s) :=
  ⟨fun h => h t rfl, fun h u e => by cases e; exact h⟩

theorem keepsOut_ite (z : State) (c : Prop) [Decidable c] (a b : Out) (s : State) (h : KeepsOut z a s) (k : KeepsOut z b s) :
    KeepsOut z (if c then a else b) s := by
  split
  · exact h
  · exact k

end Sys2Proof.Machine
end

