-- ==== Sys2Proof/Laws/Keep1.lean ====
section
/-! SUPPORT. The operations of Ops, CarOps, FaultOps, TelOps, CryptoOps, TableOps keep the queue and the counters. -/
namespace Sys2Proof.Machine

/-! ## Ops -/

@[simp] theorem keeps_setRaw (z : State) (s : State) (r : RegName) (n i : Nat) (w : Word) :
    Keeps z (State.setRaw s r n i w) ↔ Keeps z s := by
  unfold State.setRaw; simp

@[simp] theorem keeps_put (z : State) (s : State) (f : Field) (v : Nat) (n : Nat) (i : Nat) :
    Keeps z (State.put s f v n i) ↔ Keeps z s := by
  unfold State.put; simp

@[simp] theorem keeps_sat (z : State) (s : State) (f : Field) (d : Nat) (n : Nat) (i : Nat) :
    Keeps z (State.sat s f d n i) ↔ Keeps z s := by
  unfold State.sat; simp

@[simp] theorem keeps_bump (z : State) (s : State) (r : RegName) (n i : Nat) (d : Nat) :
    Keeps z (State.bump s r n i d) ↔ Keeps z s := by
  unfold State.bump; simp

@[simp] theorem keeps_writeReg (z : State) (s : State) (r : RegName) (n i : Nat) (w : Word) :
    Keeps z (State.writeReg s r n i w) ↔ Keeps z s := by
  unfold State.writeReg; simp

@[simp] theorem keeps_clearRc (z : State) (s : State) (r : RegName) (n i : Nat) :
    Keeps z (State.clearRc s r n i) ↔ Keeps z s := by
  unfold State.clearRc; simp

@[simp] theorem keeps_onPcie (z : State) (s : State) (f : Nat) (g : PcieFn → PcieFn) :
    Keeps z (State.onPcie s f g) ↔ Keeps z s := by
  unfold State.onPcie; simp

@[simp] theorem keeps_onLink (z : State) (s : State) (l : Nat) (g : HostLink → HostLink) :
    Keeps z (State.onLink s l g) ↔ Keeps z s := by
  unfold State.onLink; simp

@[simp] theorem keeps_firstError (z : State) (s : State) (g src : Nat) (access : Bool) (sev init typ addr : Nat) :
    Keeps z (State.firstError s g src access sev init typ addr) ↔ Keeps z s := by
  unfold State.firstError; simp

@[simp] theorem keeps_gainFatal (z : State) (s : State) (g src : Nat) (access : Bool) :
    Keeps z (State.gainFatal s g src access) ↔ Keeps z s := by
  unfold State.gainFatal; simp

@[simp] theorem keeps_logAer (z : State) (s : State) (f : Nat) (e : AerError) :
    Keeps z (State.logAer s f e) ↔ Keeps z s := by
  unfold State.logAer; simp

@[simp] theorem keeps_fatalAer (z : State) (s : State) (g src : Nat) :
    Keeps z (State.fatalAer s g src) ↔ Keeps z s := by
  unfold State.fatalAer; repeat' (first | (simp [*]; done) | intro y t x | split | rw [keeps_foldl] | rw [keeps_foldl_fst])

@[simp] theorem keeps_fire (z : State) (s : State) (g src : Nat) (addr : Nat) (init : Nat) (typ : Nat) :
    Keeps z (State.fire s g src addr init typ) ↔ Keeps z s := by
  unfold State.fire; simp

@[simp] theorem keeps_accessError (z : State) (s : State) (req : Requester) (addr : Nat) (write : Bool) :
    Keeps z (State.accessError s req addr write) ↔ Keeps z s := by
  unfold State.accessError; simp

@[simp] theorem keeps_drawn (z : State) (s : State) :
    Keeps z (State.drawn s) ↔ Keeps z s := by
  unfold State.drawn; simp

/-! ## CarOps -/

@[simp] theorem keeps_carEvent (z : State) (s : State) (e : Nat) :
    Keeps z (State.carEvent s e) ↔ Keeps z s := by
  unfold State.carEvent; simp

@[simp] theorem keeps_onSlot (z : State) (s : State) (n : Nat) (g : CarSlot → CarSlot) :
    Keeps z (State.onSlot s n g) ↔ Keeps z s := by
  unfold State.onSlot; simp

@[simp] theorem keeps_latchSlots (z : State) (s : State) :
    Keeps z (State.latchSlots s) ↔ Keeps z s := by
  unfold State.latchSlots; simp

@[simp] theorem keeps_setAdj (z : State) (s : State) (f : Rat) :
    Keeps z (State.setAdj s f) ↔ Keeps z s := by
  unfold State.setAdj; simp

@[simp] theorem keeps_publishTriple (z : State) (s : State) :
    Keeps z (State.publishTriple s) ↔ Keeps z s := by
  unfold State.publishTriple; dsimp only; repeat' split
  all_goals simp [*]

@[simp] theorem keeps_setUnsync (z : State) (s : State) :
    Keeps z (State.setUnsync s) ↔ Keeps z s := by
  unfold State.setUnsync; simp

@[simp] theorem keeps_rebound (z : State) (s : State) (old : Option Nat) (oldTLast : Nat) :
    Keeps z (State.rebound s old oldTLast) ↔ Keeps z s := by
  unfold State.rebound; dsimp only; repeat' split
  all_goals simp [*]

@[simp] theorem keeps_setDegraded (z : State) (s : State) :
    Keeps z (State.setDegraded s) ↔ Keeps z s := by
  unfold State.setDegraded; simp

@[simp] theorem keeps_enterServo (z : State) (s : State) (st : Nat) :
    Keeps z (State.enterServo s st) ↔ Keeps z s := by
  unfold State.enterServo; simp

@[simp] theorem keeps_checkLimit (z : State) (s : State) :
    Keeps z (State.checkLimit s) ↔ Keeps z s := by
  unfold State.checkLimit; repeat' split
  all_goals simp_all

@[simp] theorem keeps_setUtc (z : State) (s : State) (v : Nat) (fromPtp : Bool) :
    Keeps z (State.setUtc s v fromPtp) ↔ Keeps z s := by
  unfold State.setUtc; simp

@[simp] theorem keeps_followUtc (z : State) (s : State) :
    Keeps z (State.followUtc s) ↔ Keeps z s := by
  unfold State.followUtc; repeat' split
  all_goals simp_all

@[simp] theorem keeps_carSettle (z : State) (before s : State) :
    Keeps z (State.carSettle before s) ↔ Keeps z s := by
  unfold State.carSettle; simp

@[simp] theorem keeps_changeSlot (z : State) (s : State) (dest : Option Nat) :
    Keeps z (State.changeSlot s dest) ↔ Keeps z s := by
  unfold State.changeSlot
  cases dest <;> dsimp only <;> (repeat' split) <;> simp [keeps_foldl]

@[simp] theorem keeps_setUsable (z : State) (s : State) (n : Nat) (u : Bool) :
    Keeps z (State.setUsable s n u) ↔ Keeps z s := by
  unfold State.setUsable; dsimp only; repeat' split
  all_goals simp [*]

@[simp] theorem keeps_dropUnfit (z : State) (s : State) (n : Nat) :
    Keeps z (State.dropUnfit s n) ↔ Keeps z s := by
  unfold State.dropUnfit; simp

@[simp] theorem keeps_missOne (z : State) (s : State) (n : Nat) :
    Keeps z (State.missOne s n) ↔ Keeps z s := by
  unfold State.missOne; simp

@[simp] theorem keeps_rejectMeasurement (z : State) (s : State) (n : Nat) :
    Keeps z (State.rejectMeasurement s n) ↔ Keeps z s := by
  unfold State.rejectMeasurement; simp

@[simp] theorem keeps_servoUpdate (z : State) (s : State) (n : Nat) (theta : Int) (dt : Nat) (offset : Int) :
    Keeps z (State.servoUpdate s n theta dt offset) ↔ Keeps z s := by
  unfold State.servoUpdate; simp

@[simp] theorem keeps_countLock (z : State) (s : State) (theta : Int) :
    Keeps z (State.countLock s theta) ↔ Keeps z s := by
  unfold State.countLock; simp

@[simp] theorem keeps_takeMeasurement (z : State) (s : State) (n : Nat) (theta : Int) (t : Nat) (offset : Int) :
    Keeps z (State.takeMeasurement s n theta t offset) ↔ Keeps z s := by
  unfold State.takeMeasurement; dsimp only; repeat' split
  all_goals simp [*]

@[simp] theorem keeps_conflictDrops (z : State) (s : State) :
    Keeps z (State.conflictDrops s) ↔ Keeps z s := by
  unfold State.conflictDrops; dsimp only; repeat' split
  all_goals simp [*]

@[simp] theorem keeps_measure (z : State) (s : State) (n : Nat) (theta : Int) (t : Nat) (degraded : Bool) (offset : Int) :
    Keeps z (State.measure s n theta t degraded offset) ↔ Keeps z s := by
  unfold State.measure; simp

@[simp] theorem keeps_dropSlots (z : State) (s : State) (p : Nat → Bool) :
    Keeps z (State.dropSlots s p) ↔ Keeps z s := by
  unfold State.dropSlots; rw [keeps_foldl]
  intro y t x
  repeat' split
  all_goals simp [*]

@[simp] theorem keeps_onPtp (z : State) (s : State) (p : Nat) (g : PtpPort → PtpPort) :
    Keeps z (State.onPtp s p g) ↔ Keeps z s := by
  unfold State.onPtp; simp

@[simp] theorem keeps_followMaster (z : State) (s : State) (n : Nat) :
    Keeps z (State.followMaster s n) ↔ Keeps z s := by
  unfold State.followMaster; simp

@[simp] theorem keeps_followMasters (z : State) (s : State) (p : Nat) :
    Keeps z (State.followMasters s p) ↔ Keeps z s := by
  unfold State.followMasters; rw [keeps_foldl]
  intro y t x
  repeat' split
  all_goals simp [*]

@[simp] theorem keeps_carModeChange (z : State) (before s : State) :
    Keeps z (State.carModeChange before s) ↔ Keeps z s := by
  unfold State.carModeChange; repeat' (first | (simp [*]; done) | (simp [*, keeps_foldl]; done) | intro y t x | split | rw [keeps_foldl] | rw [keeps_foldl_fst] | simp)

/-! ## FaultOps -/

@[simp] theorem keeps_onGong (z : State) (s : State) (g : GongState → GongState) :
    Keeps z (State.onGong s g) ↔ Keeps z s := by
  unfold State.onGong; simp

@[simp] theorem keeps_takeSpare (z : State) (s : State) (kind unit : Nat) :
    Keeps z (State.takeSpare s kind unit).1 ↔ Keeps z s := by
  unfold State.takeSpare; simp

@[simp] theorem keeps_freeSpare (z : State) (s : State) (u : TestUnit) :
    Keeps z (State.freeSpare s u) ↔ Keeps z s := by
  unfold State.freeSpare; simp

@[simp] theorem keeps_beginTest (z : State) (s : State) (u : TestUnit) :
    Keeps z (State.beginTest s u) ↔ Keeps z s := by
  unfold State.beginTest; simp

@[simp] theorem keeps_startTest (z : State) (s : State) (kind unit : Nat) :
    Keeps z (State.startTest s kind unit) ↔ Keeps z s := by
  unfold State.startTest; simp

/-! ## TelOps -/

@[simp] theorem keeps_ddrWrite (z : State) (s : State) (a : Nat) (bs : List Byte) :
    Keeps z (State.ddrWrite s a bs) ↔ Keeps z s := by
  unfold State.ddrWrite; simp

@[simp] theorem keeps_ddrAdd (z : State) (s : State) (a d : Nat) :
    Keeps z (State.ddrAdd s a d) ↔ Keeps z s := by
  unfold State.ddrAdd; simp

@[simp] theorem keeps_pmcCarry (z : State) (s : State) (k d : Nat) :
    Keeps z (State.pmcCarry s k d).1 ↔ Keeps z s := by
  unfold State.pmcCarry; simp

@[simp] theorem keeps_pmcAdd (z : State) (a1 : Nat) (s : State) (a3 a4 : Nat) : Keeps z (State.pmcAdd a1 s a3 a4) ↔ Keeps z s := by
  induction a1 generalizing z s a3 a4 with
  | zero => simp [State.pmcAdd]
  | succ n ih =>
    unfold State.pmcAdd
    simp only [keeps_ite]
    rw [keeps_foldl]
    · simp
    · intro y t x
      simp [ih]

@[simp] theorem keeps_pmcEvent (z : State) (s : State) (base n ev : Nat) (who : Option Nat) (d : Nat) :
    Keeps z (State.pmcEvent s base n ev who d) ↔ Keeps z s := by
  unfold State.pmcEvent; rw [keeps_foldl]
  intro y t x
  repeat' split
  all_goals simp [*]

@[simp] theorem keeps_devEvent (z : State) (s : State) (ev : Nat) (d : Nat) :
    Keeps z (State.devEvent s ev d) ↔ Keeps z s := by
  unfold State.devEvent; simp

@[simp] theorem keeps_pipeEvent (z : State) (s : State) (p ev : Nat) (d : Nat) :
    Keeps z (State.pipeEvent s p ev d) ↔ Keeps z s := by
  unfold State.pipeEvent; simp

@[simp] theorem keeps_cluEvent (z : State) (s : State) (c ev : Nat) (engine : Option Nat) :
    Keeps z (State.cluEvent s c ev engine) ↔ Keeps z s := by
  unfold State.cluEvent; simp

@[simp] theorem keeps_engEvent (z : State) (s : State) (t ev : Nat) :
    Keeps z (State.engEvent s t ev) ↔ Keeps z s := by
  unfold State.engEvent; simp

@[simp] theorem keeps_hartEvent (z : State) (s : State) (h ev d : Nat) :
    Keeps z (State.hartEvent s h ev d) ↔ Keeps z s := by
  unfold State.hartEvent; simp

@[simp] theorem keeps_accessedBy (z : State) (s : State) (req : Requester) :
    Keeps z (State.accessedBy s req) ↔ Keeps z s := by
  unfold State.accessedBy; repeat' split
  all_goals simp_all

@[simp] theorem keeps_hartEdge (z : State) (s : State) :
    Keeps z (State.hartEdge s) ↔ Keeps z s := by
  unfold State.hartEdge; simp

@[simp] theorem keeps_sampleRecord (z : State) (s : State) (ts pc thread event flags insn : Nat) (addr : Nat) :
    Keeps z (State.sampleRecord s ts pc thread event flags insn addr) ↔ Keeps z s := by
  unfold State.sampleRecord; simp

@[simp] theorem keeps_sample (z : State) (s : State) (source arg : Nat) (start stop : Int) (degraded : Bool) :
    Keeps z (State.sample s source arg start stop degraded) ↔ Keeps z s := by
  unfold State.sample; rw [keeps_foldl]
  intro y t x
  repeat' split
  all_goals simp [*]

@[simp] theorem keeps_spill (z : State) (s : State) (e : Nat × Nat × Nat) :
    Keeps z (State.spill s e) ↔ Keeps z s := by
  unfold State.spill; simp

@[simp] theorem keeps_setPairs (z : State) (s : State) (p : Nat) (l : List (Nat × Nat × Nat)) :
    Keeps z (State.setPairs s p l) ↔ Keeps z s := by
  unfold State.setPairs; simp

@[simp] theorem keeps_countPair (z : State) (s : State) (p i len : Nat) :
    Keeps z (State.countPair s p i len) ↔ Keeps z s := by
  unfold State.countPair; dsimp only; repeat' split
  all_goals simp [*]

@[simp] theorem keeps_spillPair (z : State) (s : State) (i : Nat) :
    Keeps z (State.spillPair s i) ↔ Keeps z s := by
  unfold State.spillPair; rw [keeps_foldl]
  intro y t x
  repeat' split
  all_goals simp [*]

@[simp] theorem keeps_spillAll (z : State) (s : State) :
    Keeps z (State.spillAll s) ↔ Keeps z s := by
  unfold State.spillAll; repeat' (first | (simp [*]; done) | intro y t x | split | rw [keeps_foldl] | rw [keeps_foldl_fst])

@[simp] theorem keeps_closeBlock (z : State) (s : State) :
    Keeps z (State.closeBlock s) ↔ Keeps z s := by
  unfold State.closeBlock; simp

@[simp] theorem keeps_flowRecord (z : State) (s : State) (r : FlowRec) :
    Keeps z (State.flowRecord s r) ↔ Keeps z s := by
  unfold State.flowRecord; simp

/-! ## CryptoOps -/

@[simp] theorem keeps_onSec (z : State) (s : State) (g : SecState → SecState) :
    Keeps z (State.onSec s g) ↔ Keeps z s := by
  unfold State.onSec; simp

@[simp] theorem keeps_readKey (z : State) (s : State) (i : Nat) :
    Keeps z (State.readKey s i).1 ↔ Keeps z s := by
  unfold State.readKey; dsimp only; repeat' split
  all_goals simp [*]

@[simp] theorem keeps_inlineKey (z : State) (s : State) (i : Nat) :
    Keeps z (State.inlineKey s i).1 ↔ Keeps z s := by
  unfold State.inlineKey; dsimp only; repeat' split
  all_goals simp [*]

@[simp] theorem keeps_setSa (z : State) (s : State) (i w v : Nat) :
    Keeps z (State.setSa s i w v) ↔ Keeps z s := by
  unfold State.setSa; simp

@[simp] theorem keeps_inlineDrop (z : State) (s : State) :
    Keeps z (State.inlineDrop s) ↔ Keeps z s := by
  unfold State.inlineDrop; simp

@[simp] theorem keeps_inlineFault (z : State) (s : State) (u : Nat) :
    Keeps z (State.inlineFault s u) ↔ Keeps z s := by
  unfold State.inlineFault; simp

@[simp] theorem keeps_espDecrypt (z : State) (s : State) (pipe : Nat) (p : Packet) :
    Keeps z (State.espDecrypt s pipe p).1 ↔ Keeps z s := by
  unfold State.espDecrypt; dsimp only; repeat' split
  all_goals simp [*]

@[simp] theorem keeps_espEncrypt (z : State) (s : State) (i : Nat) (p : Packet) :
    Keeps z (State.espEncrypt s i p).1 ↔ Keeps z s := by
  unfold State.espEncrypt; dsimp only; repeat' split
  all_goals simp [*]

@[simp] theorem keeps_tlsEncrypt (z : State) (s : State) (i : Nat) (p : Packet) :
    Keeps z (State.tlsEncrypt s i p).1 ↔ Keeps z s := by
  unfold State.tlsEncrypt; dsimp only; repeat' split
  all_goals simp [*]

@[simp] theorem keeps_inlineEncrypt (z : State) (s : State) (unit : Nat) (p : Packet) :
    Keeps z (State.inlineEncrypt s unit p).1 ↔ Keeps z s := by
  unfold State.inlineEncrypt; repeat' split
  all_goals simp_all

@[simp] theorem keeps_setMacsec (z : State) (s : State) (p c w v : Nat) :
    Keeps z (State.setMacsec s p c w v) ↔ Keeps z s := by
  unfold State.setMacsec; simp

@[simp] theorem keeps_macsecKey (z : State) (s : State) (p c a : Nat) :
    Keeps z (State.macsecKey s p c a).1 ↔ Keeps z s := by
  unfold State.macsecKey; simp

@[simp] theorem keeps_macsecRx (z : State) (s : State) (p : Nat) (bs : List Byte) :
    Keeps z (State.macsecRx s p bs).1 ↔ Keeps z s := by
  unfold State.macsecRx; dsimp only; repeat' split
  all_goals simp [*]

@[simp] theorem keeps_macsecTx (z : State) (s : State) (p : Nat) (bs : List Byte) :
    Keeps z (State.macsecTx s p bs).1 ↔ Keeps z s := by
  unfold State.macsecTx; dsimp only; repeat' split
  all_goals simp [*]

/-! ## TableOps -/

@[simp] theorem keeps_tblWrite (z : State) (s : State) (a : Nat) (bs : List Byte) :
    Keeps z (State.tblWrite s a bs) ↔ Keeps z s := by
  unfold State.tblWrite; simp

@[simp] theorem keeps_setEntry (z : State) (s : State) (c : Cuckoo) (p : Spot) (e : Nat) :
    Keeps z (State.setEntry s c p e) ↔ Keeps z s := by
  unfold State.setEntry; repeat' split
  all_goals simp_all

@[simp] theorem keeps_onCacheSet (z : State) (s : State) (key : List Byte) (f : List CacheLine → List CacheLine) :
    Keeps z (State.onCacheSet s key f) ↔ Keeps z s := by
  unfold State.onCacheSet; simp

@[simp] theorem keeps_cacheUse (z : State) (s : State) (key : List Byte) :
    Keeps z (State.cacheUse s key) ↔ Keeps z s := by
  unfold State.cacheUse; simp

@[simp] theorem keeps_tierHit (z : State) (s : State) (key : List Byte) :
    Keeps z (State.tierHit s key) ↔ Keeps z s := by
  unfold State.tierHit; dsimp only; repeat' split
  all_goals simp [*]

@[simp] theorem keeps_cacheFill (z : State) (s : State) (line : CacheLine) :
    Keeps z (State.cacheFill s line) ↔ Keeps z s := by
  unfold State.cacheFill; dsimp only; rw [keeps_foldl]
  · repeat' split
    all_goals simp [*]
  · intro y t x
    repeat' split
    all_goals simp [*]

@[simp] theorem keeps_cacheUpdate (z : State) (s : State) (key : List Byte) :
    Keeps z (State.cacheUpdate s key) ↔ Keeps z s := by
  unfold State.cacheUpdate; repeat' split
  all_goals simp_all

@[simp] theorem keeps_countEntries (z : State) (s : State) (t : Nat) (d : Int) :
    Keeps z (State.countEntries s t d) ↔ Keeps z s := by
  unfold State.countEntries; simp

@[simp] theorem keeps_countStash (z : State) (s : State) (t : Nat) :
    Keeps z (State.countStash s t) ↔ Keeps z s := by
  unfold State.countStash; simp

@[simp] theorem keeps_markStash (z : State) (s : State) (c : Cuckoo) (p : Spot) (used : Bool) :
    Keeps z (State.markStash s c p used) ↔ Keeps z s := by
  unfold State.markStash; repeat' split
  all_goals simp_all

@[simp] theorem keeps_occupy (z : State) (s : State) (c : Cuckoo) (p : Spot) (e : Nat) :
    Keeps z (State.occupy s c p e) ↔ Keeps z s := by
  unfold State.occupy; simp

@[simp] theorem keeps_vacate (z : State) (s : State) (c : Cuckoo) (p : Spot) :
    Keeps z (State.vacate s c p) ↔ Keeps z s := by
  unfold State.vacate; repeat' split
  all_goals simp_all

@[simp] theorem keeps_moveEntry (z : State) (s : State) (c : Cuckoo) (src dst : Spot) :
    Keeps z (State.moveEntry s c src dst) ↔ Keeps z s := by
  unfold State.moveEntry; simp

@[simp] theorem keeps_victim (z : State) (s : State) (c : Cuckoo) (w b : Nat) (path : List Spot) :
    Keeps z (State.victim s c w b path).1 ↔ Keeps z s := by
  unfold State.victim; dsimp only; repeat' split
  all_goals simp [*]

@[simp] theorem keeps_findPath (z : State) (s : State) (c : Cuckoo) (a1 a2 a3 : Nat) (a4 : List Spot) :
    Keeps z (State.findPath s c a1 a2 a3 a4).1 ↔ Keeps z s := by
  induction a1 generalizing s a2 a3 a4 with
  | zero => simp [State.findPath]
  | succ n ih =>
    unfold State.findPath
    have key := keeps_victim z s c a2 a3 a4
    split
    · next h => simpa [h] using key
    · next h =>
      rw [h] at key
      dsimp only
      split
      · exact key
      · rw [ih]; exact key

@[simp] theorem keeps_movePath (z : State) (s : State) (c : Cuckoo) (a1 : List Spot) (a2 : Spot) :
    Keeps z (State.movePath s c a1 a2) ↔ Keeps z s := by
  induction a1 generalizing a2 with
  | nil => rfl
  | cons p rest ih => simp [State.movePath, ih]

@[simp] theorem keeps_cuckooPlace (z : State) (s : State) (c : Cuckoo) (e : Nat) :
    Keeps z (State.cuckooPlace s c e).1 ↔ Keeps z s := by
  unfold State.cuckooPlace
  dsimp only
  split
  · simp
  · simp
  · split
    all_goals
      rename_i h
      have key := congrArg (fun p => Keeps z p.1) h
      simp only [keeps_findPath] at key
      repeat' split
      all_goals simp [← key]

@[simp] theorem keeps_followTier (z : State) (s : State) (c : Cuckoo) (key : Nat) :
    Keeps z (State.followTier s c key) ↔ Keeps z s := by
  unfold State.followTier; simp

@[simp] theorem keeps_insertEntry (z : State) (s : State) (c : Cuckoo) (e : Nat) :
    Keeps z (State.insertEntry s c e).1 ↔ Keeps z s := by
  unfold State.insertEntry; simp

@[simp] theorem keeps_unstash (z : State) (s : State) (c : Cuckoo) (freed : Spot) :
    Keeps z (State.unstash s c freed) ↔ Keeps z s := by
  unfold State.unstash; repeat' split
  all_goals simp_all

@[simp] theorem keeps_removeEntry (z : State) (s : State) (c : Cuckoo) (p : Spot) :
    Keeps z (State.removeEntry s c p) ↔ Keeps z s := by
  unfold State.removeEntry; simp

@[simp] theorem keeps_updateEntry (z : State) (s : State) (c : Cuckoo) (e : Nat) :
    Keeps z (State.updateEntry s c e).1 ↔ Keeps z s := by
  unfold State.updateEntry; dsimp only; repeat' split
  all_goals simp [*]

@[simp] theorem keeps_clearGens (z : State) (s : State) (c : Cuckoo) (key mask a1 : Nat) :
    Keeps z (State.clearGens s c key mask a1) ↔ Keeps z s := by
  induction a1 generalizing s with
  | zero => rfl
  | succ n ih =>
    unfold State.clearGens
    split
    · rfl
    · dsimp only
      rw [ih]
      repeat' split
      all_goals simp

@[simp] theorem keeps_deleteEntry (z : State) (s : State) (c : Cuckoo) (key mask : Nat) :
    Keeps z (State.deleteEntry s c key mask).1 ↔ Keeps z s := by
  unfold State.deleteEntry; repeat' (first | (simp [*]; done) | (simp [*, keeps_foldl]; done) | intro y t x | split | rw [keeps_foldl] | rw [keeps_foldl_fst] | simp)

@[simp] theorem keeps_setRange (z : State) (s : State) (t i e : Nat) :
    Keeps z (State.setRange s t i e) ↔ Keeps z s := by
  unfold State.setRange; simp

@[simp] theorem keeps_setHit (z : State) (s : State) (h : Hit) :
    Keeps z (State.setHit s h) ↔ Keeps z s := by
  unfold State.setHit; dsimp only; repeat' split
  all_goals simp [*]

@[simp] theorem keeps_badTable (z : State) (s : State) :
    Keeps z (State.badTable s) ↔ Keeps z s := by
  unfold State.badTable; simp

@[simp] theorem keeps_rangeCommand (z : State) (s : State) (t op index mask image : Nat) :
    Keeps z (State.rangeCommand s t op index mask image).1 ↔ Keeps z s := by
  unfold State.rangeCommand; repeat' (first | (simp [*]; done) | (simp [*, keeps_foldl]; done) | intro y t x | split | rw [keeps_foldl] | rw [keeps_foldl_fst] | simp)

@[simp] theorem keeps_cuckooCommand (z : State) (s : State) (c : Cuckoo) (op mask image : Nat) :
    Keeps z (State.cuckooCommand s c op mask image).1 ↔ Keeps z s := by
  unfold State.cuckooCommand; dsimp only; repeat' split
  all_goals simp [*]

@[simp] theorem keeps_writeDirect (z : State) (s : State) (c : Cuckoo) (p : Spot) (image : Nat) :
    Keeps z (State.writeDirect s c p image) ↔ Keeps z s := by
  unfold State.writeDirect; simp

@[simp] theorem keeps_tableCommand (z : State) (s : State) (op t index mask image : Nat) :
    Keeps z (State.tableCommand s op t index mask image).1 ↔ Keeps z s := by
  unfold State.tableCommand; dsimp only; repeat' split
  all_goals simp [*]

end Sys2Proof.Machine
end

