-- ==== Sys2Proof/Laws/Keep2.lean ====
section
/-! SUPPORT. The operations of TaborOps, QueueOps, PipeOps, MbxOps, NvmOps keep the queue and the counters. -/
namespace Sys2Proof.Machine

/-! ## TaborOps -/

@[simp] theorem keeps_onThread (z : State) (s : State) (t : Nat) (g : Thread → Thread) :
    Keeps z (State.onThread s t g) ↔ Keeps z s := by
  unfold State.onThread; simp

@[simp] theorem keeps_clusterEvent (z : State) (s : State) (c k : Nat) (t : Nat) :
    Keeps z (State.clusterEvent s c k t) ↔ Keeps z s := by
  unfold State.clusterEvent; simp

@[simp] theorem keeps_refuseTbc (z : State) (s : State) (c : Nat) (t : Nat) :
    Keeps z (State.refuseTbc s c t) ↔ Keeps z s := by
  unfold State.refuseTbc; simp

@[simp] theorem keeps_setDomain (z : State) (s : State) (d : Nat) (on : Bool) :
    Keeps z (State.setDomain s d on) ↔ Keeps z s := by
  unfold State.setDomain; simp

@[simp] theorem keeps_wakeCluster (z : State) (s : State) (c : Nat) :
    Keeps z (State.wakeCluster s c) ↔ Keeps z s := by
  unfold State.wakeCluster; simp

@[simp] theorem keeps_samples (z : State) (s : State) (t pc word addr : Nat) (trapped : Bool) :
    Keeps z (State.samples s t pc word addr trapped) ↔ Keeps z s := by
  unfold State.samples; rw [keeps_foldl]
  intro y t x
  repeat' split
  all_goals simp [*]

@[simp] theorem keeps_endStep (z : State) (s : State) (t : Nat) :
    Keeps z (State.endStep s t) ↔ Keeps z s := by
  unfold State.endStep; simp

@[simp] theorem keeps_retire (z : State) (s : State) (t pc word addr : Nat) :
    Keeps z (State.retire s t pc word addr) ↔ Keeps z s := by
  unfold State.retire; simp

@[simp] theorem keeps_stirred (z : State) (s : State) (c : Nat) :
    Keeps z (State.stirred s c) ↔ Keeps z s := by
  unfold State.stirred; simp

@[simp] theorem keeps_goesOn (z : State) (s : State) (t : Nat) (g : Thread → Thread) :
    Keeps z (State.goesOn s t g) ↔ Keeps z s := by
  unfold State.goesOn; simp

@[simp] theorem keeps_checkWait (z : State) (s : State) (t : Nat) :
    Keeps z (State.checkWait s t) ↔ Keeps z s := by
  unfold State.checkWait; dsimp only; repeat' split
  all_goals simp [*]

@[simp] theorem keeps_event (z : State) (s : State) (t bit : Nat) :
    Keeps z (State.event s t bit) ↔ Keeps z s := by
  unfold State.event; simp

@[simp] theorem keeps_giveSlot (z : State) (s : State) (t : Nat) (x : Slot) :
    Keeps z (State.giveSlot s t x) ↔ Keeps z s := by
  unfold State.giveSlot; simp

@[simp] theorem keeps_takeSlot (z : State) (s : State) (t n : Nat) :
    Keeps z (State.takeSlot s t n) ↔ Keeps z s := by
  unfold State.takeSlot; simp

@[simp] theorem keeps_assign (z : State) (s : State) (e pool : Nat) (p : Packet) :
    Keeps z (State.assign s e pool p) ↔ Keeps z s := by
  unfold State.assign; repeat' split
  all_goals simp_all

@[simp] theorem keeps_threadWrite (z : State) (s : State) (t : Nat) (shared : Bool) (a : Nat) (bs : List Byte) :
    Keeps z (State.threadWrite s t shared a bs) ↔ Keeps z s := by
  unfold State.threadWrite; simp

@[simp] theorem keeps_post (z : State) (s : State) (t a : Nat) (bs : List Byte) :
    Keeps z (State.post s t a bs) ↔ Keeps z s := by
  unfold State.post; simp

@[simp] theorem keeps_drainPosted (z : State) (s : State) :
    Keeps z (State.drainPosted s) ↔ Keeps z s := by
  unfold State.drainPosted; repeat' (first | (simp [*]; done) | (simp [*, keeps_foldl]; done) | intro y t x | split | rw [keeps_foldl] | rw [keeps_foldl_fst] | simp)

@[simp] theorem keeps_storeBytes (z : State) (s : State) (t : Nat) (space addr : Nat) (bs : List Byte) :
    Keeps z (State.storeBytes s t space addr bs) ↔ Keeps z s := by
  unfold State.storeBytes; repeat' split
  all_goals simp_all

@[simp] theorem keeps_takeMsg (z : State) (s : State) (place : Nat) :
    Keeps z (State.takeMsg s place) ↔ Keeps z s := by
  unfold State.takeMsg; simp

@[simp] theorem keeps_respond (z : State) (s : State) (m : Msg) (status : Nat) (detail : Nat) (more : List Word) (entry : List Byte) :
    Keeps z (State.respond s m status detail more entry) ↔ Keeps z s := by
  unfold State.respond; simp

@[simp] theorem keeps_land (z : State) (s : State) (r : Resp) :
    Keeps z (State.land s r) ↔ Keeps z s := by
  unfold State.land; repeat' split
  all_goals simp_all

/-! ## QueueOps -/

@[simp] theorem keeps_linkCount (z : State) (s : State) (f k n : Nat) :
    Keeps z (State.linkCount s f k n) ↔ Keeps z s := by
  unfold State.linkCount; repeat' split
  all_goals simp_all

@[simp] theorem keeps_hostTlp (z : State) (s : State) (f : Nat) :
    Keeps z (State.hostTlp s f) ↔ Keeps z s := by
  unfold State.hostTlp; simp

@[simp] theorem keeps_hostWrite (z : State) (s : State) (f a : Nat) (bs : List Byte) :
    Keeps z (State.hostWrite s f a bs) ↔ Keeps z s := by
  unfold State.hostWrite; simp

@[simp] theorem keeps_pcieError (z : State) (s : State) (f : Nat) (e : AerError) :
    Keeps z (State.pcieError s f e) ↔ Keeps z s := by
  unfold State.pcieError; repeat' split
  all_goals simp_all

@[simp] theorem keeps_issueRead (z : State) (s : State) (f : Nat) (u : ReadUse) :
    Keeps z (State.issueRead s f u) ↔ Keeps z s := by
  unfold State.issueRead; dsimp only; repeat' split
  all_goals simp [*]

@[simp] theorem keeps_onFn (z : State) (s : State) (f : Nat) (g : FnState → FnState) :
    Keeps z (State.onFn s f g) ↔ Keeps z s := by
  unfold State.onFn; simp

@[simp] theorem keeps_msix (z : State) (s : State) (f v : Nat) (mbx : Bool) :
    Keeps z (State.msix s f v mbx) ↔ Keeps z s := by
  unfold State.msix; dsimp only; repeat' split
  all_goals simp [*]

@[simp] theorem keeps_releaseIde (z : State) (s : State) (l : Nat) :
    Keeps z (State.releaseIde s l) ↔ Keeps z s := by
  unfold State.releaseIde; repeat' (first | (simp [*]; done) | intro y t x | split | rw [keeps_foldl] | rw [keeps_foldl_fst])

@[simp] theorem keeps_signal (z : State) (s : State) (f v : Nat) :
    Keeps z (State.signal s f v) ↔ Keeps z s := by
  unfold State.signal; simp

@[simp] theorem keeps_onPair (z : State) (s : State) (g : Nat) (h : QueuePair → QueuePair) :
    Keeps z (State.onPair s g h) ↔ Keeps z s := by
  unfold State.onPair; simp

@[simp] theorem keeps_queueWrite (z : State) (s : State) (f g a : Nat) (bs : List Byte) :
    Keeps z (State.queueWrite s f g a bs) ↔ Keeps z s := by
  unfold State.queueWrite; simp

@[simp] theorem keeps_checkIrq (z : State) (s : State) (f g : Nat) (rx : Bool) :
    Keeps z (State.checkIrq s f g rx) ↔ Keeps z s := by
  unfold State.checkIrq; simp

@[simp] theorem keeps_writeCompletion (z : State) (s : State) (f g r : Nat) (w0 w1 w2 w3 : Nat) :
    Keeps z (State.writeCompletion s f g r w0 w1 w2 w3) ↔ Keeps z s := by
  unfold State.writeCompletion; simp

@[simp] theorem keeps_sarupSent (z : State) (s : State) (p : Packet) :
    Keeps z (State.sarupSent s p) ↔ Keeps z s := by
  unfold State.sarupSent; repeat' split
  all_goals simp_all

@[simp] theorem keeps_endFrame (z : State) (s : State) (p : Packet) (status ts : Nat) (degraded : Bool) (tsKind : Nat) :
    Keeps z (State.endFrame s p status ts degraded tsKind) ↔ Keeps z s := by
  unfold State.endFrame; repeat' split
  all_goals simp_all

@[simp] theorem keeps_dropFrame (z : State) (s : State) (p : Packet) (status : Nat) :
    Keeps z (State.dropFrame s p status) ↔ Keeps z s := by
  unfold State.dropFrame; simp

@[simp] theorem keeps_dropSelected (z : State) (s : State) (p : Packet) (status : Nat) :
    Keeps z (State.dropSelected s p status) ↔ Keeps z s := by
  unfold State.dropSelected; simp

@[simp] theorem keeps_stopHeld (z : State) (s : State) (g : Nat) :
    Keeps z (State.stopHeld s g) ↔ Keeps z s := by
  unfold State.stopHeld; repeat' (first | (simp [*]; done) | intro y t x | split | rw [keeps_foldl] | rw [keeps_foldl_fst])

@[simp] theorem keeps_linkEvent (z : State) (s : State) (l k : Nat) (addr : Nat) :
    Keeps z (State.linkEvent s l k addr) ↔ Keeps z s := by
  unfold State.linkEvent; simp

@[simp] theorem keeps_haltQueue (z : State) (s : State) (g err index : Nat) (rx : Bool) :
    Keeps z (State.haltQueue s g err index rx) ↔ Keeps z s := by
  unfold State.haltQueue; dsimp only; repeat' split
  all_goals simp [*]

@[simp] theorem keeps_fillBuffers (z : State) (s : State) (f : Nat) (a1 : List (Nat × Nat × Nat)) (a2 : List Byte) :
    Keeps z (State.fillBuffers s f a1 a2) ↔ Keeps z s := by
  induction a1 generalizing s a2 with
  | nil => rfl
  | cons b rest ih => simp [State.fillBuffers, ih]

@[simp] theorem keeps_rxDeliver (z : State) (s : State) (f g : Nat) (p : Packet) (bufs : List (Nat × Nat × Nat)) :
    Keeps z (State.rxDeliver s f g p bufs) ↔ Keeps z s := by
  unfold State.rxDeliver; simp

@[simp] theorem keeps_reportChain (z : State) (s : State) (f g : Nat) (c : TxChain) :
    Keeps z (State.reportChain s f g c) ↔ Keeps z s := by
  unfold State.reportChain; repeat' split
  all_goals simp_all

theorem keeps_releaseChain (z : State) (s : State) (f g : Nat) :
    ∀ u : State, (State.releaseChain s f g) = some u → (Keeps z u ↔ Keeps z s) := by
  unfold State.releaseChain; repeat' split
  all_goals simp_all

/-! ## PipeOps -/

@[simp] theorem keeps_onPipe (z : State) (s : State) (p : Nat) (g : Pipeline → Pipeline) :
    Keeps z (State.onPipe s p g) ↔ Keeps z s := by
  unfold State.onPipe; simp

@[simp] theorem keeps_pipeSource (z : State) (s : State) (p k : Nat) :
    Keeps z (State.pipeSource s p k) ↔ Keeps z s := by
  unfold State.pipeSource; simp

@[simp] theorem keeps_feed (z : State) (s : State) (p k : Nat) (x : Packet) :
    Keeps z (State.feed s p k x) ↔ Keeps z s := by
  unfold State.feed; simp

@[simp] theorem keeps_limited (z : State) (s : State) (p : Nat) :
    Keeps z (State.limited s p) ↔ Keeps z s := by
  unfold State.limited; simp

@[simp] theorem keeps_badAction (z : State) (s : State) (p : Nat) :
    Keeps z (State.badAction s p) ↔ Keeps z s := by
  unfold State.badAction; simp

@[simp] theorem keeps_side (z : State) {α : Type} (s : State) (p : Nat) (l : List α) (x : Option α) (limit : Nat) :
    Keeps z (State.side s p l x limit).1 ↔ Keeps z s := by
  unfold State.side; repeat' split
  all_goals simp_all

@[simp] theorem keeps_doAction (z : State) (s : State) (p i : Nat) (w : Walk) :
    Keeps z (State.doAction s p i w).1 ↔ Keeps z s := by
  unfold State.doAction; simp

@[simp] theorem keeps_tierUsed (z : State) (s : State) (p t : Nat) (bytes : List Byte) :
    Keeps z (State.tierUsed s p t bytes) ↔ Keeps z s := by
  unfold State.tierUsed; simp

@[simp] theorem keeps_stageLookup (z : State) (s : State) (p b k : Nat) (w : Walk) :
    Keeps z (State.stageLookup s p b k w).1 ↔ Keeps z s := by
  unfold State.stageLookup; dsimp only; repeat' split
  all_goals simp [*]

@[simp] theorem keeps_fetchKey (z : State) (s : State) (key : List Byte) :
    Keeps z (State.fetchKey s key) ↔ Keeps z s := by
  unfold State.fetchKey; simp

@[simp] theorem keeps_startFetch (z : State) (s : State) (p : Nat) (key : List Byte) :
    Keeps z (State.startFetch s p key) ↔ Keeps z s := by
  unfold State.startFetch; simp

@[simp] theorem keeps_runStages (z : State) (s : State) (p : Nat) (a1 : Nat) (a2 : Walk) :
    Keeps z (State.runStages s p a1 a2).1 ↔ Keeps z s := by
  induction a1 generalizing s a2 with
  | zero => rfl
  | succ n ih =>
    unfold State.runStages
    dsimp only
    split
    · rfl
    · split
      · exact ih s _
      · split
        all_goals
          rename_i h
          have key := congrArg (fun q => Keeps z q.1) h
          simp only [keeps_stageLookup] at key
        · simp [key]
        · rw [ih]; simp [key]

@[simp] theorem keeps_police (z : State) (s : State) (p i len pre : Nat) :
    Keeps z (State.police s p i len pre).1 ↔ Keeps z s := by
  unfold State.police; simp

@[simp] theorem keeps_policeAll (z : State) (s : State) (p len : Nat) (l : List (Nat × Bool)) :
    Keeps z (State.policeAll s p len l).1 ↔ Keeps z s := by
  unfold State.policeAll; repeat' (first | (simp [*]; done) | intro y t x | split | rw [keeps_foldl] | rw [keeps_foldl_fst])

@[simp] theorem keeps_countTurned (z : State) (s : State) (p : Nat) (a1 : Turned) :
    Keeps z (State.countTurned s p a1) ↔ Keeps z s := by
  unfold State.countTurned; repeat' split
  all_goals simp_all

@[simp] theorem keeps_enqueue (z : State) (s : State) (x : Packet) (g : Option Nat) (prio : Nat) :
    Keeps z (State.enqueue s x g prio).1 ↔ Keeps z s := by
  unfold State.enqueue; repeat' split
  all_goals simp_all

@[simp] theorem keeps_sequence (z : State) (s : State) (p : Nat) (x : Packet) (deadline : Option Nat) :
    Keeps z (State.sequence s p x deadline).1 ↔ Keeps z s := by
  unfold State.sequence; simp

@[simp] theorem keeps_startDeadline (z : State) (s : State) (x : Packet) :
    Keeps z (State.startDeadline s x) ↔ Keeps z s := by
  unfold State.startDeadline; repeat' split
  all_goals simp_all

@[simp] theorem keeps_leaveReorder (z : State) (s : State) (x : Packet) :
    Keeps z (State.leaveReorder s x) ↔ Keeps z s := by
  unfold State.leaveReorder; repeat' split
  all_goals simp_all

@[simp] theorem keeps_flushDomain (z : State) (s : State) (p d a1 : Nat) :
    Keeps z (State.flushDomain s p d a1) ↔ Keeps z s := by
  induction a1 generalizing s with
  | zero => rfl
  | succ n ih =>
    unfold State.flushDomain
    split
    · rfl
    · split
      · rw [ih]
        simp
      · rfl

@[simp] theorem keeps_releaseSeq (z : State) (s : State) (p d n : Nat) (x : Option Packet) :
    Keeps z (State.releaseSeq s p d n x) ↔ Keeps z s := by
  unfold State.releaseSeq; repeat' split
  all_goals simp_all

@[simp] theorem keeps_dropSeq (z : State) (s : State) (x : Packet) :
    Keeps z (State.dropSeq s x) ↔ Keeps z s := by
  unfold State.dropSeq; repeat' split
  all_goals simp_all

@[simp] theorem keeps_countAll (z : State) (s : State) (p : Nat) (w : Walk) :
    Keeps z (State.countAll s p w) ↔ Keeps z s := by
  unfold State.countAll; rw [keeps_foldl]
  intro y t x
  repeat' split
  all_goals simp [*]

@[simp] theorem keeps_submitLearn (z : State) (s : State) (p : Nat) (x : Packet) :
    Keeps z (State.submitLearn s p x) ↔ Keeps z s := by
  unfold State.submitLearn; simp

@[simp] theorem keeps_tierCount (z : State) (s : State) (x : Packet) (key : List Byte) :
    Keeps z (State.tierCount s x key) ↔ Keeps z s := by
  unfold State.tierCount; dsimp only; repeat' split
  all_goals simp [*]

@[simp] theorem keeps_sketch (z : State) (s : State) (p : Nat) (x : Packet) :
    Keeps z (State.sketch s p x) ↔ Keeps z s := by
  unfold State.sketch; simp

@[simp] theorem keeps_enqueueCopy (z : State) (s : State) (x : Packet) (dest : Dest) (g : Option Nat) (prio : Nat) :
    Keeps z (State.enqueueCopy s x dest g prio).1 ↔ Keeps z s := by
  unfold State.enqueueCopy; simp

@[simp] theorem keeps_makeCopies (z : State) (s : State) (w : Walk) (x : Packet) :
    Keeps z (State.makeCopies s w x) ↔ Keeps z s := by
  unfold State.makeCopies; rw [keeps_foldl]
  intro y t x
  repeat' split
  all_goals simp [*]

@[simp] theorem keeps_makeMirrors (z : State) (s : State) (w : Walk) (x : Packet) :
    Keeps z (State.makeMirrors s w x) ↔ Keeps z s := by
  unfold State.makeMirrors; rw [keeps_foldl]
  intro y t x
  repeat' split
  all_goals simp [*]

@[simp] theorem keeps_verdictDrop (z : State) (s : State) (p : Nat) (w : Walk) (stat : Option Nat) :
    Keeps z (State.verdictDrop s p w stat) ↔ Keeps z s := by
  unfold State.verdictDrop; repeat' split
  all_goals simp_all

@[simp] theorem keeps_verdict (z : State) (s : State) (p : Nat) (w : Walk) (seen : Packet) :
    Keeps z (State.verdict s p w seen) ↔ Keeps z s := by
  unfold State.verdict; repeat' (first | (simp [*]; done) | (simp [*, keeps_foldl]; done) | intro y t x | split | rw [keeps_foldl] | rw [keeps_foldl_fst] | simp)

@[simp] theorem keeps_defaultAct (z : State) (s : State) (p : Nat) (w : Walk) :
    Keeps z (State.defaultAct s p w).1 ↔ Keeps z s := by
  unfold State.defaultAct; simp

@[simp] theorem keeps_finalVerdict (z : State) (s : State) (p : Nat) (w : Walk) :
    Keeps z (State.finalVerdict s p w) ↔ Keeps z s := by
  unfold State.finalVerdict; dsimp only; repeat' split
  all_goals simp [*]

@[simp] theorem keeps_atVerdict (z : State) (s : State) (p : Nat) (w : Walk) :
    Keeps z (State.atVerdict s p w) ↔ Keeps z s := by
  unfold State.atVerdict; simp

@[simp] theorem keeps_skipScan (z : State) (s : State) (p : Nat) (w : Walk) :
    Keeps z (State.skipScan s p w) ↔ Keeps z s := by
  unfold State.skipScan; simp

@[simp] theorem keeps_endWalk (z : State) (s : State) (p : Nat) (w : Walk) :
    Keeps z (State.endWalk s p w) ↔ Keeps z s := by
  unfold State.endWalk; dsimp only; repeat' split
  all_goals simp [*]

@[simp] theorem keeps_parkWalk (z : State) (s : State) (p : Nat) (w : Walk) :
    Keeps z (State.parkWalk s p w) ↔ Keeps z s := by
  unfold State.parkWalk; simp

@[simp] theorem keeps_dropStale (z : State) (s : State) (w : Walk) :
    Keeps z (State.dropStale s w) ↔ Keeps z s := by
  unfold State.dropStale; simp

@[simp] theorem keeps_takeWalk (z : State) (s : State) (p i : Nat) :
    Keeps z (State.takeWalk s p i) ↔ Keeps z s := by
  unfold State.takeWalk; simp

@[simp] theorem keeps_goWalk (z : State) (s : State) (p : Nat) (w : Walk) : Keeps z (State.goWalk s p w) ↔ Keeps z s := by
  unfold State.goWalk
  split
  all_goals
    rename_i h
    have key := congrArg (fun q => Keeps z q.1) h
    simp only [keeps_runStages] at key
    simp [key]

@[simp] theorem keeps_bootWalk (z : State) (s : State) (p : Nat) (x : Packet) :
    Keeps z (State.bootWalk s p x).1 ↔ Keeps z s := by
  unfold State.bootWalk; simp

/-! ## MbxOps -/

@[simp] theorem keeps_onMbox (z : State) (s : State) (m : Nat) (g : Mailbox → Mailbox) :
    Keeps z (State.onMbox s m g) ↔ Keeps z s := by
  unfold State.onMbox; simp

@[simp] theorem keeps_mbxMsix (z : State) (s : State) (f : Nat) (ctl : Word) (rot : Bool) :
    Keeps z (State.mbxMsix s f ctl rot) ↔ Keeps z s := by
  unfold State.mbxMsix; simp

@[simp] theorem keeps_mbxWake (z : State) (s : State) (m : Nat) (toMgr : Bool) :
    Keeps z (State.mbxWake s m toMgr) ↔ Keeps z s := by
  unfold State.mbxWake; repeat' (first | (simp [*]; done) | intro y t x | split | rw [keeps_foldl] | rw [keeps_foldl_fst])

@[simp] theorem keeps_mbxQueue (z : State) (s : State) (m : Nat) (toMgr : Bool) (words : List Word) (token : Bool) :
    Keeps z (State.mbxQueue s m toMgr words token) ↔ Keeps z s := by
  unfold State.mbxQueue; simp

@[simp] theorem keeps_mbxSetTimeout (z : State) (s : State) (m : Nat) (toMgr : Bool) :
    Keeps z (State.mbxSetTimeout s m toMgr) ↔ Keeps z s := by
  unfold State.mbxSetTimeout; simp

@[simp] theorem keeps_mbxPost (z : State) (s : State) (m : Nat) (toMgr : Bool) (words : List Word) (len : Nat) :
    Keeps z (State.mbxPost s m toMgr words len).1 ↔ Keeps z s := by
  unfold State.mbxPost; simp

@[simp] theorem keeps_mbxDeliver (z : State) (s : State) (m : Nat) :
    Keeps z (State.mbxDeliver s m) ↔ Keeps z s := by
  unfold State.mbxDeliver; dsimp only; repeat' split
  all_goals simp [*]

@[simp] theorem keeps_mbxPop (z : State) (s : State) (m : Nat) (toMgr : Bool) :
    Keeps z (State.mbxPop s m toMgr) ↔ Keeps z s := by
  unfold State.mbxPop; repeat' split
  all_goals simp_all

@[simp] theorem keeps_mbxDiscard (z : State) (s : State) (m : Nat) (toMgr : Bool) :
    Keeps z (State.mbxDiscard s m toMgr) ↔ Keeps z s := by
  unfold State.mbxDiscard; simp

@[simp] theorem keeps_mbxResetFn (z : State) (s : State) (f : Nat) :
    Keeps z (State.mbxResetFn s f) ↔ Keeps z s := by
  unfold State.mbxResetFn; simp

@[simp] theorem keeps_mbxReply (z : State) (s : State) (f : Nat) (words : List Word) :
    Keeps z (State.mbxReply s f words) ↔ Keeps z s := by
  unfold State.mbxReply; simp

/-! ## NvmOps -/

@[simp] theorem keeps_onNvm (z : State) (s : State) (g : NvmState → NvmState) :
    Keeps z (State.onNvm s g) ↔ Keeps z s := by
  unfold State.onNvm; simp

@[simp] theorem keeps_onCtl (z : State) (s : State) (f : Nat) (g : NvmCtl → NvmCtl) :
    Keeps z (State.onCtl s f g) ↔ Keeps z s := by
  unfold State.onCtl; simp

@[simp] theorem keeps_onSq (z : State) (s : State) (f q : Nat) (g : NvmSq → NvmSq) :
    Keeps z (State.onSq s f q g) ↔ Keeps z s := by
  unfold State.onSq; simp

@[simp] theorem keeps_onCq (z : State) (s : State) (f q : Nat) (g : NvmCq → NvmCq) :
    Keeps z (State.onCq s f q g) ↔ Keeps z s := by
  unfold State.onCq; simp

@[simp] theorem keeps_onCmd (z : State) (s : State) (h : Nat) (g : NvmCmd → NvmCmd) :
    Keeps z (State.onCmd s h g) ↔ Keeps z s := by
  unfold State.onCmd; simp

@[simp] theorem keeps_nvmStat (z : State) (s : State) (i : Nat) (d : Nat) :
    Keeps z (State.nvmStat s i d) ↔ Keeps z s := by
  unfold State.nvmStat; simp

@[simp] theorem keeps_setAttachment (z : State) (s : State) (f k a : Nat) :
    Keeps z (State.setAttachment s f k a) ↔ Keeps z s := by
  unfold State.setAttachment; simp

@[simp] theorem keeps_postCqe (z : State) (s : State) (f q : Nat) (e : Nat × Nat × Nat × Nat × Nat × Bool) :
    Keeps z (State.postCqe s f q e) ↔ Keeps z s := by
  unfold State.postCqe; simp

@[simp] theorem keeps_postWaiting (z : State) (s : State) (f q a1 : Nat) : Keeps z (State.postWaiting s f q a1) ↔ Keeps z s := by
  induction a1 generalizing s with
  | zero => rfl
  | succ n ih =>
    unfold State.postWaiting
    dsimp only
    repeat' split
    all_goals simp [ih]

@[simp] theorem keeps_complete (z : State) (s : State) (f q : Nat) (e : Nat × Nat × Nat × Nat × Nat × Bool) :
    Keeps z (State.complete s f q e) ↔ Keeps z s := by
  unfold State.complete; repeat' split
  all_goals simp_all

@[simp] theorem keeps_endCmd (z : State) (s : State) (m : NvmCmd) (status : Nat) (dw0 : Nat) :
    Keeps z (State.endCmd s m status dw0) ↔ Keeps z s := by
  unfold State.endCmd; simp

@[simp] theorem keeps_endCmds (z : State) (s : State) (p : NvmCmd → Bool) (status counter : Nat) :
    Keeps z (State.endCmds s p status counter) ↔ Keeps z s := by
  unfold State.endCmds; rw [keeps_foldl]
  intro y t x
  repeat' split
  all_goals simp [*]

@[simp] theorem keeps_endController (z : State) (s : State) (f : Nat) :
    Keeps z (State.endController s f) ↔ Keeps z s := by
  unfold State.endController; simp

@[simp] theorem keeps_rdyFalls (z : State) (s : State) (f : Nat) :
    Keeps z (State.rdyFalls s f) ↔ Keeps z s := by
  unfold State.rdyFalls; simp

@[simp] theorem keeps_nvmReset (z : State) (s : State) (f cc : Nat) :
    Keeps z (State.nvmReset s f cc) ↔ Keeps z s := by
  unfold State.nvmReset; simp

@[simp] theorem keeps_nvmFnReset (z : State) (s : State) (f : Nat) :
    Keeps z (State.nvmFnReset s f) ↔ Keeps z s := by
  unfold State.nvmFnReset; simp

@[simp] theorem keeps_nvmEvent (z : State) (s : State) (f typ info log : Nat) :
    Keeps z (State.nvmEvent s f typ info log) ↔ Keeps z s := by
  unfold State.nvmEvent; repeat' split
  all_goals simp_all

@[simp] theorem keeps_sendNotice (z : State) (s : State) (f : Nat) :
    Keeps z (State.sendNotice s f) ↔ Keeps z s := by
  unfold State.sendNotice; simp

@[simp] theorem keeps_nsChanged (z : State) (s : State) (f k : Nat) :
    Keeps z (State.nsChanged s f k) ↔ Keeps z s := by
  unfold State.nsChanged; simp

@[simp] theorem keeps_deferError (z : State) (s : State) (f k slba blocks : Nat) :
    Keeps z (State.deferError s f k slba blocks) ↔ Keeps z s := by
  unfold State.deferError; simp

@[simp] theorem keeps_deferAll (z : State) (s : State) :
    Keeps z (State.deferAll s) ↔ Keeps z s := by
  unfold State.deferAll; repeat' (first | (simp [*]; done) | intro y t x | split | rw [keeps_foldl] | rw [keeps_foldl_fst])

@[simp] theorem keeps_setDirty (z : State) (s : State) (f k v : Nat) :
    Keeps z (State.setDirty s f k v) ↔ Keeps z s := by
  unfold State.setDirty; simp

@[simp] theorem keeps_wakeStorage (z : State) (s : State) (c : Nat) :
    Keeps z (State.wakeStorage s c) ↔ Keeps z s := by
  unfold State.wakeStorage; rw [keeps_foldl]
  intro y t x
  repeat' split
  all_goals simp [*]

@[simp] theorem keeps_toReady (z : State) (s : State) (m : NvmCmd) :
    Keeps z (State.toReady s m) ↔ Keeps z s := by
  unfold State.toReady; repeat' split
  all_goals simp_all

@[simp] theorem keeps_dispatchCmd (z : State) (s : State) (h : Nat) (p : NvmCmd → Bool) :
    Keeps z (State.dispatchCmd s h p) ↔ Keeps z s := by
  unfold State.dispatchCmd; repeat' split
  all_goals simp_all

@[simp] theorem keeps_nvmClusterReset (z : State) (s : State) (c : Nat) :
    Keeps z (State.nvmClusterReset s c) ↔ Keeps z s := by
  unfold State.nvmClusterReset; repeat' (first | (simp [*]; done) | (simp [*, keeps_foldl]; done) | intro y t x | split | rw [keeps_foldl] | rw [keeps_foldl_fst] | simp)

@[simp] theorem keeps_writeRuns (z : State) (s : State) (f : Nat) (a1 : List (Nat × Nat)) (a2 : List Byte) :
    Keeps z (State.writeRuns s f a1 a2) ↔ Keeps z s := by
  induction a1 generalizing s a2 with
  | nil => rfl
  | cons r rest ih => simp [State.writeRuns, ih]

@[simp] theorem keeps_adminData (z : State) (s : State) (m : NvmCmd) (bs : List Byte) :
    Keeps z (State.adminData s m bs).1 ↔ Keeps z s := by
  unfold State.adminData; repeat' split
  all_goals simp_all

theorem keeps_kindWrite (z : State) (s : State) (t kind addr : Nat) (bs : List Byte) (c : Option NvmCmd) :
    ∀ u : State, (State.kindWrite s t kind addr bs c) = some u → (Keeps z u ↔ Keeps z s) := by
  intro u h
  unfold State.kindWrite at h
  split at h
  · simp only [Option.bind_eq_some_iff, Option.map_eq_some_iff] at h
    obtain ⟨_, _, _, _, rfl⟩ := h
    simp
  · cases h
    simp

@[simp] theorem keeps_copyFails (z : State) (s : State) (m : Msg) (why : Nat) :
    Keeps z (State.copyFails s m why) ↔ Keeps z s := by
  unfold State.copyFails; simp

@[simp] theorem keeps_copyMove (z : State) (s : State) (m : Msg) : Keeps z (State.copyMove s m) ↔ Keeps z s := by
  unfold State.copyMove
  dsimp only
  repeat' split
  all_goals try simp
  rename_i h
  exact keeps_kindWrite z _ _ _ _ _ _ _ h

end Sys2Proof.Machine
end

