-- ==== Sys2Proof/Laws/Keep3.lean ====
section
/-! SUPPORT. The operations of ResetOps, Settle, Carillon, Zorurn, Tabor keep the queue and the counters. -/
namespace Sys2Proof.Machine

/-! ## ResetOps -/

@[simp] theorem keeps_loseSlot (z : State) (s : State) (x : Slot) :
    Keeps z (State.loseSlot s x) ↔ Keeps z s := by
  unfold State.loseSlot; simp

@[simp] theorem keeps_clusterReset (z : State) (s : State) (c : Nat) :
    Keeps z (State.clusterReset s c) ↔ Keeps z s := by
  unfold State.clusterReset; repeat' (first | (simp [*]; done) | (simp [*, keeps_foldl]; done) | intro y t x | split | rw [keeps_foldl] | rw [keeps_foldl_fst] | simp)

@[simp] theorem keeps_holdCores (z : State) (s : State) (c : Nat) :
    Keeps z (State.holdCores s c) ↔ Keeps z s := by
  unfold State.holdCores; simp

@[simp] theorem keeps_isolateClusters (z : State) (s : State) :
    Keeps z (State.isolateClusters s) ↔ Keeps z s := by
  unfold State.isolateClusters; repeat' (first | (simp [*]; done) | intro y t x | split | rw [keeps_foldl] | rw [keeps_foldl_fst])

/-! ## Settle -/

@[simp] theorem keeps_unlockAfter (z : State) (s : State) (before : State) (src : ResetSource) :
    Keeps z (State.unlockAfter s before src) ↔ Keeps z s := by
  unfold State.unlockAfter; simp

@[simp] theorem keeps_avsAfter (z : State) (s : State) (src : ResetSource) :
    Keeps z (State.avsAfter s src) ↔ Keeps z s := by
  unfold State.avsAfter; simp

@[simp] theorem keeps_rollbackCut (z : State) (s : State) (before : State) :
    Keeps z (State.rollbackCut s before) ↔ Keeps z s := by
  unfold State.rollbackCut; repeat' split
  all_goals simp_all

/-- A device reset keeps the queue; only the loss of VDD_AON clears the counters. -/
@[simp] theorem keeps_deviceReset (z : State) (s : State) (src : ResetSource) (h : src ≠ .aon) :
    Keeps z (State.deviceReset s src) ↔ Keeps z s := by
  unfold State.deviceReset
  simp [keeps_foldl, h]

@[simp] theorem keeps_settle (z : State) (s : State) :
    Keeps z (State.settle s) ↔ Keeps z s := by
  unfold State.settle; simp

/-! ## Carillon -/

@[simp] theorem keeps_carDone (z : State) (before s : State) :
    KeepsOut z (carDone before s) s := by
  simp [carDone, done, keepsOut_next]

@[simp] theorem keeps_execStepWrite (z : State) (_req : Requester) (w : Word) (s : State) :
    KeepsOut z (execStepWrite _req w s) s := by
  intro t h; unfold execStepWrite at h; repeat' split at h
  all_goals (simp only [done, carDone, Host.Outcome.next.injEq, reduceCtorEq] at h; subst h; simp [*])

@[simp] theorem keeps_execCheckerMismatch (z : State) (s : State) :
    KeepsOut z (execCheckerMismatch s) s := by
  intro t h; unfold execCheckerMismatch at h; repeat' split at h
  all_goals (simp only [done, carDone, Host.Outcome.next.injEq, reduceCtorEq] at h; subst h; simp [*])

@[simp] theorem keeps_checkHeldOff (z : State) (s : State) (p : Nat) :
    Keeps z (State.checkHeldOff s p) ↔ Keeps z s := by
  unfold State.checkHeldOff; simp

@[simp] theorem keeps_writePtpPort (z : State) (s : State) (p : Nat) (w : Word) :
    Keeps z (State.writePtpPort s p w) ↔ Keeps z s := by
  unfold State.writePtpPort; simp

@[simp] theorem keeps_onPps (z : State) (s : State) (k : Nat) (g : PpsInput → PpsInput) :
    Keeps z (State.onPps s k g) ↔ Keeps z s := by
  unfold State.onPps; simp

@[simp] theorem keeps_execPpsEdge (z : State) (gnss falling : Bool) (phase : Fin 128) (freq10m : Int) (s : State) :
    KeepsOut z (execPpsEdge gnss falling phase freq10m s) s := by
  intro t h; unfold execPpsEdge at h; dsimp only at h; repeat' split at h
  all_goals (simp only [done, carDone, Host.Outcome.next.injEq, reduceCtorEq] at h; subst h; repeat' (first | (simp [*]; done) | (simp [keeps_foldl]; done) | intro y t x | split | rw [keeps_foldl] | simp))

@[simp] theorem keeps_execNmeaSentence (z : State) (sentence : NmeaSentence) (s : State) :
    KeepsOut z (execNmeaSentence sentence s) s := by
  intro t h; unfold execNmeaSentence at h; dsimp only at h; repeat' split at h
  all_goals (simp only [done, carDone, Host.Outcome.next.injEq, reduceCtorEq] at h; subst h; repeat' (first | (simp [*]; done) | (simp [keeps_foldl]; done) | intro y t x | split | rw [keeps_foldl] | simp))

@[simp] theorem keeps_nmeaMissing (z : State) (s : State) :
    Keeps z (State.nmeaMissing s) ↔ Keeps z s := by
  unfold State.nmeaMissing; dsimp only; repeat' split
  all_goals simp [*]

@[simp] theorem keeps_execNmeaHoldExpiry (z : State) (s : State) :
    KeepsOut z (execNmeaHoldExpiry s) s := by
  intro t h; unfold execNmeaHoldExpiry at h; repeat' split at h
  all_goals (simp only [done, carDone, Host.Outcome.next.injEq, reduceCtorEq] at h; subst h; simp [*])

@[simp] theorem keeps_execMeasurementMissing (z : State) (n : Fin 8) (s : State) :
    KeepsOut z (execMeasurementMissing n s) s := by
  intro t h; unfold execMeasurementMissing at h; repeat' split at h
  all_goals (simp only [done, carDone, Host.Outcome.next.injEq, reduceCtorEq] at h; subst h; simp [*])

@[simp] theorem keeps_execWtrExpiry (z : State) (n : Fin 8) (s : State) :
    KeepsOut z (execWtrExpiry n s) s := by
  intro t h; unfold execWtrExpiry at h; repeat' split at h
  all_goals (simp only [done, carDone, Host.Outcome.next.injEq, reduceCtorEq] at h; subst h; simp [*])

@[simp] theorem keeps_execServoDisable (z : State) (_req : Requester) (w : Word) (s : State) :
    KeepsOut z (execServoDisable _req w s) s := by
  intro t h; unfold execServoDisable at h; dsimp only at h; repeat' split at h
  all_goals (simp only [done, carDone, Host.Outcome.next.injEq, reduceCtorEq] at h; subst h; simp [*])

@[simp] theorem keeps_execSrcPathWrite (z : State) (_req : Requester) (n : Fin 8) (w : Word) (s : State) :
    KeepsOut z (execSrcPathWrite _req n w s) s := by
  intro t h; unfold execSrcPathWrite at h; repeat' split at h
  all_goals (simp only [done, carDone, Host.Outcome.next.injEq, reduceCtorEq] at h; subst h; simp [*])

@[simp] theorem keeps_writeSrcCfg (z : State) (s : State) (n : Nat) (w : Word) :
    Keeps z (State.writeSrcCfg s n w) ↔ Keeps z s := by
  unfold State.writeSrcCfg; simp

@[simp] theorem keeps_execSrcEnableWrite (z : State) (_req : Requester) (n : Fin 8) (w : Word) (s : State) :
    KeepsOut z (execSrcEnableWrite _req n w s) s := by
  intro t h; unfold execSrcEnableWrite at h; repeat' split at h
  all_goals (simp only [done, carDone, Host.Outcome.next.injEq, reduceCtorEq] at h; subst h; simp [*])

@[simp] theorem keeps_execEpsPublish (z : State) (s : State) :
    KeepsOut z (execEpsPublish s) s := by
  intro t h; unfold execEpsPublish at h; repeat' split at h
  all_goals (simp only [done, carDone, Host.Outcome.next.injEq, reduceCtorEq] at h; subst h; simp [*])

@[simp] theorem keeps_execCarryHoldEnd (z : State) (s : State) :
    KeepsOut z (execCarryHoldEnd s) s := by
  intro t h; unfold execCarryHoldEnd at h; repeat' split at h
  all_goals (simp only [done, carDone, Host.Outcome.next.injEq, reduceCtorEq] at h; subst h; simp [*])

@[simp] theorem keeps_execLeapApply (z : State) (s : State) :
    KeepsOut z (execLeapApply s) s := by
  intro t h; unfold execLeapApply at h; dsimp only at h; repeat' split at h
  all_goals (simp only [done, carDone, Host.Outcome.next.injEq, reduceCtorEq] at h; subst h; simp [*])

@[simp] theorem keeps_execLeapFlagClear (z : State) (s : State) :
    KeepsOut z (execLeapFlagClear s) s := by
  intro t h; unfold execLeapFlagClear at h; repeat' split at h
  all_goals (simp only [done, carDone, Host.Outcome.next.injEq, reduceCtorEq] at h; subst h; simp [*])

@[simp] theorem keeps_execPpsOutEdge (z : State) (s : State) :
    KeepsOut z (execPpsOutEdge s) s := by
  intro t h; unfold execPpsOutEdge at h; dsimp only at h; repeat' split at h
  all_goals (simp only [done, carDone, Host.Outcome.next.injEq, reduceCtorEq] at h; subst h; simp [*])

/-! ## Zorurn -/

@[simp] theorem keeps_trap (z : State) (s : State) (t tpc cause : Nat) (detail code : Nat) (addr : Word) (word : Nat) :
    Keeps z (State.trap s t tpc cause detail code addr word) ↔ Keeps z s := by
  unfold State.trap; simp

/-- What a thread's instruction does keeps what `s` has. -/
def KeepsEffect (z : State) (e : Effect) (s : State) : Prop :=
  match e with
  | .next t _ _ => Keeps z t ↔ Keeps z s
  | .trap _ _ _ => True
  | .wait t => Keeps z t ↔ Keeps z s

@[simp] theorem keepsEffect_next (z t s : State) (pc a : Nat) : KeepsEffect z (.next t pc a) s ↔ (Keeps z t ↔ Keeps z s) := Iff.rfl
@[simp] theorem keepsEffect_trap (z s : State) (c : Nat) (a : Word) (d : Nat) : KeepsEffect z (.trap c a d) s := trivial
@[simp] theorem keepsEffect_wait (z t s : State) : KeepsEffect z (.wait t) s ↔ (Keeps z t ↔ Keeps z s) := Iff.rfl
@[simp] theorem keepsEffect_ite (z s : State) (c : Prop) [Decidable c] (a b : Effect) :
    KeepsEffect z (if c then a else b) s ↔ if c then KeepsEffect z a s else KeepsEffect z b s := by
  split <;> rfl
@[simp] theorem keepsEffect_writes (z s : State) (t w : Nat) (v : Word) : KeepsEffect z (s.writes t w v) s := by
  unfold State.writes
  simp

theorem keeps_issue (z : State) (s : State) (t : Nat) (k : ZKind) (f : Nat → Thread → Effect) (h : ∀ w x, KeepsEffect z (f w x) s) :
    KeepsOut z (State.issue s t k f) s := by
  unfold State.issue
  dsimp only
  split
  · have key := h (s.nextWord t) (s.thread t)
    split
    · next e =>
      rw [e] at key
      simpa [done] using key
    · simp [done]
    · next e =>
      rw [e] at key
      simpa [done] using key
  · simp

@[simp] theorem keeps_execAlu (z : State) (t : Fin 1024) (s : State) :
    KeepsOut z (execAlu t s) s := by
  exact keeps_issue _ _ _ _ _ fun w x => by simp

@[simp] theorem keeps_execIalu (z : State) (t : Fin 1024) (s : State) :
    KeepsOut z (execIalu t s) s := by
  exact keeps_issue _ _ _ _ _ fun w x => by simp

@[simp] theorem keeps_execBfi (z : State) (t : Fin 1024) (s : State) :
    KeepsOut z (execBfi t s) s := by
  exact keeps_issue _ _ _ _ _ fun w x => by simp

@[simp] theorem keeps_execMovi (z : State) (t : Fin 1024) (s : State) :
    KeepsOut z (execMovi t s) s := by
  exact keeps_issue _ _ _ _ _ fun w x => by simp

@[simp] theorem keeps_execBr (z : State) (t : Fin 1024) (s : State) :
    KeepsOut z (execBr t s) s := by
  exact keeps_issue _ _ _ _ _ fun w x => by simp

@[simp] theorem keeps_execJal (z : State) (t : Fin 1024) (s : State) :
    KeepsOut z (execJal t s) s := by
  exact keeps_issue _ _ _ _ _ fun w x => by simp

@[simp] theorem keeps_execJalr (z : State) (t : Fin 1024) (s : State) :
    KeepsOut z (execJalr t s) s := by
  exact keeps_issue _ _ _ _ _ fun w x => by simp

@[simp] theorem keeps_spaceEvent (z : State) (s : State) (t space : Nat) :
    Keeps z (State.spaceEvent s t space) ↔ Keeps z s := by
  unfold State.spaceEvent; repeat' split
  all_goals simp_all

@[simp] theorem keeps_touchEvent (z : State) (s : State) (t space addr n : Nat) :
    Keeps z (State.touchEvent s t space addr n) ↔ Keeps z s := by
  unfold State.touchEvent; simp

@[simp] theorem keeps_execLd (z : State) (t : Fin 1024) (s : State) :
    KeepsOut z (execLd t s) s := by
  refine keeps_issue _ _ _ _ _ fun w x => ?_
  dsimp only
  repeat' split
  all_goals simp

@[simp] theorem keeps_execSt (z : State) (t : Fin 1024) (s : State) :
    KeepsOut z (execSt t s) s := by
  refine keeps_issue _ _ _ _ _ fun w x => ?_
  dsimp only
  repeat' split
  all_goals simp

@[simp] theorem keeps_execAtom (z : State) (t : Fin 1024) (s : State) :
    KeepsOut z (execAtom t s) s := by
  refine keeps_issue _ _ _ _ _ fun w x => ?_
  dsimp only
  repeat' split
  all_goals simp

@[simp] theorem keeps_execHash (z : State) (t : Fin 1024) (s : State) :
    KeepsOut z (execHash t s) s := by
  exact keeps_issue _ _ _ _ _ fun w x => by simp

@[simp] theorem keeps_execTread (z : State) (t : Fin 1024) (s : State) :
    KeepsOut z (execTread t s) s := by
  exact keeps_issue _ _ _ _ _ fun w x => by simp

@[simp] theorem keeps_execTwait (z : State) (t : Fin 1024) (s : State) :
    KeepsOut z (execTwait t s) s := by
  refine keeps_issue _ _ _ _ _ fun w x => ?_
  dsimp only
  repeat' split
  all_goals simp

@[simp] theorem keeps_swr (z : State) (s : State) (t n : Nat) (v : Word) :
    Keeps z (State.swr s t n v) ↔ Keeps z s := by
  unfold State.swr; simp

@[simp] theorem keeps_debugSpecial (z : State) (s : State) (t n : Nat) (v : Word) :
    Keeps z (State.debugSpecial s t n v) ↔ Keeps z s := by
  unfold State.debugSpecial; repeat' split
  all_goals simp_all

@[simp] theorem keeps_execSrd (z : State) (t : Fin 1024) (s : State) :
    KeepsOut z (execSrd t s) s := by
  exact keeps_issue _ _ _ _ _ fun w x => by simp

@[simp] theorem keeps_execSwr (z : State) (t : Fin 1024) (s : State) :
    KeepsOut z (execSwr t s) s := by
  exact keeps_issue _ _ _ _ _ fun w x => by simp

@[simp] theorem keeps_execChw (z : State) (t : Fin 1024) (s : State) :
    KeepsOut z (execChw t s) s := by
  exact keeps_issue _ _ _ _ _ fun w x => by simp

@[simp] theorem keeps_sendMessage (z : State) (s : State) (t : Nat) (x : Thread) :
    Keeps z (State.sendMessage s t x) ↔ Keeps z s := by
  unfold State.sendMessage; simp

@[simp] theorem keeps_execChs (z : State) (t : Fin 1024) (s : State) :
    KeepsOut z (execChs t s) s := by
  refine keeps_issue _ _ _ _ _ fun w x => ?_
  dsimp only
  repeat' split
  all_goals simp

@[simp] theorem keeps_execChr (z : State) (t : Fin 1024) (s : State) :
    KeepsOut z (execChr t s) s := by
  refine keeps_issue _ _ _ _ _ fun w x => ?_
  dsimp only
  repeat' split
  all_goals simp

@[simp] theorem keeps_execWfe (z : State) (t : Fin 1024) (s : State) :
    KeepsOut z (execWfe t s) s := by
  refine keeps_issue _ _ _ _ _ fun w x => ?_
  dsimp only
  repeat' split
  all_goals simp

@[simp] theorem keeps_execSev (z : State) (t : Fin 1024) (s : State) : KeepsOut z (execSev t s) s := by
  refine keeps_issue _ _ _ _ _ fun w x => ?_
  simp only [keepsEffect_next]
  rw [keeps_foldl]
  intro y u k
  simp

@[simp] theorem keeps_execSevt (z : State) (t : Fin 1024) (s : State) :
    KeepsOut z (execSevt t s) s := by
  exact keeps_issue _ _ _ _ _ fun w x => by simp

@[simp] theorem keeps_execTrap (z : State) (t : Fin 1024) (s : State) :
    KeepsOut z (execTrap t s) s := by
  exact keeps_issue _ _ _ _ _ fun w x => by simp

@[simp] theorem keeps_execTret (z : State) (t : Fin 1024) (s : State) :
    KeepsOut z (execTret t s) s := by
  exact keeps_issue _ _ _ _ _ fun w x => by simp

@[simp] theorem keeps_execCrd (z : State) (t : Fin 1024) (s : State) : KeepsOut z (execCrd t s) s := by
  refine keeps_issue _ _ _ _ _ fun w x => ?_
  dsimp only
  repeat' split
  · simp [State.writes]
  all_goals simp

@[simp] theorem keeps_execFence (z : State) (t : Fin 1024) (s : State) :
    KeepsOut z (execFence t s) s := by
  exact keeps_issue _ _ _ _ _ fun w x => by simp

@[simp] theorem keeps_execIllegal (z : State) (t : Fin 1024) (s : State) :
    KeepsOut z (execIllegal t s) s := by
  exact keeps_issue _ _ _ _ _ fun w x => by simp

/-! ## Tabor -/

@[simp] theorem keeps_startCluster (z : State) (s : State) (c : Nat) :
    Keeps z (State.startCluster s c) ↔ Keeps z s := by
  unfold State.startCluster; dsimp only; rw [keeps_foldl]
  · repeat' split
    all_goals simp [*]
  · intro y t x
    repeat' split
    all_goals simp [*]

@[simp] theorem keeps_readOnes (z : State) (s : State) :
    Keeps z (State.readOnes s) ↔ Keeps z s := by
  unfold State.readOnes; simp

@[simp] theorem keeps_standIn (z : State) (s : State) :
    Keeps z (State.standIn s) ↔ Keeps z s := by
  unfold State.standIn; simp

@[simp] theorem keeps_served (z : State) (s : State) (c : Nat) (effect : State → State) (h : ∀ t, Keeps z (effect t) ↔ Keeps z t) :
    Keeps z (State.served s c effect) ↔ Keeps z s := by
  unfold State.served
  simp [h]

@[simp] theorem keeps_drainCluster (z : State) (s : State) (c : Nat) (on : Bool) :
    Keeps z (State.drainCluster s c on) ↔ Keeps z s := by
  unfold State.drainCluster; simp

@[simp] theorem keeps_writeTbcCtl (z : State) (s : State) (c : Nat) (w : Word) :
    Keeps z (State.writeTbcCtl s c w) ↔ Keeps z s := by
  unfold State.writeTbcCtl; simp

@[simp] theorem keeps_execClusterRun (z : State) (_req : Requester) (c : Fin 16) (w : Word) (s : State) :
    KeepsOut z (execClusterRun _req c w s) s := by
  intro t h; unfold execClusterRun at h; repeat' split at h
  all_goals (simp only [done, carDone, Host.Outcome.next.injEq, reduceCtorEq] at h; subst h; simp [*])

@[simp] theorem keeps_execClusterDrain (z : State) (_req : Requester) (c : Fin 16) (w : Word) (s : State) :
    KeepsOut z (execClusterDrain _req c w s) s := by
  unfold execClusterDrain; repeat' split
  all_goals simp [done]

@[simp] theorem keeps_execClusterUndrain (z : State) (_req : Requester) (c : Fin 16) (w : Word) (s : State) :
    KeepsOut z (execClusterUndrain _req c w s) s := by
  unfold execClusterUndrain; repeat' split
  all_goals simp [done]

@[simp] theorem keeps_execClusterDrained (z : State) (c : Fin 16) (s : State) :
    KeepsOut z (execClusterDrained c s) s := by
  intro t h; unfold execClusterDrained at h; repeat' split at h
  all_goals (simp only [done, carDone, Host.Outcome.next.injEq, reduceCtorEq] at h; subst h; simp [*])

@[simp] theorem keeps_execClusterReset (z : State) (_req : Requester) (c : Fin 16) (w : Word) (s : State) :
    KeepsOut z (execClusterReset _req c w s) s := by
  unfold execClusterReset; repeat' split
  all_goals simp [done]

@[simp] theorem keeps_stepMem (z : State) (s : State) (c : Nat) :
    Keeps z (State.stepMem s c) ↔ Keeps z s := by
  unfold State.stepMem; simp

@[simp] theorem keeps_memDataRead (z : State) (s : State) (c : Nat) :
    Keeps z (State.memDataRead s c).1 ↔ Keeps z s := by
  unfold State.memDataRead; simp

@[simp] theorem keeps_memDataWrite (z : State) (s : State) (c : Nat) (w : Word) :
    Keeps z (State.memDataWrite s c w) ↔ Keeps z s := by
  unfold State.memDataWrite; simp

@[simp] theorem keeps_execMemDataAccess (z : State) (_req : Requester) (c : Fin 16) (data : Option Word) (s : State) :
    KeepsOut z (execMemDataAccess _req c data s) s := by
  unfold execMemDataAccess; repeat' split
  all_goals simp [done]

@[simp] theorem keeps_writeShare (z : State) (s : State) (c : Nat) (w : Word) :
    Keeps z (State.writeShare s c w) ↔ Keeps z s := by
  unfold State.writeShare; simp

@[simp] theorem keeps_execShareWrite (z : State) (_req : Requester) (c : Fin 16) (w : Word) (s : State) :
    KeepsOut z (execShareWrite _req c w s) s := by
  unfold execShareWrite; repeat' split
  all_goals simp [done]

@[simp] theorem keeps_execChannelResponse (z : State) (place : Nat) (s : State) :
    KeepsOut z (execChannelResponse place s) s := by
  intro t h; unfold execChannelResponse at h; repeat' split at h
  all_goals (simp only [done, carDone, Host.Outcome.next.injEq, reduceCtorEq] at h; subst h; simp [*])

@[simp] theorem keeps_execThreadTimerExpiry (z : State) (t : Fin 1024) (s : State) :
    KeepsOut z (execThreadTimerExpiry t s) s := by
  intro t h; unfold execThreadTimerExpiry at h; repeat' split at h
  all_goals (simp only [done, carDone, Host.Outcome.next.injEq, reduceCtorEq] at h; subst h; simp [*])

@[simp] theorem keeps_execTwaitEnd (z : State) (t : Fin 1024) (s : State) :
    KeepsOut z (execTwaitEnd t s) s := by
  intro t h; unfold execTwaitEnd at h; dsimp only at h; repeat' split at h
  all_goals (simp only [done, carDone, Host.Outcome.next.injEq, reduceCtorEq] at h; subst h; simp [*])

@[simp] theorem keeps_execThreadWatchdog (z : State) (t : Fin 1024) (s : State) :
    KeepsOut z (execThreadWatchdog t s) s := by
  intro t h; unfold execThreadWatchdog at h; dsimp only at h; repeat' split at h
  all_goals (simp only [done, carDone, Host.Outcome.next.injEq, reduceCtorEq] at h; subst h; simp [*])

@[simp] theorem keeps_haltThread (z : State) (s : State) (t : Nat) :
    Keeps z (State.haltThread s t) ↔ Keeps z s := by
  unfold State.haltThread; simp

@[simp] theorem keeps_resumeThread (z : State) (s : State) (t : Nat) (step : Bool) :
    Keeps z (State.resumeThread s t step) ↔ Keeps z s := by
  unfold State.resumeThread; simp

@[simp] theorem keeps_writeThreadCtl (z : State) (s : State) (t : Nat) (w : Word) :
    Keeps z (State.writeThreadCtl s t w) ↔ Keeps z s := by
  unfold State.writeThreadCtl; simp

@[simp] theorem keeps_threadCtl (z : State) (s : State) (t : Nat) (w : Word) :
    KeepsOut z (State.threadCtl s t w) s := by
  unfold State.threadCtl; repeat' split
  all_goals simp [done]

@[simp] theorem keeps_execHalt (z : State) (_req : Requester) (t : Fin 1024) (w : Word) (s : State) :
    KeepsOut z (execHalt _req t w s) s := by
  unfold execHalt; repeat' split
  all_goals simp [done]

@[simp] theorem keeps_execResume (z : State) (_req : Requester) (t : Fin 1024) (w : Word) (s : State) :
    KeepsOut z (execResume _req t w s) s := by
  unfold execResume; repeat' split
  all_goals simp [done]

@[simp] theorem keeps_execStep (z : State) (_req : Requester) (t : Fin 1024) (w : Word) (s : State) :
    KeepsOut z (execStep _req t w s) s := by
  unfold execStep; repeat' split
  all_goals simp [done]

@[simp] theorem keeps_execAbortStage (z : State) (_req : Requester) (t : Fin 1024) (w : Word) (s : State) :
    KeepsOut z (execAbortStage _req t w s) s := by
  unfold execAbortStage; repeat' split
  all_goals simp [done]

@[simp] theorem keeps_execThreadCtlSev (z : State) (_req : Requester) (t : Fin 1024) (w : Word) (s : State) :
    KeepsOut z (execThreadCtlSev _req t w s) s := by
  unfold execThreadCtlSev; repeat' split
  all_goals simp [done]

@[simp] theorem keeps_execClrEvt (z : State) (_req : Requester) (t : Fin 1024) (w : Word) (s : State) :
    KeepsOut z (execClrEvt _req t w s) s := by
  unfold execClrEvt; repeat' split
  all_goals simp [done]

@[simp] theorem keeps_writeThreadReg (z : State) (s : State) (t : Nat) (r : ThreadReg) (w : Word) :
    Keeps z (State.writeThreadReg s t r w) ↔ Keeps z s := by
  unfold State.writeThreadReg; repeat' split
  all_goals simp_all

@[simp] theorem keeps_execThreadRegWrite (z : State) (_req : Requester) (t : Fin 1024) (reg : ThreadReg) (w : Word) (s : State) :
    KeepsOut z (execThreadRegWrite _req t reg w s) s := by
  unfold execThreadRegWrite; repeat' split
  all_goals simp [done]

@[simp] theorem keeps_execQuietCluster (z : State) (c : Fin 16) (s : State) :
    KeepsOut z (execQuietCluster c s) s := by
  intro t h; unfold execQuietCluster at h; repeat' split at h
  all_goals (simp only [done, carDone, Host.Outcome.next.injEq, reduceCtorEq] at h; subst h; simp [*])

@[simp] theorem keeps_execClusterGate (z : State) (c : Fin 16) (s : State) :
    KeepsOut z (execClusterGate c s) s := by
  intro t h; unfold execClusterGate at h; repeat' split at h
  all_goals (simp only [done, carDone, Host.Outcome.next.injEq, reduceCtorEq] at h; subst h; simp [*])

@[simp] theorem keeps_clusterEdge (z : State) (s : State) (c : Nat) :
    Keeps z (State.clusterEdge s c) ↔ Keeps z s := by
  unfold State.clusterEdge; simp

@[simp] theorem keeps_taborEdge (z : State) (s : State) :
    Keeps z (State.taborEdge s) ↔ Keeps z s := by
  unfold State.taborEdge; repeat' (first | (simp [*]; done) | intro y t x | split | rw [keeps_foldl] | rw [keeps_foldl_fst])

end Sys2Proof.Machine
end

