-- ==== Sys2Proof/Laws/Keep4.lean ====
section
/-! SUPPORT. The operations of SchedOps, LookOps, Channels, Identity, TimeOps, TimeDelivery, TxOps, HostQueue, PortOps keep the queue and the counters. -/
namespace Sys2Proof.Machine

/-! ## SchedOps -/

@[simp] theorem keeps_setTokens (z : State) (s : State) (e : Nat) (v : Int) :
    Keeps z (State.setTokens s e v) ↔ Keeps z s := by
  unfold State.setTokens; simp

@[simp] theorem keeps_debit (z : State) (s : State) (e len : Nat) :
    Keeps z (State.debit s e len) ↔ Keeps z s := by
  unfold State.debit; simp

@[simp] theorem keeps_egress (z : State) (s : State) (x : Packet) :
    Keeps z (State.egress s x).1 ↔ Keeps z s := by
  unfold State.egress; repeat' (first | (simp [*]; done) | (simp [*, keeps_foldl]; done) | intro y t x | split | rw [keeps_foldl] | rw [keeps_foldl_fst] | simp)

@[simp] theorem keeps_setQueue (z : State) (s : State) (k : Nat) (l : List Packet) :
    Keeps z (State.setQueue s k l) ↔ Keeps z s := by
  unfold State.setQueue; simp

@[simp] theorem keeps_takeHead (z : State) (s : State) (node k : Nat) :
    Keeps z (State.takeHead s node k).1 ↔ Keeps z s := by
  unfold State.takeHead; repeat' split
  all_goals simp_all

theorem keeps_ringRecord (z : State) (s : State) (base size prod cons : Nat) (rec : List Byte) :
    ∀ u : State × Nat, (State.ringRecord s base size prod cons rec) = some u → (Keeps z u.1 ↔ Keeps z s) := by
  unfold State.ringRecord; simp

@[simp] theorem keeps_capture (z : State) (s : State) (r : Nat) (x : Packet) : Keeps z (State.capture s r x) ↔ Keeps z s := by
  unfold State.capture
  dsimp only
  split
  · next h =>
    split at h
    · have key := keeps_ringRecord z _ _ _ _ _ _ _ h
      simpa using key
    · cases h
  · simp

@[simp] theorem keeps_coreRing (z : State) (s : State) (c : Nat) (x : Packet) : Keeps z (State.coreRing s c x) ↔ Keeps z s := by
  unfold State.coreRing
  dsimp only
  split
  · next h =>
    split at h
    · have key := keeps_ringRecord z _ _ _ _ _ _ _ h
      simpa using key
    · cases h
  · simp

@[simp] theorem keeps_toPool (z : State) (s : State) (n : Nat) (x : Packet) :
    Keeps z (State.toPool s n x) ↔ Keeps z s := by
  unfold State.toPool; repeat' split
  all_goals simp_all

@[simp] theorem keeps_toLoop (z : State) (s : State) (p : Nat) (x : Packet) :
    Keeps z (State.toLoop s p x) ↔ Keeps z s := by
  unfold State.toLoop; simp

@[simp] theorem keeps_toRx (z : State) (s : State) (q : Nat) (x : Packet) :
    Keeps z (State.toRx s q x) ↔ Keeps z s := by
  unfold State.toRx; repeat' split
  all_goals simp_all

@[simp] theorem keeps_toPort (z : State) (s : State) (p : Nat) (x : Packet) :
    Keeps z (State.toPort s p x) ↔ Keeps z s := by
  unfold State.toPort; simp

@[simp] theorem keeps_toOutput (z : State) (s : State) (x : Packet) :
    Keeps z (State.toOutput s x) ↔ Keeps z s := by
  unfold State.toOutput; repeat' split
  all_goals simp_all

@[simp] theorem keeps_sendSelected (z : State) (s : State) (node : Nat) (x : Packet) :
    Keeps z (State.sendSelected s node x) ↔ Keeps z s := by
  unfold State.sendSelected; dsimp only; repeat' split
  all_goals simp [*]

@[simp] theorem keeps_clearHeads (z : State) (s : State) (node : Nat) :
    Keeps z (State.clearHeads s node) ↔ Keeps z s := by
  unfold State.clearHeads; rw [keeps_foldl]
  intro y t x
  repeat' split
  all_goals simp [*]

@[simp] theorem keeps_sendControl (z : State) (s : State) (p k quanta : Nat) :
    Keeps z (State.sendControl s p k quanta) ↔ Keeps z s := by
  unfold State.sendControl; simp

@[simp] theorem keeps_setXoff (z : State) (s : State) (p k v : Nat) :
    Keeps z (State.setXoff s p k v) ↔ Keeps z s := by
  unfold State.setXoff; simp

@[simp] theorem keeps_flowKey (z : State) (s : State) (p k : Nat) :
    Keeps z (State.flowKey s p k) ↔ Keeps z s := by
  unfold State.flowKey; simp

@[simp] theorem keeps_flowControl (z : State) (s : State) :
    Keeps z (State.flowControl s) ↔ Keeps z s := by
  unfold State.flowControl; repeat' (first | (simp [*]; done) | intro y t x | split | rw [keeps_foldl] | rw [keeps_foldl_fst])

/-! ## LookOps -/

@[simp] theorem keeps_stray (z : State) (s : State) (place channel : Nat) :
    Keeps z (State.stray s place channel) ↔ Keeps z s := by
  unfold State.stray; repeat' split
  all_goals simp_all

@[simp] theorem keeps_cryptoRespond (z : State) (s : State) (m : Msg) (status : Nat) (detail : Nat) :
    Keeps z (State.cryptoRespond s m status detail) ↔ Keeps z s := by
  unfold State.cryptoRespond; simp

@[simp] theorem keeps_wakeDomain (z : State) (s : State) (d : Nat) :
    Keeps z (State.wakeDomain s d) ↔ Keeps z s := by
  unfold State.wakeDomain; simp

@[simp] theorem keeps_startCrypto (z : State) (s : State) (place op : Nat) :
    Keeps z (State.startCrypto s place op) ↔ Keeps z s := by
  unfold State.startCrypto; repeat' split
  all_goals simp_all

@[simp] theorem keeps_dropJob (z : State) (s : State) (j : CryptoJob) :
    Keeps z (State.dropJob s j) ↔ Keeps z s := by
  unfold State.dropJob; simp

@[simp] theorem keeps_zeroDst (z : State) (s : State) (j : CryptoJob) : Keeps z (State.zeroDst s j) ↔ Keeps z s := by
  unfold State.zeroDst
  split
  · rfl
  · cases h : s.kindWrite j.msg.thread j.msg.cDstKind j.msg.cDst (List.replicate j.msg.cWrites 0) (s.nvmCmd j.msg.cHandle) with
    | none => rfl
    | some t => exact keeps_kindWrite z _ _ _ _ _ _ _ h

@[simp] theorem keeps_failJob (z : State) (s : State) (j : CryptoJob) (status : Nat) (detail : Nat) :
    Keeps z (State.failJob s j status detail) ↔ Keeps z s := by
  unfold State.failJob; simp

@[simp] theorem keeps_markFailed (z : State) (s : State) (h why : Nat) :
    Keeps z (State.markFailed s h why) ↔ Keeps z s := by
  unfold State.markFailed; simp

@[simp] theorem keeps_finishCrypto (z : State) (s : State) (j : CryptoJob) (reply : CplStatus) :
    Keeps z (State.finishCrypto s j reply) ↔ Keeps z s := by
  unfold State.finishCrypto
  dsimp only
  repeat' split
  all_goals try simp
  all_goals
    next h =>
      first
      | (have key := keeps_kindWrite z _ _ _ _ _ _ _ h; simpa using key)
      | (rename_i h' _; have key := keeps_kindWrite z _ _ _ _ _ _ _ h'; simpa using key)
      | (have key := keeps_kindWrite z _ _ _ _ _ _ _ ‹_ = some _›; simpa using key)

@[simp] theorem keeps_lockdownJobs (z : State) (s : State) :
    Keeps z (State.lockdownJobs s) ↔ Keeps z s := by
  unfold State.lockdownJobs; rw [keeps_foldl]
  intro y t x
  repeat' split
  all_goals simp [*]

@[simp] theorem keeps_cmpRespond (z : State) (s : State) (m : Msg) (status out used : Nat) (detail : Nat) :
    Keeps z (State.cmpRespond s m status out used detail) ↔ Keeps z s := by
  unfold State.cmpRespond; simp

@[simp] theorem keeps_startCmp (z : State) (s : State) (place op : Nat) :
    Keeps z (State.startCmp s place op) ↔ Keeps z s := by
  unfold State.startCmp; repeat' split
  all_goals simp_all

@[simp] theorem keeps_dropCmp (z : State) (s : State) (j : CmpJob) :
    Keeps z (State.dropCmp s j) ↔ Keeps z s := by
  unfold State.dropCmp; simp

@[simp] theorem keeps_finishCmp (z : State) (s : State) (j : CmpJob) (reply : CplStatus) :
    Keeps z (State.finishCmp s j reply) ↔ Keeps z s := by
  unfold State.finishCmp
  dsimp only
  repeat' split
  all_goals try simp
  all_goals
    next h =>
      first
      | (have key := keeps_kindWrite z _ _ _ _ _ _ _ h; simpa using key)
      | (rename_i h' _; have key := keeps_kindWrite z _ _ _ _ _ _ _ h'; simpa using key)
      | (have key := keeps_kindWrite z _ _ _ _ _ _ _ ‹_ = some _›; simpa using key)

/-! ## Channels -/

@[simp] theorem keeps_poolSample (z : State) (s : State) (x : Slot) :
    Keeps z (State.poolSample s x) ↔ Keeps z s := by
  unfold State.poolSample; repeat' split
  all_goals simp_all

@[simp] theorem keeps_sendSlot (z : State) (s : State) (m : Msg) (x : Slot) (sequenced : Bool) :
    Keeps z (State.sendSlot s m x sequenced) ↔ Keeps z s := by
  unfold State.sendSlot; dsimp only; repeat' split
  all_goals simp [*]

@[simp] theorem keeps_countSent (z : State) (s : State) (t : Nat) :
    Keeps z (State.countSent s t) ↔ Keeps z s := by
  unfold State.countSent; simp

@[simp] theorem keeps_execPktReturn (z : State) (place : Nat) (s : State) :
    KeepsOut z (execPktReturn place s) s := by
  intro t h; unfold execPktReturn at h; repeat' split at h
  all_goals (simp only [done, carDone, Host.Outcome.next.injEq, reduceCtorEq] at h; subst h; simp [*])

@[simp] theorem keeps_execPktDrop (z : State) (place : Nat) (s : State) :
    KeepsOut z (execPktDrop place s) s := by
  intro t h; unfold execPktDrop at h; repeat' split at h
  all_goals (simp only [done, carDone, Host.Outcome.next.injEq, reduceCtorEq] at h; subst h; simp [*])

@[simp] theorem keeps_execPktFrame (z : State) (place : Nat) (s : State) :
    KeepsOut z (execPktFrame place s) s := by
  intro t h; unfold execPktFrame at h; dsimp only at h; repeat' split at h
  all_goals (simp only [done, carDone, Host.Outcome.next.injEq, reduceCtorEq] at h; subst h; simp [*])

@[simp] theorem keeps_execPktNew (z : State) (place : Nat) (s : State) :
    KeepsOut z (execPktNew place s) s := by
  intro t h; unfold execPktNew at h; dsimp only at h; repeat' split at h
  all_goals (simp only [done, carDone, Host.Outcome.next.injEq, reduceCtorEq] at h; subst h; simp [*])

@[simp] theorem keeps_execPktSend (z : State) (place : Nat) (s : State) :
    KeepsOut z (execPktSend place s) s := by
  intro t h; unfold execPktSend at h; repeat' split at h
  all_goals (simp only [done, carDone, Host.Outcome.next.injEq, reduceCtorEq] at h; subst h; simp [*])

@[simp] theorem keeps_tableRespond (z : State) (s : State) (m : Msg) (result detail : Nat) (entry : Option (Nat × Nat)) :
    Keeps z (State.tableRespond s m result detail entry) ↔ Keeps z s := by
  unfold State.tableRespond; simp

@[simp] theorem keeps_tableOp (z : State) (s : State) (place op : Nat) :
    Keeps z (State.tableOp s place op) ↔ Keeps z s := by
  unfold State.tableOp; repeat' split
  all_goals simp_all

@[simp] theorem keeps_execTableInsert (z : State) (place : Nat) (s : State) :
    KeepsOut z (execTableInsert place s) s := by
  simp [execTableInsert, done, keepsOut_next]

@[simp] theorem keeps_execTableUpdate (z : State) (place : Nat) (s : State) :
    KeepsOut z (execTableUpdate place s) s := by
  simp [execTableUpdate, done, keepsOut_next]

@[simp] theorem keeps_execTableDelete (z : State) (place : Nat) (s : State) :
    KeepsOut z (execTableDelete place s) s := by
  simp [execTableDelete, done, keepsOut_next]

@[simp] theorem keeps_execTableReadSlot (z : State) (place : Nat) (s : State) :
    KeepsOut z (execTableReadSlot place s) s := by
  simp [execTableReadSlot, done, keepsOut_next]

@[simp] theorem keeps_execTableWriteIndex (z : State) (place : Nat) (s : State) :
    KeepsOut z (execTableWriteIndex place s) s := by
  simp [execTableWriteIndex, done, keepsOut_next]

@[simp] theorem keeps_execTableFind (z : State) (place : Nat) (s : State) :
    KeepsOut z (execTableFind place s) s := by
  simp [execTableFind, done, keepsOut_next]

@[simp] theorem keeps_tierTouch (z : State) (s : State) (t : Nat) (key : List Byte) :
    Keeps z (State.tierTouch s t key) ↔ Keeps z s := by
  unfold State.tierTouch; simp

@[simp] theorem keeps_execTableLookup (z : State) (place : Nat) (s : State) :
    KeepsOut z (execTableLookup place s) s := by
  intro t h; unfold execTableLookup at h; dsimp only at h; repeat' split at h
  all_goals (simp only [done, carDone, Host.Outcome.next.injEq, reduceCtorEq] at h; subst h; simp [*])

@[simp] theorem keeps_execPrefetch (z : State) (place : Nat) (s : State) :
    KeepsOut z (execPrefetch place s) s := by
  intro t h; unfold execPrefetch at h; dsimp only at h; repeat' split at h
  all_goals (simp only [done, carDone, Host.Outcome.next.injEq, reduceCtorEq] at h; subst h; simp [*])

/-! ## Identity -/

@[simp] theorem keeps_deriveIdentity (z : State) (s : State) (signer : List Byte) (kind svn : Nat) :
    Keeps z (State.deriveIdentity s signer kind svn) ↔ Keeps z s := by
  unfold State.deriveIdentity; simp

/-! ## TimeOps -/

@[simp] theorem keeps_onLinkTime (z : State) (s : State) (l : Nat) (g : LinkTime → LinkTime) :
    Keeps z (State.onLinkTime s l g) ↔ Keeps z s := by
  unfold State.onLinkTime; simp

@[simp] theorem keeps_loseMap (z : State) (s : State) (l : Nat) :
    Keeps z (State.loseMap s l) ↔ Keeps z s := by
  unfold State.loseMap; simp

@[simp] theorem keeps_bumpEpoch (z : State) (s : State) (l : Nat) :
    Keeps z (State.bumpEpoch s l) ↔ Keeps z s := by
  unfold State.bumpEpoch; simp

@[simp] theorem keeps_newPage (z : State) (s : State) (l : Nat) :
    Keeps z (State.newPage s l).1 ↔ Keeps z s := by
  unfold State.newPage; simp

@[simp] theorem keeps_publishPage (z : State) (s : State) (l : Nat) (p : TimePage) :
    Keeps z (State.publishPage s l p) ↔ Keeps z s := by
  unfold State.publishPage; dsimp only; repeat' split
  all_goals simp [*]

@[simp] theorem keeps_tokenRequest (z : State) (s : State) (f : Nat) (nonce : List Byte) (buf tag : Nat) (queue : Option (Nat × Nat)) :
    Keeps z (State.tokenRequest s f nonce buf tag queue).1 ↔ Keeps z s := by
  unfold State.tokenRequest; repeat' split
  all_goals simp_all

@[simp] theorem keeps_tokenDiscard (z : State) (s : State) (p : TokenRequest → Bool) :
    Keeps z (State.tokenDiscard s p) ↔ Keeps z s := by
  unfold State.tokenDiscard; simp

/-! ## TimeDelivery -/

@[simp] theorem keeps_execPtmDialogue (z : State) (l : Fin 16) (answer : Option PtmAnswer) (s : State) :
    KeepsOut z (execPtmDialogue l answer s) s := by
  intro t h; unfold execPtmDialogue at h; dsimp only at h; repeat' split at h
  all_goals (simp only [done, carDone, Host.Outcome.next.injEq, reduceCtorEq] at h; subst h; simp [*])

@[simp] theorem keeps_execPagePublish (z : State) (l : Fin 16) (s : State) :
    KeepsOut z (execPagePublish l s) s := by
  intro t h; unfold execPagePublish at h; repeat' split at h
  all_goals (simp only [done, carDone, Host.Outcome.next.injEq, reduceCtorEq] at h; subst h; simp [*])

@[simp] theorem keeps_execBellEdge (z : State) (l : Fin 16) (s : State) :
    KeepsOut z (execBellEdge l s) s := by
  intro t h; unfold execBellEdge at h; dsimp only at h; repeat' split at h
  all_goals (simp only [done, carDone, Host.Outcome.next.injEq, reduceCtorEq] at h; subst h; simp [*])

@[simp] theorem keeps_execBellFrame (z : State) (l : Fin 16) (s : State) :
    KeepsOut z (execBellFrame l s) s := by
  intro t h; unfold execBellFrame at h; repeat' split at h
  all_goals (simp only [done, carDone, Host.Outcome.next.injEq, reduceCtorEq] at h; subst h; simp [*])

@[simp] theorem keeps_quietBells (z : State) (s : State) :
    Keeps z (State.quietBells s) ↔ Keeps z s := by
  unfold State.quietBells; rw [keeps_foldl]
  intro y t x
  repeat' split
  all_goals simp [*]

@[simp] theorem keeps_tokenByMailbox (z : State) (s : State) (f : Nat) (nonce : List Byte) (buf tag : Nat) :
    Keeps z (State.tokenByMailbox s f nonce buf tag) ↔ Keeps z s := by
  unfold State.tokenByMailbox; dsimp only; repeat' split
  all_goals simp [*]

@[simp] theorem keeps_execTokenRequest (z : State) (f : Fin 2080) (nonce : List Byte) (buf tag : Word) (s : State) :
    KeepsOut z (execTokenRequest f nonce buf tag s) s := by
  simp [execTokenRequest, done, keepsOut_next]

@[simp] theorem keeps_execTokenBatchClose (z : State) (s : State) :
    KeepsOut z (execTokenBatchClose s) s := by
  intro t h; unfold execTokenBatchClose at h; repeat' split at h
  all_goals (simp only [done, carDone, Host.Outcome.next.injEq, reduceCtorEq] at h; subst h; simp [*])

@[simp] theorem keeps_answerToken (z : State) (s : State) (b : TokenBatch) (i : Nat) (r : TokenRequest) :
    Keeps z (State.answerToken s b i r) ↔ Keeps z s := by
  unfold State.answerToken; repeat' split
  all_goals simp_all

@[simp] theorem keeps_execTokenReply (z : State) (s : State) : KeepsOut z (execTokenReply s) s := by
  unfold execTokenReply
  split
  · simp
  · simp only [done, keepsOut_next, keeps_settle]
    rw [keeps_foldl]
    · simp
    · intro y t x
      simp

/-! ## TxOps -/

@[simp] theorem keeps_setFetch (z : State) (s : State) (f : Nat) (v : Int) :
    Keeps z (State.setFetch s f v) ↔ Keeps z s := by
  unfold State.setFetch; simp

@[simp] theorem keeps_debitFetch (z : State) (s : State) (f len : Nat) :
    Keeps z (State.debitFetch s f len) ↔ Keeps z s := by
  unfold State.debitFetch; simp

@[simp] theorem keeps_addChain (z : State) (s : State) (g : Nat) (c : TxChain) :
    Keeps z (State.addChain s g c) ↔ Keeps z s := by
  unfold State.addChain; simp

@[simp] theorem keeps_consumeTx (z : State) (s : State) (g n : Nat) :
    Keeps z (State.consumeTx s g n) ↔ Keeps z s := by
  unfold State.consumeTx; simp

@[simp] theorem keeps_sendChain (z : State) (s : State) (f q g id : Nat) (d : TxDesc) (ext : List Byte) (frames : List (List Byte)) :
    Keeps z (State.sendChain s f q g id d ext frames) ↔ Keeps z s := by
  unfold State.sendChain; rw [keeps_foldl]
  intro y t x
  repeat' split
  all_goals simp [*]

@[simp] theorem keeps_runChain (z : State) (s : State) (f q g : Nat) (d : TxDesc) (ext : List Byte) (bufs : List (Nat × Nat)) (eop slots : Nat) :
    Keeps z (State.runChain s f q g d ext bufs eop slots) ↔ Keeps z s := by
  unfold State.runChain; repeat' split
  all_goals simp_all

/-! ## HostQueue -/

@[simp] theorem keeps_completionDoorbell (z : State) (s : State) (f g r n : Nat) (arm : Bool) :
    Keeps z (State.completionDoorbell s f g r n arm) ↔ Keeps z s := by
  unfold State.completionDoorbell; simp

@[simp] theorem keeps_doorbell (z : State) (s : State) (f page bytes : Nat) (aligned : Bool) (w : Word) :
    Keeps z (State.doorbell s f page bytes aligned w) ↔ Keeps z s := by
  unfold State.doorbell; simp

theorem keeps_hostRow (z : State) (s : State) (f : Nat) (go : State → State) (h : ∀ u, Keeps z (go u) ↔ Keeps z u) :
    KeepsOut z (State.hostRow s f go) s := by
  unfold State.hostRow; split
  · simp [done, h]
  · simp

@[simp] theorem keeps_execDoorbell (z : State) (f : Fin 2080) (page bytes : Nat) (aligned : Bool) (w : Word) (s : State) :
    KeepsOut z (execDoorbell f page bytes aligned w s) s := by
  unfold execDoorbell; exact keepsOut_ite _ _ _ _ _ (by simp) (keeps_hostRow _ _ _ _ fun u => by simp)

@[simp] theorem keeps_fetchChain (z : State) (s : State) (f q : Nat) :
    Keeps z (State.fetchChain s f q) ↔ Keeps z s := by
  unfold State.fetchChain; dsimp only; repeat' split
  all_goals simp [*]

@[simp] theorem keeps_txReadFails (z : State) (s : State) (f q : Nat) (e : AerError) :
    Keeps z (State.txReadFails s f q e) ↔ Keeps z s := by
  unfold State.txReadFails; simp

@[simp] theorem keeps_execTxFetch (z : State) (f : Fin 2080) (q : Nat) (reply : Option CplStatus) (s : State) :
    KeepsOut z (execTxFetch f q reply s) s := by
  intro t h; unfold execTxFetch at h; repeat' split at h
  all_goals (simp only [done, carDone, Host.Outcome.next.injEq, reduceCtorEq] at h; subst h; simp [*])

@[simp] theorem keeps_execTxCompletionWrite (z : State) (f : Fin 2080) (q : Nat) (s : State) :
    KeepsOut z (execTxCompletionWrite f q s) s := by
  unfold execTxCompletionWrite
  repeat' split
  all_goals try simp
  rename_i h
  have key := keeps_releaseChain z _ _ _ _ h
  simpa [done] using key

@[simp] theorem keeps_execModerationTimer (z : State) (f : Fin 2080) (q : Nat) (rx : Bool) (s : State) :
    KeepsOut z (execModerationTimer f q rx s) s := by
  intro t h; unfold execModerationTimer at h; dsimp only at h; repeat' split at h
  all_goals (simp only [done, carDone, Host.Outcome.next.injEq, reduceCtorEq] at h; subst h; simp [*])

@[simp] theorem keeps_queueCtl (z : State) (s : State) (f : Nat) (w : Word) :
    Keeps z (State.queueCtl s f w) ↔ Keeps z s := by
  unfold State.queueCtl; simp

@[simp] theorem keeps_execQueueEnable (z : State) (_req : Requester) (f : Fin 2080) (w : Word) (s : State) :
    KeepsOut z (execQueueEnable _req f w s) s := by
  intro t h; unfold execQueueEnable at h; repeat' split at h
  all_goals (simp only [done, carDone, Host.Outcome.next.injEq, reduceCtorEq] at h; subst h; simp [*])

@[simp] theorem keeps_execQueueDisable (z : State) (_req : Requester) (f : Fin 2080) (w : Word) (s : State) :
    KeepsOut z (execQueueDisable _req f w s) s := by
  intro t h; unfold execQueueDisable at h; repeat' split at h
  all_goals (simp only [done, carDone, Host.Outcome.next.injEq, reduceCtorEq] at h; subst h; simp [*])

@[simp] theorem keeps_releaseChains (z : State) (s : State) (f g a1 : Nat) : Keeps z (State.releaseChains s f g a1) ↔ Keeps z s := by
  induction a1 generalizing s with
  | zero => rfl
  | succ n ih =>
    unfold State.releaseChains
    split
    · next h => rw [ih]; exact keeps_releaseChain z _ _ _ _ h
    · rfl

@[simp] theorem keeps_execQueueDrained (z : State) (f : Fin 2080) (q : Nat) (s : State) :
    KeepsOut z (execQueueDrained f q s) s := by
  intro t h; unfold execQueueDrained at h; dsimp only at h; repeat' split at h
  all_goals (simp only [done, carDone, Host.Outcome.next.injEq, reduceCtorEq] at h; subst h; simp [*])

@[simp] theorem keeps_execResValidWrite (z : State) (_req : Requester) (f : Fin 2080) (w : Word) (s : State) :
    KeepsOut z (execResValidWrite _req f w s) s := by
  intro t h; unfold execResValidWrite at h; repeat' split at h
  all_goals (simp only [done, carDone, Host.Outcome.next.injEq, reduceCtorEq] at h; subst h; simp [*])

@[simp] theorem keeps_writeResTx (z : State) (s : State) (f : Nat) (w : Word) :
    Keeps z (State.writeResTx s f w) ↔ Keeps z s := by
  unfold State.writeResTx; simp

/-! ## PortOps -/

@[simp] theorem keeps_onPort (z : State) (s : State) (p : Nat) (g : PortState → PortState) :
    Keeps z (State.onPort s p g) ↔ Keeps z s := by
  unfold State.onPort; simp

@[simp] theorem keeps_portSource (z : State) (s : State) (p k : Nat) (addr : Nat) :
    Keeps z (State.portSource s p k addr) ↔ Keeps z s := by
  unfold State.portSource; simp

@[simp] theorem keeps_setOwned (z : State) (s : State) :
    Keeps z (State.setOwned s) ↔ Keeps z s := by
  unfold State.setOwned; rw [keeps_foldl]
  intro y t x
  repeat' split
  all_goals simp [*]

@[simp] theorem keeps_synceFail (z : State) (s : State) :
    Keeps z (State.synceFail s) ↔ Keeps z s := by
  unfold State.synceFail; simp

@[simp] theorem keeps_synceFollow (z : State) (s : State) :
    Keeps z (State.synceFollow s) ↔ Keeps z s := by
  unfold State.synceFollow; simp

@[simp] theorem keeps_clockLost (z : State) (s : State) (p : Nat) :
    Keeps z (State.clockLost s p) ↔ Keeps z s := by
  unfold State.clockLost; simp

@[simp] theorem keeps_flushPort (z : State) (s : State) (p : Nat) :
    Keeps z (State.flushPort s p).1 ↔ Keeps z s := by
  unfold State.flushPort; repeat' (first | (simp [*]; done) | (simp [*, keeps_foldl]; done) | intro y t x | split | rw [keeps_foldl] | rw [keeps_foldl_fst] | simp)

@[simp] theorem keeps_linkDown (z : State) (s : State) (p : Nat) (lane : Nat) :
    Keeps z (State.linkDown s p lane) ↔ Keeps z s := by
  unfold State.linkDown; repeat' (first | (simp [*]; done) | (simp [*, keeps_foldl]; done) | intro y t x | split | rw [keeps_foldl] | rw [keeps_foldl_fst] | simp)

@[simp] theorem keeps_portCtl (z : State) (s : State) (p : Nat) (w : Word) :
    Keeps z (State.portCtl s p w) ↔ Keeps z s := by
  unfold State.portCtl; simp

@[simp] theorem keeps_pauseFor (z : State) (s : State) (p k quanta : Nat) :
    Keeps z (State.pauseFor s p k quanta) ↔ Keeps z s := by
  unfold State.pauseFor; simp

@[simp] theorem keeps_takePause (z : State) (s : State) (p quanta : Nat) :
    Keeps z (State.takePause s p quanta) ↔ Keeps z s := by
  unfold State.takePause; simp

@[simp] theorem keeps_takePfc (z : State) (s : State) (p enable : Nat) (quanta : List Nat) :
    Keeps z (State.takePfc s p enable quanta) ↔ Keeps z s := by
  unfold State.takePfc; repeat' (first | (simp [*]; done) | (simp [*, keeps_foldl]; done) | intro y t x | split | rw [keeps_foldl] | rw [keeps_foldl_fst] | simp)

@[simp] theorem keeps_rxPassed (z : State) (s : State) (p : Nat) (raw : List Byte) (t : Int) (degraded : Bool) :
    Keeps z (State.rxPassed s p raw t degraded) ↔ Keeps z s := by
  unfold State.rxPassed; dsimp only; repeat' split
  all_goals simp [*]

@[simp] theorem keeps_rxFrame (z : State) (s : State) (p : Nat) (frame : List Byte) (corrected : Nat) (badCode : Bool) (phase : Nat) :
    Keeps z (State.rxFrame s p frame corrected badCode phase) ↔ Keeps z s := by
  unfold State.rxFrame; simp

@[simp] theorem keeps_macSend (z : State) (s : State) (p : Nat) (bytes : List Byte) (own : Bool) (phase : Nat) :
    Keeps z (State.macSend s p bytes own phase).1 ↔ Keeps z s := by
  unfold State.macSend; dsimp only; repeat' split
  all_goals simp [*]

@[simp] theorem keeps_toWire (z : State) (s : State) (p : Nat) (wire : List Byte) (phase : Nat) :
    Keeps z (State.toWire s p wire phase) ↔ Keeps z s := by
  unfold State.toWire; simp

@[simp] theorem keeps_txFrame (z : State) (s : State) (p : Nat) (x : Packet) (phase : Nat) :
    Keeps z (State.txFrame s p x phase) ↔ Keeps z s := by
  unfold State.txFrame; dsimp only; repeat' split
  all_goals simp [*]

end Sys2Proof.Machine
end

