-- ==== Sys2Proof/Laws/Keep5.lean ====
section
/-! SUPPORT. The operations of Pipeline, Scheduler, Nvme, XptOps keep the queue and the counters. -/
namespace Sys2Proof.Machine

/-! ## Pipeline -/

@[simp] theorem keeps_admitPacket (z : State) (s : State) (p : Nat) (x : Packet) :
    Keeps z (State.admitPacket s p x) ↔ Keeps z s := by
  unfold State.admitPacket; simp

@[simp] theorem keeps_execPacketAdmit (z : State) (p : Fin 8) (s : State) :
    KeepsOut z (execPacketAdmit p s) s := by
  intro t h; unfold execPacketAdmit at h; dsimp only at h; repeat' split at h
  all_goals (simp only [done, carDone, Host.Outcome.next.injEq, reduceCtorEq] at h; subst h; simp [*])

@[simp] theorem keeps_streamSegment (z : State) (s : State) (p : Nat) (g : Segment) :
    Keeps z (State.streamSegment s p g) ↔ Keeps z s := by
  unfold State.streamSegment; repeat' split
  all_goals simp_all

@[simp] theorem keeps_scanned (z : State) (s : State) (p : Nat) (w : Walk) (ids : List (BitVec 32)) :
    Keeps z (State.scanned s p w ids) ↔ Keeps z s := by
  unfold State.scanned; simp

@[simp] theorem keeps_execSnareAnswer (z : State) (place : Nat) (ids onward : List (BitVec 32)) (s : State) :
    KeepsOut z (execSnareAnswer place ids onward s) s := by
  unfold execSnareAnswer
  dsimp only
  split
  · simp
  · next w h =>
    generalize (if State.isSet _ PPL_SCAN_PROF.STREAM w.pkt.pipe (w.scan.getD 0) then segmentOf w.pkt else none) = g
    cases g <;> simp [done]

@[simp] theorem keeps_execStreamIdleEvict (z : State) (stream : Nat) (s : State) :
    KeepsOut z (execStreamIdleEvict stream s) s := by
  intro t h; unfold execStreamIdleEvict at h; repeat' split at h
  all_goals (simp only [done, carDone, Host.Outcome.next.injEq, reduceCtorEq] at h; subst h; simp [*])

@[simp] theorem keeps_execFlowFetchDone (z : State) (t : Fin 256) (key : List Byte) (s : State) :
    KeepsOut z (execFlowFetchDone t key s) s := by
  intro t h; unfold execFlowFetchDone at h; dsimp only at h; repeat' split at h
  all_goals first | (cases h; done) | (cases h; simp [*]; done) | (cases h; repeat' (first | (simp [*]; done) | intro y t x | split | rw [keeps_foldl] | rw [keeps_foldl_fst]))

@[simp] theorem keeps_execStaleDrop (z : State) (p : Fin 8) (place : Nat) (s : State) : KeepsOut z (execStaleDrop p place s) s := by
  unfold execStaleDrop
  dsimp only
  split
  · split <;> simp [done]
  · split
    · split <;> simp [done]
    · simp

@[simp] theorem keeps_flip (z : State) (s : State) (p : Nat) :
    Keeps z (State.flip s p) ↔ Keeps z s := by
  unfold State.flip; simp

@[simp] theorem keeps_execGenCommit (z : State) (_req : Requester) (p : Fin 8) (w : Word) (s : State) :
    KeepsOut z (execGenCommit _req p w s) s := by
  intro t h; unfold execGenCommit at h; dsimp only at h; repeat' split at h
  all_goals (simp only [done, carDone, Host.Outcome.next.injEq, reduceCtorEq] at h; subst h; simp [*])

@[simp] theorem keeps_execGlobalCommit (z : State) (_req : Requester) (w : Word) (s : State) :
    KeepsOut z (execGlobalCommit _req w s) s := by
  intro t h; unfold execGlobalCommit at h; dsimp only at h; repeat' split at h
  all_goals first | (cases h; done) | (cases h; simp [*]; done) | (cases h; repeat' (first | (simp [*]; done) | intro y t x | split | rw [keeps_foldl] | rw [keeps_foldl_fst]))

@[simp] theorem keeps_execGenFlipDone (z : State) (p : Fin 8) (s : State) :
    KeepsOut z (execGenFlipDone p s) s := by
  intro t h; unfold execGenFlipDone at h; repeat' split at h
  all_goals (simp only [done, carDone, Host.Outcome.next.injEq, reduceCtorEq] at h; subst h; simp [*])

@[simp] theorem keeps_actCommand (z : State) (s : State) (p : Nat) (w : Word) :
    Keeps z (State.actCommand s p w) ↔ Keeps z s := by
  unfold State.actCommand; repeat' (first | (simp [*]; done) | intro y t x | split | rw [keeps_foldl] | rw [keeps_foldl_fst])

@[simp] theorem keeps_execActWrite (z : State) (_req : Requester) (p : Fin 8) (w : Word) (s : State) :
    KeepsOut z (execActWrite _req p w s) s := by
  intro t h; unfold execActWrite at h; repeat' split at h
  all_goals (simp only [done, carDone, Host.Outcome.next.injEq, reduceCtorEq] at h; subst h; simp [*])

@[simp] theorem keeps_execActRead (z : State) (_req : Requester) (p : Fin 8) (w : Word) (s : State) :
    KeepsOut z (execActRead _req p w s) s := by
  intro t h; unfold execActRead at h; repeat' split at h
  all_goals (simp only [done, carDone, Host.Outcome.next.injEq, reduceCtorEq] at h; subst h; simp [*])

@[simp] theorem keeps_dispatch (z : State) (s : State) (node k : Nat) :
    Keeps z (State.dispatch s node k) ↔ Keeps z s := by
  unfold State.dispatch; dsimp only; repeat' split
  all_goals simp [*]

@[simp] theorem keeps_execPoolDispatch (z : State) (pool : Fin 16) (s : State) :
    KeepsOut z (execPoolDispatch pool s) s := by
  intro t h; unfold execPoolDispatch at h; dsimp only at h; repeat' split at h
  all_goals (simp only [done, carDone, Host.Outcome.next.injEq, reduceCtorEq] at h; subst h; simp [*])

@[simp] theorem keeps_execReorderTimeout (z : State) (p : Fin 8) (domain : Nat) (s : State) :
    KeepsOut z (execReorderTimeout p domain s) s := by
  intro t h; unfold execReorderTimeout at h; repeat' split at h
  all_goals (simp only [done, carDone, Host.Outcome.next.injEq, reduceCtorEq] at h; subst h; simp [*])

/-! ## Scheduler -/

@[simp] theorem keeps_rxReadFails (z : State) (s : State) (f q : Nat) (e : AerError) :
    Keeps z (State.rxReadFails s f q e) ↔ Keeps z s := by
  unfold State.rxReadFails; simp

@[simp] theorem keeps_execFrameSelect (z : State) (node : Fin 52) (reply : Option CplStatus) (s : State) :
    KeepsOut z (execFrameSelect node reply s) s := by
  intro t h; unfold execFrameSelect at h; dsimp only at h; repeat' split at h
  all_goals (simp only [done, carDone, Host.Outcome.next.injEq, reduceCtorEq] at h; subst h; simp [*])

@[simp] theorem keeps_execShaperWrite (z : State) (_req : Requester) (k : Nat) (w : Word) (s : State) :
    KeepsOut z (execShaperWrite _req k w s) s := by
  intro t h; unfold execShaperWrite at h; repeat' split at h
  all_goals (simp only [done, carDone, Host.Outcome.next.injEq, reduceCtorEq] at h; subst h; simp [*])

@[simp] theorem keeps_execPolicerWrite (z : State) (_req : Requester) (p : Fin 8) (k : Nat) (w : Word) (s : State) :
    KeepsOut z (execPolicerWrite _req p k w s) s := by
  intro t h; unfold execPolicerWrite at h; repeat' split at h
  all_goals (simp only [done, carDone, Host.Outcome.next.injEq, reduceCtorEq] at h; subst h; simp [*])

@[simp] theorem keeps_refuseSched (z : State) (s : State) :
    Keeps z (State.refuseSched s) ↔ Keeps z s := by
  unfold State.refuseSched; simp

@[simp] theorem keeps_execGroupWrite (z : State) (_req : Requester) (k : Nat) (w : Word) (s : State) :
    KeepsOut z (execGroupWrite _req k w s) s := by
  intro t h; unfold execGroupWrite at h; repeat' split at h
  all_goals (simp only [done, carDone, Host.Outcome.next.injEq, reduceCtorEq] at h; subst h; simp [*])

@[simp] theorem keeps_execL1Write (z : State) (_req : Requester) (k : Nat) (w : Word) (s : State) :
    KeepsOut z (execL1Write _req k w s) s := by
  intro t h; unfold execL1Write at h; repeat' split at h
  all_goals (simp only [done, carDone, Host.Outcome.next.injEq, reduceCtorEq] at h; subst h; simp [*])

@[simp] theorem keeps_unhold (z : State) (s : State) (node place : Nat) :
    Keeps z (State.unhold s node place) ↔ Keeps z s := by
  unfold State.unhold; simp

@[simp] theorem keeps_afterHold (z : State) (s : State) (node place : Nat) (h : HeldFrame) :
    Keeps z (State.afterHold s node place h) ↔ Keeps z s := by
  unfold State.afterHold; repeat' split
  all_goals simp_all

@[simp] theorem keeps_execHoldRelease (z : State) (node : Fin 52) (place : Nat) (s : State) :
    KeepsOut z (execHoldRelease node place s) s := by
  intro t h; unfold execHoldRelease at h; repeat' split at h
  all_goals (simp only [done, carDone, Host.Outcome.next.injEq, reduceCtorEq] at h; subst h; simp [*])

@[simp] theorem keeps_execHoldExpiry (z : State) (node : Fin 52) (place : Nat) (s : State) :
    KeepsOut z (execHoldExpiry node place s) s := by
  intro t h; unfold execHoldExpiry at h; repeat' split at h
  all_goals (simp only [done, carDone, Host.Outcome.next.injEq, reduceCtorEq] at h; subst h; simp [*])

@[simp] theorem keeps_execLaunchEnter (z : State) (p : Fin 32) (queue : Nat) (s : State) :
    KeepsOut z (execLaunchEnter p queue s) s := by
  intro t h; unfold execLaunchEnter at h; dsimp only at h; repeat' split at h
  all_goals (simp only [done, carDone, Host.Outcome.next.injEq, reduceCtorEq] at h; subst h; simp [*])

@[simp] theorem keeps_execLaunchSend (z : State) (p : Fin 32) (place : Nat) (phase : Fin 128) (s : State) :
    KeepsOut z (execLaunchSend p place phase s) s := by
  intro t h; unfold execLaunchSend at h; dsimp only at h; repeat' split at h
  all_goals (simp only [done, carDone, Host.Outcome.next.injEq, reduceCtorEq] at h; subst h; simp [*])

/-! ## Nvme -/

@[simp] theorem keeps_ccEnable (z : State) (s : State) (f w : Nat) :
    Keeps z (State.ccEnable s f w) ↔ Keeps z s := by
  unfold State.ccEnable; simp

@[simp] theorem keeps_ccDisable (z : State) (s : State) (f w : Nat) :
    Keeps z (State.ccDisable s f w) ↔ Keeps z s := by
  unfold State.ccDisable; simp

@[simp] theorem keeps_ccShutdown (z : State) (s : State) (f w : Nat) :
    Keeps z (State.ccShutdown s f w) ↔ Keeps z s := by
  unfold State.ccShutdown; simp

@[simp] theorem keeps_writeCc (z : State) (s : State) (f w : Nat) :
    Keeps z (State.writeCc s f w) ↔ Keeps z s := by
  unfold State.writeCc; simp

@[simp] theorem keeps_execCcEnable (z : State) (f : Fin 2080) (w : BitVec 32) (s : State) :
    KeepsOut z (execCcEnable f w s) s := by
  unfold execCcEnable; exact keepsOut_ite _ _ _ _ _ (by simp) (keeps_hostRow _ _ _ _ fun u => by simp)

@[simp] theorem keeps_execCstsRdySet (z : State) (f : Fin 2080) (s : State) :
    KeepsOut z (execCstsRdySet f s) s := by
  intro t h; unfold execCstsRdySet at h; repeat' split at h
  all_goals (simp only [done, carDone, Host.Outcome.next.injEq, reduceCtorEq] at h; subst h; simp [*])

@[simp] theorem keeps_execCcDisable (z : State) (f : Fin 2080) (w : BitVec 32) (s : State) :
    KeepsOut z (execCcDisable f w s) s := by
  unfold execCcDisable; exact keepsOut_ite _ _ _ _ _ (by simp) (keeps_hostRow _ _ _ _ fun u => by simp)

@[simp] theorem keeps_execCcShutdown (z : State) (f : Fin 2080) (w : BitVec 32) (s : State) :
    KeepsOut z (execCcShutdown f w s) s := by
  unfold execCcShutdown; exact keepsOut_ite _ _ _ _ _ (by simp) (keeps_hostRow _ _ _ _ fun u => by simp)

@[simp] theorem keeps_execShutdownComplete (z : State) (f : Fin 2080) (s : State) :
    KeepsOut z (execShutdownComplete f s) s := by
  intro t h; unfold execShutdownComplete at h; repeat' split at h
  all_goals (simp only [done, carDone, Host.Outcome.next.injEq, reduceCtorEq] at h; subst h; simp [*])

@[simp] theorem keeps_sqTail (z : State) (s : State) (f q v : Nat) :
    Keeps z (State.sqTail s f q v) ↔ Keeps z s := by
  unfold State.sqTail; simp

@[simp] theorem keeps_cqHead (z : State) (s : State) (f q v : Nat) :
    Keeps z (State.cqHead s f q v) ↔ Keeps z s := by
  unfold State.cqHead; simp

@[simp] theorem keeps_execSqDoorbell (z : State) (f : Fin 2080) (q : Nat) (v : BitVec 32) (s : State) :
    KeepsOut z (execSqDoorbell f q v s) s := by
  unfold execSqDoorbell; exact keepsOut_ite _ _ _ _ _ (by simp) (keeps_hostRow _ _ _ _ fun u => by simp)

@[simp] theorem keeps_execCqDoorbell (z : State) (f : Fin 2080) (q : Nat) (v : BitVec 32) (s : State) :
    KeepsOut z (execCqDoorbell f q v s) s := by
  unfold execCqDoorbell; exact keepsOut_ite _ _ _ _ _ (by simp) (keeps_hostRow _ _ _ _ fun u => by simp)

@[simp] theorem keeps_newHandle (z : State) (s : State) :
    Keeps z (State.newHandle s).2 ↔ Keeps z s := by
  unfold State.newHandle; simp

@[simp] theorem keeps_checkIo (z : State) (s : State) (m : NvmCmd) :
    Keeps z (State.checkIo s m) ↔ Keeps z s := by
  unfold State.checkIo; dsimp only; repeat' split
  all_goals simp [*]

@[simp] theorem keeps_checkAdmin (z : State) (s : State) (m : NvmCmd) :
    Keeps z (State.checkAdmin s m) ↔ Keeps z s := by
  unfold State.checkAdmin; simp

@[simp] theorem keeps_fetchCmd (z : State) (s : State) (f q : Nat) :
    Keeps z (State.fetchCmd s f q) ↔ Keeps z s := by
  unfold State.fetchCmd; simp

@[simp] theorem keeps_cmdReadFails (z : State) (s : State) (f : Nat) (e : AerError) :
    Keeps z (State.cmdReadFails s f e) ↔ Keeps z s := by
  unfold State.cmdReadFails; simp

@[simp] theorem keeps_execCommandFetch (z : State) (f : Fin 2080) (sq : Nat) (reply : Option CplStatus) (s : State) :
    KeepsOut z (execCommandFetch f sq reply s) s := by
  intro t h; unfold execCommandFetch at h; repeat' split at h
  all_goals (simp only [done, carDone, Host.Outcome.next.injEq, reduceCtorEq] at h; subst h; simp [*])

@[simp] theorem keeps_execCommandDispatch (z : State) (h : Nat) (s : State) :
    KeepsOut z (execCommandDispatch h s) s := by
  simp [execCommandDispatch, done, keepsOut_next]

@[simp] theorem keeps_execNvmeRead (z : State) (h : Nat) (s : State) :
    KeepsOut z (execNvmeRead h s) s := by
  simp [execNvmeRead, done, keepsOut_next]

@[simp] theorem keeps_execNvmeWrite (z : State) (h : Nat) (s : State) :
    KeepsOut z (execNvmeWrite h s) s := by
  simp [execNvmeWrite, done, keepsOut_next]

@[simp] theorem keeps_execNvmeFlush (z : State) (h : Nat) (s : State) :
    KeepsOut z (execNvmeFlush h s) s := by
  simp [execNvmeFlush, done, keepsOut_next]

@[simp] theorem keeps_execCompare (z : State) (h : Nat) (s : State) :
    KeepsOut z (execCompare h s) s := by
  simp [execCompare, done, keepsOut_next]

@[simp] theorem keeps_execWriteZeroes (z : State) (h : Nat) (s : State) :
    KeepsOut z (execWriteZeroes h s) s := by
  simp [execWriteZeroes, done, keepsOut_next]

@[simp] theorem keeps_execDatasetManagement (z : State) (h : Nat) (s : State) :
    KeepsOut z (execDatasetManagement h s) s := by
  simp [execDatasetManagement, done, keepsOut_next]

@[simp] theorem keeps_execCreateIoSq (z : State) (h : Nat) (s : State) :
    KeepsOut z (execCreateIoSq h s) s := by
  intro t h; unfold execCreateIoSq at h; dsimp only at h; repeat' split at h
  all_goals (simp only [done, carDone, Host.Outcome.next.injEq, reduceCtorEq] at h; subst h; simp [*])

@[simp] theorem keeps_execCreateIoCq (z : State) (h : Nat) (s : State) :
    KeepsOut z (execCreateIoCq h s) s := by
  intro t h; unfold execCreateIoCq at h; dsimp only at h; repeat' split at h
  all_goals (simp only [done, carDone, Host.Outcome.next.injEq, reduceCtorEq] at h; subst h; simp [*])

@[simp] theorem keeps_execDeleteIoSq (z : State) (h : Nat) (s : State) :
    KeepsOut z (execDeleteIoSq h s) s := by
  intro t h; unfold execDeleteIoSq at h; repeat' split at h
  all_goals (simp only [done, carDone, Host.Outcome.next.injEq, reduceCtorEq] at h; subst h; simp [*])

@[simp] theorem keeps_execDeleteIoCq (z : State) (h : Nat) (s : State) :
    KeepsOut z (execDeleteIoCq h s) s := by
  intro t h; unfold execDeleteIoCq at h; dsimp only at h; repeat' split at h
  all_goals (simp only [done, carDone, Host.Outcome.next.injEq, reduceCtorEq] at h; subst h; simp [*])

@[simp] theorem keeps_execGetLogPage (z : State) (h : Nat) (s : State) :
    KeepsOut z (execGetLogPage h s) s := by
  intro t h; unfold execGetLogPage at h; dsimp only at h; repeat' split at h
  all_goals (simp only [done, carDone, Host.Outcome.next.injEq, reduceCtorEq] at h; subst h; simp [*])

@[simp] theorem keeps_execIdentify (z : State) (h : Nat) (s : State) :
    KeepsOut z (execIdentify h s) s := by
  intro t h; unfold execIdentify at h; dsimp only at h; repeat' split at h
  all_goals (simp only [done, carDone, Host.Outcome.next.injEq, reduceCtorEq] at h; subst h; simp [*])

@[simp] theorem keeps_execAbort (z : State) (h : Nat) (s : State) :
    KeepsOut z (execAbort h s) s := by
  intro t h; unfold execAbort at h; dsimp only at h; repeat' split at h
  all_goals (simp only [done, carDone, Host.Outcome.next.injEq, reduceCtorEq] at h; subst h; simp [*])

@[simp] theorem keeps_execSetFeatures (z : State) (h : Nat) (s : State) :
    KeepsOut z (execSetFeatures h s) s := by
  intro t h; unfold execSetFeatures at h; dsimp only at h; repeat' split at h
  all_goals (simp only [done, carDone, Host.Outcome.next.injEq, reduceCtorEq] at h; subst h; simp [*])

@[simp] theorem keeps_execGetFeatures (z : State) (h : Nat) (s : State) :
    KeepsOut z (execGetFeatures h s) s := by
  intro t h; unfold execGetFeatures at h; dsimp only at h; repeat' split at h
  all_goals (simp only [done, carDone, Host.Outcome.next.injEq, reduceCtorEq] at h; subst h; simp [*])

@[simp] theorem keeps_execAsyncEventRequest (z : State) (h : Nat) (s : State) :
    KeepsOut z (execAsyncEventRequest h s) s := by
  intro t h; unfold execAsyncEventRequest at h; repeat' split at h
  all_goals (simp only [done, carDone, Host.Outcome.next.injEq, reduceCtorEq] at h; subst h; simp [*])

@[simp] theorem keeps_execTake (z : State) (place : Nat) (s : State) :
    KeepsOut z (execTake place s) s := by
  intro t h; unfold execTake at h; dsimp only at h; repeat' split at h
  all_goals (simp only [done, carDone, Host.Outcome.next.injEq, reduceCtorEq] at h; subst h; simp [*])

@[simp] theorem keeps_execComplete (z : State) (place : Nat) (s : State) :
    KeepsOut z (execComplete place s) s := by
  intro t h; unfold execComplete at h; dsimp only at h; repeat' split at h
  all_goals (simp only [done, carDone, Host.Outcome.next.injEq, reduceCtorEq] at h; subst h; simp [*])

@[simp] theorem keeps_execMark (z : State) (place : Nat) (s : State) :
    KeepsOut z (execMark place s) s := by
  intro t h; unfold execMark at h; dsimp only at h; repeat' split at h
  all_goals (simp only [done, carDone, Host.Outcome.next.injEq, reduceCtorEq] at h; subst h; simp [*])

@[simp] theorem keeps_execDefer (z : State) (place : Nat) (s : State) :
    KeepsOut z (execDefer place s) s := by
  intro t h; unfold execDefer at h; dsimp only at h; repeat' split at h
  all_goals (simp only [done, carDone, Host.Outcome.next.injEq, reduceCtorEq] at h; subst h; simp [*])

@[simp] theorem keeps_execCopy (z : State) (place : Nat) (reply : Option CplStatus) (s : State) :
    KeepsOut z (execCopy place reply s) s := by
  intro t h; unfold execCopy at h; dsimp only at h; repeat' split at h
  all_goals (simp only [done, carDone, Host.Outcome.next.injEq, reduceCtorEq] at h; subst h; simp [*])

@[simp] theorem keeps_refuseNvm (z : State) (s : State) :
    Keeps z (State.refuseNvm s) ↔ Keeps z s := by
  unfold State.refuseNvm; simp

@[simp] theorem keeps_nvmResult (z : State) (s : State) (r : Nat) :
    Keeps z (State.nvmResult s r) ↔ Keeps z s := by
  unfold State.nvmResult; simp

@[simp] theorem keeps_nsWrite (z : State) (s : State) (n : Nat) :
    Keeps z (State.nsWrite s n) ↔ Keeps z s := by
  unfold State.nsWrite; simp

@[simp] theorem keeps_nsRead (z : State) (s : State) (n : Nat) :
    Keeps z (State.nsRead s n) ↔ Keeps z s := by
  unfold State.nsRead; repeat' (first | (simp [*]; done) | (simp [*, keeps_foldl]; done) | intro y t x | split | rw [keeps_foldl] | rw [keeps_foldl_fst] | simp)

@[simp] theorem keeps_nsAttach (z : State) (s : State) (f k n : Nat) :
    Keeps z (State.nsAttach s f k n) ↔ Keeps z s := by
  unfold State.nsAttach; simp

@[simp] theorem keeps_nsDetach (z : State) (s : State) (f k : Nat) :
    Keeps z (State.nsDetach s f k) ↔ Keeps z s := by
  unfold State.nsDetach; simp

@[simp] theorem keeps_nvmCommand (z : State) (s : State) (w : Word) :
    Keeps z (State.nvmCommand s w) ↔ Keeps z s := by
  unfold State.nvmCommand; repeat' split
  all_goals simp_all

@[simp] theorem keeps_execNsWrite (z : State) (_req : Requester) (w : Word) (s : State) :
    KeepsOut z (execNsWrite _req w s) s := by
  intro t h; unfold execNsWrite at h; repeat' split at h
  all_goals (simp only [done, carDone, Host.Outcome.next.injEq, reduceCtorEq] at h; subst h; simp [*])

@[simp] theorem keeps_execNsRead (z : State) (_req : Requester) (w : Word) (s : State) :
    KeepsOut z (execNsRead _req w s) s := by
  intro t h; unfold execNsRead at h; repeat' split at h
  all_goals (simp only [done, carDone, Host.Outcome.next.injEq, reduceCtorEq] at h; subst h; simp [*])

@[simp] theorem keeps_execAttach (z : State) (_req : Requester) (w : Word) (s : State) :
    KeepsOut z (execAttach _req w s) s := by
  intro t h; unfold execAttach at h; repeat' split at h
  all_goals (simp only [done, carDone, Host.Outcome.next.injEq, reduceCtorEq] at h; subst h; simp [*])

@[simp] theorem keeps_execDetach (z : State) (_req : Requester) (w : Word) (s : State) :
    KeepsOut z (execDetach _req w s) s := by
  intro t h; unfold execDetach at h; repeat' split at h
  all_goals (simp only [done, carDone, Host.Outcome.next.injEq, reduceCtorEq] at h; subst h; simp [*])

@[simp] theorem keeps_writeFnRes (z : State) (s : State) (f : Nat) (w : Word) :
    Keeps z (State.writeFnRes s f w) ↔ Keeps z s := by
  unfold State.writeFnRes; simp

@[simp] theorem keeps_execFnResWrite (z : State) (_req : Requester) (f : Fin 2080) (w : Word) (s : State) :
    KeepsOut z (execFnResWrite _req f w s) s := by
  intro t h; unfold execFnResWrite at h; repeat' split at h
  all_goals (simp only [done, carDone, Host.Outcome.next.injEq, reduceCtorEq] at h; subst h; simp [*])

/-! ## XptOps -/

@[simp] theorem keeps_onXpt (z : State) (s : State) (g : XptState → XptState) :
    Keeps z (State.onXpt s g) ↔ Keeps z s := by
  unfold State.onXpt; simp

@[simp] theorem keeps_setCtx (z : State) (s : State) (c w v : Nat) :
    Keeps z (State.setCtx s c w v) ↔ Keeps z s := by
  unfold State.setCtx; simp

@[simp] theorem keeps_onConn (z : State) (s : State) (c : Nat) (g : SarupConn → SarupConn) :
    Keeps z (State.onConn s c g) ↔ Keeps z s := by
  unfold State.onConn; simp

@[simp] theorem keeps_touchCtx (z : State) (s : State) (c : Nat) :
    Keeps z (State.touchCtx s c) ↔ Keeps z s := by
  unfold State.touchCtx; simp

@[simp] theorem keeps_setWin (z : State) (s : State) (w k v : Nat) :
    Keeps z (State.setWin s w k v) ↔ Keeps z s := by
  unfold State.setWin; simp

@[simp] theorem keeps_winOff (z : State) (s : State) (w : Nat) :
    Keeps z (State.winOff s w) ↔ Keeps z s := by
  unfold State.winOff; simp

@[simp] theorem keeps_xWrite (z : State) (s : State) (fn : Option Nat) (a : Nat) (bs : List Byte) :
    Keeps z (State.xWrite s fn a bs) ↔ Keeps z s := by
  unfold State.xWrite; repeat' split
  all_goals simp_all

@[simp] theorem keeps_sarupFeed (z : State) (s : State) (c path : Nat) (data : List Byte) (x : Packet) :
    Keeps z (State.sarupFeed s c path data x) ↔ Keeps z s := by
  unfold State.sarupFeed; simp

@[simp] theorem keeps_sendPkt (z : State) (s : State) (c : Nat) (x : SarupPkt) :
    Keeps z (State.sendPkt s c x) ↔ Keeps z s := by
  unfold State.sendPkt; simp

theorem keeps_cutOne (z : State) (s : State) (c : Nat) :
    ∀ u : State, (State.cutOne s c) = some u → (Keeps z u ↔ Keeps z s) := by
  unfold State.cutOne; dsimp only; repeat' split
  all_goals simp [*]

@[simp] theorem keeps_pumpGo (z : State) (s : State) (c a1 : Nat) : Keeps z (State.pumpGo s c a1) ↔ Keeps z s := by
  induction a1 generalizing s with
  | zero => rfl
  | succ n ih =>
    unfold State.pumpGo
    split
    · next h => rw [ih]; exact keeps_cutOne z _ _ _ h
    · rfl

@[simp] theorem keeps_pump (z : State) (s : State) (c : Nat) :
    Keeps z (State.pump s c) ↔ Keeps z s := by
  unfold State.pump; simp

@[simp] theorem keeps_postMsg (z : State) (s : State) (c : Nat) (m : SarupMsg) :
    Keeps z (State.postMsg s c m) ↔ Keeps z s := by
  unfold State.postMsg; simp

@[simp] theorem keeps_postResponse (z : State) (s : State) (c : Nat) (m : SarupMsg) :
    Keeps z (State.postResponse s c m) ↔ Keeps z s := by
  unfold State.postResponse; simp

@[simp] theorem keeps_sendControlPkt (z : State) (s : State) (c op psn : Nat) (payload : List Byte) :
    Keeps z (State.sendControlPkt s c op psn payload) ↔ Keeps z s := by
  unfold State.sendControlPkt; simp

@[simp] theorem keeps_sendAck (z : State) (s : State) (c : Nat) :
    Keeps z (State.sendAck s c) ↔ Keeps z s := by
  unfold State.sendAck; simp

@[simp] theorem keeps_sendNak (z : State) (s : State) (c psn code : Nat) :
    Keeps z (State.sendNak s c psn code) ↔ Keeps z s := by
  unfold State.sendNak; simp

@[simp] theorem keeps_endRequests (z : State) (s : State) (g : Nat) (p : TxChain → SarupReq → Bool) (status : Nat) (value : Nat) :
    Keeps z (State.endRequests s g p status value) ↔ Keeps z s := by
  unfold State.endRequests; simp

@[simp] theorem keeps_stopFilling (z : State) (s : State) (c : Nat) :
    Keeps z (State.stopFilling s c) ↔ Keeps z s := by
  unfold State.stopFilling; simp

@[simp] theorem keeps_connFails (z : State) (s : State) (c code : Nat) :
    Keeps z (State.connFails s c code) ↔ Keeps z s := by
  unfold State.connFails; simp

@[simp] theorem keeps_failPsn (z : State) (s : State) (c psn code : Nat) :
    Keeps z (State.failPsn s c psn code) ↔ Keeps z s := by
  unfold State.failPsn; simp

@[simp] theorem keeps_connReset (z : State) (s : State) (c : Nat) :
    Keeps z (State.connReset s c) ↔ Keeps z s := by
  unfold State.connReset; simp

@[simp] theorem keeps_xptFnReset (z : State) (s : State) (f : Nat) :
    Keeps z (State.xptFnReset s f) ↔ Keeps z s := by
  unfold State.xptFnReset; repeat' (first | (simp [*]; done) | intro y t x | split | rw [keeps_foldl] | rw [keeps_foldl_fst])

@[simp] theorem keeps_xptTake (z : State) (s : State) (k : Nat) :
    Keeps z (State.xptTake s k) ↔ Keeps z s := by
  unfold State.xptTake; simp

@[simp] theorem keeps_xptException (z : State) (s : State) (p : Packet) :
    Keeps z (State.xptException s p) ↔ Keeps z s := by
  unfold State.xptException; simp

@[simp] theorem keeps_markPsn (z : State) (s : State) (c : Nat) (h : SarupIn) :
    Keeps z (State.markPsn s c h) ↔ Keeps z s := by
  unfold State.markPsn; simp

@[simp] theorem keeps_acceptPsn (z : State) (s : State) (c : Nat) (h : SarupIn) :
    Keeps z (State.acceptPsn s c h) ↔ Keeps z s := by
  unfold State.acceptPsn; simp

@[simp] theorem keeps_notePacket (z : State) (s : State) (c : Nat) (h : SarupIn) (p : Packet) (kind start : Nat) (refused : Bool) :
    Keeps z (State.notePacket s c h p kind start refused) ↔ Keeps z s := by
  unfold State.notePacket; simp

@[simp] theorem keeps_refusePkt (z : State) (s : State) (c : Nat) (h : SarupIn) (p : Packet) (code : Nat) :
    Keeps z (State.refusePkt s c h p code) ↔ Keeps z s := by
  unfold State.refusePkt; simp

theorem keeps_sarupTake (z : State) (s : State) (k op : Nat) (go : State → SarupIn → Packet → Take)
    (h : ∀ t i p q, go t i p = q → (Keeps z q.1 ↔ Keeps z t)) : Keeps z (State.sarupTake s k op go) ↔ Keeps z s := by
  unfold State.sarupTake
  dsimp only
  repeat' split
  all_goals simp [h _ _ _ _ rfl]

theorem keeps_sequenced (z : State) (s : State) (i : SarupIn) (writes : Bool) (go : State → Take)
    (h : ∀ t q, go t = q → (Keeps z q.1 ↔ Keeps z t)) : Keeps z (State.sequenced s i writes go).1 ↔ Keeps z s := by
  unfold State.sequenced
  simp [h _ _ rfl]

@[simp] theorem keeps_placeWrite (z : State) (s : State) (h : SarupIn) (p : Packet) :
    Keeps z (State.placeWrite s h p) ↔ Keeps z s := by
  unfold State.placeWrite; dsimp only; repeat' split
  all_goals simp [*]

@[simp] theorem keeps_scatter (z : State) (s : State) (f g : Nat) (a1 : List (Nat × Nat × Nat)) (a2 : Nat) (a3 : List Byte) :
    Keeps z (State.scatter s f g a1 a2 a3) ↔ Keeps z s := by
  induction a1 generalizing s a2 a3 with
  | nil => rfl
  | cons b rest ih =>
    unfold State.scatter
    simp [ih]

@[simp] theorem keeps_placeSend (z : State) (s : State) (h : SarupIn) (p : Packet) (x : SarupSend) :
    Keeps z (State.placeSend s h p x) ↔ Keeps z s := by
  unfold State.placeSend; simp

@[simp] theorem keeps_takeSend (z : State) (s : State) (h : SarupIn) (p : Packet) :
    Keeps z (State.takeSend s h p).1 ↔ Keeps z s := by
  unfold State.takeSend; dsimp only; repeat' split
  all_goals simp [*]

@[simp] theorem keeps_windowRead (z : State) (s : State) (i : SarupIn) (p : Packet) (fn : Option Nat) (reply : Option ReadEnd)
    (go : State → State) (h : ∀ t, Keeps z (go t) ↔ Keeps z t) : Keeps z (State.windowRead s i p fn reply go).1 ↔ Keeps z s := by
  unfold State.windowRead
  repeat' split
  all_goals simp [h]

@[simp] theorem keeps_takeReadReq (z : State) (s : State) (h : SarupIn) (p : Packet) (reply : Option ReadEnd) :
    Keeps z (State.takeReadReq s h p reply).1 ↔ Keeps z s := by
  unfold State.takeReadReq; dsimp only; repeat' split
  all_goals simp [*]

@[simp] theorem keeps_takeAtomic (z : State) (s : State) (h : SarupIn) (p : Packet) (reply : Option ReadEnd) (size : Nat) (new : Nat → Nat) :
    Keeps z (State.takeAtomic s h p reply size new).1 ↔ Keeps z s := by
  unfold State.takeAtomic; repeat' split
  all_goals simp_all

@[simp] theorem keeps_takeReadResp (z : State) (s : State) (h : SarupIn) :
    Keeps z (State.takeReadResp s h) ↔ Keeps z s := by
  unfold State.takeReadResp; dsimp only; repeat' split
  all_goals simp [*]

@[simp] theorem keeps_takeAck (z : State) (s : State) (h : SarupIn) :
    Keeps z (State.takeAck s h) ↔ Keeps z s := by
  unfold State.takeAck; repeat' (first | (simp [*]; done) | (simp [*, keeps_foldl]; done) | intro y t x | split | rw [keeps_foldl] | rw [keeps_foldl_fst] | simp)

@[simp] theorem keeps_takeNak (z : State) (s : State) (h : SarupIn) :
    Keeps z (State.takeNak s h) ↔ Keeps z s := by
  unfold State.takeNak; dsimp only; repeat' split
  all_goals simp [*]

@[simp] theorem keeps_enterEnded (z : State) (s : State) (g : Nat) (c : TxChain) (status : Nat) (value : Nat) :
    Keeps z (State.enterEnded s g c status value) ↔ Keeps z s := by
  unfold State.enterEnded; simp

@[simp] theorem keeps_runOnConn (z : State) (s : State) (f g : Nat) (w : WorkReq) (c : TxChain) :
    Keeps z (State.runOnConn s f g w c) ↔ Keeps z s := by
  unfold State.runOnConn; simp

@[simp] theorem keeps_runOpen (z : State) (s : State) (f g : Nat) (w : WorkReq) (c : TxChain) :
    Keeps z (State.runOpen s f g w c) ↔ Keeps z s := by
  unfold State.runOpen; simp

@[simp] theorem keeps_runRevoke (z : State) (s : State) (f g : Nat) (w : WorkReq) (c : TxChain) :
    Keeps z (State.runRevoke s f g w c) ↔ Keeps z s := by
  unfold State.runRevoke; simp

@[simp] theorem keeps_runWork (z : State) (s : State) (f g : Nat) (w : WorkReq) (c : TxChain) :
    Keeps z (State.runWork s f g w c) ↔ Keeps z s := by
  unfold State.runWork; repeat' split
  all_goals simp_all

@[simp] theorem keeps_sarupFetch (z : State) (s : State) (f q : Nat) :
    Keeps z (State.sarupFetch s f q) ↔ Keeps z s := by
  unfold State.sarupFetch; dsimp only; repeat' split
  all_goals simp [*]

@[simp] theorem keeps_wrRow (z : State) (s : State) (op : Nat) (q : SarupQueue) (reply : Option CplStatus) :
    KeepsOut z (State.wrRow s op q reply) s := by
  intro t h; unfold State.wrRow at h; dsimp only at h; repeat' split at h
  all_goals (simp only [done, carDone, Host.Outcome.next.injEq, reduceCtorEq] at h; subst h; simp [*])

@[simp] theorem keeps_xptRefuse (z : State) (s : State) (result : Nat) :
    Keeps z (State.xptRefuse s result) ↔ Keeps z s := by
  unfold State.xptRefuse; simp

@[simp] theorem keeps_setXptData (z : State) (s : State) (ws : List Nat) :
    Keeps z (State.setXptData s ws) ↔ Keeps z s := by
  unfold State.setXptData; rw [keeps_foldl]
  intro y t x
  repeat' split
  all_goals simp [*]

@[simp] theorem keeps_connWrite (z : State) (s : State) (c : Nat) :
    Keeps z (State.connWrite s c) ↔ Keeps z s := by
  unfold State.connWrite; dsimp only; repeat' split
  all_goals simp [*]

@[simp] theorem keeps_winWrite (z : State) (s : State) (w : Nat) :
    Keeps z (State.winWrite s w) ↔ Keeps z s := by
  unfold State.winWrite; simp

@[simp] theorem keeps_xptCommand (z : State) (s : State) (w : Word) :
    Keeps z (State.xptCommand s w) ↔ Keeps z s := by
  unfold State.xptCommand; dsimp only; repeat' split
  all_goals simp [*]

@[simp] theorem keeps_bindQueue (z : State) (s : State) (g : Nat) (w : Word) :
    Keeps z (State.bindQueue s g w) ↔ Keeps z s := by
  unfold State.bindQueue; simp

@[simp] theorem keeps_xptFnWrite (z : State) (s : State) (f : Nat) (win : Bool) (w : Word) :
    Keeps z (State.xptFnWrite s f win w) ↔ Keeps z s := by
  unfold State.xptFnWrite; simp

end Sys2Proof.Machine
end

