-- ==== Sys2Proof/Laws/Keep6.lean ====
section
/-! SUPPORT. The operations of Sarup, HlOps, SecOps, ModeOps, RotOps keep the queue and the counters. -/
namespace Sys2Proof.Machine

/-! ## Sarup -/

@[simp] theorem keeps_xptOp (z : State) (s : State) (op : Nat) (w : Word) :
    KeepsOut z (State.xptOp s op w) s := by
  intro t h; unfold State.xptOp at h; repeat' split at h
  all_goals (simp only [done, carDone, Host.Outcome.next.injEq, reduceCtorEq] at h; subst h; simp [*])

@[simp] theorem keeps_execConnWrite (z : State) (_req : Requester) (w : Word) (s : State) :
    KeepsOut z (execConnWrite _req w s) s := by
  unfold execConnWrite; repeat' split
  all_goals simp [done]

@[simp] theorem keeps_execConnRead (z : State) (_req : Requester) (w : Word) (s : State) :
    KeepsOut z (execConnRead _req w s) s := by
  unfold execConnRead; repeat' split
  all_goals simp [done]

@[simp] theorem keeps_execConnReset (z : State) (_req : Requester) (w : Word) (s : State) :
    KeepsOut z (execConnReset _req w s) s := by
  unfold execConnReset; repeat' split
  all_goals simp [done]

@[simp] theorem keeps_execWinWrite (z : State) (_req : Requester) (w : Word) (s : State) :
    KeepsOut z (execWinWrite _req w s) s := by
  unfold execWinWrite; repeat' split
  all_goals simp [done]

@[simp] theorem keeps_execWinRead (z : State) (_req : Requester) (w : Word) (s : State) :
    KeepsOut z (execWinRead _req w s) s := by
  unfold execWinRead; repeat' split
  all_goals simp [done]

@[simp] theorem keeps_execWinRevoke (z : State) (_req : Requester) (w : Word) (s : State) :
    KeepsOut z (execWinRevoke _req w s) s := by
  unfold execWinRevoke; repeat' split
  all_goals simp [done]

@[simp] theorem keeps_execQuarantineEnd (z : State) (conn : Nat) (s : State) :
    KeepsOut z (execQuarantineEnd conn s) s := by
  intro t h; unfold execQuarantineEnd at h; repeat' split at h
  all_goals (simp only [done, carDone, Host.Outcome.next.injEq, reduceCtorEq] at h; subst h; simp [*])

@[simp] theorem keeps_execQpBindWrite (z : State) (_req : Requester) (q : Fin 32768) (w : Word) (s : State) :
    KeepsOut z (execQpBindWrite _req q w s) s := by
  intro t h; unfold execQpBindWrite at h; repeat' split at h
  all_goals (simp only [done, carDone, Host.Outcome.next.injEq, reduceCtorEq] at h; subst h; simp [*])

@[simp] theorem keeps_execWrWrite (z : State) (q : SarupQueue) (reply : Option CplStatus) (s : State) :
    KeepsOut z (execWrWrite q reply s) s := by
  simp [execWrWrite, done]

@[simp] theorem keeps_execWrWriteImm (z : State) (q : SarupQueue) (reply : Option CplStatus) (s : State) :
    KeepsOut z (execWrWriteImm q reply s) s := by
  simp [execWrWriteImm, done]

@[simp] theorem keeps_execWrSend (z : State) (q : SarupQueue) (reply : Option CplStatus) (s : State) :
    KeepsOut z (execWrSend q reply s) s := by
  simp [execWrSend, done]

@[simp] theorem keeps_execWrRead (z : State) (q : SarupQueue) (reply : Option CplStatus) (s : State) :
    KeepsOut z (execWrRead q reply s) s := by
  simp [execWrRead, done]

@[simp] theorem keeps_execWrFetchAdd (z : State) (q : SarupQueue) (reply : Option CplStatus) (s : State) :
    KeepsOut z (execWrFetchAdd q reply s) s := by
  simp [execWrFetchAdd, done]

@[simp] theorem keeps_execWrCas (z : State) (q : SarupQueue) (reply : Option CplStatus) (s : State) :
    KeepsOut z (execWrCas q reply s) s := by
  simp [execWrCas, done]

@[simp] theorem keeps_execWrFlush (z : State) (q : SarupQueue) (reply : Option CplStatus) (s : State) :
    KeepsOut z (execWrFlush q reply s) s := by
  simp [execWrFlush, done]

@[simp] theorem keeps_execWrOpen (z : State) (q : SarupQueue) (reply : Option CplStatus) (s : State) :
    KeepsOut z (execWrOpen q reply s) s := by
  simp [execWrOpen, done]

@[simp] theorem keeps_execWrRevoke (z : State) (q : SarupQueue) (reply : Option CplStatus) (s : State) :
    KeepsOut z (execWrRevoke q reply s) s := by
  simp [execWrRevoke, done]

@[simp] theorem keeps_execRevokeComplete (z : State) (win : Nat) (s : State) :
    KeepsOut z (execRevokeComplete win s) s := by
  intro t h; unfold execRevokeComplete at h; dsimp only at h; repeat' split at h
  all_goals (simp only [done, carDone, Host.Outcome.next.injEq, reduceCtorEq] at h; subst h; simp [*])

@[simp] theorem keeps_execWrite (z : State) (k : Nat) (s : State) : KeepsOut z (execWrite k s) s := by
  simp only [execWrite, done, keepsOut_next, keeps_settle]
  rw [keeps_sarupTake]
  intro t i p q e
  subst e
  rw [keeps_sequenced]
  intro u r e
  subst e
  simp

@[simp] theorem keeps_execWriteImm (z : State) (k : Nat) (s : State) : KeepsOut z (execWriteImm k s) s := by
  simp only [execWriteImm, done, keepsOut_next, keeps_settle]
  rw [keeps_sarupTake]
  intro t i p q e
  subst e
  rw [keeps_sequenced]
  intro u r e
  subst e
  simp

@[simp] theorem keeps_execSend (z : State) (k : Nat) (s : State) : KeepsOut z (execSend k s) s := by
  simp only [execSend, done, keepsOut_next, keeps_settle]
  rw [keeps_sarupTake]
  intro t i p q e
  subst e
  rw [keeps_sequenced]
  intro u r e
  subst e
  simp

@[simp] theorem keeps_readReqAt (z : State) (s : State) (k : Nat) (reply : Option ReadEnd) : Keeps z (State.readReqAt s k reply) ↔ Keeps z s := by
  unfold State.readReqAt
  rw [keeps_sarupTake]
  intro t i p q e
  subst e
  rw [keeps_sequenced]
  intro u r e
  subst e
  simp

@[simp] theorem keeps_fetchAddAt (z : State) (s : State) (k : Nat) (reply : Option ReadEnd) : Keeps z (State.fetchAddAt s k reply) ↔ Keeps z s := by
  unfold State.fetchAddAt
  rw [keeps_sarupTake]
  intro t i p q e
  subst e
  rw [keeps_sequenced]
  intro u r e
  subst e
  simp

@[simp] theorem keeps_casAt (z : State) (s : State) (k : Nat) (reply : Option ReadEnd) : Keeps z (State.casAt s k reply) ↔ Keeps z s := by
  unfold State.casAt
  rw [keeps_sarupTake]
  intro t i p q e
  subst e
  rw [keeps_sequenced]
  intro u r e
  subst e
  simp

@[simp] theorem keeps_sarupReply (z : State) (s : State) (c psn : Nat) (reply : ReadEnd) :
    Keeps z (State.sarupReply s c psn reply) ↔ Keeps z s := by
  unfold State.sarupReply; dsimp only; repeat' split
  all_goals simp [*]

@[simp] theorem keeps_execReadReq (z : State) (k : Nat) (reply : Option CplStatus) (s : State) :
    KeepsOut z (execReadReq k reply s) s := by
  simp [execReadReq, done, keepsOut_next]

@[simp] theorem keeps_execReadResp (z : State) (k : Nat) (s : State) : KeepsOut z (execReadResp k s) s := by
  simp only [execReadResp, done, keepsOut_next, keeps_settle]
  rw [keeps_sarupTake]
  intro t i p q e
  subst e
  rw [keeps_sequenced]
  intro u r e
  subst e
  simp

@[simp] theorem keeps_execFetchAdd (z : State) (k : Nat) (reply : Option CplStatus) (s : State) :
    KeepsOut z (execFetchAdd k reply s) s := by
  simp [execFetchAdd, done, keepsOut_next]

@[simp] theorem keeps_execCas (z : State) (k : Nat) (reply : Option CplStatus) (s : State) :
    KeepsOut z (execCas k reply s) s := by
  simp [execCas, done, keepsOut_next]

@[simp] theorem keeps_execAtomicResp (z : State) (k : Nat) (s : State) : KeepsOut z (execAtomicResp k s) s := by
  simp only [execAtomicResp, done, keepsOut_next, keeps_settle]
  rw [keeps_sarupTake]
  intro t i p q e
  subst e
  rw [keeps_sequenced]
  intro u r e
  subst e
  simp

@[simp] theorem keeps_execFlush (z : State) (k : Nat) (s : State) : KeepsOut z (execFlush k s) s := by
  simp only [execFlush, done, keepsOut_next, keeps_settle]
  rw [keeps_sarupTake]
  intro t i p q e
  subst e
  rw [keeps_sequenced]
  intro u r e
  subst e
  simp

@[simp] theorem keeps_execFlushVisible (z : State) (conn psn : Nat) (s : State) :
    KeepsOut z (execFlushVisible conn psn s) s := by
  intro t h; unfold execFlushVisible at h; dsimp only at h; repeat' split at h
  all_goals (simp only [done, carDone, Host.Outcome.next.injEq, reduceCtorEq] at h; subst h; simp [*])

@[simp] theorem keeps_execFlushResp (z : State) (k : Nat) (s : State) : KeepsOut z (execFlushResp k s) s := by
  simp only [execFlushResp, done, keepsOut_next, keeps_settle]
  rw [keeps_sarupTake]
  intro t i p q e
  subst e
  rw [keeps_sequenced]
  intro u r e
  subst e
  simp

@[simp] theorem keeps_execAck (z : State) (k : Nat) (s : State) : KeepsOut z (execAck k s) s := by
  simp only [execAck, done, keepsOut_next, keeps_settle]
  rw [keeps_sarupTake]
  intro t i p q e
  subst e
  simp

@[simp] theorem keeps_execNak (z : State) (k : Nat) (s : State) : KeepsOut z (execNak k s) s := by
  simp only [execNak, done, keepsOut_next, keeps_settle]
  rw [keeps_sarupTake]
  intro t i p q e
  subst e
  simp

@[simp] theorem keeps_execAckTimer (z : State) (conn : Nat) (s : State) :
    KeepsOut z (execAckTimer conn s) s := by
  intro t h; unfold execAckTimer at h; dsimp only at h; repeat' split at h
  all_goals (simp only [done, carDone, Host.Outcome.next.injEq, reduceCtorEq] at h; subst h; simp [*])

@[simp] theorem keeps_execRetransmitTimeout (z : State) (conn psn : Nat) (s : State) :
    KeepsOut z (execRetransmitTimeout conn psn s) s := by
  intro t h; unfold execRetransmitTimeout at h; dsimp only at h; repeat' split at h
  all_goals (simp only [done, carDone, Host.Outcome.next.injEq, reduceCtorEq] at h; subst h; simp [*])

@[simp] theorem keeps_execRnrRetry (z : State) (conn psn : Nat) (s : State) : KeepsOut z (execRnrRetry conn psn s) s := by
  unfold execRnrRetry
  split
  · simp
  · split
    · simp
    · split
      · simp
      · simp only [done, keepsOut_next, keeps_settle]
        rw [keeps_foldl]
        intro y u x
        simp

@[simp] theorem keeps_execSarupRxCompletion (z : State) (conn : Nat) (s : State) :
    KeepsOut z (execSarupRxCompletion conn s) s := by
  intro t h; unfold execSarupRxCompletion at h; dsimp only at h; repeat' split at h
  all_goals (simp only [done, carDone, Host.Outcome.next.injEq, reduceCtorEq] at h; subst h; simp [*])

@[simp] theorem keeps_execXptWorkRequest (z : State) (place : Nat) (s : State) :
    KeepsOut z (execXptWorkRequest place s) s := by
  intro t h; unfold execXptWorkRequest at h; dsimp only at h; repeat' split at h
  all_goals (simp only [done, carDone, Host.Outcome.next.injEq, reduceCtorEq] at h; subst h; simp [*])

@[simp] theorem keeps_execXptCqConsumer (z : State) (place : Nat) (s : State) :
    KeepsOut z (execXptCqConsumer place s) s := by
  intro t h; unfold execXptCqConsumer at h; dsimp only at h; repeat' split at h
  all_goals (simp only [done, carDone, Host.Outcome.next.injEq, reduceCtorEq] at h; subst h; simp [*])

/-! ## HlOps -/

@[simp] theorem keeps_setVfs (z : State) (s : State) (pf : Nat) (on : Bool) (n : Nat) :
    Keeps z (State.setVfs s pf on n) ↔ Keeps z s := by
  unfold State.setVfs; simp

@[simp] theorem keeps_quiesceFn (z : State) (s : State) (f : Nat) :
    Keeps z (State.quiesceFn s f) ↔ Keeps z s := by
  unfold State.quiesceFn; repeat' (first | (simp [*]; done) | (simp [*, keeps_foldl]; done) | intro y t x | split | rw [keeps_foldl] | rw [keeps_foldl_fst] | simp)

@[simp] theorem keeps_resetFn (z : State) (s : State) (f : Nat) :
    Keeps z (State.resetFn s f) ↔ Keeps z s := by
  unfold State.resetFn; repeat' (first | (simp [*]; done) | (simp [*, keeps_foldl]; done) | intro y t x | split | rw [keeps_foldl] | rw [keeps_foldl_fst] | simp)

@[simp] theorem keeps_clearIde (z : State) (s : State) (l : Nat) :
    Keeps z (State.clearIde s l) ↔ Keeps z s := by
  unfold State.clearIde; simp

@[simp] theorem keeps_clearPtm (z : State) (s : State) (l : Nat) :
    Keeps z (State.clearPtm s l) ↔ Keeps z s := by
  unfold State.clearPtm; simp

@[simp] theorem keeps_readLost (z : State) (s : State) (r : HostRead) :
    Keeps z (State.readLost s r) ↔ Keeps z s := by
  unfold State.readLost; repeat' split
  all_goals simp_all

@[simp] theorem keeps_voidReads (z : State) (s : State) (l : Nat) (p : HostRead → Bool) :
    Keeps z (State.voidReads s l p) ↔ Keeps z s := by
  unfold State.voidReads; dsimp only; rw [keeps_foldl]
  · repeat' split
    all_goals simp [*]
  · intro y t x
    repeat' split
    all_goals simp [*]

@[simp] theorem keeps_resetLink (z : State) (s : State) (l : Nat) (fundamental : Bool) (lane : Nat) :
    Keeps z (State.resetLink s l fundamental lane) ↔ Keeps z s := by
  unfold State.resetLink; repeat' (first | (simp [*]; done) | (simp [*, keeps_foldl]; done) | intro y t x | split | rw [keeps_foldl] | rw [keeps_foldl_fst] | simp)

@[simp] theorem keeps_startFlr (z : State) (s : State) (f : Nat) :
    Keeps z (State.startFlr s f) ↔ Keeps z s := by
  unfold State.startFlr; simp

@[simp] theorem keeps_endFlr (z : State) (s : State) (l : Nat) (fns : List Nat) :
    Keeps z (State.endFlr s l fns) ↔ Keeps z s := by
  unfold State.endFlr; repeat' (first | (simp [*]; done) | (simp [*, keeps_foldl]; done) | intro y t x | split | rw [keeps_foldl] | rw [keeps_foldl_fst] | simp)

@[simp] theorem keeps_bmeHalt (z : State) (s : State) (f g : Nat) :
    Keeps z (State.bmeHalt s f g) ↔ Keeps z s := by
  unfold State.bmeHalt; dsimp only; repeat' split
  all_goals simp [*]

@[simp] theorem keeps_readFails (z : State) (s : State) (r : HostRead) (e : AerError) :
    Keeps z (State.readFails s r e) ↔ Keeps z s := by
  unfold State.readFails; repeat' split
  all_goals simp_all

@[simp] theorem keeps_readEnds (z : State) (s : State) (r : HostRead) :
    Keeps z (State.readEnds s r) ↔ Keeps z s := by
  unfold State.readEnds; repeat' split
  all_goals simp_all

@[simp] theorem keeps_dropRead (z : State) (s : State) (l tag : Nat) :
    Keeps z (State.dropRead s l tag) ↔ Keeps z s := by
  unfold State.dropRead; simp

@[simp] theorem keeps_afterRead (z : State) (s : State) (f : Nat) :
    Keeps z (State.afterRead s f) ↔ Keeps z s := by
  unfold State.afterRead; simp

/-! ## SecOps -/

@[simp] theorem keeps_extend (z : State) (s : State) (n : Nat) (value : List Byte) :
    Keeps z (State.extend s n value) ↔ Keeps z s := by
  unfold State.extend; repeat' (first | (simp [*]; done) | (simp [*, keeps_foldl]; done) | intro y t x | split | rw [keeps_foldl] | rw [keeps_foldl_fst] | simp)

@[simp] theorem keeps_extendMode (z : State) (s : State) :
    Keeps z (State.extendMode s) ↔ Keeps z s := by
  unfold State.extendMode; simp

@[simp] theorem keeps_bootMeasures (z : State) (s : State) (config : Option (List Word)) :
    Keeps z (State.bootMeasures s config) ↔ Keeps z s := by
  unfold State.bootMeasures; repeat' split
  all_goals simp_all

@[simp] theorem keeps_runImage (z : State) (s : State) (img : List Byte) (source : Nat) :
    Keeps z (State.runImage s img source) ↔ Keeps z s := by
  unfold State.runImage; simp

@[simp] theorem keeps_eraseKeys (z : State) (s : State) :
    Keeps z (State.eraseKeys s) ↔ Keeps z s := by
  unfold State.eraseKeys; simp

@[simp] theorem keeps_keyEnds (z : State) (s : State) (result : Nat) :
    Keeps z (State.keyEnds s result) ↔ Keeps z s := by
  unfold State.keyEnds; repeat' (first | (simp [*]; done) | (simp [*, keeps_foldl]; done) | intro y t x | split | rw [keeps_foldl] | rw [keeps_foldl_fst] | simp)

@[simp] theorem keeps_storeKey (z : State) (s : State) (i : Nat) (k : KeyEntry) :
    Keeps z (State.storeKey s i k) ↔ Keeps z s := by
  unfold State.storeKey; simp

@[simp] theorem keeps_keyLoad (z : State) (s : State) (w : Word) :
    Keeps z (State.keyLoad s w) ↔ Keeps z s := by
  unfold State.keyLoad; simp

@[simp] theorem keeps_keyImport (z : State) (s : State) (w : Word) :
    Keeps z (State.keyImport s w) ↔ Keeps z s := by
  unfold State.keyImport; dsimp only; repeat' split
  all_goals simp [*]

@[simp] theorem keeps_keyDelete (z : State) (s : State) (w : Word) :
    Keeps z (State.keyDelete s w) ↔ Keeps z s := by
  unfold State.keyDelete; simp

@[simp] theorem keeps_keyQuery (z : State) (s : State) (w : Word) :
    Keeps z (State.keyQuery s w) ↔ Keeps z s := by
  unfold State.keyQuery; dsimp only; repeat' split
  all_goals simp [*]

@[simp] theorem keeps_keyCommand (z : State) (s : State) (w : Word) :
    Keeps z (State.keyCommand s w) ↔ Keeps z s := by
  unfold State.keyCommand; repeat' split
  all_goals simp_all

/-! ## ModeOps -/

@[simp] theorem keeps_beginTransition (z : State) (s : State) (t : Nat) (auto : Bool) (rank : Nat) (init : Nat) :
    Keeps z (State.beginTransition s t auto rank init) ↔ Keeps z s := by
  unfold State.beginTransition; simp

@[simp] theorem keeps_refuseMode (z : State) (s : State) (init : Nat) :
    Keeps z (State.refuseMode s init) ↔ Keeps z s := by
  unfold State.refuseMode; simp

@[simp] theorem keeps_securityTrigger (z : State) (s : State) (k : Nat) :
    Keeps z (State.securityTrigger s k) ↔ Keeps z s := by
  unfold State.securityTrigger; simp

@[simp] theorem keeps_endDrain (z : State) (s : State) :
    Keeps z (State.endDrain s) ↔ Keeps z s := by
  unfold State.endDrain; simp

@[simp] theorem keeps_writeMode (z : State) (s : State) (init : Nat) (w : Word) :
    Keeps z (State.writeMode s init w) ↔ Keeps z s := by
  unfold State.writeMode; simp

@[simp] theorem keeps_watchIdle (z : State) (s : State) :
    Keeps z (State.watchIdle s) ↔ Keeps z s := by
  unfold State.watchIdle; simp

@[simp] theorem keeps_loadLinks (z : State) (s : State) (config : Option (List Word)) :
    Keeps z (State.loadLinks s config) ↔ Keeps z s := by
  unfold State.loadLinks; repeat' (first | (simp [*]; done) | intro y t x | split | rw [keeps_foldl] | rw [keeps_foldl_fst])

@[simp] theorem keeps_bootPort (z : State) (s : State) (p : Nat) :
    Keeps z (State.bootPort s p) ↔ Keeps z s := by
  unfold State.bootPort; simp

@[simp] theorem keeps_bootPath (z : State) (s : State) (n : Nat) :
    Keeps z (State.bootPath s n) ↔ Keeps z s := by
  unfold State.bootPath; simp

@[simp] theorem keeps_mapDest (z : State) (s : State) (i g : Nat) :
    Keeps z (State.mapDest s i g) ↔ Keeps z s := by
  unfold State.mapDest; simp

@[simp] theorem keeps_bootLink (z : State) (s : State) (l : Nat) :
    Keeps z (State.bootLink s l) ↔ Keeps z s := by
  unfold State.bootLink; repeat' (first | (simp [*]; done) | intro y t x | split | rw [keeps_foldl] | rw [keeps_foldl_fst])

@[simp] theorem keeps_bootTables (z : State) (s : State) :
    Keeps z (State.bootTables s) ↔ Keeps z s := by
  unfold State.bootTables; repeat' (first | (simp [*]; done) | (simp [*, keeps_foldl]; done) | intro y t x | split | rw [keeps_foldl] | rw [keeps_foldl_fst] | simp)

@[simp] theorem keeps_bootPipe (z : State) (s : State) (p : Nat) :
    Keeps z (State.bootPipe s p) ↔ Keeps z s := by
  unfold State.bootPipe; simp

@[simp] theorem keeps_bootSetup (z : State) (s : State) :
    Keeps z (State.bootSetup s) ↔ Keeps z s := by
  unfold State.bootSetup; repeat' (first | (simp [*]; done) | (simp [*, keeps_foldl]; done) | intro y t x | split | rw [keeps_foldl] | rw [keeps_foldl_fst] | simp)

@[simp] theorem keeps_modeDomains (z : State) (s : State) (m : Nat) :
    Keeps z (State.modeDomains s m) ↔ Keeps z s := by
  unfold State.modeDomains; simp

@[simp] theorem keeps_wakeHeld (z : State) (s : State) :
    Keeps z (State.wakeHeld s) ↔ Keeps z s := by
  unfold State.wakeHeld; repeat' (first | (simp [*]; done) | intro y t x | split | rw [keeps_foldl] | rw [keeps_foldl_fst])

@[simp] theorem keeps_dropHolds (z : State) (s : State) :
    Keeps z (State.dropHolds s) ↔ Keeps z s := by
  unfold State.dropHolds; repeat' (first | (simp [*]; done) | intro y t x | split | rw [keeps_foldl] | rw [keeps_foldl_fst])

@[simp] theorem keeps_enterMidnight (z : State) (s : State) :
    Keeps z (State.enterMidnight s) ↔ Keeps z s := by
  unfold State.enterMidnight; repeat' (first | (simp [*]; done) | (simp [*, keeps_foldl]; done) | intro y t x | split | rw [keeps_foldl] | rw [keeps_foldl_fst] | simp)

@[simp] theorem keeps_trainLinks (z : State) (s : State) :
    Keeps z (State.trainLinks s) ↔ Keeps z s := by
  unfold State.trainLinks; rw [keeps_foldl]
  intro y t x
  repeat' split
  all_goals simp [*]

@[simp] theorem keeps_thawReorder (z : State) (s : State) :
    Keeps z (State.thawReorder s) ↔ Keeps z s := by
  unfold State.thawReorder; repeat' (first | (simp [*]; done) | intro y t x | split | rw [keeps_foldl] | rw [keeps_foldl_fst])

@[simp] theorem keeps_retrainLinks (z : State) (s : State) :
    Keeps z (State.retrainLinks s) ↔ Keeps z s := by
  unfold State.retrainLinks; repeat' (first | (simp [*]; done) | (simp [*, keeps_foldl]; done) | intro y t x | split | rw [keeps_foldl] | rw [keeps_foldl_fst] | simp)

@[simp] theorem keeps_leaveNight (z : State) (s : State) (config : Option (List Word)) :
    Keeps z (State.leaveNight s config) ↔ Keeps z s := by
  unfold State.leaveNight; repeat' (first | (simp [*]; done) | (simp [*, keeps_foldl]; done) | intro y t x | split | rw [keeps_foldl] | rw [keeps_foldl_fst] | simp)

@[simp] theorem keeps_enterMode (z : State) (s : State) (m : Nat) (config : Option (List Word)) :
    Keeps z (State.enterMode s m config) ↔ Keeps z s := by
  unfold State.enterMode; simp

@[simp] theorem keeps_completeTransition (z : State) (s : State) (config : Option (List Word)) :
    Keeps z (State.completeTransition s config) ↔ Keeps z s := by
  unfold State.completeTransition; simp

@[simp] theorem keeps_powerUp (z : State) (s : State) (straps : Nat) :
    Keeps z (State.powerUp s straps) ↔ Keeps z s := by
  unfold State.powerUp; simp

/-! ## RotOps -/

@[simp] theorem keeps_rotReply (z : State) (s : State) (r : Nat) (msg : List Word) (status : Nat) (body : List Byte) :
    Keeps z (State.rotReply s r msg status body) ↔ Keeps z s := by
  unfold State.rotReply; simp

@[simp] theorem keeps_rotNonce (z : State) (s : State) (r : Nat) (msg : List Word) :
    Keeps z (State.rotNonce s r msg) ↔ Keeps z s := by
  unfold State.rotNonce; dsimp only; repeat' split
  all_goals simp [*]

theorem keeps_signedEffect (z : State) (s : State) (c : List Byte) :
    ∀ u : State, (State.signedEffect s c) = some u → (Keeps z u ↔ Keeps z s) := by
  unfold State.signedEffect; repeat' split
  all_goals simp_all

@[simp] theorem keeps_rejectSigned (z : State) (s : State) (r : Nat) (msg : List Word) (status : Nat) :
    Keeps z (State.rejectSigned s r msg status) ↔ Keeps z s := by
  unfold State.rejectSigned; simp

@[simp] theorem keeps_rotSigned (z : State) (s : State) (r : Nat) (msg : List Word) :
    Keeps z (State.rotSigned s r msg) ↔ Keeps z s := by
  unfold State.rotSigned
  dsimp only
  repeat' split
  all_goals try simp
  rename_i h
  have key := keeps_signedEffect z _ _ _ h
  simpa using key

@[simp] theorem keeps_rotImage (z : State) (s : State) (r : Nat) (msg : List Word) :
    Keeps z (State.rotImage s r msg) ↔ Keeps z s := by
  unfold State.rotImage; simp

@[simp] theorem keeps_rotAdvance (z : State) (s : State) (r : Nat) (msg : List Word) :
    Keeps z (State.rotAdvance s r msg) ↔ Keeps z s := by
  unfold State.rotAdvance; simp

@[simp] theorem keeps_rotProgram (z : State) (s : State) (r : Nat) (msg : List Word) :
    Keeps z (State.rotProgram s r msg) ↔ Keeps z s := by
  unfold State.rotProgram; simp

@[simp] theorem keeps_rotRequest (z : State) (s : State) (r : Nat) (msg : List Word) :
    Keeps z (State.rotRequest s r msg) ↔ Keeps z s := by
  unfold State.rotRequest; repeat' split
  all_goals simp_all

@[simp] theorem keeps_secTake (z : State) (s : State) (m : Nat) :
    Keeps z (State.secTake s m) ↔ Keeps z s := by
  unfold State.secTake; repeat' split
  all_goals simp_all

@[simp] theorem keeps_secServe (z : State) (s : State) (m : Nat) :
    Keeps z (State.secServe s m) ↔ Keeps z s := by
  unfold State.secServe; rw [keeps_foldl]
  intro y t x
  repeat' split
  all_goals simp [*]

@[simp] theorem keeps_secArrive (z : State) (s : State) (r : Nat) (msg : List Word) :
    Keeps z (State.secArrive s r msg) ↔ Keeps z s := by
  unfold State.secArrive; simp

@[simp] theorem keeps_rollbackCommand (z : State) (s : State) (init : Nat) (w : Word) :
    Keeps z (State.rollbackCommand s init w) ↔ Keeps z s := by
  unfold State.rollbackCommand; simp

@[simp] theorem keeps_ideKm (z : State) (s : State) (l : Nat) (e : List Byte) :
    Keeps z (State.ideKm s l e) ↔ Keeps z s := by
  unfold State.ideKm; repeat' split
  all_goals simp_all

@[simp] theorem keeps_doeSpdm (z : State) (s : State) (f kind : Nat) (obj : List Byte) :
    Keeps z (State.doeSpdm s f kind obj) ↔ Keeps z s := by
  unfold State.doeSpdm; dsimp only; repeat' split
  all_goals simp [*]

@[simp] theorem keeps_doeObject (z : State) (s : State) (f : Nat) (obj : List Byte) :
    Keeps z (State.doeObject s f obj) ↔ Keeps z s := by
  unfold State.doeObject; repeat' split
  all_goals simp_all

end Sys2Proof.Machine
end

