-- ==== Sys2Proof/Laws/Keep7.lean ====
section
/-! SUPPORT. The operations of Control, Ethernet, Modes, HostLink keep the queue and the counters. -/
namespace Sys2Proof.Machine

/-! ## Control -/

@[simp] theorem keeps_execCcRun (z : State) (_req : Requester) (w : Word) (s : State) :
    KeepsOut z (execCcRun _req w s) s := by
  intro t h; unfold execCcRun at h; dsimp only at h; repeat' split at h
  all_goals first | (cases h; done) | (cases h; simp [*]; done) | (cases h; repeat' (first | (simp [*]; done) | intro y t x | split | rw [keeps_foldl] | rw [keeps_foldl_fst]))

@[simp] theorem keeps_execMtimerExpiry (z : State) (h : Fin 24) (s : State) :
    KeepsOut z (execMtimerExpiry h s) s := by
  intro t h; unfold execMtimerExpiry at h; repeat' split at h
  all_goals (simp only [done, carDone, Host.Outcome.next.injEq, reduceCtorEq] at h; subst h; simp [*])

@[simp] theorem keeps_postAt (z : State) (s : State) (p : MbxPlace) (w : Word) :
    Keeps z (State.postAt s p w) ↔ Keeps z s := by
  unfold State.postAt; repeat' split
  all_goals simp_all

@[simp] theorem keeps_popAt (z : State) (s : State) (p : MbxPlace) :
    Keeps z (State.popAt s p) ↔ Keeps z s := by
  unfold State.popAt; repeat' split
  all_goals simp_all

@[simp] theorem keeps_execPost (z : State) (_req : Requester) (place : MbxPlace) (w : Word) (s : State) :
    KeepsOut z (execPost _req place w s) s := by
  intro t h; unfold execPost at h; repeat' split at h
  all_goals (simp only [done, carDone, Host.Outcome.next.injEq, reduceCtorEq] at h; subst h; simp [*])

@[simp] theorem keeps_execPop (z : State) (_req : Requester) (place : MbxPlace) (_w : Word) (s : State) :
    KeepsOut z (execPop _req place _w s) s := by
  intro t h; unfold execPop at h; repeat' split at h
  all_goals (simp only [done, carDone, Host.Outcome.next.injEq, reduceCtorEq] at h; subst h; simp [*])

@[simp] theorem keeps_mgrReset (z : State) (s : State) :
    Keeps z (State.mgrReset s) ↔ Keeps z s := by
  unfold State.mgrReset; repeat' (first | (simp [*]; done) | (simp [*, keeps_foldl]; done) | intro y t x | split | rw [keeps_foldl] | rw [keeps_foldl_fst] | simp)

@[simp] theorem keeps_execMgrReset (z : State) (_req : Requester) (w : Word) (s : State) :
    KeepsOut z (execMgrReset _req w s) s := by
  intro t h; unfold execMgrReset at h; repeat' split at h
  all_goals (simp only [done, carDone, Host.Outcome.next.injEq, reduceCtorEq] at h; subst h; simp [*])

@[simp] theorem keeps_execMailboxTimeout (z : State) (m : Fin 2104) (toManager : Bool) (s : State) :
    KeepsOut z (execMailboxTimeout m toManager s) s := by
  intro t h; unfold execMailboxTimeout at h; repeat' split at h
  all_goals (simp only [done, carDone, Host.Outcome.next.injEq, reduceCtorEq] at h; subst h; simp [*])

@[simp] theorem keeps_execMbxChPost (z : State) (place : Nat) (s : State) :
    KeepsOut z (execMbxChPost place s) s := by
  intro t h; unfold execMbxChPost at h; repeat' split at h
  all_goals (simp only [done, carDone, Host.Outcome.next.injEq, reduceCtorEq] at h; subst h; simp [*])

@[simp] theorem keeps_execMbxChRead (z : State) (place : Nat) (s : State) :
    KeepsOut z (execMbxChRead place s) s := by
  intro t h; unfold execMbxChRead at h; dsimp only at h; repeat' split at h
  all_goals (simp only [done, carDone, Host.Outcome.next.injEq, reduceCtorEq] at h; subst h; simp [*])

@[simp] theorem keeps_execMbxChStatus (z : State) (place : Nat) (s : State) :
    KeepsOut z (execMbxChStatus place s) s := by
  intro t h; unfold execMbxChStatus at h; repeat' split at h
  all_goals (simp only [done, carDone, Host.Outcome.next.injEq, reduceCtorEq] at h; subst h; simp [*])

/-! ## Ethernet -/

@[simp] theorem keeps_execPortCfgWrite (z : State) (_req : Requester) (p : Fin 32) (w : Word) (s : State) :
    KeepsOut z (execPortCfgWrite _req p w s) s := by
  intro t h; unfold execPortCfgWrite at h; repeat' split at h
  all_goals (simp only [done, carDone, Host.Outcome.next.injEq, reduceCtorEq] at h; subst h; simp [*])

@[simp] theorem keeps_execPortEnable (z : State) (_req : Requester) (p : Fin 32) (w : Word) (s : State) :
    KeepsOut z (execPortEnable _req p w s) s := by
  intro t h; unfold execPortEnable at h; repeat' split at h
  all_goals (simp only [done, carDone, Host.Outcome.next.injEq, reduceCtorEq] at h; subst h; simp [*])

@[simp] theorem keeps_execTxOffWrite (z : State) (_req : Requester) (p : Fin 32) (w : Word) (s : State) :
    KeepsOut z (execTxOffWrite _req p w s) s := by
  intro t h; unfold execTxOffWrite at h; repeat' split at h
  all_goals (simp only [done, carDone, Host.Outcome.next.injEq, reduceCtorEq] at h; subst h; simp [*])

@[simp] theorem keeps_execRestart (z : State) (_req : Requester) (p : Fin 32) (w : Word) (s : State) :
    KeepsOut z (execRestart _req p w s) s := by
  intro t h; unfold execRestart at h; repeat' split at h
  all_goals (simp only [done, carDone, Host.Outcome.next.injEq, reduceCtorEq] at h; subst h; simp [*])

@[simp] theorem keeps_execLinkUp (z : State) (p : Fin 32) (s : State) :
    KeepsOut z (execLinkUp p s) s := by
  intro t h; unfold execLinkUp at h; dsimp only at h; repeat' split at h
  all_goals (simp only [done, carDone, Host.Outcome.next.injEq, reduceCtorEq] at h; subst h; repeat' (first | (simp [*]; done) | (simp [keeps_foldl]; done) | intro y t x | split | rw [keeps_foldl] | simp))

@[simp] theorem keeps_execLinkDown (z : State) (p : Fin 32) (cdrLoss : List Nat) (s : State) :
    KeepsOut z (execLinkDown p cdrLoss s) s := by
  intro t h; unfold execLinkDown at h; dsimp only at h; repeat' split at h
  all_goals (simp only [done, carDone, Host.Outcome.next.injEq, reduceCtorEq] at h; subst h; repeat' (first | (simp [*]; done) | (simp [keeps_foldl]; done) | intro y t x | split | rw [keeps_foldl] | simp))

@[simp] theorem keeps_execTsMeasureDone (z : State) (p : Fin 32) (tx rx : Int) (s : State) :
    KeepsOut z (execTsMeasureDone p tx rx s) s := by
  intro t h; unfold execTsMeasureDone at h; dsimp only at h; repeat' split at h
  all_goals (simp only [done, carDone, Host.Outcome.next.injEq, reduceCtorEq] at h; subst h; simp [*])

@[simp] theorem keeps_execFrameRx (z : State) (p : Fin 32) (frame : List Byte) (corrected : Nat) (badCode : Bool) (phase : Fin 128) (s : State) :
    KeepsOut z (execFrameRx p frame corrected badCode phase s) s := by
  intro t h; unfold execFrameRx at h; repeat' split at h
  all_goals (simp only [done, carDone, Host.Outcome.next.injEq, reduceCtorEq] at h; subst h; simp [*])

@[simp] theorem keeps_execXoffRepeat (z : State) (p : Fin 32) (prio : Option (Fin 8)) (s : State) :
    KeepsOut z (execXoffRepeat p prio s) s := by
  intro t h; unfold execXoffRepeat at h; dsimp only at h; repeat' split at h
  all_goals (simp only [done, carDone, Host.Outcome.next.injEq, reduceCtorEq] at h; subst h; simp [*])

@[simp] theorem keeps_execPauseFrameRx (z : State) (p : Fin 32) (quanta : BitVec 16) (s : State) :
    KeepsOut z (execPauseFrameRx p quanta s) s := by
  intro t h; unfold execPauseFrameRx at h; repeat' split at h
  all_goals (simp only [done, carDone, Host.Outcome.next.injEq, reduceCtorEq] at h; subst h; simp [*])

@[simp] theorem keeps_execPfcFrameRx (z : State) (p : Fin 32) (enable : BitVec 8) (quanta : List Nat) (s : State) :
    KeepsOut z (execPfcFrameRx p enable quanta s) s := by
  intro t h; unfold execPfcFrameRx at h; repeat' split at h
  all_goals (simp only [done, carDone, Host.Outcome.next.injEq, reduceCtorEq] at h; subst h; simp [*])

@[simp] theorem keeps_execPauseEnd (z : State) (p : Fin 32) (prio : Option (Fin 8)) (s : State) :
    KeepsOut z (execPauseEnd p prio s) s := by
  intro t h; unfold execPauseEnd at h; dsimp only at h; repeat' split at h
  all_goals (simp only [done, carDone, Host.Outcome.next.injEq, reduceCtorEq] at h; subst h; simp [*])

@[simp] theorem keeps_execFrameTx (z : State) (p : Fin 32) (phase : Fin 128) (s : State) :
    KeepsOut z (execFrameTx p phase s) s := by
  intro t h; unfold execFrameTx at h; dsimp only at h; repeat' split at h
  all_goals (simp only [done, carDone, Host.Outcome.next.injEq, reduceCtorEq] at h; subst h; simp [*])

@[simp] theorem keeps_execSynceClockFail (z : State) (s : State) :
    KeepsOut z (execSynceClockFail s) s := by
  simp [execSynceClockFail, done, keepsOut_next]

@[simp] theorem keeps_execSynceRestore (z : State) (s : State) :
    KeepsOut z (execSynceRestore s) s := by
  intro t h; unfold execSynceRestore at h; repeat' split at h
  all_goals (simp only [done, carDone, Host.Outcome.next.injEq, reduceCtorEq] at h; subst h; simp [*])

@[simp] theorem keeps_execRecoveredClockLock (z : State) (p : Fin 32) (s : State) :
    KeepsOut z (execRecoveredClockLock p s) s := by
  intro t h; unfold execRecoveredClockLock at h; repeat' split at h
  all_goals (simp only [done, carDone, Host.Outcome.next.injEq, reduceCtorEq] at h; subst h; simp [*])

/-! ## Modes -/

@[simp] theorem keeps_execReqDay (z : State) (req : Requester) (w : Word) (s : State) :
    KeepsOut z (execReqDay req w s) s := by
  intro t h; unfold execReqDay at h; repeat' split at h
  all_goals (simp only [done, carDone, Host.Outcome.next.injEq, reduceCtorEq] at h; subst h; simp [*])

@[simp] theorem keeps_execReqNoon (z : State) (req : Requester) (w : Word) (s : State) :
    KeepsOut z (execReqNoon req w s) s := by
  intro t h; unfold execReqNoon at h; repeat' split at h
  all_goals (simp only [done, carDone, Host.Outcome.next.injEq, reduceCtorEq] at h; subst h; simp [*])

@[simp] theorem keeps_execReqEvening (z : State) (req : Requester) (w : Word) (s : State) :
    KeepsOut z (execReqEvening req w s) s := by
  intro t h; unfold execReqEvening at h; repeat' split at h
  all_goals (simp only [done, carDone, Host.Outcome.next.injEq, reduceCtorEq] at h; subst h; simp [*])

@[simp] theorem keeps_execReqDusk (z : State) (req : Requester) (w : Word) (s : State) :
    KeepsOut z (execReqDusk req w s) s := by
  intro t h; unfold execReqDusk at h; repeat' split at h
  all_goals (simp only [done, carDone, Host.Outcome.next.injEq, reduceCtorEq] at h; subst h; simp [*])

@[simp] theorem keeps_execReqMidnight (z : State) (req : Requester) (w : Word) (s : State) :
    KeepsOut z (execReqMidnight req w s) s := by
  intro t h; unfold execReqMidnight at h; repeat' split at h
  all_goals (simp only [done, carDone, Host.Outcome.next.injEq, reduceCtorEq] at h; subst h; simp [*])

@[simp] theorem keeps_execForce (z : State) (req : Requester) (w : Word) (s : State) :
    KeepsOut z (execForce req w s) s := by
  intro t h; unfold execForce at h; repeat' split at h
  all_goals (simp only [done, carDone, Host.Outcome.next.injEq, reduceCtorEq] at h; subst h; simp [*])

@[simp] theorem keeps_execTransitionComplete (z : State) (record : Option (List Word)) (s : State) :
    KeepsOut z (execTransitionComplete record s) s := by
  simp [execTransitionComplete, done, keepsOut_next]

@[simp] theorem keeps_execDuskDrainEnd (z : State) (s : State) :
    KeepsOut z (execDuskDrainEnd s) s := by
  intro t h; unfold execDuskDrainEnd at h; repeat' split at h
  all_goals (simp only [done, carDone, Host.Outcome.next.injEq, reduceCtorEq] at h; subst h; simp [*])

@[simp] theorem keeps_execDuskDrainTimeout (z : State) (s : State) :
    KeepsOut z (execDuskDrainTimeout s) s := by
  intro t h; unfold execDuskDrainTimeout at h; repeat' split at h
  all_goals (simp only [done, carDone, Host.Outcome.next.injEq, reduceCtorEq] at h; subst h; simp [*])

@[simp] theorem keeps_execAutoEveningEntry (z : State) (s : State) :
    KeepsOut z (execAutoEveningEntry s) s := by
  intro t h; unfold execAutoEveningEntry at h; repeat' split at h
  all_goals (simp only [done, carDone, Host.Outcome.next.injEq, reduceCtorEq] at h; subst h; simp [*])

@[simp] theorem keeps_execAutoEveningReturn (z : State) (s : State) :
    KeepsOut z (execAutoEveningReturn s) s := by
  intro t h; unfold execAutoEveningReturn at h; repeat' split at h
  all_goals (simp only [done, carDone, Host.Outcome.next.injEq, reduceCtorEq] at h; subst h; simp [*])

@[simp] theorem keeps_execEveningCtlWrite (z : State) (req : Requester) (w : Word) (s : State) :
    KeepsOut z (execEveningCtlWrite req w s) s := by
  intro t h; unfold execEveningCtlWrite at h; repeat' split at h
  all_goals (simp only [done, carDone, Host.Outcome.next.injEq, reduceCtorEq] at h; subst h; simp [*])

@[simp] theorem keeps_execDomainWake (z : State) (dom : Fin 48) (s : State) :
    KeepsOut z (execDomainWake dom s) s := by
  simp [execDomainWake, done, keepsOut_next]

@[simp] theorem keeps_execDomainGate (z : State) (dom : Fin 48) (s : State) :
    KeepsOut z (execDomainGate dom s) s := by
  intro t h; unfold execDomainGate at h; repeat' split at h
  all_goals (simp only [done, carDone, Host.Outcome.next.injEq, reduceCtorEq] at h; subst h; simp [*])

@[simp] theorem keeps_execSagBegin (z : State) (rail : Fin 8) (upper : Bool) (uv : Nat) (s : State) :
    KeepsOut z (execSagBegin rail upper uv s) s := by
  intro t h; unfold execSagBegin at h; repeat' split at h
  all_goals (simp only [done, carDone, Host.Outcome.next.injEq, reduceCtorEq] at h; subst h; simp [*])

@[simp] theorem keeps_execSagEnd (z : State) (rail : Fin 8) (upper : Bool) (uv ns : Nat) (s : State) :
    KeepsOut z (execSagEnd rail upper uv ns s) s := by
  unfold execSagEnd
  dsimp only
  repeat' split
  all_goals simp [done]

@[simp] theorem keeps_execPllLockLost (z : State) (pll : Pll) (s : State) :
    KeepsOut z (execPllLockLost pll s) s := by
  intro t h; unfold execPllLockLost at h; repeat' split at h
  all_goals (simp only [done, carDone, Host.Outcome.next.injEq, reduceCtorEq] at h; subst h; simp [*])

@[simp] theorem keeps_execPllRelock (z : State) (pll : Pll) (s : State) :
    KeepsOut z (execPllRelock pll s) s := by
  intro t h; unfold execPllRelock at h; repeat' split at h
  all_goals (simp only [done, carDone, Host.Outcome.next.injEq, reduceCtorEq] at h; subst h; simp [*])

@[simp] theorem keeps_execThermalThrottle (z : State) (tj : BitVec 16) (s : State) :
    KeepsOut z (execThermalThrottle tj s) s := by
  intro t h; unfold execThermalThrottle at h; repeat' split at h
  all_goals (simp only [done, carDone, Host.Outcome.next.injEq, reduceCtorEq] at h; subst h; simp [*])

@[simp] theorem keeps_execThrottleRelease (z : State) (tj : BitVec 16) (s : State) :
    KeepsOut z (execThrottleRelease tj s) s := by
  simp [execThrottleRelease, done, keepsOut_next]

@[simp] theorem keeps_execThermalShutdown (z : State) (tj : BitVec 16) (s : State) :
    KeepsOut z (execThermalShutdown tj s) s := by
  intro t h; unfold execThermalShutdown at h; repeat' split at h
  all_goals (simp only [done, carDone, Host.Outcome.next.injEq, reduceCtorEq] at h; subst h; simp [*])

@[simp] theorem keeps_railFalls (z : State) (s : State) (r : Nat) :
    Keeps z (State.railFalls s r) ↔ Keeps z s := by
  unfold State.railFalls; simp

@[simp] theorem keeps_execSupplyReset (z : State) (rail : Fin 8) (upper : Bool) (uv : Nat) (s : State) :
    KeepsOut z (execSupplyReset rail upper uv s) s := by
  intro t h; unfold execSupplyReset at h; repeat' split at h
  all_goals (simp only [done, carDone, Host.Outcome.next.injEq, reduceCtorEq] at h; subst h; simp [*])

@[simp] theorem keeps_endHold (z : State) (s : State) (straps : Nat) :
    Keeps z (State.endHold s straps) ↔ Keeps z s := by
  unfold State.endHold; simp

@[simp] theorem keeps_execPorAssert (z : State) (s : State) :
    KeepsOut z (execPorAssert s) s := by
  intro t h; unfold execPorAssert at h; repeat' split at h
  all_goals (simp only [done, carDone, Host.Outcome.next.injEq, reduceCtorEq] at h; subst h; simp [*])

@[simp] theorem keeps_execPorDeassert (z : State) (straps : BitVec 9) (s : State) :
    KeepsOut z (execPorDeassert straps s) s := by
  intro t h; unfold execPorDeassert at h; repeat' split at h
  all_goals (simp only [done, carDone, Host.Outcome.next.injEq, reduceCtorEq] at h; subst h; simp [*])

@[simp] theorem keeps_execRailRecovery (z : State) (rail : Fin 8) (upper : Bool) (uv : Nat) (straps : BitVec 9) (s : State) :
    KeepsOut z (execRailRecovery rail upper uv straps s) s := by
  intro t h; unfold execRailRecovery at h; dsimp only at h; repeat' split at h
  all_goals (simp only [done, carDone, Host.Outcome.next.injEq, reduceCtorEq] at h; subst h; simp [*])

@[simp] theorem keeps_execManagerReset (z : State) (req : Requester) (w : Word) (s : State) :
    KeepsOut z (execManagerReset req w s) s := by
  intro t h; unfold execManagerReset at h; repeat' split at h
  all_goals (simp only [done, carDone, Host.Outcome.next.injEq, reduceCtorEq] at h; subst h; simp [*])

@[simp] theorem keeps_kick (z : State) (s : State) :
    Keeps z (State.kick s) ↔ Keeps z s := by
  unfold State.kick; simp

@[simp] theorem keeps_execWdogKick (z : State) (_req : Requester) (_w : Word) (s : State) :
    KeepsOut z (execWdogKick _req _w s) s := by
  intro t h; unfold execWdogKick at h; repeat' split at h
  all_goals (simp only [done, carDone, Host.Outcome.next.injEq, reduceCtorEq] at h; subst h; simp [*])

@[simp] theorem keeps_execWdogFirstExpiry (z : State) (s : State) :
    KeepsOut z (execWdogFirstExpiry s) s := by
  intro t h; unfold execWdogFirstExpiry at h; repeat' split at h
  all_goals (simp only [done, carDone, Host.Outcome.next.injEq, reduceCtorEq] at h; subst h; simp [*])

@[simp] theorem keeps_execWdogSecondExpiry (z : State) (s : State) :
    KeepsOut z (execWdogSecondExpiry s) s := by
  intro t h; unfold execWdogSecondExpiry at h; repeat' split at h
  all_goals (simp only [done, carDone, Host.Outcome.next.injEq, reduceCtorEq] at h; subst h; simp [*])

/-! ## HostLink -/

@[simp] theorem keeps_execPerstAssert (z : State) (l : Fin 16) (s : State) :
    KeepsOut z (execPerstAssert l s) s := by
  intro t h; unfold execPerstAssert at h; dsimp only at h; repeat' split at h
  all_goals (simp only [done, carDone, Host.Outcome.next.injEq, reduceCtorEq] at h; subst h; simp [*])

@[simp] theorem keeps_execPerstDeassert (z : State) (l : Fin 16) (s : State) :
    KeepsOut z (execPerstDeassert l s) s := by
  simp [execPerstDeassert, done, keepsOut_next]

@[simp] theorem keeps_execHostLinkUp (z : State) (l : Fin 16) (speed lanes : Nat) (flit reversed : Bool) (s : State) :
    KeepsOut z (execHostLinkUp l speed lanes flit reversed s) s := by
  intro t h; unfold execHostLinkUp at h; repeat' split at h
  all_goals (simp only [done, carDone, Host.Outcome.next.injEq, reduceCtorEq] at h; subst h; simp [*])

@[simp] theorem keeps_testLane (z : State) (s : State) (l : Nat) (lane : Option (Fin 64)) :
    Keeps z (State.testLane s l lane) ↔ Keeps z s := by
  unfold State.testLane; repeat' split
  all_goals simp_all

@[simp] theorem keeps_execHostLinkDown (z : State) (l : Fin 16) (lane : Option (Fin 64)) (s : State) :
    KeepsOut z (execHostLinkDown l lane s) s := by
  intro t h; unfold execHostLinkDown at h; repeat' split at h
  all_goals (simp only [done, carDone, Host.Outcome.next.injEq, reduceCtorEq] at h; subst h; simp [*])

@[simp] theorem keeps_flitError (z : State) (s : State) (l : Nat) (e : LinkError) :
    Keeps z (State.flitError s l e) ↔ Keeps z s := by
  unfold State.flitError; repeat' split
  all_goals simp_all

@[simp] theorem keeps_execHostLinkRecovery (z : State) (l : Fin 16) (error : LinkError) (lane : Option (Fin 64)) (s : State) :
    KeepsOut z (execHostLinkRecovery l error lane s) s := by
  intro t h; unfold execHostLinkRecovery at h; repeat' split at h
  all_goals (simp only [done, carDone, Host.Outcome.next.injEq, reduceCtorEq] at h; subst h; simp [*])

@[simp] theorem keeps_execPfFlr (z : State) (f : Fin 2080) (s : State) : KeepsOut z (execPfFlr f s) s := by
  unfold execPfFlr
  split
  · simp
  · simp only [done, keepsOut_next, keeps_settle]
    rw [keeps_foldl]
    · simp
    · intro y t x
      simp

@[simp] theorem keeps_execVfFlr (z : State) (f : Fin 2080) (s : State) :
    KeepsOut z (execVfFlr f s) s := by
  intro t h; unfold execVfFlr at h; repeat' split at h
  all_goals (simp only [done, carDone, Host.Outcome.next.injEq, reduceCtorEq] at h; subst h; simp [*])

@[simp] theorem keeps_execFlrComplete (z : State) (f : Fin 2080) (s : State) :
    KeepsOut z (execFlrComplete f s) s := by
  intro t h; unfold execFlrComplete at h; dsimp only at h; repeat' split at h
  all_goals (simp only [done, carDone, Host.Outcome.next.injEq, reduceCtorEq] at h; subst h; simp [*])

@[simp] theorem keeps_execVfEnable (z : State) (pf : Fin 32) (numVfs : Nat) (s : State) :
    KeepsOut z (execVfEnable pf numVfs s) s := by
  intro t h; unfold execVfEnable at h; dsimp only at h; repeat' split at h
  all_goals (simp only [done, carDone, Host.Outcome.next.injEq, reduceCtorEq] at h; subst h; simp [*])

@[simp] theorem keeps_execVfDisable (z : State) (pf : Fin 32) (numVfs : Nat) (s : State) :
    KeepsOut z (execVfDisable pf numVfs s) s := by
  intro t h; unfold execVfDisable at h; dsimp only at h; repeat' split at h
  all_goals (simp only [done, carDone, Host.Outcome.next.injEq, reduceCtorEq] at h; subst h; repeat' (first | (simp [*]; done) | (simp [keeps_foldl]; done) | intro y t x | split | rw [keeps_foldl] | simp))

@[simp] theorem keeps_execBmeClear (z : State) (f : Fin 2080) (s : State) :
    KeepsOut z (execBmeClear f s) s := by
  intro t h; unfold execBmeClear at h; dsimp only at h; repeat' split at h
  all_goals (simp only [done, carDone, Host.Outcome.next.injEq, reduceCtorEq] at h; subst h; repeat' (first | (simp [*]; done) | (simp [keeps_foldl]; done) | intro y t x | split | rw [keeps_foldl] | simp))

@[simp] theorem keeps_sendPending (z : State) (s : State) (f : Nat) :
    Keeps z (State.sendPending s f) ↔ Keeps z s := by
  unfold State.sendPending; rw [keeps_foldl]
  intro y t x
  repeat' split
  all_goals simp [*]

@[simp] theorem keeps_execHostConfigWrite (z : State) (f : Fin 2080) (item : ConfigItem) (s : State) :
    KeepsOut z (execHostConfigWrite f item s) s := by
  intro t h; unfold execHostConfigWrite at h; repeat' split at h
  all_goals (simp only [done, carDone, Host.Outcome.next.injEq, reduceCtorEq] at h; subst h; simp [*])

@[simp] theorem keeps_execCompletionTimeout (z : State) (l : Fin 16) (tag : Nat) (s : State) :
    KeepsOut z (execCompletionTimeout l tag s) s := by
  intro t h; unfold execCompletionTimeout at h; repeat' split at h
  all_goals (simp only [done, carDone, Host.Outcome.next.injEq, reduceCtorEq] at h; subst h; simp [*])

@[simp] theorem keeps_execCompletionRx (z : State) (l : Fin 16) (tag : Nat) (status : CplStatus) (s : State) :
    KeepsOut z (execCompletionRx l tag status s) s := by
  intro t h; unfold execCompletionRx at h; repeat' split at h
  all_goals (simp only [done, carDone, Host.Outcome.next.injEq, reduceCtorEq] at h; subst h; simp [*])

@[simp] theorem keeps_execVoidTagReuse (z : State) (l : Fin 16) (tag : Nat) (s : State) :
    KeepsOut z (execVoidTagReuse l tag s) s := by
  intro t h; unfold execVoidTagReuse at h; repeat' split at h
  all_goals (simp only [done, carDone, Host.Outcome.next.injEq, reduceCtorEq] at h; subst h; simp [*])

@[simp] theorem keeps_execIdeCheckFail (z : State) (l : Fin 16) (slot : Fin 4) (s : State) :
    KeepsOut z (execIdeCheckFail l slot s) s := by
  intro t h; unfold execIdeCheckFail at h; repeat' split at h
  all_goals (simp only [done, carDone, Host.Outcome.next.injEq, reduceCtorEq] at h; subst h; simp [*])

end Sys2Proof.Machine
end

