-- ==== Sys2Proof/Laws/Keep8.lean ====
section
/-! SUPPORT. The operations of Lookaside, Faults, Ptp, Security keep the queue and the counters. -/
namespace Sys2Proof.Machine

/-! ## Lookaside -/

@[simp] theorem keeps_execGcmEnc (z : State) (place : Nat) (s : State) :
    KeepsOut z (execGcmEnc place s) s := by
  simp [execGcmEnc, done, keepsOut_next]

@[simp] theorem keeps_execGcmDec (z : State) (place : Nat) (s : State) :
    KeepsOut z (execGcmDec place s) s := by
  simp [execGcmDec, done, keepsOut_next]

@[simp] theorem keeps_execXtsEnc (z : State) (place : Nat) (s : State) :
    KeepsOut z (execXtsEnc place s) s := by
  simp [execXtsEnc, done, keepsOut_next]

@[simp] theorem keeps_execXtsDec (z : State) (place : Nat) (s : State) :
    KeepsOut z (execXtsDec place s) s := by
  simp [execXtsDec, done, keepsOut_next]

@[simp] theorem keeps_execCmac (z : State) (place : Nat) (s : State) :
    KeepsOut z (execCmac place s) s := by
  simp [execCmac, done, keepsOut_next]

@[simp] theorem keeps_execCryptoHash (z : State) (place : Nat) (s : State) :
    KeepsOut z (execCryptoHash place s) s := by
  simp [execCryptoHash, done, keepsOut_next]

@[simp] theorem keeps_execHmac (z : State) (place : Nat) (s : State) :
    KeepsOut z (execHmac place s) s := by
  simp [execHmac, done, keepsOut_next]

@[simp] theorem keeps_execCryptoComplete (z : State) (core : Fin 128) (reply : CplStatus) (s : State) :
    KeepsOut z (execCryptoComplete core reply s) s := by
  intro t h; unfold execCryptoComplete at h; repeat' split at h
  all_goals (simp only [done, carDone, Host.Outcome.next.injEq, reduceCtorEq] at h; subst h; simp [*])

@[simp] theorem keeps_execKeyUnwrap (z : State) (index : Fin 1048576) (s : State) :
    KeepsOut z (execKeyUnwrap index s) s := by
  simp [execKeyUnwrap, done, keepsOut_next]

@[simp] theorem keeps_execCipherParityFault (z : State) (core : Fin 128) (s : State) :
    KeepsOut z (execCipherParityFault core s) s := by
  simp [execCipherParityFault, done, keepsOut_next]

@[simp] theorem keeps_execInlineParityFault (z : State) (unit : Fin 24) (core : Nat) (s : State) :
    KeepsOut z (execInlineParityFault unit core s) s := by
  intro t h; unfold execInlineParityFault at h; repeat' split at h
  all_goals (simp only [done, carDone, Host.Outcome.next.injEq, reduceCtorEq] at h; subst h; simp [*])

@[simp] theorem keeps_execZstdC (z : State) (place : Nat) (s : State) :
    KeepsOut z (execZstdC place s) s := by
  simp [execZstdC, done, keepsOut_next]

@[simp] theorem keeps_execZstdD (z : State) (place : Nat) (s : State) :
    KeepsOut z (execZstdD place s) s := by
  simp [execZstdD, done, keepsOut_next]

@[simp] theorem keeps_execDeflC (z : State) (place : Nat) (s : State) :
    KeepsOut z (execDeflC place s) s := by
  simp [execDeflC, done, keepsOut_next]

@[simp] theorem keeps_execDeflD (z : State) (place : Nat) (s : State) :
    KeepsOut z (execDeflD place s) s := by
  simp [execDeflD, done, keepsOut_next]

@[simp] theorem keeps_execCmpComplete (z : State) (unit : Fin 16) (reply : CplStatus) (s : State) :
    KeepsOut z (execCmpComplete unit reply s) s := by
  intro t h; unfold execCmpComplete at h; repeat' split at h
  all_goals (simp only [done, carDone, Host.Outcome.next.injEq, reduceCtorEq] at h; subst h; simp [*])

/-! ## Faults -/

@[simp] theorem keeps_execInject (z : State) (req : Requester) (w : Word) (s : State) :
    KeepsOut z (execInject req w s) s := by
  intro t h; unfold execInject at h; repeat' split at h
  all_goals (simp only [done, carDone, Host.Outcome.next.injEq, reduceCtorEq] at h; subst h; simp [*])

@[simp] theorem keeps_writeGongCfg (z : State) (s : State) (w : Word) :
    Keeps z (State.writeGongCfg s w) ↔ Keeps z s := by
  unfold State.writeGongCfg; repeat' (first | (simp [*]; done) | intro y t x | split | rw [keeps_foldl] | rw [keeps_foldl_fst])

@[simp] theorem keeps_execClrCounts (z : State) (_req : Requester) (w : Word) (s : State) :
    KeepsOut z (execClrCounts _req w s) s := by
  intro t h; unfold execClrCounts at h; repeat' split at h
  all_goals (simp only [done, carDone, Host.Outcome.next.injEq, reduceCtorEq] at h; subst h; simp [*])

@[simp] theorem keeps_execSevWrite (z : State) (_req : Requester) (g : Fin 32) (w : Word) (s : State) :
    KeepsOut z (execSevWrite _req g w s) s := by
  intro t h; unfold execSevWrite at h; dsimp only at h; repeat' split at h
  all_goals (simp only [done, carDone, Host.Outcome.next.injEq, reduceCtorEq] at h; subst h; repeat' (first | (simp [*]; done) | (simp [keeps_foldl]; done) | intro y t x | split | rw [keeps_foldl] | simp))

@[simp] theorem keeps_testFires (z : State) (s : State) (g src : Nat) :
    Keeps z (State.testFires s g src) ↔ Keeps z s := by
  unfold State.testFires; simp

@[simp] theorem keeps_ddrSource (z : State) (s : State) (c k : Nat) (addr : Nat) :
    Keeps z (State.ddrSource s c k addr) ↔ Keeps z s := by
  unfold State.ddrSource; simp

@[simp] theorem keeps_retireInline (z : State) (s : State) (u core : Nat) :
    Keeps z (State.retireInline s u core) ↔ Keeps z s := by
  unfold State.retireInline; simp

@[simp] theorem keeps_retireUnit (z : State) (s : State) (kind unit : Nat) :
    Keeps z (State.retireUnit s kind unit) ↔ Keeps z s := by
  unfold State.retireUnit; repeat' (first | (simp [*]; done) | intro y t x | split | rw [keeps_foldl] | rw [keeps_foldl_fst])

@[simp] theorem keeps_logRetirement (z : State) (s : State) (kind unit : Nat) :
    Keeps z (State.logRetirement s kind unit) ↔ Keeps z s := by
  unfold State.logRetirement; repeat' split
  all_goals simp_all

@[simp] theorem keeps_lasting (z : State) (s : State) (u : TestUnit) :
    Keeps z (State.lasting s u) ↔ Keeps z s := by
  unfold State.lasting; simp

@[simp] theorem keeps_transientUnit (z : State) (s : State) (u : TestUnit) :
    Keeps z (State.transientUnit s u) ↔ Keeps z s := by
  unfold State.transientUnit; simp

@[simp] theorem keeps_nextTest (z : State) (s : State) (kind : Nat) :
    Keeps z (State.nextTest s kind) ↔ Keeps z s := by
  unfold State.nextTest; repeat' split
  all_goals simp_all

@[simp] theorem keeps_releaseDetect (z : State) (s : State) (lane : Nat) :
    Keeps z (State.releaseDetect s lane) ↔ Keeps z s := by
  unfold State.releaseDetect; repeat' split
  all_goals simp_all

@[simp] theorem keeps_execSelfTestDone (z : State) (kind : Fin 11) (unit : Nat) (pass : Bool) (s : State) :
    KeepsOut z (execSelfTestDone kind unit pass s) s := by
  intro t h; unfold execSelfTestDone at h; repeat' split at h
  all_goals (simp only [done, carDone, Host.Outcome.next.injEq, reduceCtorEq] at h; subst h; simp [*])

@[simp] theorem keeps_eccVictim (z : State) (s : State) (a1 : EccVictim) :
    Keeps z (State.eccVictim s a1) ↔ Keeps z s := by
  unfold State.eccVictim; repeat' split
  all_goals simp_all

@[simp] theorem keeps_sramFires (z : State) (s : State) (m : SramMemory) (addr : Nat) :
    Keeps z (State.sramFires s m addr) ↔ Keeps z s := by
  unfold State.sramFires; repeat' split
  all_goals simp_all

@[simp] theorem keeps_rowRecord (z : State) (s before : State) (m : SramMemory) (unit : Nat) :
    Keeps z (State.rowRecord s before m unit) ↔ Keeps z s := by
  unfold State.rowRecord; repeat' split
  all_goals simp_all

@[simp] theorem keeps_poison (z : State) (s : State) (kind unit : Nat) :
    Keeps z (State.poison s kind unit) ↔ Keeps z s := by
  unfold State.poison; simp

@[simp] theorem keeps_sramError (z : State) (s : State) (bank row : Nat) (m : SramMemory) (unc : Bool) (victim : EccVictim) :
    Keeps z (State.sramError s bank row m unc victim) ↔ Keeps z s := by
  unfold State.sramError; repeat' split
  all_goals simp_all

@[simp] theorem keeps_poisonedRead (z : State) (s : State) (unit : Nat) (m : SramMemory) (victim : EccVictim) :
    Keeps z (State.poisonedRead s unit m victim) ↔ Keeps z s := by
  unfold State.poisonedRead; simp

@[simp] theorem keeps_flowHalfLost (z : State) (s : State) (p pair : Nat) (bytes : Bool) :
    Keeps z (State.flowHalfLost s p pair bytes) ↔ Keeps z s := by
  unfold State.flowHalfLost; simp

@[simp] theorem keeps_execMemoryEccError (z : State) (err : EccError) (s : State) :
    KeepsOut z (execMemoryEccError err s) s := by
  intro t h; unfold execMemoryEccError at h; dsimp only at h; repeat' split at h
  all_goals (simp only [done, carDone, Host.Outcome.next.injEq, reduceCtorEq] at h; subst h; simp [*])

@[simp] theorem keeps_execStallDetect (z : State) (cls : Fin 4) (us : Nat) (s : State) :
    KeepsOut z (execStallDetect cls us s) s := by
  unfold execStallDetect; exact keepsOut_ite _ _ _ _ _ (by simp) (by simp [done])

@[simp] theorem keeps_execDramOverTemperature (z : State) (c : Fin 8) (s : State) :
    KeepsOut z (execDramOverTemperature c s) s := by
  unfold execDramOverTemperature; exact keepsOut_ite _ _ _ _ _ (by simp) (by simp [done])

@[simp] theorem keeps_execRef25InMissing (z : State) (s : State) :
    KeepsOut z (execRef25InMissing s) s := by
  simp [execRef25InMissing, done, keepsOut_next]

@[simp] theorem keeps_execPcieRefclkMissing (z : State) (n : Fin 4) (s : State) :
    KeepsOut z (execPcieRefclkMissing n s) s := by
  intro t h; unfold execPcieRefclkMissing at h; repeat' split at h
  all_goals (simp only [done, carDone, Host.Outcome.next.injEq, reduceCtorEq] at h; subst h; simp [*])

@[simp] theorem keeps_execSmbusBusError (z : State) (port : Fin 2) (s : State) :
    KeepsOut z (execSmbusBusError port s) s := by
  simp [execSmbusBusError, done, keepsOut_next]

@[simp] theorem keeps_execUartError (z : State) (s : State) :
    KeepsOut z (execUartError s) s := by
  simp [execUartError, done, keepsOut_next]

@[simp] theorem keeps_execAvsAck (z : State) (s : State) :
    KeepsOut z (execAvsAck s) s := by
  intro t h; unfold execAvsAck at h; repeat' split at h
  all_goals (simp only [done, carDone, Host.Outcome.next.injEq, reduceCtorEq] at h; subst h; simp [*])

@[simp] theorem keeps_execAvsAckTimeout (z : State) (s : State) :
    KeepsOut z (execAvsAckTimeout s) s := by
  intro t h; unfold execAvsAckTimeout at h; repeat' split at h
  all_goals (simp only [done, carDone, Host.Outcome.next.injEq, reduceCtorEq] at h; subst h; simp [*])

@[simp] theorem keeps_loadImage (z : State) (s : State) (a len r : Nat) :
    Keeps z (State.loadImage s a len r) ↔ Keeps z s := by
  unfold State.loadImage; repeat' (first | (simp [*]; done) | (simp [*, keeps_foldl]; done) | intro y t x | split | rw [keeps_foldl] | rw [keeps_foldl_fst] | simp)

@[simp] theorem keeps_execSnareLoad (z : State) (_req : Requester) (w : Word) (s : State) :
    KeepsOut z (execSnareLoad _req w s) s := by
  intro t h; unfold execSnareLoad at h; dsimp only at h; repeat' split at h
  all_goals (simp only [done, carDone, Host.Outcome.next.injEq, reduceCtorEq] at h; subst h; simp [*])

@[simp] theorem keeps_execSnareLoadDone (z : State) (s : State) :
    KeepsOut z (execSnareLoadDone s) s := by
  intro t h; unfold execSnareLoadDone at h; dsimp only at h; repeat' split at h
  all_goals (simp only [done, carDone, Host.Outcome.next.injEq, reduceCtorEq] at h; subst h; simp [*])

/-! ## Ptp -/

@[simp] theorem keeps_takeAnnounce (z : State) (s : State) (p : Nat) (h : PtpHeader) (peer : PtpPeer) (m : List Byte) :
    Keeps z (State.takeAnnounce s p h peer m) ↔ Keeps z s := by
  unfold State.takeAnnounce; repeat' (first | (simp [*]; done) | intro y t x | split | rw [keeps_foldl] | rw [keeps_foldl_fst])

@[simp] theorem keeps_takeOffset (z : State) (s : State) (p : Nat) (synce : Int) :
    Keeps z (State.takeOffset s p synce) ↔ Keeps z s := by
  unfold State.takeOffset; repeat' (first | (simp [*]; done) | (simp [*, keeps_foldl]; done) | intro y t x | split | rw [keeps_foldl] | rw [keeps_foldl_fst] | simp)

@[simp] theorem keeps_takeSync (z : State) (s : State) (p : Nat) (h : PtpHeader) (m : List Byte) (t : Int) (deg : Bool) (synce : Int) :
    Keeps z (State.takeSync s p h m t deg synce) ↔ Keeps z s := by
  unfold State.takeSync; simp

@[simp] theorem keeps_takeFollowUp (z : State) (s : State) (p : Nat) (h : PtpHeader) (m : List Byte) (synce : Int) :
    Keeps z (State.takeFollowUp s p h m synce) ↔ Keeps z s := by
  unfold State.takeFollowUp; dsimp only; repeat' split
  all_goals simp [*]

@[simp] theorem keeps_takeDelayResp (z : State) (s : State) (p : Nat) (h : PtpHeader) (m : List Byte) :
    Keeps z (State.takeDelayResp s p h m) ↔ Keeps z s := by
  unfold State.takeDelayResp; dsimp only; repeat' split
  all_goals simp [*]

@[simp] theorem keeps_takePdelayResp (z : State) (s : State) (p : Nat) (h : PtpHeader) (m : List Byte) (t : Int) (deg : Bool) :
    Keeps z (State.takePdelayResp s p h m t deg) ↔ Keeps z s := by
  unfold State.takePdelayResp; dsimp only; repeat' split
  all_goals simp [*]

@[simp] theorem keeps_takePdelayFollowUp (z : State) (s : State) (p : Nat) (h : PtpHeader) (m : List Byte) :
    Keeps z (State.takePdelayFollowUp s p h m) ↔ Keeps z s := by
  unfold State.takePdelayFollowUp; dsimp only; repeat' split
  all_goals simp [*]

@[simp] theorem keeps_ask (z : State) (s : State) (p : Nat) (r : PtpRequest) :
    Keeps z (State.ask s p r) ↔ Keeps z s := by
  unfold State.ask; simp

@[simp] theorem keeps_takePtp (z : State) (s : State) (p : Nat) (m : List Byte) (peer : PtpPeer) (t : Int) (deg : Bool) (synce : Int) :
    Keeps z (State.takePtp s p m peer t deg synce) ↔ Keeps z s := by
  unfold State.takePtp; dsimp only; repeat' split
  all_goals simp [*]

@[simp] theorem keeps_execPtpFrameRx (z : State) (p : Fin 32) (synce : Int) (s : State) :
    KeepsOut z (execPtpFrameRx p synce s) s := by
  intro t h; unfold execPtpFrameRx at h; dsimp only at h; repeat' split at h
  all_goals (simp only [done, carDone, Host.Outcome.next.injEq, reduceCtorEq] at h; subst h; simp [*])

@[simp] theorem keeps_execAnnounceTimeout (z : State) (n : Fin 8) (s : State) :
    KeepsOut z (execAnnounceTimeout n s) s := by
  intro t h; unfold execAnnounceTimeout at h; repeat' split at h
  all_goals (simp only [done, carDone, Host.Outcome.next.injEq, reduceCtorEq] at h; subst h; simp [*])

@[simp] theorem keeps_sendPtp (z : State) (s : State) (p kind : Nat) (dests : List PtpPeer) (m : List Byte) (phase : Nat) :
    Keeps z (State.sendPtp s p kind dests m phase) ↔ Keeps z s := by
  unfold State.sendPtp; dsimp only; rw [keeps_foldl]
  · repeat' split
    all_goals simp [*]
  · intro y t x
    repeat' split
    all_goals simp [*]

@[simp] theorem keeps_nextAsked (z : State) (s : State) (p : Nat) (kinds : List Nat) :
    ∀ u, State.nextAsked s p kinds = some u → (Keeps z u.2 ↔ Keeps z s) := by
  intro u h
  unfold State.nextAsked at h
  rw [Option.map_eq_some_iff] at h
  obtain ⟨r, -, rfl⟩ := h
  simp

@[simp] theorem keeps_sendAnnounce (z : State) (s : State) (p phase : Nat) :
    Keeps z (State.sendAnnounce s p phase) ↔ Keeps z s := by
  unfold State.sendAnnounce; simp

@[simp] theorem keeps_sendSync (z : State) (s : State) (p phase : Nat) :
    Keeps z (State.sendSync s p phase) ↔ Keeps z s := by
  unfold State.sendSync; simp

@[simp] theorem keeps_sendDelayReq (z : State) (s : State) (p kind : Nat) (dests : List PtpPeer) (phase : Nat) :
    Keeps z (State.sendDelayReq s p kind dests phase) ↔ Keeps z s := by
  unfold State.sendDelayReq; simp

@[simp] theorem keeps_sendAnswer (z : State) (s : State) (p kind flags : Nat) (r : PtpRequest) (at_ : Nat) (correction log : Int) (phase : Nat) :
    Keeps z (State.sendAnswer s p kind flags r at_ correction log phase) ↔ Keeps z s := by
  unfold State.sendAnswer; simp

@[simp] theorem keeps_sendPdelayResp (z : State) (s : State) (p : Nat) (r : PtpRequest) (phase : Nat) :
    Keeps z (State.sendPdelayResp s p r phase) ↔ Keeps z s := by
  unfold State.sendPdelayResp; simp

@[simp] theorem keeps_sendGrant (z : State) (s : State) (p : Nat) (r : PtpRequest) (phase : Nat) :
    Keeps z (State.sendGrant s p r phase) ↔ Keeps z s := by
  unfold State.sendGrant; simp

@[simp] theorem keeps_sendRequests (z : State) (s : State) (p phase : Nat) :
    Keeps z (State.sendRequests s p phase) ↔ Keeps z s := by
  unfold State.sendRequests; simp

@[simp] theorem keeps_execPtpMessageTx (z : State) (p : Fin 32) (msg : PtpSend) (phase : Fin 128) (s : State) :
    KeepsOut z (execPtpMessageTx p msg phase s) s := by
  unfold execPtpMessageTx
  dsimp only
  repeat' split
  all_goals first
    | (simp [done]; done)
    | (next h => have key := keeps_nextAsked z _ _ _ _ h; simpa [done] using key)

/-! ## Security -/

@[simp] theorem keeps_execKeyLoad (z : State) (_req : Requester) (w : Word) (s : State) :
    KeepsOut z (execKeyLoad _req w s) s := by
  intro t h; unfold execKeyLoad at h; repeat' split at h
  all_goals (simp only [done, carDone, Host.Outcome.next.injEq, reduceCtorEq] at h; subst h; simp [*])

@[simp] theorem keeps_execKeyImport (z : State) (_req : Requester) (w : Word) (s : State) :
    KeepsOut z (execKeyImport _req w s) s := by
  intro t h; unfold execKeyImport at h; repeat' split at h
  all_goals (simp only [done, carDone, Host.Outcome.next.injEq, reduceCtorEq] at h; subst h; simp [*])

@[simp] theorem keeps_execKeyDelete (z : State) (_req : Requester) (w : Word) (s : State) :
    KeepsOut z (execKeyDelete _req w s) s := by
  intro t h; unfold execKeyDelete at h; repeat' split at h
  all_goals (simp only [done, carDone, Host.Outcome.next.injEq, reduceCtorEq] at h; subst h; simp [*])

@[simp] theorem keeps_execKeyQuery (z : State) (_req : Requester) (w : Word) (s : State) :
    KeepsOut z (execKeyQuery _req w s) s := by
  intro t h; unfold execKeyQuery at h; repeat' split at h
  all_goals (simp only [done, carDone, Host.Outcome.next.injEq, reduceCtorEq] at h; subst h; simp [*])

@[simp] theorem keeps_execKeyDeleteComplete (z : State) (s : State) :
    KeepsOut z (execKeyDeleteComplete s) s := by
  intro t h; unfold execKeyDeleteComplete at h; repeat' split at h
  all_goals (simp only [done, carDone, Host.Outcome.next.injEq, reduceCtorEq] at h; subst h; simp [*])

@[simp] theorem keeps_execImageAccepted (z : State) (img : List Byte) (s : State) :
    KeepsOut z (execImageAccepted img s) s := by
  intro t h; unfold execImageAccepted at h; repeat' split at h
  all_goals (simp only [done, carDone, Host.Outcome.next.injEq, reduceCtorEq] at h; subst h; simp [*])

@[simp] theorem keeps_execImageRejected (z : State) (img : List Byte) (check : Fin 8) (s : State) :
    KeepsOut z (execImageRejected img check s) s := by
  intro t h; unfold execImageRejected at h; dsimp only at h; repeat' split at h
  all_goals (simp only [done, carDone, Host.Outcome.next.injEq, reduceCtorEq] at h; subst h; simp [*])

@[simp] theorem keeps_execGetNonce (z : State) (r : Fin 8) (msg : List Word) (s : State) :
    KeepsOut z (execGetNonce r msg s) s := by
  intro t h; unfold execGetNonce at h; repeat' split at h
  all_goals (simp only [done, carDone, Host.Outcome.next.injEq, reduceCtorEq] at h; subst h; simp [*])

@[simp] theorem keeps_execRecover (z : State) (r : Fin 8) (msg : List Word) (s : State) :
    KeepsOut z (execRecover r msg s) s := by
  intro t h; unfold execRecover at h; repeat' split at h
  all_goals (simp only [done, carDone, Host.Outcome.next.injEq, reduceCtorEq] at h; subst h; simp [*])

@[simp] theorem keeps_execSlotRevoke (z : State) (r : Fin 8) (msg : List Word) (s : State) :
    KeepsOut z (execSlotRevoke r msg s) s := by
  intro t h; unfold execSlotRevoke at h; repeat' split at h
  all_goals (simp only [done, carDone, Host.Outcome.next.injEq, reduceCtorEq] at h; subst h; simp [*])

@[simp] theorem keeps_execRetire (z : State) (r : Fin 8) (msg : List Word) (s : State) :
    KeepsOut z (execRetire r msg s) s := by
  intro t h; unfold execRetire at h; repeat' split at h
  all_goals (simp only [done, carDone, Host.Outcome.next.injEq, reduceCtorEq] at h; subst h; simp [*])

@[simp] theorem keeps_execDebugUnlock (z : State) (r : Fin 8) (msg : List Word) (s : State) :
    KeepsOut z (execDebugUnlock r msg s) s := by
  intro t h; unfold execDebugUnlock at h; repeat' split at h
  all_goals (simp only [done, carDone, Host.Outcome.next.injEq, reduceCtorEq] at h; subst h; simp [*])

@[simp] theorem keeps_execImageLoad (z : State) (r : Fin 8) (msg : List Word) (s : State) :
    KeepsOut z (execImageLoad r msg s) s := by
  intro t h; unfold execImageLoad at h; repeat' split at h
  all_goals (simp only [done, carDone, Host.Outcome.next.injEq, reduceCtorEq] at h; subst h; simp [*])

@[simp] theorem keeps_execLifecycleAdvance (z : State) (r : Fin 8) (msg : List Word) (s : State) :
    KeepsOut z (execLifecycleAdvance r msg s) s := by
  intro t h; unfold execLifecycleAdvance at h; repeat' split at h
  all_goals (simp only [done, carDone, Host.Outcome.next.injEq, reduceCtorEq] at h; subst h; simp [*])

@[simp] theorem keeps_execSlotProgram (z : State) (r : Fin 8) (msg : List Word) (s : State) :
    KeepsOut z (execSlotProgram r msg s) s := by
  intro t h; unfold execSlotProgram at h; repeat' split at h
  all_goals (simp only [done, carDone, Host.Outcome.next.injEq, reduceCtorEq] at h; subst h; simp [*])

@[simp] theorem keeps_execMctpMessage (z : State) (port : Fin 2) (spdm : Bool) (msg : List Byte) (s : State) :
    KeepsOut z (execMctpMessage port spdm msg s) s := by
  intro t h; unfold execMctpMessage at h; repeat' split at h
  all_goals (simp only [done, carDone, Host.Outcome.next.injEq, reduceCtorEq] at h; subst h; simp [*])

@[simp] theorem keeps_execRollbackCmd (z : State) (req : Requester) (w : Word) (s : State) :
    KeepsOut z (execRollbackCmd req w s) s := by
  intro t h; unfold execRollbackCmd at h; repeat' split at h
  all_goals (simp only [done, carDone, Host.Outcome.next.injEq, reduceCtorEq] at h; subst h; simp [*])

@[simp] theorem keeps_execRollbackDone (z : State) (s : State) :
    KeepsOut z (execRollbackDone s) s := by
  intro t h; unfold execRollbackDone at h; repeat' split at h
  all_goals (simp only [done, carDone, Host.Outcome.next.injEq, reduceCtorEq] at h; subst h; simp [*])

@[simp] theorem keeps_execMeasureExtend (z : State) (req : Requester) (w : Word) (s : State) :
    KeepsOut z (execMeasureExtend req w s) s := by
  intro t h; unfold execMeasureExtend at h; dsimp only at h; repeat' split at h
  all_goals (simp only [done, carDone, Host.Outcome.next.injEq, reduceCtorEq] at h; subst h; simp [*])

@[simp] theorem keeps_execLockdown (z : State) (_req : Requester) (w : Word) (s : State) :
    KeepsOut z (execLockdown _req w s) s := by
  intro t h; unfold execLockdown at h; repeat' split at h
  all_goals (simp only [done, carDone, Host.Outcome.next.injEq, reduceCtorEq] at h; subst h; simp [*])

@[simp] theorem keeps_execGlitchDetect (z : State) (s : State) :
    KeepsOut z (execGlitchDetect s) s := by
  simp [execGlitchDetect, done, keepsOut_next]

@[simp] theorem keeps_execOtpCheck (z : State) (ok : Bool) (s : State) :
    KeepsOut z (execOtpCheck ok s) s := by
  simp [execOtpCheck, done, keepsOut_next]

@[simp] theorem keeps_execDoeObject (z : State) (pf : Fin 32) (obj : List Byte) (s : State) :
    KeepsOut z (execDoeObject pf obj s) s := by
  intro t h; unfold execDoeObject at h; repeat' split at h
  all_goals (simp only [done, carDone, Host.Outcome.next.injEq, reduceCtorEq] at h; subst h; simp [*])

@[simp] theorem keeps_execDoeAbort (z : State) (pf : Fin 32) (s : State) :
    KeepsOut z (execDoeAbort pf s) s := by
  intro t h; unfold execDoeAbort at h; repeat' split at h
  all_goals (simp only [done, carDone, Host.Outcome.next.injEq, reduceCtorEq] at h; subst h; simp [*])

end Sys2Proof.Machine
end

