-- ==== Sys2Proof/Laws/Keep9.lean ====
section
/-! SUPPORT. The operations of Telemetry, RegRead, Tables, RegWrite, RegAccess keep the queue and the counters. -/
namespace Sys2Proof.Machine

/-! ## Telemetry -/

@[simp] theorem keeps_fcRead (z : State) (s : State) (i : Nat) :
    Keeps z (State.fcRead s i) ↔ Keeps z s := by
  unfold State.fcRead; simp

@[simp] theorem keeps_fcClear (z : State) (s : State) (i : Nat) :
    Keeps z (State.fcClear s i) ↔ Keeps z s := by
  unfold State.fcClear; simp

@[simp] theorem keeps_fcCmd (z : State) (s : State) (w : Word) :
    Keeps z (State.fcCmd s w) ↔ Keeps z s := by
  unfold State.fcCmd; repeat' split
  all_goals simp_all

@[simp] theorem keeps_execFcRead (z : State) (_req : Requester) (w : Word) (s : State) :
    KeepsOut z (execFcRead _req w s) s := by
  intro t h; unfold execFcRead at h; repeat' split at h
  all_goals (simp only [done, carDone, Host.Outcome.next.injEq, reduceCtorEq] at h; subst h; simp [*])

@[simp] theorem keeps_execFcClear (z : State) (_req : Requester) (w : Word) (s : State) :
    KeepsOut z (execFcClear _req w s) s := by
  intro t h; unfold execFcClear at h; repeat' split at h
  all_goals (simp only [done, carDone, Host.Outcome.next.injEq, reduceCtorEq] at h; subst h; simp [*])

@[simp] theorem keeps_execFcFlush (z : State) (_req : Requester) (w : Word) (s : State) :
    KeepsOut z (execFcFlush _req w s) s := by
  intro t h; unfold execFcFlush at h; repeat' split at h
  all_goals (simp only [done, carDone, Host.Outcome.next.injEq, reduceCtorEq] at h; subst h; simp [*])

@[simp] theorem keeps_execRecordBlockClose (z : State) (s : State) :
    KeepsOut z (execRecordBlockClose s) s := by
  intro t h; unfold execRecordBlockClose at h; repeat' split at h
  all_goals (simp only [done, carDone, Host.Outcome.next.injEq, reduceCtorEq] at h; subst h; simp [*])

@[simp] theorem keeps_writeHistCfg (z : State) (s : State) (h : Nat) (w : Word) :
    Keeps z (State.writeHistCfg s h w) ↔ Keeps z s := by
  unfold State.writeHistCfg; simp

@[simp] theorem keeps_execHistSnap (z : State) (_req : Requester) (h : Fin 32) (w : Word) (s : State) :
    KeepsOut z (execHistSnap _req h w s) s := by
  intro t h; unfold execHistSnap at h; repeat' split at h
  all_goals (simp only [done, carDone, Host.Outcome.next.injEq, reduceCtorEq] at h; subst h; simp [*])

@[simp] theorem keeps_refuseSketch (z : State) (s : State) (p : Nat) :
    Keeps z (State.refuseSketch s p) ↔ Keeps z s := by
  unfold State.refuseSketch; simp

@[simp] theorem keeps_zeroBank (z : State) (s : State) (p bank : Nat) :
    Keeps z (State.zeroBank s p bank) ↔ Keeps z s := by
  unfold State.zeroBank; simp

@[simp] theorem keeps_swapSketch (z : State) (s : State) (p : Nat) :
    Keeps z (State.swapSketch s p) ↔ Keeps z s := by
  unfold State.swapSketch; simp

@[simp] theorem keeps_clearSketch (z : State) (s : State) (p : Nat) :
    Keeps z (State.clearSketch s p) ↔ Keeps z s := by
  unfold State.clearSketch; simp

@[simp] theorem keeps_writeSkCfg (z : State) (s : State) (p : Nat) (w : Word) :
    Keeps z (State.writeSkCfg s p w) ↔ Keeps z s := by
  unfold State.writeSkCfg; simp

@[simp] theorem keeps_execSketchSwap (z : State) (_req : Requester) (p : Fin 8) (w : Word) (s : State) :
    KeepsOut z (execSketchSwap _req p w s) s := by
  intro t h; unfold execSketchSwap at h; repeat' split at h
  all_goals (simp only [done, carDone, Host.Outcome.next.injEq, reduceCtorEq] at h; subst h; simp [*])

@[simp] theorem keeps_execSketchClear (z : State) (_req : Requester) (p : Fin 8) (w : Word) (s : State) :
    KeepsOut z (execSketchClear _req p w s) s := by
  intro t h; unfold execSketchClear at h; repeat' split at h
  all_goals (simp only [done, carDone, Host.Outcome.next.injEq, reduceCtorEq] at h; subst h; simp [*])

@[simp] theorem keeps_execSketchClearDone (z : State) (p : Fin 8) (s : State) :
    KeepsOut z (execSketchClearDone p s) s := by
  intro t h; unfold execSketchClearDone at h; repeat' split at h
  all_goals (simp only [done, carDone, Host.Outcome.next.injEq, reduceCtorEq] at h; subst h; simp [*])

@[simp] theorem keeps_skQuery (z : State) (s : State) (w : Word) :
    Keeps z (State.skQuery s w) ↔ Keeps z s := by
  unfold State.skQuery; simp

@[simp] theorem keeps_execSketchQuery (z : State) (_req : Requester) (w : Word) (s : State) :
    KeepsOut z (execSketchQuery _req w s) s := by
  intro t h; unfold execSketchQuery at h; repeat' split at h
  all_goals (simp only [done, carDone, Host.Outcome.next.injEq, reduceCtorEq] at h; subst h; simp [*])

/-! ## RegRead -/

@[simp] theorem keeps_mbxClearCount (z : State) (s : State) (m : Nat) (toMgr : Bool) :
    Keeps z (State.mbxClearCount s m toMgr) ↔ Keeps z s := by
  unfold State.mbxClearCount; simp

@[simp] theorem keeps_readEffect (z : State) (s : State) (q : Nat) (r : RegName) (n k : Nat) :
    Keeps z (State.readEffect s q r n k) ↔ Keeps z s := by
  unfold State.readEffect; repeat' split
  all_goals simp_all

@[simp] theorem keeps_regRead (z : State) (s : State) (q : Nat) (r : RegName) (n k : Nat) :
    Keeps z (State.regRead s q r n k) ↔ Keeps z s := by
  unfold State.regRead; simp

@[simp] theorem keeps_readLow (z : State) (s : State) (q : Nat) (r : RegName) (n k : Nat) :
    Keeps z (State.readLow s q r n k) ↔ Keeps z s := by
  unfold State.readLow; simp

@[simp] theorem keeps_readHigh (z : State) (s : State) (q : Nat) (r : RegName) (n k : Nat) :
    Keeps z (State.readHigh s q r n k) ↔ Keeps z s := by
  unfold State.readHigh; simp

/-! ## Tables -/

@[simp] theorem keeps_tblCmd (z : State) (s : State) (op : Nat) (w : Word) :
    Keeps z (State.tblCmd s op w) ↔ Keeps z s := by
  unfold State.tblCmd; repeat' (first | (simp [*]; done) | (simp [*, keeps_foldl]; done) | intro y t x | split | rw [keeps_foldl] | rw [keeps_foldl_fst] | simp)

@[simp] theorem keeps_execInsert (z : State) (_req : Requester) (w : Word) (s : State) :
    KeepsOut z (execInsert _req w s) s := by
  intro t h; unfold execInsert at h; repeat' split at h
  all_goals (simp only [done, carDone, Host.Outcome.next.injEq, reduceCtorEq] at h; subst h; simp [*])

@[simp] theorem keeps_execUpdate (z : State) (_req : Requester) (w : Word) (s : State) :
    KeepsOut z (execUpdate _req w s) s := by
  intro t h; unfold execUpdate at h; repeat' split at h
  all_goals (simp only [done, carDone, Host.Outcome.next.injEq, reduceCtorEq] at h; subst h; simp [*])

@[simp] theorem keeps_execDelete (z : State) (_req : Requester) (w : Word) (s : State) :
    KeepsOut z (execDelete _req w s) s := by
  intro t h; unfold execDelete at h; repeat' split at h
  all_goals (simp only [done, carDone, Host.Outcome.next.injEq, reduceCtorEq] at h; subst h; simp [*])

@[simp] theorem keeps_execReadSlot (z : State) (_req : Requester) (w : Word) (s : State) :
    KeepsOut z (execReadSlot _req w s) s := by
  intro t h; unfold execReadSlot at h; repeat' split at h
  all_goals (simp only [done, carDone, Host.Outcome.next.injEq, reduceCtorEq] at h; subst h; simp [*])

@[simp] theorem keeps_execWriteIndex (z : State) (_req : Requester) (w : Word) (s : State) :
    KeepsOut z (execWriteIndex _req w s) s := by
  intro t h; unfold execWriteIndex at h; repeat' split at h
  all_goals (simp only [done, carDone, Host.Outcome.next.injEq, reduceCtorEq] at h; subst h; simp [*])

@[simp] theorem keeps_execFind (z : State) (_req : Requester) (w : Word) (s : State) :
    KeepsOut z (execFind _req w s) s := by
  intro t h; unfold execFind at h; repeat' split at h
  all_goals (simp only [done, carDone, Host.Outcome.next.injEq, reduceCtorEq] at h; subst h; simp [*])

@[simp] theorem keeps_execBlockMapWrite (z : State) (_req : Requester) (k : Fin 40) (w : Word) (s : State) :
    KeepsOut z (execBlockMapWrite _req k w s) s := by
  intro t h; unfold execBlockMapWrite at h; dsimp only at h; repeat' split at h
  all_goals (simp only [done, carDone, Host.Outcome.next.injEq, reduceCtorEq] at h; subst h; simp [*])

@[simp] theorem keeps_execTCfgWrite (z : State) (_req : Requester) (t : Fin 256) (w : Word) (s : State) :
    KeepsOut z (execTCfgWrite _req t w s) s := by
  intro t h; unfold execTCfgWrite at h; dsimp only at h; repeat' split at h
  all_goals (simp only [done, carDone, Host.Outcome.next.injEq, reduceCtorEq] at h; subst h; simp [*])

@[simp] theorem keeps_notify (z : State) (s : State) (type t new old ts : Nat) (key : List Byte) :
    Keeps z (State.notify s type t new old ts key) ↔ Keeps z s := by
  unfold State.notify; simp

@[simp] theorem keeps_twinWrite (z : State) (s : State) (c : Cuckoo) (p : Spot) (e : Nat) :
    Keeps z (State.twinWrite s c p e) ↔ Keeps z s := by
  unfold State.twinWrite; repeat' (first | (simp [*]; done) | intro y t x | split | rw [keeps_foldl] | rw [keeps_foldl_fst])

@[simp] theorem keeps_twinRemove (z : State) (s : State) (c : Cuckoo) (p : Spot) (e : Nat) :
    Keeps z (State.twinRemove s c p e) ↔ Keeps z s := by
  unfold State.twinRemove; repeat' (first | (simp [*]; done) | intro y t x | split | rw [keeps_foldl] | rw [keeps_foldl_fst])

@[simp] theorem keeps_rewrite (z : State) (s : State) (c : Cuckoo) (p : Spot) (e : Nat) :
    Keeps z (State.rewrite s c p e) ↔ Keeps z s := by
  unfold State.rewrite; simp

@[simp] theorem keeps_relearn (z : State) (s : State) (c : Cuckoo) (p : Spot) (i : LearnItem) :
    Keeps z (State.relearn s c p i) ↔ Keeps z s := by
  unfold State.relearn; simp

@[simp] theorem keeps_learnOne (z : State) (s : State) (i : LearnItem) :
    Keeps z (State.learnOne s i) ↔ Keeps z s := by
  unfold State.learnOne; dsimp only; repeat' split
  all_goals simp [*]

@[simp] theorem keeps_execLearnProcess (z : State) (s : State) :
    KeepsOut z (execLearnProcess s) s := by
  intro t h; unfold execLearnProcess at h; repeat' split at h
  all_goals (simp only [done, carDone, Host.Outcome.next.injEq, reduceCtorEq] at h; subst h; simp [*])

@[simp] theorem keeps_visitRecord (z : State) (s : State) (c : Cuckoo) (p : Spot) :
    Keeps z (State.visitRecord s c p) ↔ Keeps z s := by
  unfold State.visitRecord; simp

@[simp] theorem keeps_noteVisit (z : State) (s : State) (t i : Nat) :
    Keeps z (State.noteVisit s t i) ↔ Keeps z s := by
  unfold State.noteVisit; simp

@[simp] theorem keeps_ageSlow (z : State) (s : State) (t : Nat) :
    Keeps z (State.ageSlow s t) ↔ Keeps z s := by
  unfold State.ageSlow; simp

@[simp] theorem keeps_sweepEntry (z : State) (s : State) (t : Nat) (c : Cuckoo) (p : Spot) :
    Keeps z (State.sweepEntry s t c p) ↔ Keeps z s := by
  unfold State.sweepEntry; simp

@[simp] theorem keeps_execSweepVisit (z : State) (t : Fin 256) (slot : Nat) (s : State) :
    KeepsOut z (execSweepVisit t slot s) s := by
  intro t h; unfold execSweepVisit at h; dsimp only at h; repeat' split at h
  all_goals (simp only [done, carDone, Host.Outcome.next.injEq, reduceCtorEq] at h; subst h; simp [*])

/-! ## RegWrite -/

@[simp] theorem keeps_outState (z : State) (o : Out) (s : State) (h : KeepsOut z o s) :
    Keeps z (outState o s) ↔ Keeps z s := by
  cases o with
  | next t => exact h t rfl
  | fault _ => rfl
  | refused _ => rfl

@[simp] theorem keeps_writeMem (z : State) (s : State) (r : RegName) (n k : Nat) (w : Word) :
    Keeps z (State.writeMem s r n k w) ↔ Keeps z s := by
  unfold State.writeMem; simp

@[simp] theorem keeps_writeGlb (z : State) (s : State) (req : Requester) (r : RegName) (k : Nat) (w : Word) :
    Keeps z (State.writeGlb s req r k w) ↔ Keeps z s := by
  unfold State.writeGlb; repeat' split
  all_goals simp_all

@[simp] theorem keeps_writePwr (z : State) (s : State) (r : RegName) (k : Nat) (w : Word) :
    Keeps z (State.writePwr s r k w) ↔ Keeps z s := by
  unfold State.writePwr; simp

@[simp] theorem keeps_writeSec (z : State) (s : State) (req : Requester) (r : RegName) (k : Nat) (w : Word) :
    Keeps z (State.writeSec s req r k w) ↔ Keeps z s := by
  unfold State.writeSec; repeat' split
  all_goals simp_all

@[simp] theorem keeps_writeStatus (z : State) (s : State) (g : Nat) (w : Word) :
    Keeps z (State.writeStatus s g w) ↔ Keeps z s := by
  unfold State.writeStatus; simp

@[simp] theorem keeps_writeFirst (z : State) (s : State) (g : Nat) (w : Word) :
    Keeps z (State.writeFirst s g w) ↔ Keeps z s := by
  unfold State.writeFirst; simp

@[simp] theorem keeps_writeAccess (z : State) (s : State) (w : Word) :
    Keeps z (State.writeAccess s w) ↔ Keeps z s := by
  unfold State.writeAccess; repeat' (first | (simp [*]; done) | (simp [*, keeps_foldl]; done) | intro y t x | split | rw [keeps_foldl] | rw [keeps_foldl_fst] | simp)

@[simp] theorem keeps_writeGong (z : State) (s : State) (req : Requester) (r : RegName) (k : Nat) (w : Word) :
    Keeps z (State.writeGong s req r k w) ↔ Keeps z s := by
  unfold State.writeGong; repeat' split
  all_goals simp_all

@[simp] theorem keeps_writeAdj (z : State) (s : State) (w : Word) :
    Keeps z (State.writeAdj s w) ↔ Keeps z s := by
  unfold State.writeAdj; simp

@[simp] theorem keeps_writeUtc (z : State) (s : State) (w : Word) :
    Keeps z (State.writeUtc s w) ↔ Keeps z s := by
  unfold State.writeUtc; simp

@[simp] theorem keeps_writePps (z : State) (s : State) (r : RegName) (i : Nat) (en : Field) (w : Word) :
    Keeps z (State.writePps s r i en w) ↔ Keeps z s := by
  unfold State.writePps; dsimp only; rw [keeps_foldl]
  · repeat' split
    all_goals simp [*]
  · intro y t x
    repeat' split
    all_goals simp [*]

@[simp] theorem keeps_writeLinkMap (z : State) (s : State) (l : Nat) (w : Word) :
    Keeps z (State.writeLinkMap s l w) ↔ Keeps z s := by
  unfold State.writeLinkMap; simp

@[simp] theorem keeps_writeCar (z : State) (s : State) (req : Requester) (r : RegName) (k : Nat) (w : Word) :
    Keeps z (State.writeCar s req r k w) ↔ Keeps z s := by
  have settled : ∀ u, (Keeps z u ↔ Keeps z s) → (Keeps z (outState (carDone s u) s) ↔ Keeps z s) := by
    intro u h
    simpa [outState, carDone, done] using h
  unfold State.writeCar
  dsimp only
  split
  all_goals first
    | (refine settled _ ?_; simp; done)
    | (refine settled _ ?_; simp [keeps_foldl]; done)
    | simp

@[simp] theorem keeps_writeEth (z : State) (s : State) (req : Requester) (r : RegName) (p k : Nat) (w : Word) :
    Keeps z (State.writeEth s req r p k w) ↔ Keeps z s := by
  unfold State.writeEth; repeat' split
  all_goals simp_all

@[simp] theorem keeps_writeBank (z : State) (s : State) (r : RegName) (p k : Nat) (w : Word) :
    Keeps z (State.writeBank s r p k w) ↔ Keeps z s := by
  unfold State.writeBank; simp

@[simp] theorem keeps_writePpl (z : State) (s : State) (req : Requester) (r : RegName) (p k : Nat) (w : Word) :
    Keeps z (State.writePpl s req r p k w) ↔ Keeps z s := by
  unfold State.writePpl; repeat' split
  all_goals simp_all

@[simp] theorem keeps_writeSch (z : State) (s : State) (req : Requester) (r : RegName) (k : Nat) (w : Word) :
    Keeps z (State.writeSch s req r k w) ↔ Keeps z s := by
  unfold State.writeSch; repeat' split
  all_goals simp_all

@[simp] theorem keeps_writeTbc (z : State) (s : State) (r : RegName) (c k : Nat) (w : Word) :
    Keeps z (State.writeTbc s r c k w) ↔ Keeps z s := by
  unfold State.writeTbc; repeat' split
  all_goals simp_all

@[simp] theorem keeps_writeTbe (z : State) (s : State) (r : RegName) (e k : Nat) (w : Word) :
    Keeps z (State.writeTbe s r e k w) ↔ Keeps z s := by
  unfold State.writeTbe; repeat' split
  all_goals simp_all

@[simp] theorem keeps_writeFlowCfg (z : State) (s : State) (w : Word) :
    Keeps z (State.writeFlowCfg s w) ↔ Keeps z s := by
  unfold State.writeFlowCfg; simp

@[simp] theorem keeps_writeTbl (z : State) (s : State) (req : Requester) (r : RegName) (k : Nat) (w : Word) :
    Keeps z (State.writeTbl s req r k w) ↔ Keeps z s := by
  unfold State.writeTbl; repeat' split
  all_goals simp_all

@[simp] theorem keeps_writeCry (z : State) (s : State) (r : RegName) (k : Nat) (w : Word) :
    Keeps z (State.writeCry s r k w) ↔ Keeps z s := by
  unfold State.writeCry; repeat' split
  all_goals simp_all

@[simp] theorem keeps_writeCmp (z : State) (s : State) (r : RegName) (k : Nat) (w : Word) :
    Keeps z (State.writeCmp s r k w) ↔ Keeps z s := by
  unfold State.writeCmp; repeat' split
  all_goals simp_all

@[simp] theorem keeps_mbxClearFlags (z : State) (s : State) (m : Nat) (toMgr : Bool) (w : Word) :
    Keeps z (State.mbxClearFlags s m toMgr w) ↔ Keeps z s := by
  unfold State.mbxClearFlags; simp

@[simp] theorem keeps_writeMbx (z : State) (s : State) (req : Requester) (r : RegName) (k : Nat) (w : Word) :
    Keeps z (State.writeMbx s req r k w) ↔ Keeps z s := by
  unfold State.writeMbx; repeat' split
  all_goals simp_all

@[simp] theorem keeps_writeQueueReg (z : State) (s : State) (f : Nat) (r : RegName) (k : Nat) (w : Word) :
    Keeps z (State.writeQueueReg s f r k w) ↔ Keeps z s := by
  unfold State.writeQueueReg; repeat' split
  all_goals simp_all

@[simp] theorem keeps_writeFnc (z : State) (s : State) (req : Requester) (r : RegName) (f k : Nat) (w : Word) :
    Keeps z (State.writeFnc s req r f k w) ↔ Keeps z s := by
  unfold State.writeFnc; repeat' split
  all_goals simp_all

@[simp] theorem keeps_nvmOff (z : State) (s : State) :
    Keeps z (State.nvmOff s) ↔ Keeps z s := by
  unfold State.nvmOff; rw [keeps_foldl]
  intro y t x
  repeat' split
  all_goals simp [*]

@[simp] theorem keeps_writeNvm (z : State) (s : State) (r : RegName) (k : Nat) (w : Word) :
    Keeps z (State.writeNvm s r k w) ↔ Keeps z s := by
  unfold State.writeNvm; repeat' split
  all_goals simp_all

@[simp] theorem keeps_writeXpt (z : State) (s : State) (r : RegName) (k : Nat) (w : Word) :
    Keeps z (State.writeXpt s r k w) ↔ Keeps z s := by
  unfold State.writeXpt; repeat' split
  all_goals simp_all

@[simp] theorem keeps_writeHl (z : State) (s : State) (r : RegName) (n k : Nat) (w : Word) :
    Keeps z (State.writeHl s r n k w) ↔ Keeps z s := by
  unfold State.writeHl; repeat' split
  all_goals simp_all

@[simp] theorem keeps_regWrite (z : State) (s : State) (req : Requester) (r : RegName) (n k : Nat) (w : Word) :
    Keeps z (State.regWrite s req r n k w) ↔ Keeps z s := by
  unfold State.regWrite; repeat' split
  all_goals simp_all

/-! ## RegAccess -/

@[simp] theorem keeps_readReg (z : State) (s : State) (req : Requester) (r : RegName) (n k : Nat) :
    Keeps z (State.readReg s req r n k) ↔ Keeps z s := by
  unfold State.readReg; repeat' split
  all_goals simp_all

@[simp] theorem keeps_storeReg (z : State) (s : State) (req : Requester) (r : RegName) (n k : Nat) (w : Word) :
    Keeps z (State.storeReg s req r n k w) ↔ Keeps z s := by
  unfold State.storeReg; repeat' split
  all_goals simp_all

@[simp] theorem keeps_noEffect (z : State) (s : State) (req : Requester) (addr : Nat) (write : Bool) :
    Keeps z (State.noEffect s req addr write) ↔ Keeps z s := by
  unfold State.noEffect; simp

@[simp] theorem keeps_narrow (z : State) (s : State) (req : Requester) (addr size : Nat) (write : Bool) :
    Keeps z (State.narrow s req addr size write) ↔ Keeps z s := by
  unfold State.narrow; repeat' split
  all_goals simp_all

@[simp] theorem keeps_busAccess (z : State) (s : State) (req : Requester) (addr size : Nat) (data : Option Word) :
    Keeps z (State.busAccess s req addr size data) ↔ Keeps z s := by
  unfold State.busAccess; repeat' split
  all_goals simp_all

@[simp] theorem keeps_execNarrowAccess (z : State) (req : Requester) (addr : Nat) (bytes : Nat) (write : Bool) (s : State) :
    KeepsOut z (execNarrowAccess req addr bytes write s) s := by
  intro t h; unfold execNarrowAccess at h; repeat' split at h
  all_goals (simp only [done, carDone, Host.Outcome.next.injEq, reduceCtorEq] at h; subst h; simp [*])

@[simp] theorem keeps_execReservedAccess (z : State) (req : Requester) (addr : Nat) (write : Bool) (s : State) :
    KeepsOut z (execReservedAccess req addr write s) s := by
  intro t h; unfold execReservedAccess at h; repeat' split at h
  all_goals (simp only [done, carDone, Host.Outcome.next.injEq, reduceCtorEq] at h; subst h; simp [*])

@[simp] theorem keeps_execRcRead (z : State) (req : Requester) (r : RegName) (n k : Nat) (s : State) :
    KeepsOut z (execRcRead req r n k s) s := by
  intro t h; unfold execRcRead at h; repeat' split at h
  all_goals (simp only [done, carDone, Host.Outcome.next.injEq, reduceCtorEq] at h; subst h; simp [*])

@[simp] theorem keeps_execTimeLowHalfRead (z : State) (req : Requester) (r : RegName) (n k : Nat) (s : State) :
    KeepsOut z (execTimeLowHalfRead req r n k s) s := by
  intro t h; unfold execTimeLowHalfRead at h; repeat' split at h
  all_goals (simp only [done, carDone, Host.Outcome.next.injEq, reduceCtorEq] at h; subst h; simp [*])

@[simp] theorem keeps_execTimeNsfRead (z : State) (req : Requester) (s : State) :
    KeepsOut z (execTimeNsfRead req s) s := by
  intro t h; unfold execTimeNsfRead at h; repeat' split at h
  all_goals (simp only [done, carDone, Host.Outcome.next.injEq, reduceCtorEq] at h; subst h; simp [*])

@[simp] theorem keeps_execEpsTimeRead (z : State) (req : Requester) (s : State) :
    KeepsOut z (execEpsTimeRead req s) s := by
  intro t h; unfold execEpsTimeRead at h; repeat' split at h
  all_goals (simp only [done, carDone, Host.Outcome.next.injEq, reduceCtorEq] at h; subst h; simp [*])

@[simp] theorem keeps_execRegisterWrite (z : State) (req : Requester) (r : RegName) (n k : Nat) (w : Word) (s : State) :
    KeepsOut z (execRegisterWrite req r n k w s) s := by
  intro t h; unfold execRegisterWrite at h; repeat' split at h
  all_goals (simp only [done, carDone, Host.Outcome.next.injEq, reduceCtorEq] at h; subst h; simp [*])

@[simp] theorem keeps_answer (z : State) (s : State) (w : Nat) :
    Keeps z (State.answer s w) ↔ Keeps z s := by
  unfold State.answer; simp

@[simp] theorem keeps_readOnlyPage (z : State) (s : State) (word : Nat) (data : Option Word) :
    Keeps z (State.readOnlyPage s word data) ↔ Keeps z s := by
  unfold State.readOnlyPage; repeat' split
  all_goals simp_all

@[simp] theorem keeps_reservedRange (z : State) (s : State) (data : Option Word) :
    Keeps z (State.reservedRange s data) ↔ Keeps z s := by
  unfold State.reservedRange; simp

@[simp] theorem keeps_unsupported (z : State) (s : State) (f : Nat) (data : Option Word) :
    Keeps z (State.unsupported s f data) ↔ Keeps z s := by
  unfold State.unsupported; simp

@[simp] theorem keeps_managerBar (z : State) (s : State) (l : Nat) (addr : Nat) (data : Option Word) :
    Keeps z (State.managerBar s l addr data) ↔ Keeps z s := by
  unfold State.managerBar; simp

@[simp] theorem keeps_mailboxPage (z : State) (s : State) (req : Requester) (m : Fin 2104) (off : Nat) (data : Option Word) :
    Keeps z (State.mailboxPage s req m off data) ↔ Keeps z s := by
  unfold State.mailboxPage; repeat' split
  all_goals simp_all

@[simp] theorem keeps_setVector (z : State) (s : State) (f v half value : Nat) :
    Keeps z (State.setVector s f v half value) ↔ Keeps z s := by
  unfold State.setVector; simp

@[simp] theorem keeps_msixTable (z : State) (s : State) (f off : Nat) (data : Option Word) :
    Keeps z (State.msixTable s f off data) ↔ Keeps z s := by
  unfold State.msixTable; repeat' split
  all_goals simp_all

@[simp] theorem keeps_doorbellPage (z : State) (s : State) (f : Fin 2080) (page off : Nat) (data : Option Word) :
    Keeps z (State.doorbellPage s f page off data) ↔ Keeps z s := by
  unfold State.doorbellPage; repeat' split
  all_goals simp_all

@[simp] theorem keeps_networkBar (z : State) (s : State) (l : Nat) (f : Fin 2080) (addr : Nat) (data : Option Word) :
    Keeps z (State.networkBar s l f addr data) ↔ Keeps z s := by
  unfold State.networkBar; simp

@[simp] theorem keeps_writeNvmeReg (z : State) (s : State) (f : Fin 2080) (off : Nat) (w : Word) :
    Keeps z (State.writeNvmeReg s f off w) ↔ Keeps z s := by
  unfold State.writeNvmeReg; repeat' split
  all_goals simp_all

@[simp] theorem keeps_nvmeDoorbell (z : State) (s : State) (f : Fin 2080) (off : Nat) (data : Option Word) :
    Keeps z (State.nvmeDoorbell s f off data) ↔ Keeps z s := by
  unfold State.nvmeDoorbell; repeat' split
  all_goals simp_all

@[simp] theorem keeps_nvmeBar (z : State) (s : State) (f : Fin 2080) (addr : Nat) (data : Option Word) :
    Keeps z (State.nvmeBar s f addr data) ↔ Keeps z s := by
  unfold State.nvmeBar; repeat' split
  all_goals simp_all

@[simp] theorem keeps_midnightBar (z : State) (s : State) (l : Nat) (f : Fin 2080) (addr : Nat) (data : Option Word) :
    Keeps z (State.midnightBar s l f addr data) ↔ Keeps z s := by
  unfold State.midnightBar; simp

@[simp] theorem keeps_barAccess (z : State) (s : State) (l : Nat) (f : Fin 2080) (bar addr : Nat) (data : Option Word) :
    Keeps z (State.barAccess s l f bar addr data) ↔ Keeps z s := by
  unfold State.barAccess; simp

@[simp] theorem keeps_execMgrBarAccess (z : State) (addr : Nat) (data : Option Word) (s : State) :
    KeepsOut z (execMgrBarAccess addr data s) s := by
  intro t h; unfold execMgrBarAccess at h; repeat' split at h
  all_goals (simp only [done, carDone, Host.Outcome.next.injEq, reduceCtorEq] at h; subst h; simp [*])

@[simp] theorem keeps_execHostMemoryRequest (z : State) (l : Fin 16) (f : Fin 2080) (bar addr : Nat) (data : Option Word) (secure : Bool) (s : State) :
    KeepsOut z (execHostMemoryRequest l f bar addr data secure s) s := by
  intro t h; unfold execHostMemoryRequest at h; dsimp only at h; repeat' split at h
  all_goals (simp only [done, carDone, Host.Outcome.next.injEq, reduceCtorEq] at h; subst h; simp [*])

@[simp] theorem keeps_debugPerforms (z : State) (s : State) (d : DebugAccess) :
    Keeps z (State.debugPerforms s d) ↔ Keeps z s := by
  unfold State.debugPerforms; split
  · simp
  · split <;> simp
  · simp

@[simp] theorem keeps_execDebugAccess (z : State) (d : DebugAccess) (s : State) :
    KeepsOut z (execDebugAccess d s) s := by
  intro t h; unfold execDebugAccess at h; repeat' split at h
  all_goals (simp only [done, carDone, Host.Outcome.next.injEq, reduceCtorEq] at h; subst h; simp [*])

end Sys2Proof.Machine
end

