-- ==== Sys2Proof/Laws/Frames.lean ====
section
/-! SUPPORT. Frames: what the shared operations leave alone, said once over the vocabulary of Safety. -/
namespace Sys2Proof.Machine

/-- Every instant an optional one holds lies at least `k` before `u`. (Stated once for any `k`, so that no long interval is unfolded.) -/
theorem all_add_le (o : Option Nat) (k u : Nat) (h : ∀ l, o = some l → l + k ≤ u) : (o.all fun t => decide (t + k ≤ u)) = true := by
  cases o with
  | none => rfl
  | some l => exact decide_eq_true (h l rfl)

/-- The instant an optional one holds lies at least `k` before `u`. -/
theorem any_add_le (o : Option Nat) (t k u : Nat) (h : o = some t) (hk : t + k ≤ u) : (o.any fun t => decide (t + k ≤ u)) = true := by
  subst h
  exact decide_eq_true hk

/-! ## Registers -/

theorem RegsOnly.refl (s : State) : RegsOnly s s := rfl

theorem RegsOnly.trans {a b c : State} (h : RegsOnly a b) (k : RegsOnly b c) : RegsOnly a c := by
  unfold RegsOnly at *; rw [k, h]

theorem RegsBut.refl (l : List RegName) (s : State) : RegsBut l s s := fun _ _ _ _ => rfl

theorem RegsBut.trans {l : List RegName} {a b c : State} (h : RegsBut l a b) (k : RegsBut l b c) : RegsBut l a c :=
  fun r hr n i => (k r hr n i).trans (h r hr n i)

theorem RegsBut.mono {l m : List RegName} {a b : State} (h : RegsBut l a b) (hs : ∀ r ∈ l, r ∈ m) : RegsBut m a b :=
  fun r hr n i => h r (fun k => hr (hs r k)) n i

theorem Only.refl (l : List RegName) (s : State) : Only l s s := ⟨RegsOnly.refl s, RegsBut.refl l s⟩

theorem Only.trans {l : List RegName} {a b c : State} (h : Only l a b) (k : Only l b c) : Only l a c :=
  ⟨h.1.trans k.1, h.2.trans k.2⟩

theorem Only.mono {l m : List RegName} {a b : State} (h : Only l a b) (hs : ∀ r ∈ l, r ∈ m) : Only m a b :=
  ⟨h.1, h.2.mono hs⟩

theorem regsOnly_setRaw (s : State) (r : RegName) (n i : Nat) (w : Word) : RegsOnly s (s.setRaw r n i w) := rfl

theorem Only.setRaw {l : List RegName} {z s : State} (h : Only l z s) (r : RegName) (n i : Nat) (w : Word) (hr : r ∈ l) :
    Only l z (s.setRaw r n i w) :=
  h.trans ⟨rfl, fun q hq m j => raw_setRaw_ne s r q n i m j w fun e => hq (e ▸ hr)⟩

theorem Only.put {l : List RegName} {z s : State} (h : Only l z s) (f : Field) (v n i : Nat) (hr : f.reg ∈ l) :
    Only l z (s.put f v n i) := h.setRaw _ _ _ _ hr

theorem Only.sat {l : List RegName} {z s : State} (h : Only l z s) (f : Field) (d n i : Nat) (hr : f.reg ∈ l) :
    Only l z (s.sat f d n i) := h.put _ _ _ _ hr

theorem Only.bump {l : List RegName} {z s : State} (h : Only l z s) (r : RegName) (n i d : Nat) (hr : r ∈ l) :
    Only l z (s.bump r n i d) := h.setRaw _ _ _ _ hr

theorem Only.writeReg {l : List RegName} {z s : State} (h : Only l z s) (r : RegName) (n i : Nat) (w : Word) (hr : r ∈ l) :
    Only l z (s.writeReg r n i w) := h.setRaw _ _ _ _ hr

theorem Only.clearRc {l : List RegName} {z s : State} (h : Only l z s) (r : RegName) (n i : Nat) (hr : r ∈ l) :
    Only l z (s.clearRc r n i) := h.setRaw _ _ _ _ hr

theorem Only.firstError {l : List RegName} {z s : State} (h : Only l z s) (g src : Nat) (a : Bool) (sev init typ addr : Nat)
    (hl : ∀ r ∈ gongRegs, r ∈ l) : Only l z (s.firstError g src a sev init typ addr) := by
  unfold State.firstError
  split
  · exact h.sat _ _ _ _ (hl _ (by decide))
  · exact ((h.setRaw _ _ _ _ (hl _ (by decide))).setRaw _ _ _ _ (hl _ (by decide))).setRaw _ _ _ _ (hl _ (by decide))

theorem Only.fire {l : List RegName} {z s : State} (h : Only l z s) (g src addr init typ : Nat)
    (hm : Mild s g src) (hl : ∀ r ∈ gongRegs, r ∈ l) : Only l z (s.fire g src addr init typ) := by
  unfold State.fire
  have hs : (s.sat (countField (32 * g + src)) 1 0 ((32 * g + src) / 4)).severity g src = s.severity g src := by
    unfold State.severity
    split
    · rfl
    · exact fld_put_ne _ _ _ _ _ _ _ _ (by simp [countField, GONG_SEV.SEV])
  have h1 := h.sat (countField (32 * g + src)) 1 0 ((32 * g + src) / 4) (hl _ (by simp [countField, gongRegs]))
  dsimp only
  rw [hs]
  split
  · exact h1
  · rw [if_neg hm]
    exact (h1.put _ _ _ _ (hl _ (by decide : RegName.GONG_STATUS ∈ gongRegs))).firstError _ _ _ _ _ _ _ hl

/-! ## What a step's end does -/

theorem settle_of_quiet {s : State} (h : Quiet s) : s.settle = s := by
  simp [State.settle, h.1, h.2]

theorem done_of_quiet {s : State} (h : Quiet s) : done s = .next s := by
  simp [done, settle_of_quiet h]

theorem Quiet.of_gong {s t : State} (h : Quiet s) (hg : t.gong = s.gong) : Quiet t := by
  unfold Quiet at *; rw [hg]; exact h

theorem Only.gong {l : List RegName} {s t : State} (h : Only l s t) : t.gong = s.gong := by rw [h.1]

theorem Only.modes {l : List RegName} {s t : State} (h : Only l s t) : t.modes = s.modes := by rw [h.1]

theorem Only.quiet {l : List RegName} {s t : State} (h : Only l s t) (q : Quiet s) : Quiet t := q.of_gong h.gong

/-- A meaning that ends in `done` of a state that differs in named registers only answers that state, where no fatal action waits. -/
theorem Only.done {l : List RegName} {s t : State} (h : Only l s t) (q : Quiet s) : done t = .next t := done_of_quiet (h.quiet q)

/-- A meaning that ends in `done` completes where the state it ends in is quiet. -/
theorem completes_done {c : Instr} {s u : State} {P : State → Prop} (he : exec c s = Sys2Proof.Machine.done u) (hq : Quiet u) (hp : P u) :
    Completes c s P := ⟨u, by rw [he, done_of_quiet hq], hp⟩

theorem completes_next {c : Instr} {s u : State} {P : State → Prop} (he : exec c s = .next u) (hp : P u) : Completes c s P := ⟨u, he, hp⟩

/-! ## Fields -/

theorem RegsBut.fld {l : List RegName} {s t : State} (h : RegsBut l s t) (f : Field) (hf : f.reg ∉ l) (n i : Nat) :
    t.fld f n i = s.fld f n i := by
  unfold State.fld; rw [h _ hf]

theorem Only.fld {l : List RegName} {s t : State} (h : Only l s t) (f : Field) (hf : f.reg ∉ l) (n i : Nat) :
    t.fld f n i = s.fld f n i := h.2.fld f hf n i

theorem Only.mild {l : List RegName} {s t : State} (h : Only l s t) (g src : Nat) (hl : RegName.GONG_SEV ∉ l) : Mild t g src ↔ Mild s g src := by
  unfold Mild State.severity
  rw [h.fld _ (by simpa [GONG_SEV.SEV] using hl)]

/-! ## Writes by access type -/

theorem testBit_of_bits_zero {m hi lo i : Nat} (h : bits m hi lo = 0) (h1 : lo ≤ i) (h2 : i ≤ hi) : m.testBit i = false := by
  have e := testBit_bits m hi lo (i - lo)
  rw [h] at e
  have : i - lo < hi + 1 - lo := by omega
  simpa [this, Nat.add_sub_cancel' h1] using e.symm

theorem testBit_of_bits_ones {m hi lo i : Nat} (h : bits m hi lo = 2 ^ (hi + 1 - lo) - 1) (h1 : lo ≤ i) (h2 : i ≤ hi) : m.testBit i = true := by
  have e := testBit_bits m hi lo (i - lo)
  rw [h, Nat.testBit_two_pow_sub_one] at e
  have : i - lo < hi + 1 - lo := by omega
  simpa [this, Nat.add_sub_cancel' h1] using e.symm

/-- Two words that agree on the bits of a field hold the same field. -/
theorem getBits_congr {a b : Word} {hi lo : Nat} (h : ∀ i, lo ≤ i → i ≤ hi → a.getLsbD i = b.getLsbD i) : getBits a hi lo = getBits b hi lo := by
  apply Nat.eq_of_testBit_eq
  intro j
  have e : ∀ x : Word, x.toNat.testBit (lo + j) = x.getLsbD (lo + j) := fun _ => rfl
  rw [getBits, getBits, testBit_bits, testBit_bits, e, e]
  by_cases hj : j < hi + 1 - lo
  · rw [h (lo + j) (by omega) (by omega)]
  · simp [hj]

/-- A field whose bits no write reaches keeps its value. -/
theorem getBits_mergeWrite_keep (l : Layout) (b : Bool) (old w : Word) (hi lo : Nat)
    (h : bits (l.rw ||| l.wo ||| (if b then 0 else l.rwl) ||| l.w1c ||| l.w1s) hi lo = 0) :
    getBits (mergeWrite l b old w) hi lo = getBits old hi lo := by
  apply getBits_congr
  intro i h1 h2
  have k := testBit_of_bits_zero h h1 h2
  simp only [Nat.testBit_or, Bool.or_eq_false_iff] at k
  by_cases hi : i < 64
  · simp only [mergeWrite, BitVec.getLsbD_or, BitVec.getLsbD_and, BitVec.getLsbD_not, BitVec.getLsbD_ofNat]
    cases b <;> simp [hi, -BitVec.getLsbD_eq_getElem, BitVec.getLsbD_ofNat] <;> simp_all [-BitVec.getLsbD_eq_getElem]
  · rw [BitVec.getLsbD_of_ge _ _ (by omega), BitVec.getLsbD_of_ge _ _ (by omega)]

/-- A field that writes set takes the word's bits. -/
theorem getBits_mergeWrite_set (l : Layout) (b : Bool) (old w : Word) (hi lo : Nat)
    (h : bits (l.rw ||| l.wo ||| (if b then 0 else l.rwl)) hi lo = 2 ^ (hi + 1 - lo) - 1) (h0 : bits (l.w1c ||| l.w1s) hi lo = 0) :
    getBits (mergeWrite l b old w) hi lo = getBits w hi lo := by
  apply getBits_congr
  intro i h1 h2
  have k := testBit_of_bits_ones h h1 h2
  have k0 := testBit_of_bits_zero h0 h1 h2
  simp only [Nat.testBit_or, Bool.or_eq_false_iff] at k k0
  by_cases hi : i < 64
  · simp only [mergeWrite, BitVec.getLsbD_or, BitVec.getLsbD_and, BitVec.getLsbD_not, BitVec.getLsbD_ofNat]
    cases b <;> cases hr : l.rw.testBit i <;> cases hw : l.wo.testBit i <;> cases hx : l.rwl.testBit i <;>
      simp [hi, -BitVec.getLsbD_eq_getElem, BitVec.getLsbD_ofNat] <;> simp_all [-BitVec.getLsbD_eq_getElem]
  · rw [BitVec.getLsbD_of_ge _ _ (by omega), BitVec.getLsbD_of_ge _ _ (by omega)]

theorem fld_writeReg_keep (s : State) (f : Field) (n i : Nat) (w : Word)
    (h : bits (f.reg.layout.rw ||| f.reg.layout.wo ||| (if s.locked f.reg n then 0 else f.reg.layout.rwl) ||| f.reg.layout.w1c ||| f.reg.layout.w1s)
      f.hi f.lo = 0) : (s.writeReg f.reg n i w).fld f n i = s.fld f n i := by
  simp [State.fld, getBits_mergeWrite_keep _ _ _ _ _ _ h]

theorem fld_writeReg_set (s : State) (f : Field) (n i : Nat) (w : Word)
    (h : bits (f.reg.layout.rw ||| f.reg.layout.wo ||| (if s.locked f.reg n then 0 else f.reg.layout.rwl)) f.hi f.lo = 2 ^ (f.hi + 1 - f.lo) - 1)
    (h0 : bits (f.reg.layout.w1c ||| f.reg.layout.w1s) f.hi f.lo = 0) : (s.writeReg f.reg n i w).fld f n i = wfld w f := by
  simp [State.fld, wfld, getBits_mergeWrite_set _ _ _ _ _ _ h h0]

/-- Firing a source that is not fatal changes the registers of Gong only. -/
theorem only_fire (s : State) (g src addr init typ : Nat) (hm : Mild s g src) : Only gongRegs s (s.fire g src addr init typ) :=
  (Only.refl _ _).fire _ _ _ _ _ hm fun _ h => h

/-! ## What firing a source leaves alone, whatever its severity -/

theorem foldl_keeps {α β : Type} (P : State → β) (f : State → α → State) (l : List α) (s : State) (h : ∀ t x, P (f t x) = P t) :
    P (l.foldl f s) = P s := by
  induction l generalizing s with
  | nil => rfl
  | cons a l ih => rw [List.foldl_cons, ih, h]

theorem regs_logAer (s : State) (f : Nat) (e : AerError) : (s.logAer f e).regs = s.regs := rfl

theorem regs_fatalAer (s : State) (g src : Nat) : (s.fatalAer g src).regs = s.regs := by
  unfold State.fatalAer
  split
  · dsimp only; split <;> rfl
  · split
    · exact foldl_keeps State.regs _ _ _ fun t x => by split <;> rfl
    · rfl

theorem regs_gainFatal (s : State) (g src : Nat) (a : Bool) : (s.gainFatal g src a).regs = s.regs := by
  unfold State.gainFatal; dsimp only; repeat' split
  all_goals rfl

/-- Firing a source changes no register outside Gong. -/
theorem raw_fire_ne (s : State) (g src addr init typ : Nat) (r : RegName) (hr : r ∉ gongRegs) (n i : Nat) :
    (s.fire g src addr init typ).raw r n i = s.raw r n i := by
  have hc : (countField (32 * g + src)).reg ≠ r := by rintro rfl; simp [countField, gongRegs] at hr
  have key : ∀ t : State, RegsBut gongRegs s t → ∀ w : Bool,
      (let u := t.fatalAer g src; if w = true then u else u.gainFatal g src false).raw r n i = s.raw r n i := by
    intro t ht w
    dsimp only
    split
    · exact (congrArg (fun x => Store.get _ x _) (regs_fatalAer t g src)).trans (ht r hr n i)
    · exact (congrArg (fun x => Store.get _ x _) ((regs_gainFatal _ g src false).trans (regs_fatalAer t g src))).trans (ht r hr n i)
  have h1 : RegsBut gongRegs s (s.sat (countField (32 * g + src)) 1 0 ((32 * g + src) / 4)) :=
    ((Only.refl _ _).sat _ _ _ _ (by simp [countField, gongRegs])).2
  unfold State.fire
  dsimp only
  split
  · exact h1 r hr n i
  · have h2 : ∀ a b c d e, RegsBut gongRegs s
        (((s.sat (countField (32 * g + src)) 1 0 ((32 * g + src) / 4)).put ⟨.GONG_STATUS, src, src⟩ 1 0 g).firstError g src a b c d e) := fun a b c d e =>
      ((((Only.refl _ _).sat _ _ _ _ (by simp [countField, gongRegs])).put _ _ _ _
        (by decide : RegName.GONG_STATUS ∈ gongRegs)).firstError _ _ _ _ _ _ _ fun _ h => h).2
    split
    · exact key _ (h2 _ _ _ _ _) _
    · exact h2 _ _ _ _ _ r hr n i

theorem fatalAer_bus (s : State) (g src : Nat) : (s.fatalAer g src).bus = s.bus := by
  unfold State.fatalAer
  split
  · dsimp only; split <;> rfl
  · split
    · exact foldl_keeps State.bus _ _ _ fun t x => by split <;> rfl
    · rfl

@[simp] theorem fire_bus (s : State) (g src addr init typ : Nat) : (s.fire g src addr init typ).bus = s.bus := by
  have hf : ∀ (t : State) a b c d e, (t.firstError g src a b c d e).bus = t.bus := by
    intro t a b c d e; unfold State.firstError; split <;> simp only [sat_bus, setRaw_bus]
  have hg : ∀ t : State, (t.gainFatal g src false).bus = t.bus := by
    intro t; unfold State.gainFatal; dsimp only; repeat' split
    all_goals rfl
  unfold State.fire; dsimp only; split
  · rfl
  · split
    · split <;> simp only [hg, fatalAer_bus, hf, put_bus, sat_bus]
    · simp only [hf, put_bus, sat_bus]

theorem fatalAer_modes (s : State) (g src : Nat) : (s.fatalAer g src).modes = s.modes := by
  unfold State.fatalAer
  split
  · dsimp only; split <;> rfl
  · split
    · exact foldl_keeps State.modes _ _ _ fun t x => by split <;> rfl
    · rfl

@[simp] theorem fire_modes (s : State) (g src addr init typ : Nat) : (s.fire g src addr init typ).modes = s.modes := by
  have hf : ∀ (t : State) a b c d e, (t.firstError g src a b c d e).modes = t.modes := by
    intro t a b c d e; unfold State.firstError; split <;> simp only [sat_modes, setRaw_modes]
  have hg : ∀ t : State, (t.gainFatal g src false).modes = t.modes := by
    intro t; unfold State.gainFatal; dsimp only; repeat' split
    all_goals rfl
  unfold State.fire; dsimp only; split
  · rfl
  · split
    · split <;> simp only [hg, fatalAer_modes, hf, put_modes, sat_modes]
    · simp only [hf, put_modes, sat_modes]

theorem fatalAer_car (s : State) (g src : Nat) : (s.fatalAer g src).car = s.car := by
  unfold State.fatalAer
  split
  · dsimp only; split <;> rfl
  · split
    · exact foldl_keeps State.car _ _ _ fun t x => by split <;> rfl
    · rfl

@[simp] theorem fire_car (s : State) (g src addr init typ : Nat) : (s.fire g src addr init typ).car = s.car := by
  have hf : ∀ (t : State) a b c d e, (t.firstError g src a b c d e).car = t.car := by
    intro t a b c d e; unfold State.firstError; split <;> simp only [sat_car, setRaw_car]
  have hg : ∀ t : State, (t.gainFatal g src false).car = t.car := by
    intro t; unfold State.gainFatal; dsimp only; repeat' split
    all_goals rfl
  unfold State.fire; dsimp only; split
  · rfl
  · split
    · split <;> simp only [hg, fatalAer_car, hf, put_car, sat_car]
    · simp only [hf, put_car, sat_car]

theorem fatalAer_td (s : State) (g src : Nat) : (s.fatalAer g src).td = s.td := by
  unfold State.fatalAer
  split
  · dsimp only; split <;> rfl
  · split
    · exact foldl_keeps State.td _ _ _ fun t x => by split <;> rfl
    · rfl

@[simp] theorem fire_td (s : State) (g src addr init typ : Nat) : (s.fire g src addr init typ).td = s.td := by
  have hf : ∀ (t : State) a b c d e, (t.firstError g src a b c d e).td = t.td := by
    intro t a b c d e; unfold State.firstError; split <;> simp only [sat_td, setRaw_td]
  have hg : ∀ t : State, (t.gainFatal g src false).td = t.td := by
    intro t; unfold State.gainFatal; dsimp only; repeat' split
    all_goals rfl
  unfold State.fire; dsimp only; split
  · rfl
  · split
    · split <;> simp only [hg, fatalAer_td, hf, put_td, sat_td]
    · simp only [hf, put_td, sat_td]

theorem fatalAer_ports (s : State) (g src : Nat) : (s.fatalAer g src).ports = s.ports := by
  unfold State.fatalAer
  split
  · dsimp only; split <;> rfl
  · split
    · exact foldl_keeps State.ports _ _ _ fun t x => by split <;> rfl
    · rfl

@[simp] theorem fire_ports (s : State) (g src addr init typ : Nat) : (s.fire g src addr init typ).ports = s.ports := by
  have hf : ∀ (t : State) a b c d e, (t.firstError g src a b c d e).ports = t.ports := by
    intro t a b c d e; unfold State.firstError; split <;> simp only [sat_ports, setRaw_ports]
  have hg : ∀ t : State, (t.gainFatal g src false).ports = t.ports := by
    intro t; unfold State.gainFatal; dsimp only; repeat' split
    all_goals rfl
  unfold State.fire; dsimp only; split
  · rfl
  · split
    · split <;> simp only [hg, fatalAer_ports, hf, put_ports, sat_ports]
    · simp only [hf, put_ports, sat_ports]

theorem fatalAer_net (s : State) (g src : Nat) : (s.fatalAer g src).net = s.net := by
  unfold State.fatalAer
  split
  · dsimp only; split <;> rfl
  · split
    · exact foldl_keeps State.net _ _ _ fun t x => by split <;> rfl
    · rfl

@[simp] theorem fire_net (s : State) (g src addr init typ : Nat) : (s.fire g src addr init typ).net = s.net := by
  have hf : ∀ (t : State) a b c d e, (t.firstError g src a b c d e).net = t.net := by
    intro t a b c d e; unfold State.firstError; split <;> simp only [sat_net, setRaw_net]
  have hg : ∀ t : State, (t.gainFatal g src false).net = t.net := by
    intro t; unfold State.gainFatal; dsimp only; repeat' split
    all_goals rfl
  unfold State.fire; dsimp only; split
  · rfl
  · split
    · split <;> simp only [hg, fatalAer_net, hf, put_net, sat_net]
    · simp only [hf, put_net, sat_net]

theorem fatalAer_tbl (s : State) (g src : Nat) : (s.fatalAer g src).tbl = s.tbl := by
  unfold State.fatalAer
  split
  · dsimp only; split <;> rfl
  · split
    · exact foldl_keeps State.tbl _ _ _ fun t x => by split <;> rfl
    · rfl

@[simp] theorem fire_tbl (s : State) (g src addr init typ : Nat) : (s.fire g src addr init typ).tbl = s.tbl := by
  have hf : ∀ (t : State) a b c d e, (t.firstError g src a b c d e).tbl = t.tbl := by
    intro t a b c d e; unfold State.firstError; split <;> simp only [sat_tbl, setRaw_tbl]
  have hg : ∀ t : State, (t.gainFatal g src false).tbl = t.tbl := by
    intro t; unfold State.gainFatal; dsimp only; repeat' split
    all_goals rfl
  unfold State.fire; dsimp only; split
  · rfl
  · split
    · split <;> simp only [hg, fatalAer_tbl, hf, put_tbl, sat_tbl]
    · simp only [hf, put_tbl, sat_tbl]

theorem fatalAer_tbe (s : State) (g src : Nat) : (s.fatalAer g src).tbe = s.tbe := by
  unfold State.fatalAer
  split
  · dsimp only; split <;> rfl
  · split
    · exact foldl_keeps State.tbe _ _ _ fun t x => by split <;> rfl
    · rfl

@[simp] theorem fire_tbe (s : State) (g src addr init typ : Nat) : (s.fire g src addr init typ).tbe = s.tbe := by
  have hf : ∀ (t : State) a b c d e, (t.firstError g src a b c d e).tbe = t.tbe := by
    intro t a b c d e; unfold State.firstError; split <;> simp only [sat_tbe, setRaw_tbe]
  have hg : ∀ t : State, (t.gainFatal g src false).tbe = t.tbe := by
    intro t; unfold State.gainFatal; dsimp only; repeat' split
    all_goals rfl
  unfold State.fire; dsimp only; split
  · rfl
  · split
    · split <;> simp only [hg, fatalAer_tbe, hf, put_tbe, sat_tbe]
    · simp only [hf, put_tbe, sat_tbe]

theorem fatalAer_hq (s : State) (g src : Nat) : (s.fatalAer g src).hq = s.hq := by
  unfold State.fatalAer
  split
  · dsimp only; split <;> rfl
  · split
    · exact foldl_keeps State.hq _ _ _ fun t x => by split <;> rfl
    · rfl

@[simp] theorem fire_hq (s : State) (g src addr init typ : Nat) : (s.fire g src addr init typ).hq = s.hq := by
  have hf : ∀ (t : State) a b c d e, (t.firstError g src a b c d e).hq = t.hq := by
    intro t a b c d e; unfold State.firstError; split <;> simp only [sat_hq, setRaw_hq]
  have hg : ∀ t : State, (t.gainFatal g src false).hq = t.hq := by
    intro t; unfold State.gainFatal; dsimp only; repeat' split
    all_goals rfl
  unfold State.fire; dsimp only; split
  · rfl
  · split
    · split <;> simp only [hg, fatalAer_hq, hf, put_hq, sat_hq]
    · simp only [hf, put_hq, sat_hq]

theorem fatalAer_tel (s : State) (g src : Nat) : (s.fatalAer g src).tel = s.tel := by
  unfold State.fatalAer
  split
  · dsimp only; split <;> rfl
  · split
    · exact foldl_keeps State.tel _ _ _ fun t x => by split <;> rfl
    · rfl

@[simp] theorem fire_tel (s : State) (g src addr init typ : Nat) : (s.fire g src addr init typ).tel = s.tel := by
  have hf : ∀ (t : State) a b c d e, (t.firstError g src a b c d e).tel = t.tel := by
    intro t a b c d e; unfold State.firstError; split <;> simp only [sat_tel, setRaw_tel]
  have hg : ∀ t : State, (t.gainFatal g src false).tel = t.tel := by
    intro t; unfold State.gainFatal; dsimp only; repeat' split
    all_goals rfl
  unfold State.fire; dsimp only; split
  · rfl
  · split
    · split <;> simp only [hg, fatalAer_tel, hf, put_tel, sat_tel]
    · simp only [hf, put_tel, sat_tel]

theorem fatalAer_sec (s : State) (g src : Nat) : (s.fatalAer g src).sec = s.sec := by
  unfold State.fatalAer
  split
  · dsimp only; split <;> rfl
  · split
    · exact foldl_keeps State.sec _ _ _ fun t x => by split <;> rfl
    · rfl

@[simp] theorem fire_sec (s : State) (g src addr init typ : Nat) : (s.fire g src addr init typ).sec = s.sec := by
  have hf : ∀ (t : State) a b c d e, (t.firstError g src a b c d e).sec = t.sec := by
    intro t a b c d e; unfold State.firstError; split <;> simp only [sat_sec, setRaw_sec]
  have hg : ∀ t : State, (t.gainFatal g src false).sec = t.sec := by
    intro t; unfold State.gainFatal; dsimp only; repeat' split
    all_goals rfl
  unfold State.fire; dsimp only; split
  · rfl
  · split
    · split <;> simp only [hg, fatalAer_sec, hf, put_sec, sat_sec]
    · simp only [hf, put_sec, sat_sec]

theorem fatalAer_mbx (s : State) (g src : Nat) : (s.fatalAer g src).mbx = s.mbx := by
  unfold State.fatalAer
  split
  · dsimp only; split <;> rfl
  · split
    · exact foldl_keeps State.mbx _ _ _ fun t x => by split <;> rfl
    · rfl

@[simp] theorem fire_mbx (s : State) (g src addr init typ : Nat) : (s.fire g src addr init typ).mbx = s.mbx := by
  have hf : ∀ (t : State) a b c d e, (t.firstError g src a b c d e).mbx = t.mbx := by
    intro t a b c d e; unfold State.firstError; split <;> simp only [sat_mbx, setRaw_mbx]
  have hg : ∀ t : State, (t.gainFatal g src false).mbx = t.mbx := by
    intro t; unfold State.gainFatal; dsimp only; repeat' split
    all_goals rfl
  unfold State.fire; dsimp only; split
  · rfl
  · split
    · split <;> simp only [hg, fatalAer_mbx, hf, put_mbx, sat_mbx]
    · simp only [hf, put_mbx, sat_mbx]

theorem fatalAer_nvm (s : State) (g src : Nat) : (s.fatalAer g src).nvm = s.nvm := by
  unfold State.fatalAer
  split
  · dsimp only; split <;> rfl
  · split
    · exact foldl_keeps State.nvm _ _ _ fun t x => by split <;> rfl
    · rfl

@[simp] theorem fire_nvm (s : State) (g src addr init typ : Nat) : (s.fire g src addr init typ).nvm = s.nvm := by
  have hf : ∀ (t : State) a b c d e, (t.firstError g src a b c d e).nvm = t.nvm := by
    intro t a b c d e; unfold State.firstError; split <;> simp only [sat_nvm, setRaw_nvm]
  have hg : ∀ t : State, (t.gainFatal g src false).nvm = t.nvm := by
    intro t; unfold State.gainFatal; dsimp only; repeat' split
    all_goals rfl
  unfold State.fire; dsimp only; split
  · rfl
  · split
    · split <;> simp only [hg, fatalAer_nvm, hf, put_nvm, sat_nvm]
    · simp only [hf, put_nvm, sat_nvm]

theorem fatalAer_xpt (s : State) (g src : Nat) : (s.fatalAer g src).xpt = s.xpt := by
  unfold State.fatalAer
  split
  · dsimp only; split <;> rfl
  · split
    · exact foldl_keeps State.xpt _ _ _ fun t x => by split <;> rfl
    · rfl

@[simp] theorem fire_xpt (s : State) (g src addr init typ : Nat) : (s.fire g src addr init typ).xpt = s.xpt := by
  have hf : ∀ (t : State) a b c d e, (t.firstError g src a b c d e).xpt = t.xpt := by
    intro t a b c d e; unfold State.firstError; split <;> simp only [sat_xpt, setRaw_xpt]
  have hg : ∀ t : State, (t.gainFatal g src false).xpt = t.xpt := by
    intro t; unfold State.gainFatal; dsimp only; repeat' split
    all_goals rfl
  unfold State.fire; dsimp only; split
  · rfl
  · split
    · split <;> simp only [hg, fatalAer_xpt, hf, put_xpt, sat_xpt]
    · simp only [hf, put_xpt, sat_xpt]

theorem fatalAer_edges (s : State) (g src : Nat) : (s.fatalAer g src).edges = s.edges := by
  unfold State.fatalAer
  split
  · dsimp only; split <;> rfl
  · split
    · exact foldl_keeps State.edges _ _ _ fun t x => by split <;> rfl
    · rfl

@[simp] theorem fire_edges (s : State) (g src addr init typ : Nat) : (s.fire g src addr init typ).edges = s.edges := by
  have hf : ∀ (t : State) a b c d e, (t.firstError g src a b c d e).edges = t.edges := by
    intro t a b c d e; unfold State.firstError; split <;> simp only [sat_edges, setRaw_edges]
  have hg : ∀ t : State, (t.gainFatal g src false).edges = t.edges := by
    intro t; unfold State.gainFatal; dsimp only; repeat' split
    all_goals rfl
  unfold State.fire; dsimp only; split
  · rfl
  · split
    · split <;> simp only [hg, fatalAer_edges, hf, put_edges, sat_edges]
    · simp only [hf, put_edges, sat_edges]

theorem fatalAer_ddr (s : State) (g src : Nat) : (s.fatalAer g src).ddr = s.ddr := by
  unfold State.fatalAer
  split
  · dsimp only; split <;> rfl
  · split
    · exact foldl_keeps State.ddr _ _ _ fun t x => by split <;> rfl
    · rfl

@[simp] theorem fire_ddr (s : State) (g src addr init typ : Nat) : (s.fire g src addr init typ).ddr = s.ddr := by
  have hf : ∀ (t : State) a b c d e, (t.firstError g src a b c d e).ddr = t.ddr := by
    intro t a b c d e; unfold State.firstError; split <;> simp only [sat_ddr, setRaw_ddr]
  have hg : ∀ t : State, (t.gainFatal g src false).ddr = t.ddr := by
    intro t; unfold State.gainFatal; dsimp only; repeat' split
    all_goals rfl
  unfold State.fire; dsimp only; split
  · rfl
  · split
    · split <;> simp only [hg, fatalAer_ddr, hf, put_ddr, sat_ddr]
    · simp only [hf, put_ddr, sat_ddr]

theorem fatalAer_host (s : State) (g src : Nat) : (s.fatalAer g src).host = s.host := by
  unfold State.fatalAer
  split
  · dsimp only; split <;> rfl
  · split
    · exact foldl_keeps State.host _ _ _ fun t x => by split <;> rfl
    · rfl

@[simp] theorem fire_host (s : State) (g src addr init typ : Nat) : (s.fire g src addr init typ).host = s.host := by
  have hf : ∀ (t : State) a b c d e, (t.firstError g src a b c d e).host = t.host := by
    intro t a b c d e; unfold State.firstError; split <;> simp only [sat_host, setRaw_host]
  have hg : ∀ t : State, (t.gainFatal g src false).host = t.host := by
    intro t; unfold State.gainFatal; dsimp only; repeat' split
    all_goals rfl
  unfold State.fire; dsimp only; split
  · rfl
  · split
    · split <;> simp only [hg, fatalAer_host, hf, put_host, sat_host]
    · simp only [hf, put_host, sat_host]

theorem fatalAer_free (s : State) (g src : Nat) : (s.fatalAer g src).free = s.free := by
  unfold State.fatalAer
  split
  · dsimp only; split <;> rfl
  · split
    · exact foldl_keeps State.free _ _ _ fun t x => by split <;> rfl
    · rfl

@[simp] theorem fire_free (s : State) (g src addr init typ : Nat) : (s.fire g src addr init typ).free = s.free := by
  have hf : ∀ (t : State) a b c d e, (t.firstError g src a b c d e).free = t.free := by
    intro t a b c d e; unfold State.firstError; split <;> simp only [sat_free, setRaw_free]
  have hg : ∀ t : State, (t.gainFatal g src false).free = t.free := by
    intro t; unfold State.gainFatal; dsimp only; repeat' split
    all_goals rfl
  unfold State.fire; dsimp only; split
  · rfl
  · split
    · split <;> simp only [hg, fatalAer_free, hf, put_free, sat_free]
    · simp only [hf, put_free, sat_free]

theorem fatalAer_pending (s : State) (g src : Nat) : (s.fatalAer g src).pending = s.pending := by
  unfold State.fatalAer
  split
  · dsimp only; split <;> rfl
  · split
    · exact foldl_keeps State.pending _ _ _ fun t x => by split <;> rfl
    · rfl

@[simp] theorem fire_pending (s : State) (g src addr init typ : Nat) : (s.fire g src addr init typ).pending = s.pending := by
  have hf : ∀ (t : State) a b c d e, (t.firstError g src a b c d e).pending = t.pending := by
    intro t a b c d e; unfold State.firstError; split <;> simp only [sat_pending, setRaw_pending]
  have hg : ∀ t : State, (t.gainFatal g src false).pending = t.pending := by
    intro t; unfold State.gainFatal; dsimp only; repeat' split
    all_goals rfl
  unfold State.fire; dsimp only; split
  · rfl
  · split
    · split <;> simp only [hg, fatalAer_pending, hf, put_pending, sat_pending]
    · simp only [hf, put_pending, sat_pending]

theorem regsBut_fire (s : State) (g src addr init typ : Nat) : RegsBut gongRegs s (s.fire g src addr init typ) :=
  fun r hr n i => raw_fire_ne s g src addr init typ r hr n i

theorem fld_fire_ne (s : State) (g src addr init typ : Nat) (f : Field) (n i : Nat) (h : f.reg ∉ gongRegs) :
    (s.fire g src addr init typ).fld f n i = s.fld f n i := (regsBut_fire s g src addr init typ).fld f h n i

end Sys2Proof.Machine
end

