-- ==== Sys2Proof/Laws/CarFrame.lean ====
section
/-! SUPPORT. What Carillon's operations leave alone: every register outside Carillon's results and Gong, and every unit's state but
Carillon's, Gong's and the error logs of the host links. -/
namespace Sys2Proof.Machine

/-- The registers that Carillon's operations write by themselves, and Gong's. -/
def carRegs : List RegName := [.CAR_STATUS, .CAR_ADJ, .CAR_EPS_BASE, .CAR_EPS_GROWTH, .CAR_EPS_TIME, .CAR_SRC_STATUS, .CAR_UTC, .CAR_LEAP_TIME, .CAR_LAST_MEAS] ++ gongRegs

/-- Beyond `carRegs`, Carillon, Gong and the host links, `t` is `z`. -/
def CarKeeps (z t : State) : Prop := RegsBut carRegs z t ∧ t.bus = z.bus ∧ t.modes = z.modes ∧ t.td = z.td ∧ t.ports = z.ports ∧ t.net = z.net ∧ t.tbl = z.tbl ∧ t.tbe = z.tbe ∧ t.hq = z.hq ∧ t.tel = z.tel ∧ t.sec = z.sec ∧ t.mbx = z.mbx ∧ t.nvm = z.nvm ∧ t.xpt = z.xpt ∧ t.edges = z.edges ∧ t.ddr = z.ddr ∧ t.host = z.host ∧ t.free = z.free ∧ t.pending = z.pending

@[simp] theorem carKeeps_self (z : State) : CarKeeps z z := by simp [CarKeeps, RegsBut]

@[simp] theorem carKeeps_mk (z x : State) (a2 a3 a4 a5 a6 a7 a8 a9 a10 a11 a12 a13 a14 a15 a16 a17 a18 a19 a20 a21 a22) :
    CarKeeps z (State.mk x.regs a2 a3 a4 a5 a6 a7 a8 a9 a10 a11 a12 a13 a14 a15 a16 a17 a18 a19 a20 a21 a22) ↔ RegsBut carRegs z x ∧ a2 = z.bus ∧ a3 = z.modes ∧ a6 = z.td ∧ a7 = z.ports ∧ a9 = z.net ∧ a10 = z.tbl ∧ a11 = z.tbe ∧ a12 = z.hq ∧ a13 = z.tel ∧ a14 = z.sec ∧ a15 = z.mbx ∧ a16 = z.nvm ∧ a17 = z.xpt ∧ a18 = z.edges ∧ a19 = z.ddr ∧ a20 = z.host ∧ a21 = z.free ∧ a22 = z.pending := Iff.rfl

@[simp] theorem carKeeps_fold (z s : State) : (RegsBut carRegs z s ∧ s.bus = z.bus ∧ s.modes = z.modes ∧ s.td = z.td ∧ s.ports = z.ports ∧ s.net = z.net ∧ s.tbl = z.tbl ∧ s.tbe = z.tbe ∧ s.hq = z.hq ∧ s.tel = z.tel ∧ s.sec = z.sec ∧ s.mbx = z.mbx ∧ s.nvm = z.nvm ∧ s.xpt = z.xpt ∧ s.edges = z.edges ∧ s.ddr = z.ddr ∧ s.host = z.host ∧ s.free = z.free ∧ s.pending = z.pending) ↔ CarKeeps z s := Iff.rfl

theorem regsBut_setRaw_iff (l : List RegName) (z s : State) (r : RegName) (n i : Nat) (w : Word) (h : r ∈ l) :
    RegsBut l z (s.setRaw r n i w) ↔ RegsBut l z s := by
  have e : ∀ q, q ∉ l → ∀ m j, (s.setRaw r n i w).raw q m j = s.raw q m j := fun q hq m j =>
    raw_setRaw_ne s r q n i m j w fun e => hq (e ▸ h)
  constructor
  · intro k q hq m j; rw [← e q hq]; exact k q hq m j
  · intro k q hq m j; rw [e q hq]; exact k q hq m j

theorem regsBut_put_iff (l : List RegName) (z s : State) (f : Field) (v n i : Nat) (h : f.reg ∈ l) :
    RegsBut l z (s.put f v n i) ↔ RegsBut l z s := regsBut_setRaw_iff l z s _ _ _ _ h

theorem regsBut_sat_iff (l : List RegName) (z s : State) (f : Field) (d n i : Nat) (h : f.reg ∈ l) :
    RegsBut l z (s.sat f d n i) ↔ RegsBut l z s := regsBut_setRaw_iff l z s _ _ _ _ h

theorem regsBut_fire_iff (l : List RegName) (z s : State) (g src addr init typ : Nat) (h : ∀ r ∈ gongRegs, r ∈ l) :
    RegsBut l z (s.fire g src addr init typ) ↔ RegsBut l z s := by
  have e : ∀ q, q ∉ l → ∀ m j, (s.fire g src addr init typ).raw q m j = s.raw q m j := fun q hq m j =>
    raw_fire_ne s g src addr init typ q (fun k => hq (h q k)) m j
  constructor
  · intro k q hq m j; rw [← e q hq]; exact k q hq m j
  · intro k q hq m j; rw [e q hq]; exact k q hq m j

theorem regsBut_foldl_iff {α : Type} (l : List RegName) (z : State) (f : State → α → State) (xs : List α) (s : State)
    (h : ∀ t x, RegsBut l z (f t x) ↔ RegsBut l z t) : RegsBut l z (xs.foldl f s) ↔ RegsBut l z s := by
  induction xs generalizing s with
  | nil => rfl
  | cons a xs ih => rw [List.foldl_cons, ih, h]

theorem carKeeps_foldl {α : Type} (z : State) (f : State → α → State) (l : List α) (s : State)
    (h : ∀ y t x, CarKeeps y (f t x) ↔ CarKeeps y t) : CarKeeps z (l.foldl f s) ↔ CarKeeps z s := by
  induction l generalizing s with
  | nil => rfl
  | cons a l ih => rw [List.foldl_cons, ih, h]

@[simp] theorem carKeeps_ite (z a b : State) (c : Prop) [Decidable c] :
    CarKeeps z (if c then a else b) ↔ if c then CarKeeps z a else CarKeeps z b := by
  split <;> rfl

theorem carKeeps_put (z s : State) (f : Field) (v n i : Nat) (h : f.reg ∈ carRegs) : CarKeeps z (s.put f v n i) ↔ CarKeeps z s := by
  unfold CarKeeps; rw [regsBut_put_iff _ _ _ _ _ _ _ h]; rfl

theorem carKeeps_sat (z s : State) (f : Field) (d n i : Nat) (h : f.reg ∈ carRegs) : CarKeeps z (s.sat f d n i) ↔ CarKeeps z s :=
  carKeeps_put z s f _ n i h

theorem carKeeps_setRaw (z s : State) (r : RegName) (n i : Nat) (w : Word) (h : r ∈ carRegs) : CarKeeps z (s.setRaw r n i w) ↔ CarKeeps z s := by
  unfold CarKeeps; rw [regsBut_setRaw_iff _ _ _ _ _ _ _ h]; rfl

@[simp] theorem carKeeps_fire (z s : State) (g src addr init typ : Nat) : CarKeeps z (s.fire g src addr init typ) ↔ CarKeeps z s := by
  unfold CarKeeps; rw [regsBut_fire_iff _ _ _ _ _ _ _ _ (by decide)]; simp

@[simp] theorem carKeeps_put_CAR_STATUS_STATE (z s : State) (v n i : Nat) : CarKeeps z (s.put CAR_STATUS.STATE v n i) ↔ CarKeeps z s := carKeeps_put _ _ _ _ _ _ (by decide)
@[simp] theorem regsBut_put_CAR_STATUS_STATE (z s : State) (v n i : Nat) : RegsBut carRegs z (s.put CAR_STATUS.STATE v n i) ↔ RegsBut carRegs z s :=
  regsBut_put_iff _ _ _ _ _ _ _ (by decide)
@[simp] theorem carKeeps_put_CAR_STATUS_HELD (z s : State) (v n i : Nat) : CarKeeps z (s.put CAR_STATUS.HELD v n i) ↔ CarKeeps z s := carKeeps_put _ _ _ _ _ _ (by decide)
@[simp] theorem regsBut_put_CAR_STATUS_HELD (z s : State) (v n i : Nat) : RegsBut carRegs z (s.put CAR_STATUS.HELD v n i) ↔ RegsBut carRegs z s :=
  regsBut_put_iff _ _ _ _ _ _ _ (by decide)
@[simp] theorem carKeeps_put_CAR_STATUS_CARRY (z s : State) (v n i : Nat) : CarKeeps z (s.put CAR_STATUS.CARRY v n i) ↔ CarKeeps z s := carKeeps_put _ _ _ _ _ _ (by decide)
@[simp] theorem regsBut_put_CAR_STATUS_CARRY (z s : State) (v n i : Nat) : RegsBut carRegs z (s.put CAR_STATUS.CARRY v n i) ↔ RegsBut carRegs z s :=
  regsBut_put_iff _ _ _ _ _ _ _ (by decide)
@[simp] theorem carKeeps_put_CAR_STATUS_UNSYNC (z s : State) (v n i : Nat) : CarKeeps z (s.put CAR_STATUS.UNSYNC v n i) ↔ CarKeeps z s := carKeeps_put _ _ _ _ _ _ (by decide)
@[simp] theorem regsBut_put_CAR_STATUS_UNSYNC (z s : State) (v n i : Nat) : RegsBut carRegs z (s.put CAR_STATUS.UNSYNC v n i) ↔ RegsBut carRegs z s :=
  regsBut_put_iff _ _ _ _ _ _ _ (by decide)
@[simp] theorem carKeeps_put_CAR_STATUS_DEGRADED (z s : State) (v n i : Nat) : CarKeeps z (s.put CAR_STATUS.DEGRADED v n i) ↔ CarKeeps z s := carKeeps_put _ _ _ _ _ _ (by decide)
@[simp] theorem regsBut_put_CAR_STATUS_DEGRADED (z s : State) (v n i : Nat) : RegsBut carRegs z (s.put CAR_STATUS.DEGRADED v n i) ↔ RegsBut carRegs z s :=
  regsBut_put_iff _ _ _ _ _ _ _ (by decide)
@[simp] theorem carKeeps_put_CAR_STATUS_SRC (z s : State) (v n i : Nat) : CarKeeps z (s.put CAR_STATUS.SRC v n i) ↔ CarKeeps z s := carKeeps_put _ _ _ _ _ _ (by decide)
@[simp] theorem regsBut_put_CAR_STATUS_SRC (z s : State) (v n i : Nat) : RegsBut carRegs z (s.put CAR_STATUS.SRC v n i) ↔ RegsBut carRegs z s :=
  regsBut_put_iff _ _ _ _ _ _ _ (by decide)
@[simp] theorem carKeeps_put_CAR_STATUS_CONFLICT (z s : State) (v n i : Nat) : CarKeeps z (s.put CAR_STATUS.CONFLICT v n i) ↔ CarKeeps z s := carKeeps_put _ _ _ _ _ _ (by decide)
@[simp] theorem regsBut_put_CAR_STATUS_CONFLICT (z s : State) (v n i : Nat) : RegsBut carRegs z (s.put CAR_STATUS.CONFLICT v n i) ↔ RegsBut carRegs z s :=
  regsBut_put_iff _ _ _ _ _ _ _ (by decide)
@[simp] theorem carKeeps_put_CAR_STATUS_TOD_VALID (z s : State) (v n i : Nat) : CarKeeps z (s.put CAR_STATUS.TOD_VALID v n i) ↔ CarKeeps z s := carKeeps_put _ _ _ _ _ _ (by decide)
@[simp] theorem regsBut_put_CAR_STATUS_TOD_VALID (z s : State) (v n i : Nat) : RegsBut carRegs z (s.put CAR_STATUS.TOD_VALID v n i) ↔ RegsBut carRegs z s :=
  regsBut_put_iff _ _ _ _ _ _ _ (by decide)
@[simp] theorem carKeeps_put_CAR_STATUS_SYNCE_IN_USE (z s : State) (v n i : Nat) : CarKeeps z (s.put CAR_STATUS.SYNCE_IN_USE v n i) ↔ CarKeeps z s := carKeeps_put _ _ _ _ _ _ (by decide)
@[simp] theorem regsBut_put_CAR_STATUS_SYNCE_IN_USE (z s : State) (v n i : Nat) : RegsBut carRegs z (s.put CAR_STATUS.SYNCE_IN_USE v n i) ↔ RegsBut carRegs z s :=
  regsBut_put_iff _ _ _ _ _ _ _ (by decide)
@[simp] theorem carKeeps_put_CAR_ADJ_ADJ (z s : State) (v n i : Nat) : CarKeeps z (s.put CAR_ADJ.ADJ v n i) ↔ CarKeeps z s := carKeeps_put _ _ _ _ _ _ (by decide)
@[simp] theorem regsBut_put_CAR_ADJ_ADJ (z s : State) (v n i : Nat) : RegsBut carRegs z (s.put CAR_ADJ.ADJ v n i) ↔ RegsBut carRegs z s :=
  regsBut_put_iff _ _ _ _ _ _ _ (by decide)
@[simp] theorem carKeeps_put_CAR_SRC_STATUS_SELECTED (z s : State) (v n i : Nat) : CarKeeps z (s.put CAR_SRC_STATUS.SELECTED v n i) ↔ CarKeeps z s := carKeeps_put _ _ _ _ _ _ (by decide)
@[simp] theorem regsBut_put_CAR_SRC_STATUS_SELECTED (z s : State) (v n i : Nat) : RegsBut carRegs z (s.put CAR_SRC_STATUS.SELECTED v n i) ↔ RegsBut carRegs z s :=
  regsBut_put_iff _ _ _ _ _ _ _ (by decide)
@[simp] theorem carKeeps_put_CAR_SRC_STATUS_WTR (z s : State) (v n i : Nat) : CarKeeps z (s.put CAR_SRC_STATUS.WTR v n i) ↔ CarKeeps z s := carKeeps_put _ _ _ _ _ _ (by decide)
@[simp] theorem regsBut_put_CAR_SRC_STATUS_WTR (z s : State) (v n i : Nat) : RegsBut carRegs z (s.put CAR_SRC_STATUS.WTR v n i) ↔ RegsBut carRegs z s :=
  regsBut_put_iff _ _ _ _ _ _ _ (by decide)
@[simp] theorem carKeeps_put_CAR_SRC_STATUS_USABLE (z s : State) (v n i : Nat) : CarKeeps z (s.put CAR_SRC_STATUS.USABLE v n i) ↔ CarKeeps z s := carKeeps_put _ _ _ _ _ _ (by decide)
@[simp] theorem regsBut_put_CAR_SRC_STATUS_USABLE (z s : State) (v n i : Nat) : RegsBut carRegs z (s.put CAR_SRC_STATUS.USABLE v n i) ↔ RegsBut carRegs z s :=
  regsBut_put_iff _ _ _ _ _ _ _ (by decide)
@[simp] theorem carKeeps_put_CAR_SRC_STATUS_REJECTS (z s : State) (v n i : Nat) : CarKeeps z (s.put CAR_SRC_STATUS.REJECTS v n i) ↔ CarKeeps z s := carKeeps_put _ _ _ _ _ _ (by decide)
@[simp] theorem regsBut_put_CAR_SRC_STATUS_REJECTS (z s : State) (v n i : Nat) : RegsBut carRegs z (s.put CAR_SRC_STATUS.REJECTS v n i) ↔ RegsBut carRegs z s :=
  regsBut_put_iff _ _ _ _ _ _ _ (by decide)
@[simp] theorem carKeeps_put_CAR_SRC_STATUS_STEPS (z s : State) (v n i : Nat) : CarKeeps z (s.put CAR_SRC_STATUS.STEPS v n i) ↔ CarKeeps z s := carKeeps_put _ _ _ _ _ _ (by decide)
@[simp] theorem regsBut_put_CAR_SRC_STATUS_STEPS (z s : State) (v n i : Nat) : RegsBut carRegs z (s.put CAR_SRC_STATUS.STEPS v n i) ↔ RegsBut carRegs z s :=
  regsBut_put_iff _ _ _ _ _ _ _ (by decide)
@[simp] theorem carKeeps_put_CAR_SRC_STATUS_GM_CLASS (z s : State) (v n i : Nat) : CarKeeps z (s.put CAR_SRC_STATUS.GM_CLASS v n i) ↔ CarKeeps z s := carKeeps_put _ _ _ _ _ _ (by decide)
@[simp] theorem regsBut_put_CAR_SRC_STATUS_GM_CLASS (z s : State) (v n i : Nat) : RegsBut carRegs z (s.put CAR_SRC_STATUS.GM_CLASS v n i) ↔ RegsBut carRegs z s :=
  regsBut_put_iff _ _ _ _ _ _ _ (by decide)
@[simp] theorem carKeeps_put_CAR_SRC_STATUS_GM_ACCURACY (z s : State) (v n i : Nat) : CarKeeps z (s.put CAR_SRC_STATUS.GM_ACCURACY v n i) ↔ CarKeeps z s := carKeeps_put _ _ _ _ _ _ (by decide)
@[simp] theorem regsBut_put_CAR_SRC_STATUS_GM_ACCURACY (z s : State) (v n i : Nat) : RegsBut carRegs z (s.put CAR_SRC_STATUS.GM_ACCURACY v n i) ↔ RegsBut carRegs z s :=
  regsBut_put_iff _ _ _ _ _ _ _ (by decide)
@[simp] theorem carKeeps_put_CAR_LAST_MEAS_THETA (z s : State) (v n i : Nat) : CarKeeps z (s.put CAR_LAST_MEAS.THETA v n i) ↔ CarKeeps z s := carKeeps_put _ _ _ _ _ _ (by decide)
@[simp] theorem regsBut_put_CAR_LAST_MEAS_THETA (z s : State) (v n i : Nat) : RegsBut carRegs z (s.put CAR_LAST_MEAS.THETA v n i) ↔ RegsBut carRegs z s :=
  regsBut_put_iff _ _ _ _ _ _ _ (by decide)
@[simp] theorem carKeeps_put_CAR_UTC_FROM_PTP (z s : State) (v n i : Nat) : CarKeeps z (s.put CAR_UTC.FROM_PTP v n i) ↔ CarKeeps z s := carKeeps_put _ _ _ _ _ _ (by decide)
@[simp] theorem regsBut_put_CAR_UTC_FROM_PTP (z s : State) (v n i : Nat) : RegsBut carRegs z (s.put CAR_UTC.FROM_PTP v n i) ↔ RegsBut carRegs z s :=
  regsBut_put_iff _ _ _ _ _ _ _ (by decide)
@[simp] theorem carKeeps_put_CAR_LEAP_TIME_SEC (z s : State) (v n i : Nat) : CarKeeps z (s.put CAR_LEAP_TIME.SEC v n i) ↔ CarKeeps z s := carKeeps_put _ _ _ _ _ _ (by decide)
@[simp] theorem regsBut_put_CAR_LEAP_TIME_SEC (z s : State) (v n i : Nat) : RegsBut carRegs z (s.put CAR_LEAP_TIME.SEC v n i) ↔ RegsBut carRegs z s :=
  regsBut_put_iff _ _ _ _ _ _ _ (by decide)
@[simp] theorem carKeeps_sat_CAR_SRC_STATUS_REJECTS (z s : State) (d n i : Nat) : CarKeeps z (s.sat CAR_SRC_STATUS.REJECTS d n i) ↔ CarKeeps z s :=
  carKeeps_sat _ _ _ _ _ _ (by decide)
@[simp] theorem carKeeps_put_utc (z s : State) (hi lo v n i : Nat) : CarKeeps z (s.put ⟨.CAR_UTC, hi, lo⟩ v n i) ↔ CarKeeps z s :=
  carKeeps_put _ _ _ _ _ _ (by decide : RegName.CAR_UTC ∈ carRegs)
@[simp] theorem regsBut_put_utc (z s : State) (hi lo v n i : Nat) : RegsBut carRegs z (s.put ⟨.CAR_UTC, hi, lo⟩ v n i) ↔ RegsBut carRegs z s :=
  regsBut_put_iff _ _ _ _ _ _ _ (by decide : RegName.CAR_UTC ∈ carRegs)
@[simp] theorem carKeeps_setRaw_base (z s : State) (n i : Nat) (w : Word) : CarKeeps z (s.setRaw .CAR_EPS_BASE n i w) ↔ CarKeeps z s :=
  carKeeps_setRaw _ _ _ _ _ _ (by decide)
@[simp] theorem carKeeps_setRaw_growth (z s : State) (n i : Nat) (w : Word) : CarKeeps z (s.setRaw .CAR_EPS_GROWTH n i w) ↔ CarKeeps z s :=
  carKeeps_setRaw _ _ _ _ _ _ (by decide)
@[simp] theorem carKeeps_setRaw_time (z s : State) (n i : Nat) (w : Word) : CarKeeps z (s.setRaw .CAR_EPS_TIME n i w) ↔ CarKeeps z s :=
  carKeeps_setRaw _ _ _ _ _ _ (by decide)
@[simp] theorem regsBut_setRaw_time (z s : State) (n i : Nat) (w : Word) : RegsBut carRegs z (s.setRaw .CAR_EPS_TIME n i w) ↔ RegsBut carRegs z s :=
  regsBut_setRaw_iff _ _ _ _ _ _ _ (by decide)
@[simp] theorem regsBut_setRaw_base (z s : State) (n i : Nat) (w : Word) : RegsBut carRegs z (s.setRaw .CAR_EPS_BASE n i w) ↔ RegsBut carRegs z s :=
  regsBut_setRaw_iff _ _ _ _ _ _ _ (by decide)
@[simp] theorem regsBut_setRaw_growth (z s : State) (n i : Nat) (w : Word) : RegsBut carRegs z (s.setRaw .CAR_EPS_GROWTH n i w) ↔ RegsBut carRegs z s :=
  regsBut_setRaw_iff _ _ _ _ _ _ _ (by decide)

/-! ## The operations of Carillon -/

@[simp] theorem carKeeps_carEvent (z : State) (s : State) (e : Nat) :
    CarKeeps z (State.carEvent s e) ↔ CarKeeps z s := by
  unfold State.carEvent; simp

@[simp] theorem carKeeps_onSlot (z : State) (s : State) (n : Nat) (g : CarSlot → CarSlot) :
    CarKeeps z (State.onSlot s n g) ↔ CarKeeps z s := by
  unfold State.onSlot; simp

@[simp] theorem carKeeps_latchSlots (z : State) (s : State) :
    CarKeeps z (State.latchSlots s) ↔ CarKeeps z s := by
  unfold State.latchSlots; simp

@[simp] theorem carKeeps_setAdj (z : State) (s : State) (f : Rat) :
    CarKeeps z (State.setAdj s f) ↔ CarKeeps z s := by
  unfold State.setAdj; simp

@[simp] theorem carKeeps_publishTriple (z : State) (s : State) :
    CarKeeps z (State.publishTriple s) ↔ CarKeeps z s := by
  unfold State.publishTriple; dsimp only; repeat' split
  all_goals simp [*]

@[simp] theorem carKeeps_setUnsync (z : State) (s : State) :
    CarKeeps z (State.setUnsync s) ↔ CarKeeps z s := by
  unfold State.setUnsync; simp

@[simp] theorem carKeeps_rebound (z : State) (s : State) (old : Option Nat) (oldTLast : Nat) :
    CarKeeps z (State.rebound s old oldTLast) ↔ CarKeeps z s := by
  unfold State.rebound; dsimp only; repeat' split
  all_goals simp [*]

@[simp] theorem carKeeps_setDegraded (z : State) (s : State) :
    CarKeeps z (State.setDegraded s) ↔ CarKeeps z s := by
  unfold State.setDegraded; simp

@[simp] theorem carKeeps_enterServo (z : State) (s : State) (st : Nat) :
    CarKeeps z (State.enterServo s st) ↔ CarKeeps z s := by
  unfold State.enterServo; simp

@[simp] theorem carKeeps_checkLimit (z : State) (s : State) :
    CarKeeps z (State.checkLimit s) ↔ CarKeeps z s := by
  unfold State.checkLimit; repeat' split
  all_goals simp_all

@[simp] theorem carKeeps_setUtc (z : State) (s : State) (v : Nat) (fromPtp : Bool) :
    CarKeeps z (State.setUtc s v fromPtp) ↔ CarKeeps z s := by
  unfold State.setUtc; simp

@[simp] theorem carKeeps_followUtc (z : State) (s : State) :
    CarKeeps z (State.followUtc s) ↔ CarKeeps z s := by
  unfold State.followUtc; repeat' split
  all_goals simp_all

@[simp] theorem carKeeps_carSettle (z : State) (before s : State) :
    CarKeeps z (State.carSettle before s) ↔ CarKeeps z s := by
  unfold State.carSettle; simp

@[simp] theorem carKeeps_changeSlot (z : State) (s : State) (dest : Option Nat) :
    CarKeeps z (State.changeSlot s dest) ↔ CarKeeps z s := by
  unfold State.changeSlot
  cases dest <;> dsimp only <;> (repeat' split) <;> simp [carKeeps_foldl]

@[simp] theorem carKeeps_setUsable (z : State) (s : State) (n : Nat) (u : Bool) :
    CarKeeps z (State.setUsable s n u) ↔ CarKeeps z s := by
  unfold State.setUsable; dsimp only; repeat' split
  all_goals simp [*]

@[simp] theorem carKeeps_dropUnfit (z : State) (s : State) (n : Nat) :
    CarKeeps z (State.dropUnfit s n) ↔ CarKeeps z s := by
  unfold State.dropUnfit; simp

@[simp] theorem carKeeps_missOne (z : State) (s : State) (n : Nat) :
    CarKeeps z (State.missOne s n) ↔ CarKeeps z s := by
  unfold State.missOne; simp

@[simp] theorem carKeeps_rejectMeasurement (z : State) (s : State) (n : Nat) :
    CarKeeps z (State.rejectMeasurement s n) ↔ CarKeeps z s := by
  unfold State.rejectMeasurement; simp

@[simp] theorem carKeeps_servoUpdate (z : State) (s : State) (n : Nat) (theta : Int) (dt : Nat) (offset : Int) :
    CarKeeps z (State.servoUpdate s n theta dt offset) ↔ CarKeeps z s := by
  unfold State.servoUpdate; simp

@[simp] theorem carKeeps_countLock (z : State) (s : State) (theta : Int) :
    CarKeeps z (State.countLock s theta) ↔ CarKeeps z s := by
  unfold State.countLock; simp

@[simp] theorem carKeeps_takeMeasurement (z : State) (s : State) (n : Nat) (theta : Int) (t : Nat) (offset : Int) :
    CarKeeps z (State.takeMeasurement s n theta t offset) ↔ CarKeeps z s := by
  unfold State.takeMeasurement; dsimp only; repeat' split
  all_goals simp [*]

@[simp] theorem carKeeps_conflictDrops (z : State) (s : State) :
    CarKeeps z (State.conflictDrops s) ↔ CarKeeps z s := by
  unfold State.conflictDrops; dsimp only; repeat' split
  all_goals simp [*]

@[simp] theorem carKeeps_measure (z : State) (s : State) (n : Nat) (theta : Int) (t : Nat) (degraded : Bool) (offset : Int) :
    CarKeeps z (State.measure s n theta t degraded offset) ↔ CarKeeps z s := by
  unfold State.measure; simp

@[simp] theorem carKeeps_dropSlots (z : State) (s : State) (p : Nat → Bool) :
    CarKeeps z (State.dropSlots s p) ↔ CarKeeps z s := by
  unfold State.dropSlots; rw [carKeeps_foldl]
  intro y t x
  repeat' split
  all_goals simp [*]

@[simp] theorem carKeeps_onPtp (z : State) (s : State) (p : Nat) (g : PtpPort → PtpPort) :
    CarKeeps z (State.onPtp s p g) ↔ CarKeeps z s := by
  unfold State.onPtp; simp

@[simp] theorem carKeeps_followMaster (z : State) (s : State) (n : Nat) :
    CarKeeps z (State.followMaster s n) ↔ CarKeeps z s := by
  unfold State.followMaster; simp

@[simp] theorem carKeeps_followMasters (z : State) (s : State) (p : Nat) :
    CarKeeps z (State.followMasters s p) ↔ CarKeeps z s := by
  unfold State.followMasters; rw [carKeeps_foldl]
  intro y t x
  repeat' split
  all_goals simp [*]

@[simp] theorem carKeeps_carModeChange (z : State) (before s : State) :
    CarKeeps z (State.carModeChange before s) ↔ CarKeeps z s := by
  unfold State.carModeChange; repeat' (first | (simp [*]; done) | (simp [*, carKeeps_foldl]; done) | intro y t x | split | rw [carKeeps_foldl] | rw [carKeeps_foldl_fst] | simp)

end Sys2Proof.Machine
end

