-- ==== Sys2Proof/Laws/Keep10.lean ====
section
/-! SUPPORT. The operations of Tick keep the queue and the counters. -/
namespace Sys2Proof.Machine

/-! ## Tick -/

@[simp] theorem keeps_countEdge (z : State) (s : State) (k : Nat) :
    Keeps z (State.countEdge s k) ↔ Keeps z s := by
  unfold State.countEdge; simp

@[simp] theorem keeps_pmcEdge (z : State) (s : State) :
    Keeps z (State.pmcEdge s) ↔ Keeps z s := by
  unfold State.pmcEdge; rw [keeps_foldl]
  intro y t x
  simp

@[simp] theorem keeps_checkCounter (z s : State) : Keeps z s.checkCounter ↔ Keeps z s := by
  unfold State.checkCounter; split <;> simp

@[simp] theorem keeps_leaveFreerun (z s : State) : Keeps z s.leaveFreerun ↔ Keeps z s := by
  unfold State.leaveFreerun; split <;> simp

@[simp] theorem keeps_shiftInstants (z s : State) (d : Int) : Keeps z (s.shiftInstants d) ↔ Keeps z s := by
  unfold State.shiftInstants; simp [keeps_foldl]

end Sys2Proof.Machine
end

