-- ==== Sys2Proof/Laws/Threads.lean ====
section
/-! SUPPORT. Threads: the counting and sampling of an instruction leave every thread, engine memory and Gong alone, so a completed
instruction changes its own thread only. -/
namespace Sys2Proof.Machine

/-- The engines and Gong of `t`, its severities among them, are those of `s`. -/
def Aside (s t : State) : Prop := t.tbe = s.tbe ∧ t.gong = s.gong ∧ ∀ n i, t.raw .GONG_SEV n i = s.raw .GONG_SEV n i

theorem Aside.refl (s : State) : Aside s s := ⟨rfl, rfl, fun _ _ => rfl⟩

theorem Aside.trans {a b c : State} (h : Aside a b) (k : Aside b c) : Aside a c :=
  ⟨k.1.trans h.1, k.2.1.trans h.2.1, fun n i => (k.2.2 n i).trans (h.2.2 n i)⟩

theorem Aside.quiet {s t : State} (h : Aside s t) (q : Quiet s) : Quiet t := q.of_gong h.2.1

theorem Aside.mild {s t : State} (h : Aside s t) (g src : Nat) (m : Mild s g src) : Mild t g src := by
  have : t.severity g src = s.severity g src := by
    unfold State.severity State.fld GONG_SEV.SEV
    simp only [h.2.2]
  unfold Mild
  rw [this]; exact m

theorem aside_put (s : State) (f : Field) (v n i : Nat) (h : f.reg ≠ .GONG_SEV) : Aside s (s.put f v n i) :=
  ⟨rfl, rfl, fun _ _ => raw_put_ne _ _ _ _ _ _ _ _ h⟩

theorem aside_with_tel (s : State) (x : TelState) : Aside s { s with tel := x } := ⟨rfl, rfl, fun _ _ => rfl⟩

theorem aside_foldl {α : Type} (f : State → α → State) (l : List α) (h : ∀ t x, Aside t (f t x)) (s : State) : Aside s (l.foldl f s) := by
  induction l generalizing s with
  | nil => exact .refl s
  | cons a l ih => exact (h s a).trans (ih _)

theorem aside_pmcCarry (s : State) (k d : Nat) : Aside s (s.pmcCarry k d).1 := by
  unfold State.pmcCarry
  dsimp only
  have p (u : State) (f : Field) (v i : Nat) (h : f.reg ≠ .GONG_SEV) (k : Aside s u) : Aside s (u.put f v 0 i) := k.trans (aside_put u f v 0 i h)
  repeat' split
  · exact p _ _ _ _ (by decide) (.refl s)
  · exact ((p _ _ _ _ (by decide) (p _ _ _ _ (by decide) (.refl s))).trans (aside_put _ _ _ _ _ (by decide))).trans (aside_with_tel _ _)
  · exact (p _ _ _ _ (by decide) (p _ _ _ _ (by decide) (.refl s))).trans (aside_with_tel _ _)
  · exact p _ _ _ _ (by decide) (p _ _ _ _ (by decide) (.refl s))

theorem aside_pmcAdd (n : Nat) (s : State) (k d : Nat) : Aside s (State.pmcAdd n s k d) := by
  induction n generalizing s k d with
  | zero => exact aside_pmcCarry s k d
  | succ n ih =>
    unfold State.pmcAdd
    dsimp only
    split
    · refine (aside_pmcCarry s k d).trans (aside_foldl _ _ (fun t j => ?_) _)
      split
      · exact ih t j 1
      · exact .refl t
    · exact aside_pmcCarry s k d

theorem aside_pmcEvent (s : State) (base n ev : Nat) (who : Option Nat) (d : Nat) : Aside s (s.pmcEvent base n ev who d) := by
  unfold State.pmcEvent
  refine aside_foldl _ _ (fun t i => ?_) _
  cases who <;> dsimp only <;> split
  · exact aside_pmcAdd 2 t _ d
  · exact .refl t
  · exact aside_pmcAdd 2 t _ d
  · exact .refl t

theorem aside_engEvent (s : State) (t ev : Nat) : Aside s (s.engEvent t ev) := aside_pmcEvent s _ _ _ _ _

theorem aside_devEvent (s : State) (ev d : Nat) : Aside s (s.devEvent ev d) := aside_pmcEvent s _ _ _ _ _

theorem aside_sampleRecord (s : State) (ts pc thread event flags insn addr : Nat) :
    Aside s (s.sampleRecord ts pc thread event flags insn addr) := by
  unfold State.sampleRecord
  dsimp only
  split
  · exact (aside_put s _ _ _ _ (by decide)).trans (aside_with_tel _ _)
  · refine Aside.trans (b := State.put _ PMC_SAMPLE_CTL.PROD _) (Aside.trans ?_ (aside_put _ _ _ _ _ (by decide))) (aside_with_tel _ _)
    exact ⟨rfl, rfl, fun _ _ => rfl⟩

theorem aside_samples (s : State) (t pc word addr : Nat) (trapped : Bool) : Aside s (s.samples t pc word addr trapped) := by
  unfold State.samples
  refine aside_foldl _ _ (fun u i => ?_) _
  dsimp only
  split
  · exact Aside.trans (aside_with_tel u _) (aside_sampleRecord _ _ _ _ _ _ _ _)
  · exact .refl u

theorem thread_onThread_same (s : State) (t : Nat) (g : Thread → Thread) : (s.onThread t g).thread t = g (s.thread t) := by
  simp [State.onThread, State.thread, Store.modify]

theorem thread_onThread_ne (s : State) (t k : Nat) (g : Thread → Thread) (h : t ≠ k) : (s.onThread t g).thread k = s.thread k := by
  simp [State.onThread, State.thread, Store.modify, Store.get_set_ne _ _ _ _ _ _ h]

theorem thread_of_aside {s t : State} (h : Aside s t) (k : Nat) : t.thread k = s.thread k := by rw [State.thread, h.1]; rfl

/-- What `retire` does to the engines: the count of completed instructions grows, and a single step ends. -/
theorem retire_thread (s : State) (t pc word addr : Nat) (h : (s.thread t).step = false) :
    Aside (s.onThread t fun x => { x with done := x.done + 1 }) (s.retire t pc word addr) := by
  unfold State.retire
  dsimp only
  have a : Aside (s.onThread t fun x => { x with done := x.done + 1 })
      (((s.onThread t fun x => { x with done := x.done + 1 }).engEvent t 0x002).samples t pc word addr false) :=
    (aside_engEvent _ _ _).trans (aside_samples _ _ _ _ _ _)
  unfold State.endStep
  rw [thread_of_aside a, thread_onThread_same, if_neg (by simp [h])]
  exact a

/-- A completed instruction that is no single step: the thread is what the instruction made of it, at `pc`, one instruction further; every
other thread and engine memory are as the instruction left them. -/
theorem goes_thread (s : State) (t : Nat) (u : State) (pc addr : Nat) (hq : Quiet u) (h : (u.thread t).step = false) :
    ((s.goes t u pc addr).thread t =
      { u.thread t with pc := pc % 65536, mode := (u.thread t).mode, done := (u.thread t).done + 1 }) ∧
    (∀ k, k ≠ t → (s.goes t u pc addr).thread k = u.thread k) ∧ (s.goes t u pc addr).tbe.mem = u.tbe.mem := by
  have a := retire_thread (u.onThread t fun y => { y with pc := pc % 65536, mode := if y.mode == .run then .run else y.mode }) t
    (s.thread t).pc (s.nextWord t) addr (by rw [thread_onThread_same]; exact h)
  have q := settle_of_quiet (hq.of_gong (a.2.1.trans rfl))
  unfold State.goes
  rw [q]
  refine ⟨?_, fun k hk => ?_, ?_⟩
  · rw [thread_of_aside a, thread_onThread_same, thread_onThread_same]
    have : (if (u.thread t).mode == .run then .run else (u.thread t).mode) = (u.thread t).mode := by
      split
      · rename_i e; exact (eq_of_beq e).symm
      · rfl
    rw [this]
  · rw [thread_of_aside a, thread_onThread_ne _ _ _ _ hk.symm, thread_onThread_ne _ _ _ _ hk.symm]
  · rw [a.1]; rfl

/-- An instruction that is issued and goes on. -/
theorem issue_next (s : State) (t : Nat) (k : ZKind) (f : Nat → Thread → Effect) (u : State) (pc addr : Nat) (h : s.runs t k)
    (hf : f (s.nextWord t) (s.thread t) = .next u pc addr) : s.issue t k f = .next (s.goes t u pc addr) := by
  unfold State.issue
  simp [h.1, h.2.1, h.2.2, hf, done, State.goes]

/-- An instruction that is issued and traps. -/
theorem issue_trap (s : State) (t : Nat) (k : ZKind) (f : Nat → Thread → Effect) (cause : Nat) (addr : Word) (code : Nat) (h : s.runs t k)
    (hf : f (s.nextWord t) (s.thread t) = .trap cause addr code) :
    s.issue t k f = .next (s.trap t (s.thread t).pc cause 0 code addr (s.nextWord t)).settle := by
  unfold State.issue
  simp [h.1, h.2.1, h.2.2, hf, done]

/-- An instruction that is issued and waits. -/
theorem issue_wait (s : State) (t : Nat) (k : ZKind) (f : Nat → Thread → Effect) (u : State) (h : s.runs t k)
    (hf : f (s.nextWord t) (s.thread t) = .wait u) : s.issue t k f = .next u.settle := by
  unfold State.issue
  simp [h.1, h.2.1, h.2.2, hf, done]

theorem aside_only {l : List RegName} {s t : State} (h : Only l s t) (hl : RegName.GONG_SEV ∉ l) : Aside s t :=
  ⟨by rw [h.1], h.gong, fun n i => h.2 _ hl n i⟩

theorem endStep_of_run (s : State) (t : Nat) (h : (s.thread t).step = false) : s.endStep t = s := by
  unfold State.endStep; rw [if_neg (by simp [h])]

/-- A trap that its thread's handler takes, of a cause other than PARITY and WATCHDOG, with a source that is not fatal: the thread is at its
vector with the registers of R256 written; every other thread and engine memory are unchanged. -/
theorem trap_thread (s : State) (t tpc cause code : Nat) (addr : Word) (word : Nat) (hq : Quiet s) (hs : (s.thread t).step = false)
    (hi : (s.thread t).inTrap = false) (hv : (s.thread t).tvec ≠ 0) (h5 : cause ≠ causeParity) (h6 : cause ≠ causeWatchdog)
    (hm : Mild s (14 + clusterOf t / 4) (8 * (clusterOf t % 4))) :
    ((s.trap t tpc cause 0 code addr word).settle.thread t =
      { s.thread t with tpc, cause, detail := 0, code, taddr := addr, busySince := s.up, inTrap := true, pc := (s.thread t).tvec, mode := .run }) ∧
    (∀ k, k ≠ t → (s.trap t tpc cause 0 code addr word).settle.thread k = s.thread k) ∧
    (s.trap t tpc cause 0 code addr word).settle.tbe.mem = s.tbe.mem := by
  unfold State.trap
  have hf : ((s.thread t).inTrap || (s.thread t).tvec == 0) = false := by simp [hi, hv]
  simp only [hf, Bool.false_eq_true, if_false, h5, h6, false_and]
  generalize ha : (s.onThread t fun x => { x with
    tpc, cause, detail := 0, code, taddr := addr, busySince := s.up, inTrap := true, pc := x.tvec, mode := ThreadMode.run }) = a
  have ea : a.thread t = { s.thread t with tpc, cause, detail := 0, code, taddr := addr, busySince := s.up, inTrap := true, pc := (s.thread t).tvec, mode := .run } := by
    rw [← ha, thread_onThread_same]
  have eo : ∀ k, k ≠ t → a.thread k = s.thread k := fun k hk => by rw [← ha, thread_onThread_ne _ _ _ _ hk.symm]
  have em : a.tbe.mem = s.tbe.mem := by rw [← ha]; rfl
  have eg : a.gong = s.gong := by rw [← ha]; rfl
  have am : Mild a (14 + clusterOf t / 4) (8 * (clusterOf t % 4)) := by rw [← ha]; exact hm
  have b := (aside_only (Only.bump (Only.refl [.TBC_STAT] a) .TBC_STAT (clusterOf t) 0 1 (by decide)) (by decide)).trans (aside_engEvent _ t 0x00E)
  have c := b.trans (aside_only (Only.fire (Only.refl gongRegs _) (14 + clusterOf t / 4) (8 * (clusterOf t % 4) + 0) 0 t 0 (b.mild _ _ am) (fun _ h => h)) (by decide))
  have d := c.trans (aside_samples _ t tpc word addr.toNat true)
  have e := endStep_of_run _ t (by rw [thread_of_aside d, ea]; exact hs)
  unfold State.clusterEvent
  rw [e, settle_of_quiet (d.quiet (hq.of_gong eg))]
  exact ⟨by rw [thread_of_aside d, ea], fun k hk => by rw [thread_of_aside d, eo k hk], by rw [d.1, em]⟩

end Sys2Proof.Machine
end

