-- ==== Sys2Proof/Machine/Pins.lean ====
section
/-! DEFINITION. The balls of the package and what is on them (20_pins_electrical_package, R496 to R505, R514, R515, R517): what the other
files do not already say of a pin. -/
namespace Sys2Proof.Machine

/-! ## Ball names (R496) -/

/-- The letters of the rows, in their order. -/
def rowLetters : List Char := ['A', 'B', 'C', 'D', 'E', 'F', 'G', 'H', 'J', 'K', 'L', 'M', 'N', 'P', 'T', 'U', 'V', 'W', 'Y']

/-- The letters of row `i`, 1 to 72: one letter, then two. -/
def rowName (i : Nat) : String :=
  let k := i - 1
  let last := String.ofList [rowLetters.getD (k % 19) 'A']
  if k < 19 then last else String.ofList [rowLetters.getD (k / 19 - 1) 'A'] ++ last

/-- The name of the ball in row `i` and column `j`. -/
def ballName (i j : Nat) : String := rowName i ++ toString j

/-! ## The ball map (R497) -/

/-- A leg of a differential pair. -/
inductive Leg where
  | p | n
deriving DecidableEq, Repr

/-- Rails, the two parts of VDDA_ETH and VDDA_PCIE apart. -/
inductive Rail where
  | core | sram | aon | ethL | ethH | pcieL | pcieH | vddq | io18 | io33
deriving DecidableEq, Repr

/-- Signals of a DDR channel; A and B are its sub-channels, `b` true for B. -/
inductive DdrPin where
  | dq (n : Nat)
  | dqs (n : Nat) (leg : Leg)
  | ca (b : Bool) (n : Nat)
  | cs (b : Bool) (n : Nat)
  | ck (b : Bool) (n : Nat) (leg : Leg)
  | reset | alert
deriving DecidableEq, Repr

/-- What a ball carries. -/
inductive Ball where
  | vss | nc
  | rail (r : Rail)
  | ethRx (lane : Nat) (leg : Leg)
  | ethTx (lane : Nat) (leg : Leg)
  | pcieRx (lane : Nat) (leg : Leg)
  | pcieTx (lane : Nat) (leg : Leg)
  | refclk (n : Nat) (leg : Leg)
  | bell (n : Nat) (leg : Leg)
  | perst (l : Nat) | clkreq (l : Nat) | wake (l : Nat)
  | ddr (channel : Nat) (pin : DdrPin)
  | ref25In | ppsIn | gnssPps | ext10mIn | ppsOut | ext10mOut | gnssRxd | gnssTxd | por | thermDp | thermDn
  | smbScl (port : Nat) | smbSda (port : Nat)
  | qspiClk | qspiCs (n : Nat) | qspiIo (n : Nat)
  | uartTxd (n : Nat) | uartRxd (n : Nat)
  | tck | tms | tdi | tdo | trst
  | fault | throttle
  | bootSrc (n : Nat) | mgrLink (n : Nat) | laneMap (n : Nat)
  | avsClk | avsMdata | avsSdata
  | coreSense (leg : Leg)
deriving DecidableEq, Repr

/-- The leg at an offset from the P ball of a pair. -/
def legAt (k : Nat) : Leg := if k % 2 = 0 then .p else .n

/-- Rows 1 to 8, columns 1 to 8. -/
def timingCorner (i j : Nat) : Ball :=
  match i, j with
  | 2, 2 => .ref25In
  | 2, 4 => .ppsIn
  | 2, 6 => .gnssPps
  | 4, 2 => .ext10mIn
  | 4, 4 => .ppsOut
  | 4, 6 => .ext10mOut
  | 6, 2 => .gnssRxd
  | 6, 4 => .gnssTxd
  | 6, 6 => .por
  | 8, 2 => .thermDp
  | 8, 3 => .thermDn
  | 7, _ => .rail .aon
  | 8, j => if 5 ≤ j then .rail .io33 else .vss
  | _, _ => .vss

/-- Rows 1 to 8, columns 9 to 72. -/
def ethernetBand (i j : Nat) : Ball :=
  match i with
  | 2 => .ethRx ((j - 9) / 2) (legAt (j - 9))
  | 5 => .ethTx ((j - 9) / 2) (legAt (j - 9))
  | 7 => .rail .ethL
  | 8 => .rail (if j ≤ 40 then .ethL else .ethH)
  | _ => .vss

/-- Rows 9 to 72 of a PCIe band, `k` columns from the package's edge; `right` is the band of lanes 32 to 63. -/
def pcieBand (right : Bool) (i k : Nat) : Ball :=
  let lane := (i - 9) / 2 + (if right then 32 else 0)
  match k with
  | 1 => .pcieRx lane (legAt (i - 9))
  | 4 => .pcieTx lane (legAt (i - 9))
  | 6 => .rail .pcieL
  | 7 => if i ≤ 32 then .rail .pcieH else .vss
  | _ => .vss

/-- Row 9, columns 9 to 64. -/
def sidebandRow (j : Nat) : Ball :=
  if j ≤ 12 then (if j % 2 = 1 then .smbScl ((j - 9) / 2) else .smbSda ((j - 9) / 2))
  else if j = 13 then .qspiClk
  else if j ≤ 15 then .qspiCs (j - 14)
  else if j ≤ 19 then .qspiIo (j - 16)
  else if j ≤ 23 then (if j % 2 = 0 then .uartTxd ((j - 20) / 2) else .uartRxd ((j - 20) / 2))
  else match j with
    | 24 => .tck
    | 25 => .tms
    | 26 => .tdi
    | 27 => .tdo
    | 28 => .trst
    | 29 => .fault
    | 30 => .throttle
    | 40 => .avsClk
    | 41 => .avsMdata
    | 42 => .avsSdata
    | 43 => .coreSense .p
    | 44 => .coreSense .n
    | j =>
      if j ≤ 32 then .bootSrc (j - 31) else if j ≤ 36 then .mgrLink (j - 33) else if j ≤ 39 then .laneMap (j - 37)
      else if j ≤ 60 then .nc else .rail .io33

/-- A ball of the strip of link `l`: row `r` of its four, position `k`. -/
def linkStrip (l r k : Nat) : Ball :=
  match r, k with
  | 0, 0 => .perst l
  | 0, 1 => .clkreq l
  | 0, 2 => .wake l
  | 0, 3 => .rail .io33
  | 1, 0 => .bell l .p
  | 1, 1 => .bell l .n
  | 1, 3 => .rail .io18
  | 3, 0 => if l % 4 = 0 then .refclk (l / 4) .p else .vss
  | 3, 1 => if l % 4 = 0 then .refclk (l / 4) .n else .vss
  | _, _ => .vss

/-- A ball of the command rows of a sub-channel. -/
def ddrCommand (b : Bool) (k : Nat) : Option DdrPin :=
  if k < 2 then some (.ca b (12 + k)) else if k < 4 then some (.cs b (k - 2))
  else if k < 8 then some (.ck b ((k - 4) / 2) (legAt k))
  else if k = 8 ∧ !b then some .reset else if k = 9 ∧ !b then some .alert else none

/-- A ball of the block of DDR channel `c`, 16 rows by 12 columns. -/
def ddrBlock (c r k : Nat) : Ball :=
  let cmd (b : Bool) : Ball := match ddrCommand b k with
    | some p => .ddr c p
    | none => .rail .vddq
  if r < 6 then .ddr c (.dq (12 * r + k))
  else if r < 9 then .ddr c (.dqs (6 * (r - 6) + k / 2) (legAt k))
  else match r with
    | 9 => .ddr c (.ca false k)
    | 10 => cmd false
    | 11 => .ddr c (.ca true k)
    | 12 => cmd true
    | 13 => if k ≤ 8 then .rail .vddq else .vss
    | _ => .vss

/-- The ball in row `i` and column `j`, both 1 to 72. -/
def ballAt (i j : Nat) : Ball :=
  if i ≤ 8 then (if j ≤ 8 then timingCorner i j else ethernetBand i j)
  else if j ≤ 8 then pcieBand false i (j - 1)
  else if 65 ≤ j then pcieBand true i (72 - j)
  else if i = 9 then sidebandRow j
  else if i = 10 then (if j ≤ 16 then .rail .io18 else if j ≤ 20 then .rail .io33 else .vss)
  else if i ≤ 40 then (if (i + j) % 2 = 0 then .vss else if j ≤ 56 then .rail .core else .rail .sram)
  else if j ≤ 12 then linkStrip ((i - 41) / 4) ((i - 41) % 4) (j - 9)
  else if 61 ≤ j then linkStrip (8 + (i - 41) / 4) ((i - 41) % 4) (64 - j)
  else ddrBlock (4 * ((i - 41) / 16) + (j - 13) / 12) ((i - 41) % 16) ((j - 13) % 12)

/-! ## Pins without power and in NIGHT (R501) -/

/-- The groups of the table *Pins unpowered and in NIGHT*; `c18` are the outputs of that class. -/
inductive PinGroup where
  | ethTx | pcieTx | pcieRx | ethRx | ddrReset | ddrOther | c33 | od33 | ppsOut | bell | c18 | inputs
deriving DecidableEq, Repr

/-- What a pin shows to the board. -/
inductive PinLevel where
  | undriven | idle | highZ | terminated | high | low | released | ignored
deriving DecidableEq, Repr

/-- With all rails off. -/
def pinUnpowered : PinGroup → PinLevel
  | .ethTx | .pcieTx => .undriven
  | .od33 => .released
  | _ => .highZ

/-- In NIGHT; of the inputs POR#, PERST# and the straps are not ignored, and FAULT# is asserted after a thermal shutdown (R47). -/
def pinNight : PinGroup → PinLevel
  | .ethTx | .pcieTx => .idle
  | .ethRx => .terminated
  | .ddrReset | .ppsOut => .low
  | .c33 => .high
  | .od33 => .released
  | .inputs => .ignored
  | .pcieRx | .ddrOther | .bell | .c18 => .highZ

/-- What NIGHT, or the loss of VDD_AON, makes of a group of pins; none where the units drive them. -/
def State.pinHeld (s : State) (g : PinGroup) : Option PinLevel :=
  if s.modes.hold = .aonDown then some (pinUnpowered g) else if s.mode = NIGHT then some (pinNight g) else none

/-! ## Times of edges and pulses -/

/-- The rising edge of PPS_OUT crosses at the ball this many quarter-nanoseconds after device time reaches the whole second, within
±0.5 ns (R505): the output delay is 14 of them. -/
def State.ppsOutLag (s : State) : Int := 14 - s.int CAR_PPS_OUT.OFFSET

/-- A pulse of `ns` ns on POR#, PERST# or a strap acts (R515). -/
def pulseActs (ns : Nat) : Bool := decide (20 < ns)

/-- Edge time of a slew setting, ns (R514). -/
def slewNs (setting : Nat) : Nat := ([12, 5, 2, 1] : List Nat).getD setting 1

/-- Groups of outputs that PWR_IO_CTL slews; slew does not apply to other outputs (R505, R514). -/
inductive SlewGroup where
  | c33 | qspi | jtag | avs
deriving DecidableEq, Repr

/-- The edge time of a group of outputs, ns. -/
def State.slew (s : State) : SlewGroup → Nat
  | .c33 => slewNs (s.fld PWR_IO_CTL.SLEW_C33)
  | .qspi => slewNs (s.fld PWR_IO_CTL.SLEW_QSPI)
  | .jtag => slewNs (s.fld PWR_IO_CTL.SLEW_JTAG)
  | .avs => slewNs (s.fld PWR_IO_CTL.SLEW_AVS)

/-- An SMBus pin pair runs I3C (R507); its SMBus address is 0x6A. -/
def State.runsI3c (s : State) (port : Fin 2) : Bool := if port = 0 then s.isSet PWR_IO_CTL.SMB0_I3C else s.isSet PWR_IO_CTL.SMB1_I3C
def smbusAddress : Nat := 0x6A

/-! ## Ordering codes (R517) -/

/-- What an ordering code fuses: GRADE, CAR_GRADE_FLOOR in quarter-nanoseconds, and ETH_TS_INT.FUSED. -/
structure Grade where
  code : Nat
  floor : Nat
  tsFused : Bool
deriving DecidableEq, Repr

/-- EH9640-SA, which State.reset is (log entry 48), and EH9640-TA. -/
def gradeSA : Grade := { code := 0, floor := 24, tsFused := false }
def gradeTA : Grade := { code := 1, floor := 6, tsFused := true }

end Sys2Proof.Machine
end

