-- ==== Sys2Proof/Tests/Slice0.lean ====
section
/-! SUPPORT. The author's own tests: ill-formed commands that WellFormed refuses, examples that the spec works out, and for every statement
states and operands that meet its premises. EveryStepAnswers has no premises. -/
namespace Sys2Proof.Tests

set_option Elab.async false

open Sys2Proof Sys2Proof.Machine

/-! ## Commands that no rule lets arise -/

theorem test_refuses_narrow_access_aligned : Instr.wellFormed (.narrowAccess .jtag 8 8 true) = false := by decide +kernel
theorem test_refuses_narrow_access_size : Instr.wellFormed (.narrowAccess .jtag 1 3 true) = false := by decide +kernel
theorem test_refuses_reserved_access_misaligned : Instr.wellFormed (.reservedAccess .jtag 4 false) = false := by decide +kernel
theorem test_refuses_reserved_access_of_a_register : Instr.wellFormed (.reservedAccess .jtag 0x08A9D28 false) = false := by decide +kernel
theorem test_refuses_rc_read_beyond_repeats : Instr.wellFormed (.rcRead .jtag .GONG_SEV 0 32) = false := by decide +kernel
theorem test_refuses_low_half_of_another_register : Instr.wellFormed (.timeLowHalfRead .jtag .GONG_SEV 0 0) = false := by decide +kernel
theorem test_refuses_low_half_beyond_repeats : Instr.wellFormed (.timeLowHalfRead .jtag .GONG_FIRST_TS 0 32) = false := by decide +kernel
theorem test_refuses_register_write_beyond_repeats : Instr.wellFormed (.registerWrite .jtag .GONG_SEV 1 0 0) = false := by decide +kernel
theorem test_refuses_long_record : Instr.wellFormed (.transitionComplete (some (List.replicate 513 0))) = false := by decide +kernel
theorem test_refuses_short_nonce : Instr.wellFormed (.tokenRequest 0 [] 0 0) = false := by decide +kernel
theorem test_refuses_master_time_width : Instr.wellFormed (.ptmDialogue 0 (some ⟨0, 0, 2 ^ 64, 0⟩)) = false := by decide +kernel
theorem test_refuses_queue_number : Instr.wellFormed (.launchEnter 0 65536) = false := by decide +kernel
theorem test_refuses_lane_below_port : Instr.wellFormed (.linkDown 4 [3]) = false := by decide +kernel
theorem test_refuses_lane_above_31 : Instr.wellFormed (.linkDown 4 [32]) = false := by decide +kernel
theorem test_refuses_short_frame : Instr.wellFormed (.frameRx 0 [] 0 false 0) = false := by decide +kernel
theorem test_refuses_seven_quanta : Instr.wellFormed (.pfcFrameRx 0 0 (List.replicate 7 0)) = false := by decide +kernel
theorem test_refuses_domain_number : Instr.wellFormed (.reorderTimeout 0 4096) = false := by decide +kernel
theorem test_refuses_doorbell_page : Instr.wellFormed (.doorbell 0 272 8 true 0) = false := by decide +kernel
theorem test_refuses_doorbell_size : Instr.wellFormed (.doorbell 0 0 2 true 0) = false := by decide +kernel
theorem test_refuses_link_speed_0 : Instr.wellFormed (.hostLinkUp 0 0 1 false false) = false := by decide +kernel
theorem test_refuses_link_speed_7 : Instr.wellFormed (.hostLinkUp 0 7 1 false false) = false := by decide +kernel
theorem test_refuses_link_lanes : Instr.wellFormed (.hostLinkUp 0 1 3 false false) = false := by decide +kernel
theorem test_refuses_bar_number : Instr.wellFormed (.hostMemoryRequest 0 0 1 0 none false) = false := by decide +kernel
theorem test_refuses_timed_out_tag : Instr.wellFormed (.completionTimeout 0 16384) = false := by decide +kernel
theorem test_refuses_completion_tag : Instr.wellFormed (.completionRx 0 16384 .success) = false := by decide +kernel
theorem test_refuses_void_tag : Instr.wellFormed (.voidTagReuse 0 16384) = false := by decide +kernel
theorem test_refuses_connection_quarantine : Instr.wellFormed (.quarantineEnd 262144) = false := by decide +kernel
theorem test_refuses_connection_ack_timer : Instr.wellFormed (.ackTimer 262144) = false := by decide +kernel
theorem test_refuses_connection_completion : Instr.wellFormed (.sarupRxCompletion 262144) = false := by decide +kernel
theorem test_refuses_flush_connection : Instr.wellFormed (.flushVisible 262144 0) = false := by decide +kernel
theorem test_refuses_flush_psn : Instr.wellFormed (.flushVisible 0 (2 ^ 32)) = false := by decide +kernel
theorem test_refuses_retransmit_connection : Instr.wellFormed (.retransmitTimeout 262144 0) = false := by decide +kernel
theorem test_refuses_retransmit_psn : Instr.wellFormed (.retransmitTimeout 0 (2 ^ 32)) = false := by decide +kernel
theorem test_refuses_rnr_connection : Instr.wellFormed (.rnrRetry 262144 0) = false := by decide +kernel
theorem test_refuses_rnr_psn : Instr.wellFormed (.rnrRetry 0 (2 ^ 32)) = false := by decide +kernel
theorem test_refuses_queue_wr_write : Instr.wellFormed (.wrWrite (.host 0 32768) none) = false := by decide +kernel
theorem test_refuses_queue_wr_write_imm : Instr.wellFormed (.wrWriteImm (.host 0 32768) none) = false := by decide +kernel
theorem test_refuses_queue_wr_send : Instr.wellFormed (.wrSend (.host 0 32768) none) = false := by decide +kernel
theorem test_refuses_queue_wr_read : Instr.wellFormed (.wrRead (.host 0 32768) none) = false := by decide +kernel
theorem test_refuses_queue_wr_fetch_add : Instr.wellFormed (.wrFetchAdd (.host 0 32768) none) = false := by decide +kernel
theorem test_refuses_queue_wr_cas : Instr.wellFormed (.wrCas (.host 0 32768) none) = false := by decide +kernel
theorem test_refuses_queue_wr_flush : Instr.wellFormed (.wrFlush (.host 0 32768) none) = false := by decide +kernel
theorem test_refuses_queue_wr_open : Instr.wellFormed (.wrOpen (.host 0 32768) none) = false := by decide +kernel
theorem test_refuses_queue_wr_revoke : Instr.wellFormed (.wrRevoke (.host 0 32768) none) = false := by decide +kernel
theorem test_refuses_no_words_get_nonce : Instr.wellFormed (.getNonce 0 []) = false := by decide +kernel
theorem test_refuses_no_words_recover : Instr.wellFormed (.recover 0 []) = false := by decide +kernel
theorem test_refuses_no_words_slot_revoke : Instr.wellFormed (.slotRevoke 0 []) = false := by decide +kernel
theorem test_refuses_no_words_retire : Instr.wellFormed (.retire 0 []) = false := by decide +kernel
theorem test_refuses_no_words_debug_unlock : Instr.wellFormed (.debugUnlock 0 []) = false := by decide +kernel
theorem test_refuses_no_words_image_load : Instr.wellFormed (.imageLoad 0 []) = false := by decide +kernel
theorem test_refuses_no_words_lifecycle_advance : Instr.wellFormed (.lifecycleAdvance 0 []) = false := by decide +kernel
theorem test_refuses_no_words_slot_program : Instr.wellFormed (.slotProgram 0 []) = false := by decide +kernel
theorem test_refuses_nine_words : Instr.wellFormed (.getNonce 0 (List.replicate 9 0)) = false := by decide +kernel
theorem test_refuses_empty_mctp : Instr.wellFormed (.mctpMessage 0 true []) = false := by decide +kernel
theorem test_refuses_check_zero : Instr.wellFormed (.imageRejected [] 0) = false := by decide +kernel
theorem test_refuses_vf_count : Instr.wellFormed (.vfEnable 0 2049) = false := by decide +kernel
theorem test_refuses_vf_count_before : Instr.wellFormed (.vfDisable 0 2049) = false := by decide +kernel

/-! ## The states and operands that the witnesses build -/

/-- Reset, but in DAY. -/
def day : State := State.reset.put GLB_MODE.MODE DAY

/-- Reset, but in another mode. -/
def inMode (m : Nat) : State := State.reset.put GLB_MODE.MODE m

/-- A word that requests a mode. -/
def asks (m : Nat) : Word := BitVec.ofNat 64 (m * 2 ^ GLB_MODE.REQ.lo)

/-- A state long after power-up, at a late device time. -/
def late (s : State) : State := { s with edges := 10 ^ 15, car := { s.car with time := 10 ^ 40 } }

/-- A state with other mode bookkeeping. -/
def held (h : NightHold) : State := { day with modes.hold := h }

/-- DAY, with the link of port 0 up. -/
def carries : State := day.put ETH_PORT_STATUS.LINK 1

/-- DAY, where the part may enter EVENING by itself. -/
def autoDay : State := ((day.put GLB_EVENING_CTL.AUTO_ENTER 1).put GLB_EVENING_CTL.DOWN_KIB 1).put GLB_EVENING_CTL.UP_KIB 2

/-- EVENING, with more in the buffer than UP_KIB. -/
def busyEvening : State := (inMode EVENING).put GLB_EVENING_CTL.UP_KIB 0

/-- DAY, where slot 1 has been better than the selected slot 0. -/
def betterSlot : State :=
  late (((((({ day with car.selected := true, car.slots := day.car.slots.set {} 1 { betterSince := some 0 } } : State).put CAR_STATUS.SRC 0).put
    CAR_SERVO_CFG.REVERT 1).put CAR_SRC_STATUS.USABLE 1 0 1).put CAR_SRC_CFG.PRIORITY 2 0 0).put CAR_SRC_CFG.PRIORITY 1 0 1)

/-- DAY, with a PTP port 31 over Ethernet in a role, and this its exchange. -/
def ptpOn (role profile : Nat) (q : PtpPort) : State :=
  { ((((((day.put ETH_PORT_STATUS.LINK 1 31).put CAR_PTP_PORT.ROLE role 0 31).put CAR_PTP_PORT.TRANSPORT 0 0 31).put CAR_PTP_PORT.DOMAIN 0 0 31).put
      CAR_PTP_PORT.PROFILE profile 0 31).put CAR_PTP_PORT.UNICAST 0 0 31) with car.ports := day.car.ports.set {} 31 q }

/-- A PTP frame of a message type and version, from portIdentity 0. -/
def ptpOf (kind version : Byte) : PtpFrame := ⟨List.replicate 12 0 ++ [0x88, 0xF7, kind, version], 0, false⟩

/-- A qualified master. -/
def goodMaster : ForeignMaster := { id := 0, qualified := true, heard := [0] }

/-- DAY, with PPS_IN or GNSS_PPS enabled and this its input. -/
def ppsOn (k : Nat) (q : PpsInput) : State :=
  { ((((day.put CAR_PPS_IN.EN 1).put CAR_STATUS.TOD_VALID 1).put CAR_NMEA.EN 1).put CAR_NMEA.ASSOC 0) with car.pps := day.car.pps.set {} k q }

/-- DAY, with slot 7 enabled on a PTP port, its last measurement noted. -/
def slotOn : State := { ((day.put CAR_SRC_CFG.KIND 0 0 7).put CAR_SRC_CFG.EN 1 0 7) with car.slots := day.car.slots.set {} 7 { seen := some 0 } }

/-- A state with several fields set: field, value, and the two indices of its register. -/
def puts (s : State) (l : List (Field × Nat × Nat × Nat)) : State := l.foldl (fun t x => t.put x.1 x.2.1 x.2.2.1 x.2.2.2) s

/-- DAY, with time delivery on host link 15. -/
def linkRuns : State := puts day [(CAR_LINK_MAP.EN, 1, 0, 15), (CAR_LINK_STATUS.PTM_ON, 1, 0, 15), (HL_LINK_STATUS.UP, 1, 15, 0), (CAR_BELL_CTL.EN, 1, 0, 15), (CAR_BELL_CTL.SQUELCH, 0, 0, 15)]

/-- The same, in a state of its link. -/
def linkFailed (x : LinkTime) : State := { linkRuns with td.links := linkRuns.td.links.set {} 15 x }

/-- DAY, with tokens enabled and time held. -/
def tokens : State := { puts day [(CAR_TOKEN_CTL.EN, 1, 0, 0), (CAR_STATUS.HELD, 1, 0, 0), (CAR_STATUS.UNSYNC, 0, 0, 0)] with
  car.carry := some { eps := 1, tC := 0, tLast := 0, adjF := 0 } }

/-- DAY, with port 31 enabled. -/
def portUp : State := puts day [(ETH_PORT_CTL.EN, 1, 31, 0)]

/-- DAY, with the link of port 31 up and a frame selected for it. -/
def sends : State := { puts day [(ETH_PORT_STATUS.LINK, 1, 31, 0)] with net.txq := day.net.txq.set [] 31 [{ launch := 5 }] }

/-- DAY, with the whole of port 3 under XOFF and its occupancy above XON. -/
def xoffDue : State := late { puts day [(ETH_PORT_STATUS.LINK, 1, 3, 0), (ETH_MAC_CFG.PAUSE_TX, 1, 3, 0), (ETH_MAC_CFG.PFC_EN, 0, 3, 0), (ETH_PFC_CFG.XON_KIB, 0, 3, 0)] with
  ports := day.ports.set {} 3 { xoff := day.ports.get {} 3 |>.xoff.set 0 8 1 } }

/-- A frame for host receive queue 0. -/
def frame : Packet := { bytes := [1, 2, 3, 4], dest := .loop 0, l0 := 0 }

/-- DAY, with a frame at the head of queue 0 of the scheduler and its node enabled. -/
def queued (x : Packet) (node : Nat) : State := { puts day [(SCH_L2_CFG.EN, 1, 0, node)] with
  net.queues := day.net.queues.set [] x.l0 [x] }

/-- DAY, with a frame held at L2 node 51. -/
def holding (h : HeldFrame) : State := { puts day [(CAR_STATUS.HELD, 1, 0, 0)] with
  net.holds := day.net.holds.set [] 51 [h], car.carry := some { eps := 1, tC := 0, tLast := 0, adjF := 0 }, car.time := 10 ^ 30 }

/-- DAY, with pipeline 7 enabled and this its state. -/
def pipeline (q : Pipeline) : State := { puts day [(PPL_CFG.EN, 1, 7, 0)] with net.pipes := day.net.pipes.set {} 7 q }

/-- DAY, with a packet for pool 15 in queue 0 and engine 127 in that pool, running and with room. -/
def pooled : State := { puts day [(SCH_L2_CFG.EN, 1, 0, 48), (PPL_POOL_CFG.CLUSTERS, 0x8000, 0, 15), (TBE_CTL.EN, 1, 127, 0), (TBC_STATUS.STATE, 2, 15, 0),
    (⟨.SCH_L1, 5, 0⟩, 48, 0, 0)] with
  net.queues := day.net.queues.set [] 0 [{ dest := .pool 15 }], tbe.threads := day.tbe.threads.set {} 1023 { mode := .parked } }

/-- DAY, with a cuckoo table 255 of one block in each way, and aging. -/
def aging : State := puts day [(TBL_T_AGE.AGE_EN, 1, 0, 255), (TBL_T_CFG.EN, 1, 0, 255), (TBL_T_WAYS.BLOCKS, 1, 0, 255), (TBL_T_WAYS.BASE1, 1, 0, 255),
  (TBL_BLOCK_MAP.OWNER 0, 0, 0, 0), (TBL_BLOCK_MAP.OWNER 1, 0, 0, 0)]

/-- DAY, with a direct table 255 of one block. -/
def direct : State := puts day [(TBL_T_CFG.MODE, 1, 0, 255), (TBL_T_CFG.EN, 1, 0, 255), (TBL_T_WAYS.BLOCKS, 1, 0, 255), (TBL_BLOCK_MAP.OWNER 0, 0, 0, 0)]

/-- A command word for table 255. -/
def forTable (i : Nat) : Word := BitVec.ofNat 64 (255 * 2 ^ TBL_CMD.TABLE.lo + i * 2 ^ TBL_CMD.INDEX.lo)

/-- DAY, with cluster 15 in a state and awake. -/
def clusterIn (k : Nat) : State := puts day [(TBC_STATUS.STATE, k, 15, 0), (⟨.PWR_DOMAIN_STATUS, 15, 15⟩, 1, 0, 0)]

/-- The same, running, with thread 1023 in this state at instruction word `w`. -/
def atWord (w : Nat) (x : Thread) : State := { clusterIn 2 with
  tbe := { day.tbe with threads := day.tbe.threads.set {} 1023 x, mem := Memory.writeBytes day.tbe.mem (imemBase 15) (natLe 4 w) } }

/-- The same, with every thread of cluster 15 parked, quiet and without work since up-time 0. -/
def allParked : State := { puts (clusterIn 2) [(TBC_START_MASK.MASK, 0, 15, 0)] with
  tbe := { day.tbe with
    threads := (threadsOf 15).foldl (fun l t => l.set {} t { mode := .parked }) day.tbe.threads
    quietSince := day.tbe.quietSince.set 0 15 1
    idleSince := day.tbe.idleSince.set 0 15 1 } }

/-- A cluster that is awake stays as it is. -/
theorem wake_awake (s : State) (c : Nat) (h : s.domainAwake c = true) : s.wakeCluster c = s := by
  unfold State.wakeCluster; simp [h]

theorem parked_waits (k : Nat) (hk : k ∈ threadsOf 15) : ((late allParked).thread k).waits ∧ ((late allParked).thread k).credits = 0 := by
  have h : ∀ k ∈ threadsOf 15, ((late allParked).thread k).waits ∧ ((late allParked).thread k).credits = 0 := by decide +kernel
  exact h k hk

theorem parked_quiet (k : Nat) (hk : k ∈ threadsOf 15) : (late allParked).quiet k := by
  have h : ∀ k ∈ threadsOf 15, (late allParked).quiet k := by decide +kernel
  exact h k hk

/-- No table has a twin in `aging`. -/
theorem noTwin : ∀ x < 256, aging.twinOf x ≠ some (255 : Fin 256).val := by
  have h : ∀ x ∈ List.range 256, aging.twinOf x ≠ some 255 := by decide +kernel
  intro x hx; exact h x (List.mem_range.mpr hx)

/-- No block is in use in DAY. -/
theorem noBlock (b : Nat) : day.blockUsed b = false := by
  have h : ∀ t ∈ List.range 256, day.isSet TBL_T_CFG.EN 0 t = false := by decide +kernel
  have h1 : day.isSet TBL_FLOW_CFG.EN = false := by decide +kernel
  have h2 : day.net.images = [] := by decide +kernel
  simp only [State.blockUsed, h1, h2, Bool.false_and, List.any_nil, Bool.or_false, List.any_eq_false]
  intro t ht
  simp [h t ht]

/-- A message of thread 1023 to a channel: its operation, the words after its header, and the slot it gave up. -/
def mesg (channel op : Nat) (ws : List Nat) (slot : Option Slot := none) : Msg :=
  { thread := 1023, epoch := 0, slot, words := ((channel + 2 ^ 8 * op + 2 ^ 16 * (ws.length + 1)) :: ws).map (BitVec.ofNat 64) }

/-- A state with messages in flight. -/
def inFlight (l : List Msg) (s : State) : State := { s with tbe.msgs := l }

/-- A slot numbered 31. -/
def slot31 : Slot := { num := 31, pkt := {} }

/-- DAY, with a range table 255 whose entry 0 holds key 0 with action 5. -/
def ranged : State := { puts day [(TBL_T_CFG.KIND, 3, 0, 255), (TBL_T_CFG.EN, 1, 0, 255), (TBL_T_WAYS.BLOCKS, 1, 0, 255), (TBL_BLOCK_MAP.OWNER 0, 0, 0, 0)] with
  tbl.mem := Memory.writeBytes day.tbl.mem 0 (natLe 16 (5 * 2 ^ 64 + 2 ^ 96 + 2 ^ 98)) }

/-- DAY, with the flow tier behind table 255. -/
def tiered : State := puts day [(TBL_T_CFG.TIER, 1, 0, 255), (TBL_T_CFG.EN, 1, 0, 255), (TBL_FLOW_CFG.EN, 1, 0, 0), (TBL_FLOW_CFG.TABLE, 255, 0, 0), (TBL_FLOW_BUCKETS.BUCKETS, 1, 0, 0)]

/-- DAY, with Sarup enabled and queue pair 0, active, bound to thread 1023. -/
def engineBound : State := { (puts day [(XPT_CFG.EN, 1, 0, 0)]).setRaw .XPT_QP_BIND 0 0 (BitVec.ofNat 64 (3 + 4 * 1023)) with
  hq.pairs := day.hq.pairs.set {} 0 { state := ACTIVE } }

/-- DAY, with lookaside and compression on, and key 0 of an algorithm cached. -/
def sealed (alg : Nat) : State := { puts day [(CRY_CFG.EN, 1, 0, 0), (CMP_CFG.EN, 1, 0, 0)] with
  sec.cache := [(0, { alg, use := 7, clusters := 65535, material := List.replicate 64 0 })] }

/-- Cluster 15 running, with thread 1023 running at instruction word `w`. -/
def running (w : Nat) (x : Thread := {}) : State := atWord w { x with mode := .run }

/-- DAY, with host link 15 up, its network function 30 enabled, and queue pair 0 its queue 0 in this state. -/
def hosted (q : QueuePair) : State := { puts day [(HL_LINK_CFG.WIDTH, 1, 15, 0), (HL_LINK_STATUS.UP, 1, 15, 0), (FNC_RES_QP.QP_COUNT, 1, 30, 0), (FNC_RES_CTL.VALID, 1, 30, 0)] with
  hl.fns := day.hl.fns.set {} 30 { busMaster := true, memSpace := true }, hq.pairs := day.hq.pairs.set {} 0 q }

/-- A queue pair in a state, whose doorbell is on the last page of a PF. -/
def lastPage (k : Nat) : QueuePair := { state := k, cfg := BitVec.ofNat 64 (0x6666 + 271 * 2 ^ 16) }

/-- The same host, with this its link. -/
def linked (k : HostLink) : State := { hosted {} with hl.links := day.hl.links.set {} 15 k }

/-- DAY, with host link 0 up and one VF of its network PF enabled. -/
def withVf (x : PcieFn) : State := { puts day [(HL_LINK_STATUS.UP, 1, 0, 0), (HL_LINK_CFG.VF_NET, 1, 0, 0), (HL_SRIOV_STATUS.VFE_NET, 1, 0, 0), (HL_SRIOV_STATUS.NUMVFS_NET, 1, 0, 0)] with
  hl.fns := day.hl.fns.set {} 32 x }

/-- DAY, with this test running. -/
def testing (k n : Nat) : State := { day with gong.running := [{ kind := k, unit := n, ts := 0 }] }

/-- DAY, with window 0 of the mailboxes at mailbox 2,080 of cluster 0, which is in this state, and these messages toward it. -/
def windowed (k : Nat) (b : List MbxMsg) : State := { puts day [(MBX_SEL.MAILBOX, 2080, 0, 0), (TBC_STATUS.STATE, k, 0, 0)] with mbx := day.mbx.set {} 2080 { toFar := b } }

/-- The 64 bytes of a submission entry, from its double words. -/
def cmdBytes (l : List (Nat × Nat)) : List Byte := patches (List.replicate 64 0) (l.map fun x => (4 * x.1, natLe 4 x.2))

/-- DAY, with the storage PF 31 of host link 15, this its controller and these commands outstanding. -/
def stored (c : NvmCtl) (l : List NvmCmd := []) : State := { puts day [(HL_LINK_CFG.WIDTH, 1, 15, 0), (HL_LINK_STATUS.UP, 1, 15, 0), (NVM_CFG.EN, 1, 0, 0), (NVM_FN_RES.VALID, 1, 0, 31),
    (NVM_FN_RES.QP_COUNT, 4, 0, 31), (NVM_FN_RES.VEC_COUNT, 4, 0, 31)] with
  hl.fns := day.hl.fns.set {} 31 { busMaster := true, memSpace := true }, nvm.ctls := day.nvm.ctls.set {} 31 c, nvm.cmds := l }

/-- A command of PF 31 with handle 5. -/
def nvmOf (l : List (Nat × Nat)) (sq : Nat := 1) (stage : NvmStage := .held) : NvmCmd := { handle := 5, fn := 31, sq, num := 0, bytes := cmdBytes l, stage }

/-- An enabled controller with submission queue 1 on completion queue 1. -/
def ctl : NvmCtl := { cc := 1 + 4 * 2 ^ 20 + 6 * 2 ^ 16, rdy := true, sqs := ({} : Store NvmSq).set {} 1 { size := 2, tail := 1, cq := 1 }, cqs := ({} : Store NvmCq).set {} 1 { size := 2 } }

/-- The key that the witnesses cache at index 5. -/
def key5 (alg : Nat) : KeyEntry := { alg, use := 7, clusters := 65535, material := List.replicate 64 0 }

/-- DAY, with that key. -/
def keyed (alg : Nat) (l : List CryptoJob := []) : State := { day with sec.cache := [(5, key5 alg)], sec.jobs := l }

/-- A key command. -/
def keyCmd (op index : Nat) : Word := BitVec.ofNat 64 (op * 2 ^ CRY_KEY_CMD.OP.lo + 5 * 2 ^ CRY_KEY_CMD.ALG.lo + index * 2 ^ CRY_KEY_CMD.INDEX.lo)

/-- A manifest of KIND 0 with no body, whose field at 0x30 holds these bytes. -/
def manifest (h : List Byte) : List Byte := ([0x45, 0x48, 0x49, 0x4D, 1, 0] ++ List.replicate 42 0) ++ h

/-- DAWN, or another mode, with key slots 0 and 1 programmed with keys of zeros. -/
def slotted (m : Nat) (x : SecState := {}) : State := { puts (inMode m) [(SEC_SLOT_STATUS.PROGRAMMED, 3, 0, 0), (SEC_SLOT_STATUS.REVOKED, 0, 0, 0), (SEC_LIFECYCLE.STATE, 2, 0, 0)] with
  sec := { x with slots := ({} : Store (List Byte)).set [] 0 (hash384 (List.replicate 2689 0)) } }

theorem slice_length (l : List Byte) (o n : Nat) : (slice l o n).length = n := by
  unfold slice; simp only [List.length_append, List.length_take, List.length_replicate]; omega

theorem slice_left (a b : List Byte) (o n : Nat) (h : o + n ≤ a.length) : slice (a ++ b) o n = slice a o n := by
  unfold slice
  rw [List.drop_append_of_le_length (by omega), List.take_append_of_le_length (by simp only [List.length_drop]; omega)]

theorem slice_right (a b : List Byte) (o n : Nat) (h : a.length ≤ o) : slice (a ++ b) o n = slice b (o - a.length) n := by
  unfold slice; rw [List.drop_append, List.drop_eq_nil_of_le h, List.nil_append]

theorem slice_past (l : List Byte) (o n : Nat) (h : l.length ≤ o) : slice l o n = List.replicate n 0 := by
  unfold slice; rw [List.drop_eq_nil_of_le h]; simp

theorem slice_all (l : List Byte) (n : Nat) (h : l.length = n) : slice l 0 n = l := by
  subst h; unfold slice; simp

theorem manifest_right (h : List Byte) (l : h.length = 48) (o n : Nat) (ho : 96 ≤ o) : slice (manifest h) o n = List.replicate n 0 :=
  slice_past _ _ _ (by simp only [manifest, List.length_append, List.length_cons, List.length_nil, List.length_replicate]; omega)

theorem manifest_left (h : List Byte) (o n : Nat) (ho : o + n ≤ 48) : slice (manifest h) o n = slice ([0x45, 0x48, 0x49, 0x4D, 1, 0] ++ List.replicate 42 0) o n :=
  slice_left _ _ _ _ (by simpa using ho)

theorem image_checks (s : State) (h : List Byte) (e : h = hash384 []) (hs : s.slotHolds 0 (List.replicate 2689 0)) (hr : s.fld (SEC_ROLLBACK.COUNTER 0) = 0)
    (he : ecdsaOk (List.replicate 97 0) (imgSigned (manifest h)) (List.replicate 96 0)) (hm : mlDsaOk (List.replicate 2592 0) (imgSigned (manifest h)) (List.replicate 4627 0)) :
    s.imageCheck 0 (manifest h) = 0 := by
  have l : h.length = 48 := by rw [e]; exact slice_length _ _ _
  have a0 : imgBodyLen (manifest h) = 0 := by unfold imgBodyLen leAt; rw [manifest_left _ _ _ (by decide)]; decide +kernel
  have a1 : imgSlot (manifest h) = 0 := by unfold imgSlot leAt; rw [manifest_left _ _ _ (by decide)]; decide +kernel
  have a2 : imgKeys (manifest h) = List.replicate 2689 0 := manifest_right h l _ _ (by decide)
  have a3 : imgHash (manifest h) = h := by
    unfold imgHash; rw [manifest, slice_right _ _ _ _ (by simp)]; exact slice_all _ _ l
  have a4 : imgBody (manifest h) = [] := by unfold imgBody; rw [a0, manifest_right h l _ _ (by decide)]; rfl
  unfold State.imageCheck
  rw [if_neg]
  · rw [a1, a2, if_neg (fun c => by rw [hs] at c; exact absurd c (by decide)), manifest_right h l _ _ (by decide), manifest_right h l _ _ (by decide), if_neg (fun c => by rw [he] at c; exact absurd c (by decide)), manifest_right h l _ _ (by decide),
      manifest_right h l _ _ (by decide), if_neg (fun c => by rw [hm] at c; exact absurd c (by decide)), hr, if_neg (by omega), a3, a4, ← e, if_neg (fun c => c rfl)]
  · simp only [imgKind, leAt, zeroAt, a0]
    rw [manifest_left _ _ _ (by decide), manifest_left _ _ _ (by decide), manifest_left _ _ _ (by decide), manifest_left _ _ _ (by decide), manifest_left _ _ _ (by decide),
      manifest_right h l _ _ (by decide)]
    decide +kernel

theorem slotted_holds (m : Nat) (x : SecState) (h : bitOf ((slotted m x).fld SEC_SLOT_STATUS.PROGRAMMED) 0 && !bitOf ((slotted m x).fld SEC_SLOT_STATUS.REVOKED) 0) :
    (slotted m x).slotHolds 0 (List.replicate 2689 0) := by
  unfold State.slotHolds
  have e : (slotted m x).sec.slots.get [] 0 = hash384 (List.replicate 2689 0) := Store.get_set_same ..
  have b : (hash384 (List.replicate 2689 0) == hash384 (List.replicate 2689 0)) = true := beq_self_eq_true _
  rw [e, b, Bool.and_true, Bool.and_eq_true]
  rw [Bool.and_eq_true] at h
  exact ⟨by rw [h.1]; rfl, h.2⟩

theorem image_passes (h : List Byte) (e : h = hash384 []) (he : ecdsaOk (List.replicate 97 0) (imgSigned (manifest h)) (List.replicate 96 0))
    (hm : mlDsaOk (List.replicate 2592 0) (imgSigned (manifest h)) (List.replicate 4627 0)) :
    (slotted DAWN).booting ∧ (slotted DAWN).sec.waitsImage = false ∧ (slotted DAWN).imageCheck (slotted DAWN).bootKind (manifest h) = 0 :=
  ⟨by decide +kernel, rfl, image_checks _ h e (slotted_holds _ _ (by decide +kernel)) (by decide +kernel) he hm⟩

/-- A signed command of a code, from slot 0, whose argument is 1, as an MCTP message. -/
def signedMsg (code : Nat) : List Word := [BitVec.ofNat 64 0x42, 0, 0, BitVec.ofNat 64 (0x43534845 + code * 2 ^ 32), 0, 0, 0, 0, 0, 0, BitVec.ofNat 64 1]

/-- That command as it is read. -/
def signedBytes (code : Nat) : List Byte := slice (wordBytes ((signedMsg code).drop 3)) 0 8192

/-- A state in which the signed command of a code is fresh on requester 3. -/
def signing (code : Nat) : State :=
  let s := slotted (if code = 1 then MIDNIGHT else DAY) { nonces := ({} : Store (List Byte × Nat)).set default 3 (slice (signedBytes code) 8 48, 1) }
  if code = 2 then s.put SEC_SLOT_STATUS.PROGRAMMED 7 else s

theorem signed_passes (s : State) (c : List Byte) (e : slice c 0x48 (97 + 2592) = List.replicate 2689 0) (k1 : slice c 0x48 97 = List.replicate 97 0)
    (k2 : slice c 0xA9 2592 = List.replicate 2592 0) (g1 : slice c 0xAD0 96 = List.replicate 96 0) (g2 : slice c 0xB30 4627 = List.replicate 4627 0)
    (h1 : slice c 0 4 = [0x45, 0x48, 0x53, 0x43] ∧ zeroAt c 7 1 ∧ zeroAt c 0xAC9 7 ∧ leAt c 0x40 8 = s.sec.serial) (h2 : cmdSlot c = 0)
    (h3 : (match (s.sec.nonces.entries.find? fun x => x.1 == 3) with
      | some x => x.2.1 == slice c 8 48 && decide (s.up ≤ x.2.2 + 60 * perSec)
      | none => false) = true) (hs : s.slotHolds 0 (List.replicate 2689 0))
    (he : ecdsaOk (List.replicate 97 0) (cmdSigned c) (List.replicate 96 0)) (hm : mlDsaOk (List.replicate 2592 0) (cmdSigned c) (List.replicate 4627 0)) :
    s.signedStatus 3 c = rotOk := by
  unfold State.signedStatus
  dsimp only
  rw [if_neg]
  · rw [h2, e, k1, k2, g1, g2, hs, he, hm, if_neg (by decide)]
  · rintro (a | a | a | a | a)
    · exact a h1.1
    · rw [h1.2.1] at a; exact absurd a (by decide)
    · rw [h1.2.2.1] at a; exact absurd a (by decide)
    · exact Bool.noConfusion (h3.symm.trans ((Bool.not_eq_true' _).mp a))
    · exact a h1.2.2.2

theorem slice_zeros (l : List Byte) (k o n : Nat) : slice (l ++ List.replicate k 0) o n = slice l o n := by
  apply List.ext_getElem (by rw [slice_length, slice_length])
  intro i h1 h2
  rw [slice_length] at h1
  simp only [slice, List.drop_append, List.getElem_append, List.getElem_take, List.getElem_drop, List.getElem_replicate, List.length_take, List.length_append, List.length_drop,
    List.length_replicate, List.drop_replicate]
  split <;> split <;> first | rfl | omega | (split <;> first | rfl | omega)

theorem signed_tail (code o n : Nat) (h : 64 ≤ o) : slice (signedBytes code) o n = List.replicate n 0 := by
  have l : (wordBytes ((signedMsg code).drop 3)).length = 64 := rfl
  have e : signedBytes code = wordBytes ((signedMsg code).drop 3) ++ List.replicate 8128 0 := by
    unfold signedBytes; generalize wordBytes ((signedMsg code).drop 3) = w at *
    show w.take 8192 ++ List.replicate (8192 - (w.take 8192).length) 0 = _
    rw [List.take_of_length_le (by omega), l]
  rw [e, slice_zeros, slice_past _ _ _ (by omega)]

theorem signing_holds (code : Nat) (h : bitOf ((signing code).fld SEC_SLOT_STATUS.PROGRAMMED) 0 && !bitOf ((signing code).fld SEC_SLOT_STATUS.REVOKED) 0) :
    (signing code).slotHolds 0 (List.replicate 2689 0) := by
  have e : (signing code).sec.slots.get [] 0 = hash384 (List.replicate 2689 0) := by
    simp only [signing]; split <;> exact Store.get_set_same ..
  have b : (hash384 (List.replicate 2689 0) == hash384 (List.replicate 2689 0)) = true := beq_self_eq_true _
  unfold State.slotHolds
  rw [e, b, Bool.and_true, Bool.and_eq_true]
  rw [Bool.and_eq_true] at h
  exact ⟨by rw [h.1]; rfl, h.2⟩

/-- The words whose bytes a manifest with its zero body's hash has. -/
def imageMsg (n : Nat) (ws : List Word) : List Word := [BitVec.ofNat 64 0x43, 0, BitVec.ofNat 64 n] ++ (leWords 6 (manifest []) ++ ws)

theorem wordBytes_append (a b : List Word) : wordBytes (a ++ b) = wordBytes a ++ wordBytes b := by unfold wordBytes; rw [List.flatMap_append]

theorem natLe_leNat : ∀ l : List Byte, natLe l.length (leNat l) = l
  | [] => rfl
  | b :: l => by
    have h : (b.toNat + 256 * leNat l) / 256 = leNat l := by have := b.isLt; omega
    have g : BitVec.ofNat 8 (b.toNat + 256 * leNat l) = b := by
      apply BitVec.eq_of_toNat_eq; rw [BitVec.toNat_ofNat]; have := b.isLt; omega
    show natLe (l.length + 1) (b.toNat + 256 * leNat l) = _
    unfold natLe; rw [h, g, natLe_leNat l]

theorem leNat_lt : ∀ l : List Byte, leNat l < 256 ^ l.length
  | [] => by decide
  | b :: l => by
    have h := leNat_lt l
    have g := b.isLt
    show b.toNat + 256 * leNat l < 256 ^ (l.length + 1)
    rw [Nat.pow_succ]; omega

theorem wordBytes_leWords : ∀ (n : Nat) (l : List Byte), l.length = 8 * n → wordBytes (leWords n l) = l
  | 0, l, h => by
    have e : l = [] := List.length_eq_zero_iff.mp (by omega)
    subst e; rfl
  | n + 1, l, h => by
    have a : (l.take 8).length = 8 := by rw [List.length_take]; omega
    have b := leNat_lt (l.take 8)
    have c := natLe_leNat (l.take 8)
    rw [a] at b c
    show natLe 8 (BitVec.ofNat 64 (leNat (l.take 8))).toNat ++ wordBytes (leWords n (l.drop 8)) = l
    rw [BitVec.toNat_ofNat, Nat.mod_eq_of_lt (by omega), c, wordBytes_leWords n _ (by rw [List.length_drop]; omega), List.take_append_drop]

theorem image_read (s : State) (h : List Byte) (e : h.length = 48) : s.rotRead 3 (imageMsg 96 (leWords 6 h)) 96 = manifest h := by
  have a : wordBytes ((imageMsg 96 (leWords 6 h)).drop 3) = manifest h := by
    show wordBytes (leWords 6 (manifest []) ++ leWords 6 h) = _
    rw [wordBytes_append, wordBytes_leWords 6 _ (by decide), wordBytes_leWords 6 h (by omega)]; rfl
  show slice (wordBytes ((imageMsg 96 (leWords 6 h)).drop 3)) 0 96 = _
  rw [a]; exact slice_all _ _ (by simp only [manifest, List.length_append, List.length_cons, List.length_nil, List.length_replicate]; omega)

/-- PF 31 with NSID 1 attached to namespace 7, and messages in flight. -/
def attachedTo (l : List NvmCmd) (ms : List Msg := []) : State := inFlight ms (((stored ctl l).onNvm fun n => { n with ns := n.ns.set 0 28 (2 ^ 49) }).setAttachment 31 1 (7 + 2 ^ 12))

theorem adminData_eq {s : State} {m : NvmCmd} {bs : List Byte} (h : (s.prpSegments m bs.length).isSome) : s.adminData m bs = ((s.adminData m bs).1, true) := by
  unfold State.adminData
  cases e : s.prpSegments m bs.length with
  | none => rw [e] at h; exact absurd h (by decide)
  | some l => rfl

theorem logPage_errors {s : State} {f lid : Nat} (h : lid = 1) : s.logPage f lid = some (slice (s.nvmCtl f).errors.flatten 0 4096) := by subst h; rfl

/-- DAY, with the transport on, UDP port 4,791, and the last connection READY on queue 0 of function 30 with these streams. -/
def ready (k : SarupConn) (q : QueuePair := { state := ACTIVE }) : State := { puts (hosted q) [(XPT_CFG.EN, 1, 0, 0), (XPT_CFG.UDP_PORT, 4791, 0, 0)] with
  xpt := { ctx := ({} : Store Nat).set 0 (8 * 262143) (1 + 30 * 4), conns := ({} : Store SarupConn).set {} 262143 k } }

/-- A Sarup packet from the peer of that connection, over UDP and IPv4 from and to address 0. -/
def packetOf (psn : Nat) (b : SarupBody) : Packet :=
  let d := sarupBytes 262143 0 psn b
  { bytes := List.replicate 12 0 ++ [8, 0, 0x45, 0] ++ natBe 2 (28 + d.length) ++ [0, 0, 0, 0, 0, 17, 0, 0] ++ List.replicate 8 0 ++ natBe 2 0 ++ natBe 2 4791 ++ natBe 2 (8 + d.length) ++ [0, 0] ++ d }

/-- That packet at the unit's input. -/
def taking (psn : Nat) (b : SarupBody) (s : State) : State := s.onXpt fun x => { x with input := [(0, packetOf psn b)] }

/-- That packet as the unit reads it. -/
def readAs (psn : Nat) (b : SarupBody) : SarupIn := { conn := 262143, psn, last := false, ackReq := false, body := b }

/-- The last window enabled, with generation 0 and every right, at 2^30 of function 30's memory or of DDR. -/
def opened (ddr : Bool) (s : State) : State :=
  ((s.setWin 1048575 0 (2 ^ 30)).setWin 1048575 1 (2 ^ 32 - 1 + 2 ^ 60 + if ddr then 2 ^ 61 else 0)).setWin 1048575 2 (30 + 7 * 2 ^ 12)

/-- An outstanding request on that connection. -/
def asking (op len : Nat) : QueuePair := { state := ACTIVE, chains := [{ id := 0, index := 0, slots := 1, cookie := 0, len, cqe := false, left := 1, sarup := some { op, conn := 262143 } }] }

/-- A work request of an OP in host memory, at the head of the TX ring of queue 0 of function 30, which is bound to the transport. -/
def working (op : Nat) : State :=
  ((puts (hosted { state := ACTIVE, prod := ({} : Store Nat).set 0 0 1 }) [(XPT_CFG.EN, 1, 0, 0)]).setRaw .XPT_QP_BIND 0 0 1).hostWrite 30 0 (natLe 8 0 ++ natLe 8 (op * 2 ^ 32) ++ natLe 16 0)

/-- A work request of an OP that thread 1,023 has posted to its queue. -/
def posting (op : Nat) : State :=
  ((puts (hosted { state := ACTIVE }) [(XPT_CFG.EN, 1, 0, 0), (XPT_FN_CONN.CONN_COUNT, 1, 0, 30)]).setRaw .XPT_QP_BIND 0 0 (BitVec.ofNat 64 (3 + 4 * 1023))).onXpt fun x =>
    { x with posted := x.posted.set [] 1023 [mesg 5 1 [0, 8 + op * 2 ^ 32, 0, 0, 0, 0]] }

/-! ## Examples of the spec -/

/-- What a command answers, or reset. -/
def nextOf (o : Out) : State := match o with
  | .next s => s
  | _ => State.reset

/-- 00_scope, the worked example of an address: offset 0x0100 of ETH instance 5 (R3). -/
theorem test_address_of_port_5 : (regAt 0x0150100).map (fun r => (r.1.layout.block, r.2.1)) = some (.ETH, 5) := by decide +kernel

/-- 21_register_map_index, the worked example: g5 of thread 3 of TBE instance 42 (R518). -/
theorem test_address_of_g5 : regAt 0x08A9D28 = some (.TBE_THREAD_G, 42, 32 * 3 + 5) := by decide +kernel

/-- 18_faults_and_guarantees, the worked example: the PC of thread 2 of engine 1 of cluster 6. -/
theorem test_address_of_pc : regAt 0x08C5810 = some (.TBE_THREAD_PC, 8 * 6 + 1, 2) := by decide +kernel

/-- 20_pins_electrical_package, the worked example: with LANE_MAP 0 logical lane 9 is physical lane 9 (R116). -/
theorem test_lane_9 : (day.put GLB_STRAPS.LANE_MAP 0).physicalLane 9 = 9 := by decide +kernel

/-- 19_performance_counters, the worked example: the first counter of TBE instance 42 (R483). -/
theorem test_counter_656 : pmcEngine 42 = 656 := by decide

/-- 16_compression_telemetry, the worked example: 1,300 ns lies in counter 166 and 70 µs in counter 257 (R433). -/
theorem test_histogram_166 : histBucket 5200 = 166 ∧ histBucket 280000 = 257 := by decide +kernel

/-- 09_zorurn_isa, the worked example `or g10, g10, g9` (R234, R238). -/
theorem test_or_word : ((nextOf (exec (.alu 1023) (running 0x00695281 { g := (({} : Store Word).set 0 10 12).set 0 9 10 }))).thread 1023).reg 10 = 14 := by decide +kernel

/-- 09_zorurn_isa, the worked example `addi g9, g0, 0x45` (R234, R238). -/
theorem test_addi_word : ((nextOf (exec (.ialu 1023) (running 0x04500248))).thread 1023).reg 9 = 0x45 := by decide +kernel

/-- 09_zorurn_isa, the worked example `ld.64.be g3, pkt[g7 + 40]` (R234, R243). -/
theorem test_ld_word : let w := 0x02DA38D0; zopKind (zop w) = .ld ∧ zrd w = 3 ∧ zrs1 w = 7 ∧ bits w 18 16 = 2 ∧ bits w 20 19 = 3 ∧ bitOf w 22 ∧ bitOf w 21 = false ∧
    memAddr w 0 = 40 := by
  decide +kernel

/-- 09_zorurn_isa, the worked example `chw g13, 1`: word 1 of the staged message takes g13 (R234, R253). -/
theorem test_chw_word : ((nextOf (exec (.chw 1023) (running 0x00016820 { g := ({} : Store Word).set 0 13 7 }))).thread 1023).staging.get 0 1 = 7 := by decide +kernel

/-- The all-zero word is ILLEGAL (R235). -/
theorem test_zero_word : zopKind (zop 0) = .illegal := by decide

/-- A read of 4 bytes returns all ones (R2). -/
theorem test_narrow_read : (nextOf (exec (.narrowAccess .jtag 0 4 false) day)).bus.resp = some (BitVec.allOnes 64) := by decide +kernel

/-- The block idles on an empty queue for one cycle of AOCLK. -/
theorem test_idle_edge : (nextOf (step State.reset)).edges = State.reset.edges + 1 := by decide +kernel

/-- The worked example of R498 in 20_pins_electrical_package: lane 9, PCIe lane 37, the strip of link 10 and DDR3_DQ[20]. -/
theorem test_ball_map :
    [ballName 5 27, ballName 5 28, ballName 19 71, ballName 20 71, ballName 49 64, ballName 50 64, ballName 42 57] =
      ["E27", "E28", "Y71", "AA71", "BL64", "BM64", "BD57"] ∧
    ballAt 5 27 = .ethTx 9 .p ∧ ballAt 5 28 = .ethTx 9 .n ∧ ballAt 19 71 = .pcieRx 37 .p ∧ ballAt 20 71 = .pcieRx 37 .n ∧
    ballAt 19 68 = .pcieTx 37 .p ∧ ballAt 20 68 = .pcieTx 37 .n ∧ ballAt 49 64 = .perst 10 ∧ ballAt 50 64 = .bell 10 .p ∧
    ballAt 42 57 = .ddr 3 (.dq 20) := by decide +kernel

/-- Balls of the package that `p` picks. -/
def balls (p : Ball → Bool) : Nat :=
  ((List.range 72).map fun i => ((List.range 72).filter fun j => p (ballAt (i + 1) (j + 1))).length).sum

/-- The table *Ball counts* of R498. -/
theorem test_ball_counts :
    balls (· == .vss) = 2125 ∧ balls (· == .nc) = 16 ∧ balls (· == .rail .core) = 720 ∧ balls (· == .rail .sram) = 120 ∧
    balls (· == .rail .aon) = 8 ∧ balls (· == .rail .ethL) = 96 ∧ balls (· == .rail .ethH) = 32 ∧ balls (· == .rail .pcieL) = 128 ∧
    balls (· == .rail .pcieH) = 48 ∧ balls (· == .rail .vddq) = 120 ∧ balls (· == .rail .io18) = 24 ∧ balls (· == .rail .io33) = 28 ∧
    balls (fun b => match b with | .ddr _ _ => true | _ => false) = 1200 := by decide +kernel

/-- Halting a hart that runs shows in GLB_CC_STATUS (R445). -/
theorem test_debug_halt : ((puts day [(GLB_CC_CTL.RUN, 2, 0, 0)]).debugPerforms (.halt 23)).fld GLB_CC_STATUS.DEBUG = 2 ^ 23 := by decide +kernel

/-! ## What meets the premises of the statements -/

/-- IneffectiveAccesses: states and operands that meet the premises of each clause. -/
theorem witness_IneffectiveAccesses :
    (∃ (req : Requester) (addr bytes : Nat) (write : Bool) (s u : State), s.mode ≠ NIGHT ∧ Quiet s ∧ u = s.accessedBy req ∧ ¬ (bytes = 8 ∧ addr % 8 = 0) ∧
      ((write ∨ bytes ≠ 4 ∨ addr % 4 ≠ 0 ∨ ∀ x, regAt (addr / 8 * 8) = some x → isTimeReg x.1 = false))) ∧
    (∃ (req : Requester) (addr : Nat) (s u : State), s.mode ≠ NIGHT ∧ Quiet s ∧ u = s.accessedBy req ∧ regAt (addr / 8 * 8) = none) ∧
    (∃ (req : Requester) (addr : Nat) (write : Bool) (s u : State), ∃ t, s.mode ≠ NIGHT ∧ Quiet s ∧ u = s.accessedBy req ∧ s.fld GONG_ACCESS.SEV ≠ 3 ∧
      t = (s.noEffect req addr write).settle ∧ s.fld GONG_ACCESS.SEV ≠ 0 ∧ u.accessGroup (blockAt addr) < 32) :=
  ⟨⟨.jtag, 0, 4, true, day, _, by decide +kernel, by unfold Quiet; decide +kernel, rfl, by decide +kernel⟩,
    ⟨.jtag, 0xFFF8, day, _, by decide +kernel, by unfold Quiet; decide +kernel, rfl, by decide +kernel⟩,
    ⟨.jtag, 0, true, day.put GONG_ACCESS.SEV 1, _, _, by decide +kernel, by unfold Quiet; decide +kernel, rfl, by decide +kernel, rfl, by decide +kernel⟩⟩

/-- RegisterAccessesComplete: states and operands that meet the premises of each clause. -/
theorem witness_RegisterAccessesComplete :
    ∃ (r : RegName) (n k : Nat) (s : State), s.mode ≠ NIGHT ∧ regExists r n k ∧ isTimeReg r :=
  ⟨.CAR_TIME_TS64, 0, 0, day, by decide +kernel⟩

/-- WriteByAccessType: states and operands that meet its premises. -/
theorem witness_WriteByAccessType :
    (RegName.CAR_SRC_PATH.layout.rwl.testBit 0 ∧ day.locked .CAR_SRC_PATH 0 = false ∧ (day.put CAR_LOCK.LOCK 1).locked .CAR_SRC_PATH 0) ∧
    RegName.GONG_STATUS.layout.w1c.testBit 31 ∧ RegName.GONG_LOCK.layout.w1s.testBit 0 ∧
    (let l := RegName.CAR_TIME_TS64.layout; (l.rw ||| l.wo ||| l.rwl ||| l.w1c ||| l.w1s).testBit 63 = false) := by decide +kernel

/-- StepRunsFront: states and operands that meet its premises. -/
theorem witness_StepRunsFront : ∃ s : State, s.pending = .duskDrainEnd :: [] ∧ State.reset.pending = [] :=
  ⟨{ State.reset with pending := [.duskDrainEnd] }, rfl, by decide⟩

/-- ResetState: states and operands that meet its premises. -/
theorem witness_ResetState : regCode .PWR_PLL_STATUS 0 1 ≠ regCode .PWR_PLL_STATUS 0 0 := by decide

/-- CounterMovesAtEdgesOnly: states and operands that meet its premises. -/
theorem witness_CounterMovesAtEdgesOnly :
    (∀ uv, Instr.duskDrainEnd ≠ .aonReset uv) ∧ (∃ t, exec .duskDrainEnd State.reset = .next t) ∧
    State.reset.pending = [] ∧ State.reset.modes.hold ≠ .aonDown ∧ step State.reset = .next State.reset.tick :=
  ⟨fun _ h => (by cases h), ⟨_, rfl⟩, rfl, by decide, rfl⟩

/-- CheckerAgrees: states and operands that meet its premises. -/
theorem witness_CheckerAgrees : State.reset.car.checker = State.reset.car.time ∧ step State.reset = .next State.reset.tick := ⟨rfl, rfl⟩

/-- QueueFirstInFirstOut: states and operands that meet its premises. -/
theorem witness_QueueFirstInFirstOut : ∃ t, step { State.reset with pending := [.duskDrainEnd, .avsAck] } = .next t ∧ t.pending = [.avsAck] :=
  ⟨_, rfl, by decide +kernel⟩

/-- ModeRequestAccepted: states and operands that meet the premises of each clause. -/
theorem witness_ModeRequestAccepted :
    (∃ (w : Word) (s : State), Quiet s ∧ s.fld GLB_MODE.TRANSIT = 0 ∧ wfld w GLB_MODE.FORCE = 0 ∧ wfld w GLB_MODE.REQ = NOON ∧ s.mode = DAY) ∧
    (∃ (w : Word) (s : State), Quiet s ∧ s.fld GLB_MODE.TRANSIT = 0 ∧ wfld w GLB_MODE.FORCE = 0 ∧ wfld w GLB_MODE.REQ = EVENING ∧ s.mode = DAY) ∧
    (∃ (w : Word) (s : State), Quiet s ∧ s.fld GLB_MODE.TRANSIT = 0 ∧ wfld w GLB_MODE.FORCE = 0 ∧ wfld w GLB_MODE.REQ = DUSK ∧
      (s.mode = DAY ∨ s.mode = NOON ∨ s.mode = EVENING)) ∧
    (∃ (w : Word) (s : State), Quiet s ∧ s.fld GLB_MODE.TRANSIT = 0 ∧ wfld w GLB_MODE.FORCE = 0 ∧ wfld w GLB_MODE.REQ = DUSK ∧
      (s.mode = DAY ∨ s.mode = NOON ∨ s.mode = EVENING)) :=
  ⟨⟨asks NOON, day, by unfold Quiet; decide +kernel⟩,
    ⟨asks EVENING, day, by unfold Quiet; decide +kernel⟩,
    ⟨asks DUSK, day, by unfold Quiet; decide +kernel⟩,
    ⟨asks DUSK, inMode EVENING, by unfold Quiet; decide +kernel⟩⟩

/-- AutomaticTransitions: states and operands that meet the premises of each clause. -/
theorem witness_AutomaticTransitions :
    (∃ s : State, s.fld GLB_MODE.TRANSIT = 0 ∧ s.mode = DUSK ∧ s.drained ∧ s.fld GLB_MODE.DUSK_END = 1) ∧
    (∃ s : State, ∃ since, s.fld GLB_MODE.TRANSIT = 0 ∧ s.mode = DAY ∧ s.autoEnter ∧ s.idle ∧ s.modes.idleSince = some since ∧
      since + ofUs (s.fld GLB_EVENING_CTL.IDLE_US) ≤ s.up ∧ ((∀ left, s.modes.eveningLeft = some left → left + ofMs 1 ≤ s.up))) ∧
    (∃ s : State, s.fld GLB_MODE.TRANSIT = 0 ∧ s.mode = EVENING ∧ (s.fld GLB_EVENING_CTL.UP_KIB * 1024 ≤ s.occupancy ∨ s.darkWork)) :=
  ⟨⟨(inMode DUSK).put GLB_MODE.DUSK_END 1, by decide +kernel⟩,
    ⟨late { autoDay with modes.idleSince := some 0 }, 0, by decide +kernel, by decide +kernel, by decide +kernel, by decide +kernel, by decide +kernel, by decide +kernel,
      fun left h => by cases h⟩,
    ⟨busyEvening, by decide +kernel⟩⟩

/-- MidnightRequestAndForce: states and operands that meet the premises of each clause. -/
theorem witness_MidnightRequestAndForce :
    (∃ (w : Word) (s : State), Quiet s ∧ s.mode ≠ NIGHT ∧ s.mode ≠ MIDNIGHT ∧ wfld w GLB_MODE.REQ = MIDNIGHT ∧ s.meets 3 = false) ∧
    (∃ (w : Word) (s : State), Quiet s ∧ s.mode = DUSK ∧ s.fld GLB_MODE.TRANSIT = 0 ∧ wfld w GLB_MODE.REQ = DUSK ∧ wfld w GLB_MODE.FORCE = 1) :=
  ⟨⟨asks MIDNIGHT, day, by unfold Quiet; decide +kernel⟩,
    ⟨asks DUSK ||| BitVec.ofNat 64 (2 ^ GLB_MODE.FORCE.lo), inMode DUSK, by unfold Quiet; decide +kernel⟩⟩

/-- DeviceResetCommandsComplete: states and operands that meet the premises of each clause. -/
theorem witness_DeviceResetCommandsComplete :
    (∃ (s : State) (rail : Fin 8) (upper : Bool) (uv : Nat), rail.val ≠ 2 ∧ 100 * uv < (100 - (railLevels rail).2) * s.railNominal rail upper ∧ s.modes.hold ≠ .porLow ∧
      s.modes.hold ≠ .aonDown) ∧
    (∃ (s : State) (uv : Nat), s.modes.hold ≠ .aonDown ∧ uv < 720000) ∧
    (∃ (s : State) (tj : BitVec 16), 1840 ≤ tj.toInt ∧ s.modes.hold ≠ .thermal ∧ s.modes.hold ≠ .aonDown) ∧
    (∃ (s : State), s.modes.porLow = false ∧ s.modes.hold ≠ .aonDown) ∧
    (∃ (s : State), s.isSet GLB_WDOG_CTL.EN ∧ s.modes.wdogSecond ∧ s.wdogDue ≤ s.up ∧ s.mode ≠ NIGHT) ∧
    (∃ (s : State) (w : Word), s.mode ≠ NIGHT ∧ wfld w GLB_RESET_CTL.KEY = 0xD05C) ∧
    (∃ (s : State), s.fld GLB_MODE.TRANSIT = 1 ∧ s.fld GLB_MODE.REQ = NIGHT) ∧
    (∃ (s : State), s.modes.hold = .porLow ∧ s.modes.lowRails = []) ∧
    (∃ (s : State) (rail : Fin 8) (upper : Bool) (uv : Nat), s.modes.hold = .supply ∧ (100 - (railLevels rail).2) * s.railNominal rail upper ≤ 100 * uv ∧
      (∀ r ∈ s.modes.lowRails, r = monitorOf rail upper)) ∧
    (∃ (s : State) (uv : Nat), s.modes.hold = .aonDown ∧ 720000 ≤ uv ∧ s.modes.porLow = false ∧ s.modes.lowRails = []) :=
  ⟨⟨day, 7, false, 0, by decide +kernel⟩,
    ⟨day, 719999, by decide +kernel⟩,
    ⟨day, 1840, by decide +kernel⟩,
    ⟨day, by decide +kernel⟩,
    ⟨late (({ day with modes.wdogSecond := true } : State).put GLB_WDOG_CTL.EN 1), by decide +kernel⟩,
    ⟨day, BitVec.ofNat 64 (0xD05C * 2 ^ GLB_RESET_CTL.KEY.lo), by decide +kernel⟩,
    ⟨(day.put GLB_MODE.TRANSIT 1).put GLB_MODE.REQ NIGHT, by decide +kernel⟩,
    ⟨held .porLow, by decide +kernel⟩,
    ⟨held .supply, 0, false, 10000000, by decide +kernel⟩,
    ⟨held .aonDown, 720000, by decide +kernel⟩⟩

/-- DeviceResetEffect: states and operands that meet the premises of each clause. -/
theorem witness_DeviceResetEffect :
    (∃ (src : ResetSource), src ≠ .aon) ∧
    (∃ (src : ResetSource), src = .aon) :=
  ⟨⟨.por, by decide +kernel⟩,
    ⟨.aon, by decide +kernel⟩⟩

/-- PowerEventsComplete: states and operands that meet the premises of each clause. -/
theorem witness_PowerEventsComplete :
    (∃ (s : State), s.fld GLB_MODE.TRANSIT = 1 ∧ s.fld GLB_MODE.REQ ≠ NIGHT) ∧
    (∃ (s : State), s.mode = DUSK ∧ s.fld GLB_MODE.TRANSIT = 0 ∧ s.modes.duskLate = false ∧ s.drained = false ∧ s.modes.duskSince + perSec ≤ s.up) ∧
    (∃ (s : State) (w : Word), s.mode ≠ NIGHT ∧
      ((s.writeReg .GLB_EVENING_CTL 0 0 w).isSet GLB_EVENING_CTL.AUTO_ENTER = false ∨ (s.writeReg .GLB_EVENING_CTL 0 0 w).autoEnter) ∧ Quiet s) ∧
    (∃ (s : State) (w : Word), s.mode ≠ NIGHT ∧ (s.writeReg .GLB_EVENING_CTL 0 0 w).isSet GLB_EVENING_CTL.AUTO_ENTER ∧
      (s.writeReg .GLB_EVENING_CTL 0 0 w).autoEnter = false) ∧
    (∃ (s : State) (dom : Fin 48), 16 ≤ dom.val ∧ s.engineClock) ∧
    (∃ (s : State) (dom : Fin 48), s.mode = DAY ∧ 16 ≤ dom.val ∧ bitOf (s.fld PWR_HOLD_AWAKE.HOLD) dom = false ∧ s.domainBusy dom = false) ∧
    (∃ (s : State) (rail : Fin 8) (upper : Bool) (uv : Nat), ∃ u, s.modes.hold ≠ .aonDown ∧ 100 * uv < (100 - (railLevels rail).1) * s.railNominal rail upper ∧
      s.modes.sags.contains (monitorOf rail upper) = false ∧ bitOf (s.fld PWR_SAG_STATUS.WARN_NOW) rail = false ∧
      u = { s with modes := { s.modes with sags := s.modes.sags ++ [monitorOf rail upper] } }) ∧
    (∃ (s : State) (rail : Fin 8) (upper : Bool) (uv ns : Nat), ∃ u, s.modes.sags.contains (monitorOf rail upper) ∧
      (101 - (railLevels rail).1) * s.railNominal rail upper < 100 * uv ∧ 1000 ≤ ns ∧
      u = { s with modes := { s.modes with sags := s.modes.sags.filter (· != monitorOf rail upper) } } ∧ u.modes.sags.contains (monitorOf rail !upper) = false) ∧
    (∃ (s : State), s.modes.hold ≠ .aonDown ∧ s.fld PWR_SAG_STATUS.WARN_NOW = 0) ∧
    (∃ (s : State) (tj : BitVec 16), 1600 ≤ tj.toInt ∧ s.fld PWR_THERM.THROTTLE = 0) ∧
    (∃ (tj : BitVec 16), tj.toInt < 1520) ∧
    (∃ (s : State), s.isSet GLB_WDOG_CTL.EN ∧ s.modes.wdogSecond = false ∧ s.wdogDue ≤ s.up ∧ s.mode ≠ NIGHT) ∧
    (∃ (s : State), ∃ v, s.avsStep = some v ∧ s.modes.avsFails < 2) :=
  ⟨⟨(day.put GLB_MODE.TRANSIT 1).put GLB_MODE.REQ DAY, by decide +kernel⟩,
    ⟨late ({ inMode DUSK with nvm := { day.nvm with dirty := 1 } }), by decide +kernel⟩,
    ⟨day, 0, by unfold Quiet; decide +kernel⟩,
    ⟨day, BitVec.ofNat 64 (2 ^ GLB_EVENING_CTL.AUTO_ENTER.lo), by decide +kernel⟩,
    ⟨day, 16, by decide +kernel⟩,
    ⟨day, 16, by decide +kernel⟩,
    ⟨day, 0, false, 0, _, by decide +kernel, by decide +kernel, by decide +kernel, by decide +kernel, rfl⟩,
    ⟨{ day with modes.sags := [monitorOf 0 false] }, 0, false, 10000000, 1000, _, by decide +kernel, by decide +kernel, by decide +kernel, rfl, by decide +kernel⟩,
    ⟨day, by decide +kernel⟩,
    ⟨day, 1600, by decide +kernel⟩,
    ⟨1519, by decide +kernel⟩,
    ⟨late (day.put GLB_WDOG_CTL.EN 1), by decide +kernel⟩,
    ⟨(day.put PWR_AVS.SETPOINT_MV 800).put PWR_AVS.REQUEST_MV 790, 795, by decide +kernel⟩⟩

/-- CarillonCommandsComplete: states and operands that meet the premises of each clause. -/
theorem witness_CarillonCommandsComplete :
    (∃ (s : State) (w : Word), s.mode ≠ NIGHT ∧ s.stepAccepted w) ∧
    (∃ (s : State) (w : Word), s.mode ≠ NIGHT ∧ s.stepAccepted w = false) ∧
    (∃ (s : State) (w : Word), s.mode ≠ NIGHT ∧ (s.writeReg .CAR_SERVO_CFG 0 0 w).fld CAR_SERVO_CFG.SERVO_EN = 0) ∧
    (∃ (s : State) (w : Word), s.mode ≠ NIGHT ∧ s.locked .CAR_SRC_PATH 0 = false ∧ wfld w CAR_SRC_PATH.PATH < s.fld CAR_GRADE_FLOOR.FLOOR) ∧
    (∃ (s : State) (w : Word), s.mode ≠ NIGHT ∧ s.locked .CAR_SRC_PATH 0 = false ∧ s.fld CAR_GRADE_FLOOR.FLOOR ≤ wfld w CAR_SRC_PATH.PATH) ∧
    (∃ (s : State), ((∀ t, s.car.published = some t → t + ofUs 1 ≤ s.now))) ∧
    (∃ (s : State), ∃ c, s.car.carry = some c ∧ s.isSet CAR_STATUS.CARRY ∧ c.tC + 2 * perSec ≤ s.now) ∧
    (∃ (s : State), s.fld CAR_LEAP_TIME.SEC ≠ 0 ∧ s.fld CAR_LEAP_TIME.SEC ≤ s.seconds ∧ s.fld CAR_UTC.LEAP61 = 0 ∧ s.fld CAR_UTC.FROM_PTP = 0 ∧ Mild s 1 11 ∧ Quiet s) ∧
    (∃ (s : State), ∃ sec, s.car.leapSecond = some sec ∧ sec + 1 ≤ s.seconds ∧ s.fld CAR_UTC.FROM_PTP = 0) ∧
    (∃ (s : State), ∃ x, x = s.ppsOutTime ∧ s.isSet CAR_PPS_OUT.EN ∧ (s.fld CAR_PPS_OUT.SQUELCH = 0 ∨ s.fld CAR_STATUS.UNSYNC = 0) ∧
      ((x % perSec : Nat) : Int) < 8 * perNs + s.adj ∧ s.car.ppsSecond ≠ some (x / perSec)) :=
  ⟨⟨day, 1, by decide +kernel⟩,
    ⟨day, 0x7FFFFFFF, by decide +kernel⟩,
    ⟨day, 0, by decide +kernel⟩,
    ⟨day.put CAR_GRADE_FLOOR.FLOOR 1, 0, by decide +kernel⟩,
    ⟨day, BitVec.allOnes 64, by decide +kernel⟩,
    ⟨late day, fun t h => by cases h⟩,
    ⟨late (({ day with car.carry := some { eps := 1, tC := 0, tLast := 0, adjF := 0 } } : State).put CAR_STATUS.CARRY 1), { eps := 1, tC := 0, tLast := 0, adjF := 0 },
      by decide +kernel⟩,
    ⟨late (((day.put CAR_LEAP_TIME.SEC 1).put CAR_UTC.LEAP61 0).put CAR_UTC.FROM_PTP 0), by unfold Quiet Mild; decide +kernel⟩,
    ⟨late ({ day with car.leapSecond := some 1 }), 1, by decide +kernel⟩,
    ⟨(day.put CAR_PPS_OUT.EN 1).put CAR_PPS_OUT.SQUELCH 0, _, rfl, by decide +kernel⟩⟩

/-- CarillonInputsComplete: states and operands that meet the premises of each clause. -/
theorem witness_CarillonInputsComplete :
    (∃ (s : State) (p : Fin 32), ∃ f rest u m h, (s.ptp p).rx = f :: rest ∧ (s.ptp p).heldOff = false ∧ s.isSet CAR_PTP_PORT.ROLE 0 p ∧
      (beNat (slice f.bytes (etherAt f.bytes) 2) = 0x88F7 ↔ s.fld CAR_PTP_PORT.TRANSPORT 0 p = 0) ∧ (u = s.onPtp p (fun q => { q with rx := rest })) ∧
      m = ptpMessage f.bytes ∧ h = ptpHeader m.1 ∧ (h.version ≠ 2 ∨ h.domain ≠ u.fld CAR_PTP_PORT.DOMAIN 0 p)) ∧
    (∃ (s : State) (p : Fin 32), ∃ f rest u m h, (s.ptp p).rx = f :: rest ∧ (s.ptp p).heldOff = false ∧ s.isSet CAR_PTP_PORT.ROLE 0 p ∧
      (beNat (slice f.bytes (etherAt f.bytes) 2) = 0x88F7 ↔ s.fld CAR_PTP_PORT.TRANSPORT 0 p = 0) ∧ (u = s.onPtp p (fun q => { q with rx := rest })) ∧
      m = ptpMessage f.bytes ∧ h = ptpHeader m.1 ∧ h.version = 2 ∧ h.domain = u.fld CAR_PTP_PORT.DOMAIN 0 p ∧ h.kind = 11) ∧
    (∃ (s : State) (p : Fin 32), ∃ f rest u m h, ∃ b, (s.ptp p).rx = f :: rest ∧ (s.ptp p).heldOff = false ∧ s.isSet CAR_PTP_PORT.ROLE 0 p ∧
      (beNat (slice f.bytes (etherAt f.bytes) 2) = 0x88F7 ↔ s.fld CAR_PTP_PORT.TRANSPORT 0 p = 0) ∧ (u = s.onPtp p (fun q => { q with rx := rest })) ∧
      m = ptpMessage f.bytes ∧ h = ptpHeader m.1 ∧ h.version = 2 ∧ h.domain = u.fld CAR_PTP_PORT.DOMAIN 0 p ∧ h.kind = 0 ∧ u.bestMaster p = some b ∧ b.id = h.id ∧
      u.ptpState p = .slave) ∧
    (∃ (s : State) (p : Fin 32) (phase : Fin 128), s.ptpSends p phase ∧ s.ptpState p = .master ∧ s.ptpDue p ptpAnnounce (s.int CAR_PTP_PORT.LOG_ANNOUNCE 0 p)) ∧
    (∃ (s : State) (p : Fin 32) (phase : Fin 128), s.ptpSends p phase ∧ s.ptpState p = .master ∧ s.ptpDue p ptpSync (s.int CAR_PTP_PORT.LOG_SYNC 0 p)) ∧
    (∃ (s : State) (p : Fin 32) (phase : Fin 128), ∃ t seq, s.ptpSends p phase ∧ (s.ptp p).followUp = some (t, seq)) ∧
    (∃ (s : State) (p : Fin 32) (phase : Fin 128), ∃ b, s.ptpSends p phase ∧ s.ptpState p = .slave ∧ s.peerToPeer p = false ∧ s.bestMaster p = some b ∧
      s.ptpDue p ptpDelayReq (s.int CAR_PTP_PORT.LOG_DELAY 0 p)) ∧
    (∃ (s : State) (p : Fin 32) (phase : Fin 128), s.ptpSends p phase ∧ s.peerToPeer p ∧ s.ptpDue p ptpPdelayReq (s.int CAR_PTP_PORT.LOG_DELAY 0 p)) ∧
    (∃ (s : State) (n : Fin 8), ∃ k, k = s.fld CAR_SRC_CFG.PORT 0 n ∧ s.slotKind n = 0 ∧ s.slotEn n) ∧
    (∃ (s : State) (n : Fin 8), ∃ due, s.slotEn n ∧ (s.slot n).seen = some due ∧ due + 2 * s.expects n ≤ s.now) ∧
    (∃ (s : State) (phase : Fin 128), ∃ falling, falling = s.isSet CAR_PPS_IN.FALLING ∧ s.isSet CAR_PPS_IN.EN ∧ s.edgeAccepted false (s.at phase) ∧
      s.isSet CAR_STATUS.TOD_VALID ∧ (s.ppsIn 0).held = none) ∧
    (∃ (s : State) (phase : Fin 128), ∃ falling, falling = s.isSet CAR_PPS_IN.FALLING ∧ s.isSet CAR_PPS_IN.EN ∧ s.edgeAccepted false (s.at phase) = false) ∧
    (∃ (s : State) (x : NmeaSentence), s.isSet CAR_NMEA.EN ∧ x.baud.val = s.fld CAR_NMEA.BAUD ∧ x.checksumOk = false) ∧
    (∃ (s : State) (x : NmeaSentence), ∃ e, s.isSet CAR_NMEA.EN ∧ x.baud.val = s.fld CAR_NMEA.BAUD ∧ x.checksumOk ∧ x.rmc = false ∧ (s.ppsIn 1).last = some e ∧
      s.now ≤ e + ofMs 900 ∧ (s.ppsIn 1).heard = false ∧ s.fld CAR_NMEA.ASSOC = 0) ∧
    (∃ (s : State), ∃ h e, (s.ppsIn 1).held = some h ∧ (s.ppsIn 1).last = some e ∧ e + perSec + s.ppsWindow true * perNs < s.now) ∧
    (∃ (s : State) (n : Fin 8), ∃ since m, (s.slot n).betterSince = some since ∧ s.selected = some m ∧ s.isSet CAR_SERVO_CFG.REVERT ∧ s.isSet CAR_SRC_STATUS.USABLE 0 n ∧
      s.slotBefore n m ∧ since + s.fld CAR_SERVO_CFG.WTR_S * perSec ≤ s.now) :=
  ⟨⟨ptpOn 2 0 { rx := [ptpOf 0 1] }, 31, ptpOf 0 1, [], _, _, _, by decide +kernel, by decide +kernel, by decide +kernel, by decide +kernel, rfl, rfl, rfl,
    by decide +kernel⟩,
    ⟨ptpOn 2 0 { rx := [ptpOf 11 2] }, 31, ptpOf 11 2, [], _, _, _, by decide +kernel, by decide +kernel, by decide +kernel, by decide +kernel, rfl, rfl, rfl,
      by decide +kernel⟩,
    ⟨ptpOn 1 0 { rx := [ptpOf 0 2], masters := [goodMaster] }, 31, ptpOf 0 2, [], _, _, _, goodMaster, by decide +kernel, by decide +kernel, by decide +kernel,
      by decide +kernel, rfl, rfl, rfl, by decide +kernel⟩,
    ⟨ptpOn 2 0 {}, 31, 127, by decide +kernel⟩,
    ⟨ptpOn 2 0 {}, 31, 127, by decide +kernel⟩,
    ⟨ptpOn 2 0 { followUp := some (5, 6) }, 31, 127, 5, 6, by decide +kernel⟩,
    ⟨ptpOn 1 0 { masters := [goodMaster] }, 31, 127, goodMaster, by decide +kernel⟩,
    ⟨ptpOn 1 1 {}, 31, 127, by decide +kernel⟩,
    ⟨slotOn, 7, _, rfl, by decide +kernel⟩,
    ⟨late slotOn, 7, 0, by decide +kernel⟩,
    ⟨ppsOn 0 {}, 127, _, rfl, by decide +kernel⟩,
    ⟨{ late (ppsOn 0 { free := false }) with car := { (ppsOn 0 { free := false }).car with time := perSec / 2 } }, 0, _, rfl, by decide +kernel⟩,
    ⟨ppsOn 0 {}, ⟨1, false, false, false, 0⟩, by decide +kernel⟩,
    ⟨ppsOn 1 { last := some 0 }, ⟨1, false, true, false, 0⟩, 0, by decide +kernel⟩,
    ⟨late (ppsOn 1 { last := some 0, held := some 5 }), 5, 0, by decide +kernel⟩,
    ⟨betterSlot, 1, 0, 0, by decide +kernel⟩⟩

/-- TimeDeliveryCommandsComplete: states and operands that meet the premises of each clause. -/
theorem witness_TimeDeliveryCommandsComplete :
    (∃ (s : State) (l : Fin 16) (a : PtmAnswer), ∃ u, s.ptmRuns l ∧ s.ptmDue l ∧
      (u = s.onLinkTime l (fun t => { t with pairs := withPair t.pairs (s.ptmPair l a), failed := 0, good := t.good + 1, asked := some s.up, span := some a.span })) ∧
      (s.fld CAR_LINK_STATUS.MAPPED 0 l = 1 ∨ (s.linkTime l).good + 1 < 16)) ∧
    (∃ (s : State) (l : Fin 16) (a : PtmAnswer), ∃ u, s.ptmRuns l ∧ s.ptmDue l ∧
      (u = s.onLinkTime l (fun t => { t with pairs := withPair t.pairs (s.ptmPair l a), failed := 0, good := t.good + 1, asked := some s.up, span := some a.span })) ∧
      s.fld CAR_LINK_STATUS.MAPPED 0 l = 0 ∧ 16 ≤ (s.linkTime l).good + 1) ∧
    (∃ (s : State) (l : Fin 16), s.ptmRuns l ∧ s.ptmDue l ∧ (s.linkTime l).failed < 3) ∧
    (∃ (s : State) (l : Fin 16), s.ptmRuns l ∧ s.ptmDue l ∧ (s.linkTime l).failed = 3) ∧
    (∃ (s : State) (l : Fin 16), s.isSet CAR_LINK_MAP.EN 0 l ∧ s.isSet HL_LINK_STATUS.UP l ∧ s.mode ≠ NIGHT ∧ ((∀ t, (s.linkTime l).published = some t →
      t + ofUs 990 ≤ s.now))) ∧
    (∃ (s : State) (l : Fin 16), ∃ x, x = s.bellTime l ∧ s.bellRuns l ∧ ((x % perSec : Nat) : Int) < 8 * perNs + s.adj ∧ (s.linkTime l).edge ≠ some (x / perSec)) ∧
    (∃ (s : State) (l : Fin 16), ∃ t, s.bellRuns l ∧ (s.linkTime l).bell ∧ (s.linkTime l).bellAt = some t ∧ t + ofUs 16 ≤ s.up) ∧
    (∃ (s : State) (f : Fin 2080), s.tokenRefusal f = none ∧ Quiet s) ∧
    (∃ (s : State), s.td.waiting ≠ [] ∧ s.td.lastClose ≠ s.millisecond ∧ ((s.now % ofMs 1 : Nat) : Int) < 8 * perNs + s.adj) ∧
    (∃ (s : State), ∃ b rest, s.td.batches = b :: rest) :=
  ⟨⟨puts linkRuns [(CAR_LINK_STATUS.MAPPED, 1, 0, 15)], 15, ⟨127, 0, 0, 0⟩, _, by decide +kernel, by decide +kernel, rfl, by decide +kernel⟩,
    ⟨linkFailed { good := 15 }, 15, ⟨0, 0, 0, 0⟩, _, by decide +kernel, by decide +kernel, rfl, by decide +kernel⟩,
    ⟨linkFailed { failed := 2 }, 15, by decide +kernel⟩,
    ⟨linkFailed { failed := 3 }, 15, by decide +kernel⟩,
    ⟨late linkRuns, 15, by decide +kernel, by decide +kernel, by decide +kernel, fun t h => by cases h⟩,
    ⟨puts linkRuns [(CAR_BELL_CTL.ADVANCE, 0, 0, 15)], 15, _, rfl, by decide +kernel⟩,
    ⟨late (linkFailed { bell := true, bellAt := some 0 }), 15, 0, by decide +kernel⟩,
    ⟨tokens, 2079, by unfold Quiet; decide +kernel⟩,
    ⟨{ day with td.waiting := [⟨0, [], 0, 0, none, 0, 0, 0, 0, false⟩], td.lastClose := 1 }, by decide +kernel⟩,
    ⟨{ day with td.batches := [⟨0, 0, []⟩] }, ⟨0, 0, []⟩, [], by decide +kernel⟩⟩

/-- PortCommandsComplete: states and operands that meet the premises of each clause. -/
theorem witness_PortCommandsComplete :
    (∃ (s : State) (p : Fin 32) (w : Word), s.mode ≠ NIGHT ∧ s.laneOwned p = false ∧ cfgSupported p w ∧ (∀ i < cfgWidth w, s.fld ETH_PORT_CTL.EN (p + i) = 0) ∧
      s.fld ETH_PORT_CTL.EN p = 0) ∧
    (∃ (s : State) (p : Fin 32) (w : Word), s.mode ≠ NIGHT ∧ s.laneOwned p = false ∧ (cfgSupported p w = false ∨ s.fld ETH_PORT_CTL.EN p = 1)) ∧
    (∃ (s : State) (p : Fin 32), s.portRuns p ∧ s.fld ETH_PORT_STATUS.LINK p = 0 ∧ (∀ i < s.portWidth p, s.underTest 3 (p + i) = false)) ∧
    (∃ (s : State) (p : Fin 32) (tx rx : Int), s.fld ETH_PORT_STATUS.LINK p = 1 ∧ s.fld ETH_PORT_STATUS.TS_READY p = 0 ∧ (s.port p).tsBad = false ∧ tx.natAbs ≤ 16 ∧
      rx.natAbs ≤ 16) ∧
    (∃ (s : State) (p : Fin 32), s.portCarries p ∧ s.fld ETH_PORT_CTL.LOOP p ≠ 2) ∧
    (∃ (s : State) (p : Fin 32), s.flowOn p 8 ∧ s.xoffSent p 8 ≠ 0 ∧ s.xonBytes p ≤ s.keyOccupancy p 8 ∧
      s.xoffSent p 8 + s.quantaTime p (s.fld ETH_PFC_CFG.QUANTA p) / 2 ≤ s.up + 1) ∧
    (∃ (s : State) (p : Fin 32), s.portCarries p) ∧
    (∃ (s : State) (p : Fin 32), s.portCarries p) ∧
    (∃ (s : State) (p : Fin 32), ∃ k : Fin 8, s.pausedBy p k = false) ∧
    (∃ (s : State) (p : Fin 32) (phase : Fin 128), ∃ (x : Packet) (rest : List Packet), s.portCarries p ∧ s.sendsPattern p = false ∧ s.portFree p phase ∧
      s.net.txq.get [] p = x :: rest ∧ (∀ c ∈ s.net.calendar.get [] p,
      s.txStamp p phase + (s.bytesTime p ((((s.macSend p x.bytes false phase).2.map List.length).getD 0) + 12) : Nat) ≤ s.slotBegins p c)) ∧
    (∃ (s : State), ∃ since, (s.port (s.fld ETH_SYNCE_SEL.PORT)).recovSince = some since ∧ s.synceReady ∧ s.isSet ETH_SYNCE_SEL.HOLDOVER ∧
      since + max 1 (s.fld ETH_SYNCE_SEL.WTR_S) * perSec ≤ s.up) ∧
    (∃ (s : State) (p : Fin 32), s.isSet ETH_SYNCE.RECOV_EN p ∧ s.fld ETH_SYNCE.RECOV_LOCK p = 0) :=
  ⟨⟨day, 31, BitVec.ofNat 64 (2 ^ ETH_PORT_CFG.RATE.lo * 3 + 2 ^ ETH_PORT_CFG.FEC.lo * 3), by decide +kernel⟩,
    ⟨day, 31, BitVec.ofNat 64 (2 ^ ETH_PORT_CFG.RATE.lo * 3), by decide +kernel⟩,
    ⟨portUp, 31, by decide +kernel⟩,
    ⟨puts day [(ETH_PORT_STATUS.LINK, 1, 31, 0)], 31, 16, -16, by decide +kernel⟩,
    ⟨sends, 31, by decide +kernel⟩,
    ⟨xoffDue, 3, by decide +kernel⟩,
    ⟨sends, 31, by decide +kernel⟩,
    ⟨sends, 31, by decide +kernel⟩,
    ⟨day, 31, 7, by decide +kernel⟩,
    ⟨sends, 31, 127, { launch := 5 }, [], by decide +kernel⟩,
    ⟨late { puts day [(ETH_SYNCE_SEL.PORT, 31, 0, 0), (ETH_SYNCE_SEL.USE_RECOV, 1, 0, 0), (ETH_SYNCE_SEL.HOLDOVER, 1, 0, 0), (ETH_SYNCE.RECOV_EN, 1, 31, 0), (ETH_SYNCE.RECOV_LOCK, 1, 31, 0)] with ports := day.ports.set {} 31 { recovSince := some 0 } },
      0, by decide +kernel⟩,
    ⟨puts day [(ETH_SYNCE.RECOV_EN, 1, 31, 0)], 31, by decide +kernel⟩⟩

/-- SchedulerCommandsComplete: states and operands that meet the premises of each clause. -/
theorem witness_SchedulerCommandsComplete :
    (∃ (s : State) (node : Fin 52) (k : Nat), ∃ k d q, s.framesFlow ∧ (s.clearHeads node).pick node = some (k, d, q) ∧ (s.clearHeads node).headRx k = none) ∧
    (∃ (s : State) (k : Nat) (w : Word), s.mode ≠ NIGHT ∧ k < 12340 ∧ getBits (w &&& BitVec.ofNat 64 (2 ^ 61 - 1)) 60 60 = 1) ∧
    (∃ (s : State) (k : Nat) (w : Word), s.mode ≠ NIGHT ∧ k < 12340 ∧ getBits (w &&& BitVec.ofNat 64 (2 ^ 61 - 1)) 60 60 = 0) ∧
    (∃ (s : State) (k : Nat), s.mode ≠ NIGHT ∧ k < 32768 ∧ k % 4 ≠ 3) ∧
    (∃ (s : State) (k : Nat) (w : Word), s.mode ≠ NIGHT ∧ k < 16384 ∧ (k % 2 = 1 ∨ getBits w 11 0 = s.groupParent (k / 2) ∨ s.groupFrames (k / 2) = [])) ∧
    (∃ (s : State) (k : Nat) (w : Word), s.mode ≠ NIGHT ∧ k < 16384 ∧ (k % 2 = 1 ∨ getBits w 11 0 = s.groupParent (k / 2) ∨ s.groupFrames (k / 2) = [])) ∧
    (∃ (s : State) (k : Nat) (w : Word), s.mode ≠ NIGHT ∧ k < 16384 ∧ k % 2 = 0 ∧ getBits w 11 0 ≠ s.groupParent (k / 2) ∧ s.groupFrames (k / 2) ≠ []) ∧
    (∃ (s : State) (k : Nat) (w : Word), s.mode ≠ NIGHT ∧ k < 4096 ∧ getBits w 5 0 = s.l1Parent k) ∧
    (∃ (s : State) (node : Fin 52) (place : Nat), ∃ h : HeldFrame, (s.net.holds.get [] node)[place]? = some h ∧ h.released = false ∧ s.framesFlow ∧ s.holdReached h.pkt) ∧
    (∃ (s : State) (node : Fin 52) (place : Nat), ∃ h : HeldFrame, (s.net.holds.get [] node)[place]? = some h ∧ h.released = false ∧ h.sinceUp + s.holdMax ≤ s.up) ∧
    (∃ (s : State) (e : Fin 32) (k : Nat), ∃ (i : Nat) (h : HeldFrame),
      (((s.net.holds.get [] e).findIdx? fun h => h.released && h.pkt.l0 == k && h.pkt.dest == .port e) = some i) ∧ (s.net.holds.get [] e)[i]? = some h ∧
      s.launchWaits h.pkt = false) ∧
    (∃ (s : State) (e : Fin 32) (phase : Fin 128), ∃ x : Packet, (s.net.calendar.get [] e)[0]? = some x ∧ s.portCarries e ∧ s.sendsPattern e = false ∧
      s.pausedFrame e x = false ∧ s.portFree e phase ∧ ((x.launch * perQuarter : Nat) : Int) ≤ s.txStamp e phase + launchSlack) :=
  ⟨⟨queued frame 0, 0, 0, 0, { entries := [(0, 36)] }, {}, by decide +kernel⟩,
    ⟨day, 12339, BitVec.ofNat 64 (2 ^ 60), by decide +kernel⟩,
    ⟨day, 12339, 0, by decide +kernel⟩,
    ⟨day, 32766, by decide +kernel⟩,
    ⟨day, 16383, 1, by decide +kernel⟩,
    ⟨queued frame 0, 0, 0, by decide +kernel⟩,
    ⟨queued frame 0, 0, 1, by decide +kernel⟩,
    ⟨day, 4095, 0, by decide +kernel⟩,
    ⟨holding { pkt := frame, since := 0 }, 51, 0, { pkt := frame, since := 0 }, by decide +kernel⟩,
    ⟨late (holding { pkt := frame, since := 0 }), 51, 0, { pkt := frame, since := 0 }, by decide +kernel⟩,
    ⟨{ day with net.holds := day.net.holds.set [] 31 [{ pkt := { dest := .port 31, l0 := 7 }, since := 0, released := true }] }, 31, 7, 0,
      { pkt := { dest := .port 31, l0 := 7 }, since := 0, released := true }, by decide +kernel⟩,
    ⟨{ puts day [(ETH_PORT_STATUS.LINK, 1, 31, 0)] with net.calendar := day.net.calendar.set [] 31 [{ launch := 32 }] }, 31, 127, { launch := 32 }, by decide +kernel⟩⟩

/-- PipelineEventsComplete: states and operands that meet the premises of each clause. -/
theorem witness_PipelineEventsComplete :
    (∃ (s : State) (p : Fin 8) (w : Walk) (rest : List Walk), ∃ u : State, (u = (s.onPipe p fun q => { q with resumed := rest }).pipeEvent p 0x204) ∧ s.pipeRuns p ∧
      (s.pipe p).held = none ∧ (s.pipe p).resumed = w :: rest ∧ u.stale w = false) ∧
    (∃ (s : State) (p : Fin 8) (x : Packet) (k : Nat) (xs : List Packet), s.pipeRuns p ∧ (s.pipe p).held = none ∧ (s.pipe p).resumed = [] ∧
      (s.pipe p).parked.length < 2048 ∧ (s.pipe p).nextFeed = some (k, x, xs)) ∧
    (∃ (s : State) (w : Walk) (place : Nat), ((∃ n : Fin 8, s.scannerServes n)) ∧ s.net.snare[place]? = some w ∧
      s.fld PPL_SCAN_PROF.STREAM w.pkt.pipe (w.scan.getD 0) = 0 ∧ s.stale w = false) ∧
    (∃ (s : State) (t : Fin 256) (key : List Byte), ∃ u : State, s.isTier t ∧ s.tbl.fetches.contains key ∧
      u = { s with tbl := { s.tbl with fetches := s.tbl.fetches.filter (· != key) } }) ∧
    (∃ (s : State) (p : Fin 8) (w : Walk) (place : Nat), ((s.pipe p).parked ++ (s.pipe p).resumed ++ (s.pipe p).held.toList)[place]? = some w ∧ s.stale w ∧
      w.pkt.pipe = p.val) ∧
    (∃ (s : State) (p : Fin 8) (w : Walk) (place : Nat), ((s.pipe p).parked ++ (s.pipe p).resumed ++ (s.pipe p).held.toList) = [] ∧ s.net.snare[place]? = some w ∧
      s.stale w ∧ w.pkt.pipe = p.val) ∧
    (∃ (s : State) (place : Nat), ∃ y : Stream, s.net.streams[place]? = some y ∧ y.lastAt + max 1 (s.fld PPL_REORDER_CFG.STREAM_IDLE_S y.pipe) * perSec ≤ s.up) ∧
    (∃ (s : State) (x : Packet) (k : Nat) (pool : Fin 16),
      (((s.liveGroups 48).mergeSort.flatMap fun g => (List.range 8).map fun q => 8 * g + q).find? (fun k => s.queueEligible 48 k && s.pathOpen 48 k && (s.squeue k).head?.any fun x => x.dest == .pool pool) = some k)) ∧
    (∃ (s : State) (p : Fin 8) (place : Nat), ∃ (e : ReorderEntry) (l : List ReorderEntry), (s.pipe p).reorder.get [] place = e :: l ∧ ((∀ d, e.deadline = some d →
      d ≤ s.up)) ∧ e.deadline.isSome ∧ s.modes.wakeSince = none) :=
  ⟨⟨pipeline { resumed := [{ pkt := {} }] }, 7, { pkt := {} }, [], _, rfl, by decide +kernel⟩,
    ⟨pipeline { feeds := ({} : Store (List Packet)).set [] 17 [{}] }, 7, {}, 17, [], by decide +kernel⟩,
    ⟨{ day with net.snare := [{ pkt := {}, scan := some 0 }] }, { pkt := {}, scan := some 0 }, 0, by decide +kernel⟩,
    ⟨{ puts day [(TBL_T_CFG.TIER, 1, 0, 255), (TBL_FLOW_CFG.EN, 1, 0, 0), (TBL_FLOW_CFG.TABLE, 255, 0, 0)] with tbl.fetches := [[]] }, 255, [], _, by decide +kernel,
      by decide +kernel, rfl⟩,
    ⟨late (pipeline { parked := [{ pkt := { pipe := 7, lookupAt := some 0 } }] }), 7, { pkt := { pipe := 7, lookupAt := some 0 } }, 0, by decide +kernel⟩,
    ⟨late { day with net.snare := [{ pkt := { pipe := 7, lookupAt := some 0 } }] }, 7, { pkt := { pipe := 7, lookupAt := some 0 } }, 0, by decide +kernel⟩,
    ⟨late { day with net.streams := [{ key := [], expect := 0, carried := false, lastAt := 0, pipe := 0 }] }, 0,
      { key := [], expect := 0, carried := false, lastAt := 0, pipe := 0 }, by decide +kernel⟩,
    ⟨pooled, { dest := .pool 15 }, 0, 15, by decide +kernel⟩,
    ⟨pipeline { reorder := ({} : Store (List ReorderEntry)).set [] 1023 [{ seq := 0, deadline := some 0 }] }, 7, 1023, { seq := 0, deadline := some 0 }, [],
      by decide +kernel, fun d h => by cases h; decide +kernel, by decide +kernel⟩⟩

/-- PipelineCommandsComplete: states and operands that meet the premises of each clause. -/
theorem witness_PipelineCommandsComplete :
    (∃ (s : State) (p : Fin 8) (w : Word), s.mode ≠ NIGHT ∧ wfld w PPL_GEN.COMMIT = 1 ∧ (s.writeReg .PPL_GEN p 0 w).fld PPL_GEN.PENDING p = 0) ∧
    (∃ (s : State) (p : Fin 8) (w : Word), s.mode ≠ NIGHT ∧ wfld w PPL_GEN.COMMIT = 1 ∧ (s.writeReg .PPL_GEN p 0 w).fld PPL_GEN.PENDING p = 1) ∧
    (∃ (s : State) (w : Word), ∃ q, s.mode ≠ NIGHT ∧ wfld w PPL_GEN_GLOBAL.COMMIT_MASK ≠ 0 ∧
      (bitOf (wfld w PPL_GEN_GLOBAL.COMMIT_MASK) q = false ∨ s.fld PPL_GEN.PENDING q = 1)) ∧
    (∃ (s : State) (p : Fin 8), s.fld PPL_GEN.PENDING p = 1 ∧ s.oldCount p = 0) ∧
    (∃ (s : State) (p : Fin 8) (w : Word), ∃ a, s.mode ≠ NIGHT ∧ wfld w PPL_ACT_ADDR.WRITE = 1 ∧ wfld w PPL_ACT_ADDR.READ = 0 ∧ (∀ i < 4,
      a ≠ (p * 65536 + wfld w PPL_ACT_ADDR.INDEX) * 4 + i)) ∧
    (∃ (s : State) (w : Word), s.mode ≠ NIGHT ∧ wfld w PPL_ACT_ADDR.WRITE = 0 ∧ wfld w PPL_ACT_ADDR.READ = 1) :=
  ⟨⟨day, 7, BitVec.ofNat 64 (2 ^ PPL_GEN.COMMIT.lo), by decide +kernel⟩,
    ⟨puts day [(PPL_GEN.PENDING, 1, 7, 0)], 7, BitVec.ofNat 64 (2 ^ PPL_GEN.COMMIT.lo), by decide +kernel⟩,
    ⟨day, BitVec.ofNat 64 (0x80 * 2 ^ PPL_GEN_GLOBAL.COMMIT_MASK.lo), 0, by decide +kernel⟩,
    ⟨puts day [(PPL_GEN.PENDING, 1, 7, 0)], 7, by decide +kernel⟩,
    ⟨day, 7, BitVec.ofNat 64 (2 ^ PPL_ACT_ADDR.WRITE.lo + 65535 * 2 ^ PPL_ACT_ADDR.INDEX.lo), 2097148 - 1, by decide +kernel⟩,
    ⟨day, BitVec.ofNat 64 (2 ^ PPL_ACT_ADDR.READ.lo), by decide +kernel⟩⟩

/-- TableCommandsComplete: states and operands that meet the premises of each clause. -/
theorem witness_TableCommandsComplete :
    (∃ (s : State), s.mode ≠ NIGHT ∧ s.locked .TBL_BLOCK_MAP 0 = false ∧ (∀ b, s.blockUsed b = false)) ∧
    (∃ (s : State) (w : Word) (k : Fin 40), s.mode ≠ NIGHT ∧ s.locked .TBL_BLOCK_MAP 0 = false ∧ ((∃ j < 16,
      (s.setRaw .TBL_BLOCK_MAP 0 k w).blockOwner (16 * k + j) ≠ s.blockOwner (16 * k + j) ∧ s.blockUsed (16 * k + j)))) ∧
    (∃ (s : State) (w : Word) (t : Fin 256), s.mode ≠ NIGHT ∧ (s.writeReg .TBL_T_CFG 0 t w).fld TBL_T_CFG.SLOT 0 t ≠ 3 ∧
      (s.writeReg .TBL_T_CFG 0 t w).fld TBL_T_CFG.KIND 0 t ≠ 3) ∧
    (∃ (s : State) (w : Word) (t : Fin 256), s.mode ≠ NIGHT ∧ (s.writeReg .TBL_T_CFG 0 t w).fld TBL_T_CFG.SLOT 0 t = 3) ∧
    (∃ (s : State), ∃ (i : LearnItem) (rest : List LearnItem), s.tbl.learn = i :: rest ∧ s.mode ≠ DAWN ∧ s.mode ≠ TWILIGHT) ∧
    (∃ (s : State) (t : Fin 256) (slot : Nat), ∃ (c : Cuckoo) (p : Spot) (u : State), u = (s.ageSlow t).noteVisit t slot ∧ s.isSet TBL_T_AGE.AGE_EN 0 t ∧
      s.isSet TBL_T_CFG.EN 0 t ∧ s.usable t ∧ s.mode ≠ DAWN ∧ s.mode ≠ TWILIGHT ∧ s.fld TBL_T_CFG.KIND 0 t ≠ 1 ∧ s.fld TBL_T_CFG.KIND 0 t ≠ 3 ∧ (∀ x < 256,
      s.twinOf x ≠ some t.val) ∧ s.visitDue t slot ∧ u.isSet TBL_T_CFG.MODE 0 t = false ∧ u.spotOf t slot = some (c, p)) :=
  ⟨⟨day, by decide +kernel, by decide +kernel, noBlock⟩,
    ⟨direct, 1, 0, by decide +kernel⟩,
    ⟨day, 0, 255, by decide +kernel⟩,
    ⟨day, BitVec.ofNat 64 (3 * 2 ^ TBL_T_CFG.SLOT.lo), 255, by decide +kernel⟩,
    ⟨{ day with tbl.learn := [⟨0, [], 0, 0⟩] }, ⟨0, [], 0, 0⟩, [], by decide +kernel⟩,
    ⟨aging, 255, 2 ^ 31, ((aging.ageSlow 255).noteVisit 255 (2 ^ 31)).cuckoo 255 0, .stash 0, _, rfl, by decide +kernel, by decide +kernel, by decide +kernel,
      by decide +kernel, by decide +kernel, by decide +kernel, by decide +kernel, noTwin, by decide +kernel, by decide +kernel, rfl⟩⟩

/-- DirectTableWritten: states and operands that meet the premises of each clause. -/
theorem witness_DirectTableWritten :
    (∃ (s : State) (w : Word), ∃ t i n a old image, ∃ x, s.mode ≠ NIGHT ∧ s.usable (wfld w TBL_CMD.TABLE) ∧ s.isSet TBL_T_CFG.MODE 0 (wfld w TBL_CMD.TABLE) ∧ Quiet s ∧
      t = wfld w TBL_CMD.TABLE ∧ i = wfld w TBL_CMD.INDEX ∧ n = s.entrySize t ∧ a = s.fld TBL_T_WAYS.BASE0 0 t * 65536 + i * n ∧ old = leNat (s.tblRead a n) ∧
      (image = leNat (wordBytes ((List.range 16).map fun i => s.raw .TBL_CMD_DATA 0 i))) ∧ i < s.fld TBL_T_WAYS.BLOCKS 0 t * (65536 / n) ∧ (x < a ∨ a + n ≤ x)) ∧
    (∃ (s : State) (w : Word), ∃ t i n a old image, s.mode ≠ NIGHT ∧ s.usable (wfld w TBL_CMD.TABLE) ∧ s.isSet TBL_T_CFG.MODE 0 (wfld w TBL_CMD.TABLE) ∧ Quiet s ∧
      t = wfld w TBL_CMD.TABLE ∧ i = wfld w TBL_CMD.INDEX ∧ n = s.entrySize t ∧ a = s.fld TBL_T_WAYS.BASE0 0 t * 65536 + i * n ∧ old = leNat (s.tblRead a n) ∧
      (image = leNat (wordBytes ((List.range 16).map fun i => s.raw .TBL_CMD_DATA 0 i))) ∧ s.fld TBL_T_WAYS.BLOCKS 0 t * (65536 / n) ≤ i) :=
  ⟨⟨direct, forTable 2047, _, _, _, _, _, _, 65536, by decide +kernel, by decide +kernel, by decide +kernel, by unfold Quiet; decide +kernel, rfl, rfl, rfl, rfl, rfl,
    rfl, by decide +kernel⟩,
    ⟨direct, forTable 2048, _, _, _, _, _, _, by decide +kernel, by decide +kernel, by decide +kernel, by unfold Quiet; decide +kernel, rfl, rfl, rfl, rfl, rfl, rfl,
      by decide +kernel⟩⟩

/-- ClusterCommandsComplete: states and operands that meet the premises of each clause. -/
theorem witness_ClusterCommandsComplete :
    (∃ (s : State) (c : Fin 16) (w : Word), ∃ u v : State, u = s.wakeCluster c ∧ v = (if wfld w TBC_CTL.REFUSED = 1 then u.put TBC_CTL.REFUSED 0 c else u) ∧
      s.mode ≠ NIGHT ∧ s.clusterIsolated c = false ∧ v.canRun c) ∧
    (∃ (s : State) (c : Fin 16) (w : Word), ∃ u v : State, u = s.wakeCluster c ∧ v = (if wfld w TBC_CTL.REFUSED = 1 then u.put TBC_CTL.REFUSED 0 c else u) ∧
      s.mode ≠ NIGHT ∧ s.clusterIsolated c = false ∧ u.wakeCluster c = u ∧ wfld w TBC_CTL.RUN = 0 ∧ wfld w TBC_CTL.RESET = 0) ∧
    (∃ (s : State) (c : Fin 16), s.cluster c = DRAINING ∧ s.clusterEmpty c) ∧
    (∃ (s : State) (c : Fin 16) (w : Word), s.mode ≠ NIGHT ∧ s.clusterIsolated c = false ∧ 8 * wfld w TBC_SHARE.STATIC_CREDITS ≤ 64 ∧
      8 * wfld w TBC_SHARE.STATIC_SLOTS ≤ 32 ∧ ((s.wakeCluster c).cluster c = EMPTY ∨ (s.wakeCluster c).cluster c = LOADED)) ∧
    (∃ (s : State), ∃ r, s.tbe.resps[0]? = some r) ∧
    (∃ (s : State) (t : Fin 1024), ∃ d, (s.thread t).timer = some d ∧ d ≤ s.now) ∧
    (∃ (s : State) (t : Fin 1024), ∃ ts x, (s.thread t).mode = .twait ts ∧ ts ≤ s.ts64 ∧ x = (s.event t evTime).thread t ∧ x.halted = false) ∧
    (∃ (s : State) (t : Fin 1024), ∃ us, us = s.fld TBC_WDOG.WDOG_US (clusterOf t) ∧ us ≠ 0 ∧ s.issues t ∧ (s.thread t).busySince + ofUs us ≤ s.up) ∧
    (∃ (s : State) (t : Fin 1024), ∃ v, s.mode ≠ NIGHT ∧ s.clusterIsolated (clusterOf t) = false ∧ v = s.wakeCluster (clusterOf t) ∧ (v.thread t).halted) ∧
    (∃ (s : State) (t : Fin 1024), ∃ v, s.mode ≠ NIGHT ∧ s.clusterIsolated (clusterOf t) = false ∧ v = s.wakeCluster (clusterOf t) ∧ (v.thread t).halted) ∧
    (∃ (s : State) (t : Fin 1024), ∃ v, s.mode ≠ NIGHT ∧ s.clusterIsolated (clusterOf t) = false ∧ v = s.wakeCluster (clusterOf t) ∧ (v.thread t).halted) ∧
    (∃ (s : State) (t : Fin 1024) (w : Word), ∃ u v : State, v = s.wakeCluster (clusterOf t) ∧
      (u = v.onThread t (fun x => { x with epend := x.epend &&& (65535 - wfld w TBE_THREAD_CTL.CLR_EVT) })) ∧ s.mode ≠ NIGHT ∧ s.clusterIsolated (clusterOf t) = false ∧
      v.wakeCluster (clusterOf t) = v ∧ wfld w TBE_THREAD_CTL.HALT = 0 ∧ wfld w TBE_THREAD_CTL.RESUME = 0 ∧ wfld w TBE_THREAD_CTL.STEP = 0 ∧
      wfld w TBE_THREAD_CTL.ABORT_STAGE = 0 ∧ wfld w TBE_THREAD_CTL.SEV = 0 ∧ wfld w TBE_THREAD_CTL.REFUSED = 0 ∧ (u.thread t).halted) ∧
    (∃ (s : State) (c : Fin 16), s.clusterRuns c ∧ s.isSet TBC_STATUS.QUIET c = false ∧ (∀ k ∈ threadsOf c, s.quiet k) ∧ s.lasted s.tbe.quietSince c (ofUs 1)) ∧
    (∃ (s : State) (c : Fin 16), s.mode = DAY ∧ s.domainAwake c ∧ (∀ k ∈ threadsOf c, (s.thread k).waits ∧ (s.thread k).credits = 0) ∧
      s.lasted s.tbe.idleSince c (ofUs (max 1 (s.fld TBC_POWER.GATE_US c))) ∧ bitOf (s.fld PWR_HOLD_AWAKE.HOLD) c = false) :=
  ⟨⟨clusterIn 1, 15, BitVec.ofNat 64 (2 ^ TBC_CTL.RUN.lo), _, _, rfl, rfl, by decide +kernel⟩,
    ⟨clusterIn 2, 15, BitVec.ofNat 64 (2 ^ TBC_CTL.DRAIN.lo), _, _, rfl, rfl, by decide +kernel, by decide +kernel, wake_awake _ _ (by decide +kernel),
      by decide +kernel⟩,
    ⟨clusterIn 3, 15, by decide +kernel⟩,
    ⟨clusterIn 1, 15, BitVec.ofNat 64 (8 * 2 ^ TBC_SHARE.STATIC_CREDITS.lo + 4 * 2 ^ TBC_SHARE.STATIC_SLOTS.lo), by decide +kernel⟩,
    ⟨{ day with tbe.resps := [{ thread := 0, epoch := 0, channel := 0, words := [] }] }, { thread := 0, epoch := 0, channel := 0, words := [] }, by decide +kernel⟩,
    ⟨atWord 0 { timer := some 0 }, 1023, 0, by decide +kernel⟩,
    ⟨atWord 0 { mode := .twait 0 }, 1023, 0, _, by decide +kernel, by decide +kernel, rfl, by decide +kernel⟩,
    ⟨late (puts (atWord 0 { mode := .run }) [(TBC_WDOG.WDOG_US, 1, 15, 0)]), 1023, _, rfl, by decide +kernel⟩,
    ⟨atWord 0 { halted := true }, 1023, _, by decide +kernel, by decide +kernel, rfl, by decide +kernel⟩,
    ⟨atWord 0 { halted := true }, 1023, _, by decide +kernel, by decide +kernel, rfl, by decide +kernel⟩,
    ⟨atWord 0 { halted := true }, 1023, _, by decide +kernel, by decide +kernel, rfl, by decide +kernel⟩,
    ⟨atWord 0 { halted := true }, 1023, BitVec.ofNat 64 (65535 * 2 ^ TBE_THREAD_CTL.CLR_EVT.lo), _, _, rfl, rfl, by decide +kernel, by decide +kernel,
      wake_awake _ _ (by decide +kernel), by decide +kernel⟩,
    ⟨late allParked, 15, by decide +kernel, by decide +kernel, fun k hk => parked_quiet k hk, by decide +kernel⟩,
    ⟨late allParked, 15, by decide +kernel, by decide +kernel, fun k hk => parked_waits k hk, by decide +kernel⟩⟩

/-- MemDataAcceptedWhereStopped: states and operands that meet the premises of each clause. -/
theorem witness_MemDataAcceptedWhereStopped :
    (∃ (s : State) (c : Fin 16) (a : Nat), ∃ x, s.mode ≠ NIGHT ∧ s.mode ≠ DAWN ∧ s.mode ≠ TWILIGHT ∧ s.clusterIsolated c = false ∧ s.domainAwake c ∧ Quiet s ∧
      Mild s (14 + c / 4) (8 * (c % 4) + 7) ∧ a = s.memAddr c ∧ (s.cluster c = EMPTY ∨ s.cluster c = LOADED) ∧ (x < a ∨ a + 8 ≤ x)) ∧
    (∃ (s : State) (c : Fin 16) (a : Nat), s.mode ≠ NIGHT ∧ s.mode ≠ DAWN ∧ s.mode ≠ TWILIGHT ∧ s.clusterIsolated c = false ∧ s.domainAwake c ∧ Quiet s ∧
      Mild s (14 + c / 4) (8 * (c % 4) + 7) ∧ a = s.memAddr c ∧ s.cluster c ≠ EMPTY ∧ s.cluster c ≠ LOADED) :=
  ⟨⟨clusterIn 1, 15, _, imemBase 15 + 8, by decide +kernel, by decide +kernel, by decide +kernel, by decide +kernel, by decide +kernel, by unfold Quiet; decide +kernel,
    by unfold Mild; decide +kernel, rfl, by decide +kernel⟩,
    ⟨clusterIn 2, 15, _, by decide +kernel, by decide +kernel, by decide +kernel, by decide +kernel, by decide +kernel, by unfold Quiet; decide +kernel,
      by unfold Mild; decide +kernel, rfl, by decide +kernel⟩⟩

/-- ChannelMessagesComplete: states and operands that meet the premises of each clause. -/
theorem witness_ChannelMessagesComplete :
    (∃ (s : State) (m : Msg) (u : State), ∃ x, u = s.takeMsg 0 ∧ s.message 0 0 1 = some m ∧ m.slot = some x) ∧
    (∃ (s : State) (m : Msg) (u : State), ∃ x, u = s.takeMsg 0 ∧ s.message 0 0 2 = some m ∧ m.slot = some x) ∧
    (∃ (s : State) (m : Msg) (u : State), u = s.takeMsg 0 ∧ s.message 0 0 1 = some m ∧ m.slot = none) ∧
    (∃ (s : State) (m : Msg) (u : State), ∃ n start len later, u = s.takeMsg 0 ∧ s.message 0 0 3 = some m ∧ n = getBits (m.word 1) 4 0 ∧ start = getBits (m.word 2) 13 0 ∧
      len = getBits (m.word 2) 29 16 ∧ later = reframe m.thread n start len u.tbe.msgs ∧ m.epoch = u.epoch (clusterOf m.thread) ∧
      ((u.thread m.thread).slots.any (fun y => y.num == n) ∨ later.2.1) ∧ 0x400 ≤ start ∧ start + len ≤ 0x4000 ∧ later.2.2 = false) ∧
    (∃ (s : State) (m : Msg) (u : State), ∃ n start len later, u = s.takeMsg 0 ∧ s.message 0 0 3 = some m ∧ n = getBits (m.word 1) 4 0 ∧ start = getBits (m.word 2) 13 0 ∧
      len = getBits (m.word 2) 29 16 ∧ later = reframe m.thread n start len u.tbe.msgs ∧ m.epoch = u.epoch (clusterOf m.thread) ∧
      ((u.thread m.thread).slots.any (fun y => y.num == n) ∨ later.2.1) ∧ 0x400 ≤ start ∧ start + len ≤ 0x4000 ∧ later.2.2) ∧
    (∃ (s : State) (m : Msg) (u : State), ∃ n start len later, u = s.takeMsg 0 ∧ s.message 0 0 3 = some m ∧ n = getBits (m.word 1) 4 0 ∧ start = getBits (m.word 2) 13 0 ∧
      len = getBits (m.word 2) 29 16 ∧ later = reframe m.thread n start len u.tbe.msgs ∧ m.epoch = u.epoch (clusterOf m.thread) ∧
      ((u.thread m.thread).slots.any (fun y => y.num == n) ∨ later.2.1) ∧ (start < 0x400 ∨ 0x4000 < start + len)) ∧
    (∃ (s : State) (m : Msg) (u : State), ∃ n start len later, u = s.takeMsg 0 ∧ s.message 0 0 3 = some m ∧ n = getBits (m.word 1) 4 0 ∧ start = getBits (m.word 2) 13 0 ∧
      len = getBits (m.word 2) 29 16 ∧ later = reframe m.thread n start len u.tbe.msgs ∧ m.epoch = u.epoch (clusterOf m.thread) ∧
      ((u.thread m.thread).slots.any (fun y => y.num == n) ∨ later.2.1) ∧ (start < 0x400 ∨ 0x4000 < start + len)) ∧
    (∃ (s : State) (m : Msg) (u : State), ∃ n, u = s.takeMsg 0 ∧ s.message 0 0 4 = some m ∧ u.freeSlotNum (engineOf m.thread) = some n ∧
      m.epoch = u.epoch (clusterOf m.thread) ∧ u.slotFree m.thread) ∧
    (∃ (s : State) (m : Msg) (u : State), ∃ x y, u = s.takeMsg 0 ∧ s.message 0 0 5 = some m ∧ m.slot = some x ∧
      y = { x with pkt := { x.pkt with seq := none, tx := if x.made then x.pkt.tx else none, inPort := if x.made then x.pkt.inPort else none } }) ∧
    (∃ (s : State) (m : Msg) (u : State), ∃ op r v, u = s.takeMsg 0 ∧ s.message 0 1 op = some m ∧
      r = u.tableCommand op m.table ((m.word 2).toNat % 2 ^ 32) m.gen (leNat (u.tableImage m)) ∧ (v = (r.1.tableRespond m r.2.result r.2.loc (r.2.entry.map fun e => (e,
      r.2.size))).settle) ∧ op = 1) ∧
    (∃ (s : State) (m : Msg) (u : State), ∃ op r v, u = s.takeMsg 0 ∧ s.message 0 1 op = some m ∧
      r = u.tableCommand op m.table ((m.word 2).toNat % 2 ^ 32) m.gen (leNat (u.tableImage m)) ∧ (v = (r.1.tableRespond m r.2.result r.2.loc (r.2.entry.map fun e => (e,
      r.2.size))).settle) ∧ op = 2) ∧
    (∃ (s : State) (m : Msg) (u : State), ∃ op r v, u = s.takeMsg 0 ∧ s.message 0 1 op = some m ∧
      r = u.tableCommand op m.table ((m.word 2).toNat % 2 ^ 32) m.gen (leNat (u.tableImage m)) ∧ (v = (r.1.tableRespond m r.2.result r.2.loc (r.2.entry.map fun e => (e,
      r.2.size))).settle) ∧ op = 3) ∧
    (∃ (s : State) (m : Msg) (u : State), ∃ op r v, u = s.takeMsg 0 ∧ s.message 0 1 op = some m ∧
      r = u.tableCommand op m.table ((m.word 2).toNat % 2 ^ 32) m.gen (leNat (u.tableImage m)) ∧ (v = (r.1.tableRespond m r.2.result r.2.loc (r.2.entry.map fun e => (e,
      r.2.size))).settle) ∧ op = 4) ∧
    (∃ (s : State) (m : Msg) (u : State), ∃ op r v, u = s.takeMsg 0 ∧ s.message 0 1 op = some m ∧
      r = u.tableCommand op m.table ((m.word 2).toNat % 2 ^ 32) m.gen (leNat (u.tableImage m)) ∧ (v = (r.1.tableRespond m r.2.result r.2.loc (r.2.entry.map fun e => (e,
      r.2.size))).settle) ∧ op = 5) ∧
    (∃ (s : State) (m : Msg) (u : State), ∃ op r v, u = s.takeMsg 0 ∧ s.message 0 1 op = some m ∧
      r = u.tableCommand op m.table ((m.word 2).toNat % 2 ^ 32) m.gen (leNat (u.tableImage m)) ∧ (v = (r.1.tableRespond m r.2.result r.2.loc (r.2.entry.map fun e => (e,
      r.2.size))).settle) ∧ op = 6) ∧
    (∃ (s : State) (m : Msg) (u : State), ∃ key a, ∃ v, u = s.takeMsg 0 ∧ s.message 0 1 7 = some m ∧ s.isSet TBL_T_CFG.EN 0 m.table ∧ s.usable m.table ∧
      s.tableServes m.table ∧ key = imageKey (s.tableImage m) ∧ v = u.tierTouch m.table key ∧ s.awaitsFetch m.table key = false ∧
      v.lookupTable m.table (m.gen % 2) key = .hit a none) ∧
    (∃ (s : State) (m : Msg) (u : State), ∃ key, ∃ v, u = s.takeMsg 0 ∧ s.message 0 1 7 = some m ∧ s.isSet TBL_T_CFG.EN 0 m.table ∧ s.usable m.table ∧
      s.tableServes m.table ∧ key = imageKey (s.tableImage m) ∧ v = u.tierTouch m.table key ∧ s.awaitsFetch m.table key = false ∧
      v.lookupTable m.table (m.gen % 2) key = .miss) ∧
    (∃ (s : State) (m : Msg) (u : State), ∃ key, ∃ v, u = s.takeMsg 0 ∧ s.message 0 1 7 = some m ∧ s.isSet TBL_T_CFG.EN 0 m.table ∧ s.usable m.table ∧
      s.tableServes m.table ∧ key = imageKey (s.tableImage m) ∧ v = u.tierTouch m.table key ∧ s.awaitsFetch m.table key) ∧
    (∃ (s : State) (m : Msg) (u : State), u = s.takeMsg 0 ∧ s.tbe.msgs[0]? = some m ∧ m.channel = 2 ∧ s.awaitsFetch m.table (imageKey (s.tableImage m)) = false ∧
      m.epoch = u.epoch (clusterOf m.thread)) ∧
    (∃ (s : State) (m : Msg) (u : State), ∃ k, u = s.takeMsg 0 ∧ s.tbe.msgs[0]? = some m ∧ m.channel = 2 ∧ s.isSet TBL_T_CFG.EN 0 m.table ∧ s.usable m.table ∧
      s.awaitsFetch m.table (imageKey (s.tableImage m)) ∧ k = s.tierKey m.table (imageKey (s.tableImage m)) ∧ k ∉ s.tbl.fetches) ∧
    (∃ (s : State) (m : Msg) (u : State), ∃ k, u = s.takeMsg 0 ∧ s.tbe.msgs[0]? = some m ∧ m.channel = 2 ∧ s.isSet TBL_T_CFG.EN 0 m.table ∧ s.usable m.table ∧
      s.awaitsFetch m.table (imageKey (s.tableImage m)) ∧ k = s.tierKey m.table (imageKey (s.tableImage m)) ∧ k ∈ s.tbl.fetches) ∧
    (∃ (s : State) (m : Msg) (u : State), u = s.takeMsg 0 ∧ s.message 0 5 1 = some m ∧ u.xptRuns ∧ m.len = 7 ∧ (u.engineQueue m.thread).isSome) ∧
    (∃ (s : State) (m : Msg) (u : State), ∃ g n gone, u = s.takeMsg 0 ∧ s.message 0 5 2 = some m ∧ u.engineQueue m.thread = some g ∧ n = getBits (m.word 1) 15 0 ∧
      gone = (n + 65536 - (u.pair g).C 3) % 65536 ∧ (u.pair g).state = ACTIVE ∧ gone ≤ (u.pair g).used 3) ∧
    (∃ (s : State) (m : Msg) (u : State), u = s.takeMsg 0 ∧ s.message 0 7 1 = some m ∧ s.copyCheck m = none ∧ m.srcKind ≠ 8 ∧ m.dstKind ≠ 8) ∧
    (∃ (s : State) (m : Msg) (u : State), ∃ r, u = s.takeMsg 0 ∧ s.message 0 8 1 = some m ∧ m.mbxAddrOk ∧ m.mbxLen ≠ 0 ∧ m.mbxLen ≤ 8 ∧
      r = u.mbxPost (2080 + clusterOf m.thread) true (leWords 8 (u.threadRead m.thread m.mbxShared m.mbxAddr 64)) m.mbxLen ∧ r.2 = .queued) ∧
    (∃ (s : State) (m : Msg) (u : State), ∃ r, u = s.takeMsg 0 ∧ s.message 0 8 1 = some m ∧ m.mbxAddrOk ∧ m.mbxLen ≠ 0 ∧ m.mbxLen ≤ 8 ∧
      r = u.mbxPost (2080 + clusterOf m.thread) true (leWords 8 (u.threadRead m.thread m.mbxShared m.mbxAddr 64)) m.mbxLen ∧ r.2 = .full) ∧
    (∃ (s : State) (m : Msg) (u : State), ∃ r, u = s.takeMsg 0 ∧ s.message 0 8 1 = some m ∧ m.mbxAddrOk ∧ m.mbxLen ≠ 0 ∧ m.mbxLen ≤ 8 ∧
      r = u.mbxPost (2080 + clusterOf m.thread) true (leWords 8 (u.threadRead m.thread m.mbxShared m.mbxAddr 64)) m.mbxLen ∧ r.2 = .absent) ∧
    (∃ (s : State) (m : Msg) (u : State), ∃ x rest, u = s.takeMsg 0 ∧ s.message 0 8 2 = some m ∧ m.mbxAddrOk ∧ (u.mbox (2080 + clusterOf m.thread)).toFar = x :: rest) ∧
    (∃ (s : State) (m : Msg) (u : State), ∃ b g, u = s.takeMsg 0 ∧ s.message 0 8 3 = some m ∧ b = 2080 + clusterOf m.thread ∧ g = (u.mbox b).far) :=
  ⟨⟨inFlight [mesg 0 1 [] (some slot31)] (day), mesg 0 1 [] (some slot31), _, slot31, rfl, by decide +kernel⟩,
    ⟨inFlight [mesg 0 2 [] (some slot31)] (day), mesg 0 2 [] (some slot31), _, slot31, rfl, by decide +kernel⟩,
    ⟨inFlight [mesg 0 1 []] (day), mesg 0 1 [], _, rfl, by decide +kernel⟩,
    ⟨inFlight [mesg 0 3 [31, 0x400 + 0x3C00 * 2 ^ 16]] (atWord 0 { slots := [slot31] }), mesg 0 3 [31, 0x400 + 0x3C00 * 2 ^ 16], _, _, _, _, _, rfl, by decide +kernel,
      rfl, rfl, rfl, rfl, by decide +kernel⟩,
    ⟨inFlight [mesg 0 3 [31, 0x400 + 0x3C00 * 2 ^ 16], mesg 0 1 [] (some slot31)] day, mesg 0 3 [31, 0x400 + 0x3C00 * 2 ^ 16], _, _, _, _, _, rfl, by decide +kernel, rfl,
      rfl, rfl, rfl, by decide +kernel⟩,
    ⟨inFlight [mesg 0 3 [31, 0x3FF + 0 * 2 ^ 16]] (atWord 0 { slots := [slot31] }), mesg 0 3 [31, 0x3FF + 0 * 2 ^ 16], _, _, _, _, _, rfl, by decide +kernel, rfl, rfl,
      rfl, rfl, by decide +kernel⟩,
    ⟨inFlight [mesg 0 3 [31, 0x400 + 0x3C01 * 2 ^ 16]] (atWord 0 { slots := [slot31] }), mesg 0 3 [31, 0x400 + 0x3C01 * 2 ^ 16], _, _, _, _, _, rfl, by decide +kernel,
      rfl, rfl, rfl, rfl, by decide +kernel⟩,
    ⟨inFlight [mesg 0 4 []] (day), mesg 0 4 [], _, 0, rfl, by decide +kernel⟩,
    ⟨inFlight [mesg 0 5 [] (some slot31)] (day), mesg 0 5 [] (some slot31), _, slot31, _, rfl, by decide +kernel, by decide +kernel, rfl⟩,
    ⟨inFlight [mesg 1 1 [255]] (day), mesg 1 1 [255], _, 1, _, _, rfl, by decide +kernel, rfl, rfl, by decide +kernel⟩,
    ⟨inFlight [mesg 1 2 [255]] (day), mesg 1 2 [255], _, 2, _, _, rfl, by decide +kernel, rfl, rfl, by decide +kernel⟩,
    ⟨inFlight [mesg 1 3 [255]] (day), mesg 1 3 [255], _, 3, _, _, rfl, by decide +kernel, rfl, rfl, by decide +kernel⟩,
    ⟨inFlight [mesg 1 4 [255]] (day), mesg 1 4 [255], _, 4, _, _, rfl, by decide +kernel, rfl, rfl, by decide +kernel⟩,
    ⟨inFlight [mesg 1 5 [255]] (day), mesg 1 5 [255], _, 5, _, _, rfl, by decide +kernel, rfl, rfl, by decide +kernel⟩,
    ⟨inFlight [mesg 1 6 [255]] (day), mesg 1 6 [255], _, 6, _, _, rfl, by decide +kernel, rfl, rfl, by decide +kernel⟩,
    ⟨inFlight [mesg 1 7 [255]] (ranged), mesg 1 7 [255], _, _, 5, _, rfl, by decide +kernel, by decide +kernel, by decide +kernel, by decide +kernel, rfl, rfl,
      by decide +kernel⟩,
    ⟨inFlight [mesg 1 7 [255]] (direct), mesg 1 7 [255], _, _, _, rfl, by decide +kernel, by decide +kernel, by decide +kernel, by decide +kernel, rfl, rfl,
      by decide +kernel⟩,
    ⟨inFlight [mesg 1 7 [255]] (tiered), mesg 1 7 [255], _, _, _, rfl, by decide +kernel, by decide +kernel, by decide +kernel, by decide +kernel, rfl, rfl,
      by decide +kernel⟩,
    ⟨inFlight [mesg 2 0 [255]] (day), mesg 2 0 [255], _, rfl, by decide +kernel⟩,
    ⟨inFlight [mesg 2 0 [255]] (tiered), mesg 2 0 [255], _, _, rfl, by decide +kernel, by decide +kernel, by decide +kernel, by decide +kernel, by decide +kernel, rfl,
      by decide +kernel⟩,
    ⟨inFlight [mesg 2 0 [255]] ({ tiered with tbl.fetches := [tiered.tierKey 255 []] }), mesg 2 0 [255], _, _, rfl, by decide +kernel, by decide +kernel,
      by decide +kernel, by decide +kernel, by decide +kernel, rfl, by decide +kernel⟩,
    ⟨inFlight [mesg 5 1 [0, 0, 0, 0, 0, 0]] (engineBound), mesg 5 1 [0, 0, 0, 0, 0, 0], _, rfl, by decide +kernel⟩,
    ⟨inFlight [mesg 5 2 [0]] (engineBound), mesg 5 2 [0], _, 0, _, _, rfl, by decide +kernel, by decide +kernel, rfl, rfl, by decide +kernel⟩,
    ⟨inFlight [mesg 7 1 [2 ^ 4 + 2 ^ 32, 0, 0]] (day), mesg 7 1 [2 ^ 4 + 2 ^ 32, 0, 0], _, rfl, by decide +kernel⟩,
    ⟨inFlight [mesg 8 1 [8 * 2 ^ 18]] (puts day [(MBX_MGR_CTL.READY, 1, 0, 0)]), mesg 8 1 [8 * 2 ^ 18], _, _, rfl, by decide +kernel, by decide +kernel,
      by decide +kernel, by decide +kernel, rfl, by decide +kernel⟩,
    ⟨inFlight [mesg 8 1 [8 * 2 ^ 18]] ({ puts day [(MBX_MGR_CTL.READY, 1, 0, 0)] with mbx := day.mbx.set {} 2095 { toMgr := [{ words := [0] }] } }),
      mesg 8 1 [8 * 2 ^ 18], _, _, rfl, by decide +kernel, by decide +kernel, by decide +kernel, by decide +kernel, rfl, by decide +kernel⟩,
    ⟨inFlight [mesg 8 1 [8 * 2 ^ 18]] (puts day [(MBX_MGR_CTL.READY, 0, 0, 0)]), mesg 8 1 [8 * 2 ^ 18], _, _, rfl, by decide +kernel, by decide +kernel,
      by decide +kernel, by decide +kernel, rfl, by decide +kernel⟩,
    ⟨inFlight [mesg 8 2 [0]] ({ day with mbx := day.mbx.set {} 2095 { toFar := [{ words := [0] }] } }), mesg 8 2 [0], _, { words := [0] }, [], rfl, by decide +kernel⟩,
    ⟨inFlight [mesg 8 3 []] (day), mesg 8 3 [], _, _, _, rfl, by decide +kernel, rfl, rfl⟩⟩

/-- LookasideComplete: states and operands that meet the premises of each clause. -/
theorem witness_LookasideComplete :
    (∃ (s : State) (m : Msg) (core : Nat) (u : State), ∃ op r v, u = s.takeMsg 0 ∧ s.message 0 3 op = some m ∧ s.freeCore = some core ∧ s.engineClock ∧
      u.isSet CRY_CFG.EN ∧ m.cHost = false ∧ u.cryptoBad m none = false ∧ r = u.readKey m.cKey ∧ r.2.any (keyAllows m) ∧
      (v = (((r.1.devEvent 0x305).wakeDomain (16 + core / 16)).onSec fun x => { x with jobs := x.jobs ++ [{ core, msg := m, key := r.2 }] }).settle) ∧ op = opGcmEnc) ∧
    (∃ (s : State) (m : Msg) (core : Nat) (u : State), ∃ op r v, u = s.takeMsg 0 ∧ s.message 0 3 op = some m ∧ s.freeCore = some core ∧ s.engineClock ∧
      u.isSet CRY_CFG.EN ∧ m.cHost = false ∧ u.cryptoBad m none = false ∧ r = u.readKey m.cKey ∧ r.2.any (keyAllows m) ∧
      (v = (((r.1.devEvent 0x305).wakeDomain (16 + core / 16)).onSec fun x => { x with jobs := x.jobs ++ [{ core, msg := m, key := r.2 }] }).settle) ∧ op = opGcmDec) ∧
    (∃ (s : State) (m : Msg) (core : Nat) (u : State), ∃ op r v, u = s.takeMsg 0 ∧ s.message 0 3 op = some m ∧ s.freeCore = some core ∧ s.engineClock ∧
      u.isSet CRY_CFG.EN ∧ m.cHost = false ∧ u.cryptoBad m none = false ∧ r = u.readKey m.cKey ∧ r.2.any (keyAllows m) ∧
      (v = (((r.1.devEvent 0x305).wakeDomain (16 + core / 16)).onSec fun x => { x with jobs := x.jobs ++ [{ core, msg := m, key := r.2 }] }).settle) ∧ op = opXtsEnc) ∧
    (∃ (s : State) (m : Msg) (core : Nat) (u : State), ∃ op r v, u = s.takeMsg 0 ∧ s.message 0 3 op = some m ∧ s.freeCore = some core ∧ s.engineClock ∧
      u.isSet CRY_CFG.EN ∧ m.cHost = false ∧ u.cryptoBad m none = false ∧ r = u.readKey m.cKey ∧ r.2.any (keyAllows m) ∧
      (v = (((r.1.devEvent 0x305).wakeDomain (16 + core / 16)).onSec fun x => { x with jobs := x.jobs ++ [{ core, msg := m, key := r.2 }] }).settle) ∧ op = opXtsDec) ∧
    (∃ (s : State) (m : Msg) (core : Nat) (u : State), ∃ op r v, u = s.takeMsg 0 ∧ s.message 0 3 op = some m ∧ s.freeCore = some core ∧ s.engineClock ∧
      u.isSet CRY_CFG.EN ∧ m.cHost = false ∧ u.cryptoBad m none = false ∧ r = u.readKey m.cKey ∧ r.2.any (keyAllows m) ∧
      (v = (((r.1.devEvent 0x305).wakeDomain (16 + core / 16)).onSec fun x => { x with jobs := x.jobs ++ [{ core, msg := m, key := r.2 }] }).settle) ∧ op = opCmac) ∧
    (∃ (s : State) (m : Msg) (core : Nat) (u : State), ∃ op r v, u = s.takeMsg 0 ∧ s.message 0 3 op = some m ∧ s.freeCore = some core ∧ s.engineClock ∧
      u.isSet CRY_CFG.EN ∧ m.cHost = false ∧ u.cryptoBad m none = false ∧ r = u.readKey m.cKey ∧ r.2.any (keyAllows m) ∧
      (v = (((r.1.devEvent 0x305).wakeDomain (16 + core / 16)).onSec fun x => { x with jobs := x.jobs ++ [{ core, msg := m, key := r.2 }] }).settle) ∧ op = opHmac) ∧
    (∃ (s : State) (m : Msg) (core : Nat) (u : State), u = s.takeMsg 0 ∧ s.message 0 3 opHash = some m ∧ s.freeCore = some core ∧ s.engineClock ∧ u.isSet CRY_CFG.EN ∧
      m.cHost = false ∧ u.cryptoBad m none = false) ∧
    (∃ (s : State) (m : Msg) (core : Nat) (u : State), ∃ op v w, u = s.takeMsg 0 ∧ s.message 0 4 op = some m ∧ s.freeUnit = some core ∧ s.engineClock ∧
      u.isSet CMP_CFG.EN ∧ m.zHost = false ∧ u.cmpBad m none = false ∧ v = (u.devEvent 0x306).wakeDomain (24 + core) ∧
      w = State.settle { v with tel := { v.tel with jobs := v.tel.jobs ++ [{ unit := core, msg := m }] } } ∧ op = 1) ∧
    (∃ (s : State) (m : Msg) (core : Nat) (u : State), ∃ op v w, u = s.takeMsg 0 ∧ s.message 0 4 op = some m ∧ s.freeUnit = some core ∧ s.engineClock ∧
      u.isSet CMP_CFG.EN ∧ m.zHost = false ∧ u.cmpBad m none = false ∧ v = (u.devEvent 0x306).wakeDomain (24 + core) ∧
      w = State.settle { v with tel := { v.tel with jobs := v.tel.jobs ++ [{ unit := core, msg := m }] } } ∧ op = 2) ∧
    (∃ (s : State) (m : Msg) (core : Nat) (u : State), ∃ op v w, u = s.takeMsg 0 ∧ s.message 0 4 op = some m ∧ s.freeUnit = some core ∧ s.engineClock ∧
      u.isSet CMP_CFG.EN ∧ m.zHost = false ∧ u.cmpBad m none = false ∧ v = (u.devEvent 0x306).wakeDomain (24 + core) ∧
      w = State.settle { v with tel := { v.tel with jobs := v.tel.jobs ++ [{ unit := core, msg := m }] } } ∧ op = 3) ∧
    (∃ (s : State) (m : Msg) (core : Nat) (u : State), ∃ op v w, u = s.takeMsg 0 ∧ s.message 0 4 op = some m ∧ s.freeUnit = some core ∧ s.engineClock ∧
      u.isSet CMP_CFG.EN ∧ m.zHost = false ∧ u.cmpBad m none = false ∧ v = (u.devEvent 0x306).wakeDomain (24 + core) ∧
      w = State.settle { v with tel := { v.tel with jobs := v.tel.jobs ++ [{ unit := core, msg := m }] } } ∧ op = 4) ∧
    (∃ (s : State) (u : State), ∃ (k : Fin 128) (j : CryptoJob), u = s.takeMsg 0 ∧ (s.sec.jobs.find? (fun j => j.core == k.val) = some j)) ∧
    (∃ (s : State) (u : State), ∃ (k : Fin 16) (j : CmpJob), u = s.takeMsg 0 ∧ (s.tel.jobs.find? (fun j => j.unit == k.val) = some j)) ∧
    (∃ (s : State) (u : State), u = s.takeMsg 0) ∧
    (∃ (s : State) (u : State), u = s.takeMsg 0) ∧
    (∃ (s : State) (u : State), ∃ (k : Fin 24) (c : Nat), u = s.takeMsg 0 ∧ k.val < 8 ∧ c < 8 ∧ s.sec.faulty.contains k.val = false) :=
  ⟨⟨inFlight [mesg 3 1 [0, 0, 0, 0]] (sealed 0), mesg 3 1 [0, 0, 0, 0], 0, _, 1, _, _, rfl, by decide +kernel, by decide +kernel, by decide +kernel, by decide +kernel,
    by decide +kernel, by decide +kernel, rfl, by decide +kernel, rfl, by decide +kernel⟩,
    ⟨inFlight [mesg 3 2 [0, 0, 0, 0]] (sealed 0), mesg 3 2 [0, 0, 0, 0], 0, _, 2, _, _, rfl, by decide +kernel, by decide +kernel, by decide +kernel, by decide +kernel,
      by decide +kernel, by decide +kernel, rfl, by decide +kernel, rfl, by decide +kernel⟩,
    ⟨inFlight [mesg 3 3 [512 * 2 ^ 32, 0, 0, 9 * 2 ^ 24]] (sealed 2), mesg 3 3 [512 * 2 ^ 32, 0, 0, 9 * 2 ^ 24], 0, _, 3, _, _, rfl, by decide +kernel, by decide +kernel,
      by decide +kernel, by decide +kernel, by decide +kernel, by decide +kernel, rfl, by decide +kernel, rfl, by decide +kernel⟩,
    ⟨inFlight [mesg 3 4 [512 * 2 ^ 32, 0, 0, 9 * 2 ^ 24]] (sealed 2), mesg 3 4 [512 * 2 ^ 32, 0, 0, 9 * 2 ^ 24], 0, _, 4, _, _, rfl, by decide +kernel, by decide +kernel,
      by decide +kernel, by decide +kernel, by decide +kernel, by decide +kernel, rfl, by decide +kernel, rfl, by decide +kernel⟩,
    ⟨inFlight [mesg 3 5 [0, 0, 0, 0]] (sealed 0), mesg 3 5 [0, 0, 0, 0], 0, _, 5, _, _, rfl, by decide +kernel, by decide +kernel, by decide +kernel, by decide +kernel,
      by decide +kernel, by decide +kernel, rfl, by decide +kernel, rfl, by decide +kernel⟩,
    ⟨inFlight [mesg 3 7 [0, 0, 0, 0]] (sealed 4), mesg 3 7 [0, 0, 0, 0], 0, _, 7, _, _, rfl, by decide +kernel, by decide +kernel, by decide +kernel, by decide +kernel,
      by decide +kernel, by decide +kernel, rfl, by decide +kernel, rfl, by decide +kernel⟩,
    ⟨inFlight [mesg 3 6 [0, 0, 0, 0]] (sealed 0), mesg 3 6 [0, 0, 0, 0], 0, _, rfl, by decide +kernel⟩,
    ⟨inFlight [mesg 4 1 [2 ^ 32 + 2 ^ 4, 0, 0, 65536]] (sealed 0), mesg 4 1 [2 ^ 32 + 2 ^ 4, 0, 0, 65536], 0, _, 1, _, _, rfl, by decide +kernel, by decide +kernel,
      by decide +kernel, by decide +kernel, by decide +kernel, by decide +kernel, rfl, rfl, by decide +kernel⟩,
    ⟨inFlight [mesg 4 2 [2 ^ 32 + 2 ^ 4, 0, 0, 65536]] (sealed 0), mesg 4 2 [2 ^ 32 + 2 ^ 4, 0, 0, 65536], 0, _, 2, _, _, rfl, by decide +kernel, by decide +kernel,
      by decide +kernel, by decide +kernel, by decide +kernel, by decide +kernel, rfl, rfl, by decide +kernel⟩,
    ⟨inFlight [mesg 4 3 [2 ^ 32 + 2 ^ 4, 0, 0, 65536]] (sealed 0), mesg 4 3 [2 ^ 32 + 2 ^ 4, 0, 0, 65536], 0, _, 3, _, _, rfl, by decide +kernel, by decide +kernel,
      by decide +kernel, by decide +kernel, by decide +kernel, by decide +kernel, rfl, rfl, by decide +kernel⟩,
    ⟨inFlight [mesg 4 4 [2 ^ 32 + 2 ^ 4, 0, 0, 65536]] (sealed 0), mesg 4 4 [2 ^ 32 + 2 ^ 4, 0, 0, 65536], 0, _, 4, _, _, rfl, by decide +kernel, by decide +kernel,
      by decide +kernel, by decide +kernel, by decide +kernel, by decide +kernel, rfl, rfl, by decide +kernel⟩,
    ⟨{ sealed 0 with sec.jobs := [{ core := 127, msg := mesg 3 1 [] }] }, _, 127, { core := 127, msg := mesg 3 1 [] }, rfl, by decide +kernel⟩,
    ⟨{ sealed 0 with tel.jobs := [{ unit := 15, msg := mesg 4 1 [] }] }, _, 15, { unit := 15, msg := mesg 4 1 [] }, rfl, by decide +kernel⟩,
    ⟨day, _, rfl⟩,
    ⟨day, _, rfl⟩,
    ⟨day, _, 7, 7, rfl, by decide +kernel⟩⟩

/-- ThreadInstructionsComplete: states and operands that meet the premises of each clause. -/
theorem witness_ThreadInstructionsComplete :
    (∃ (s : State) (t : Fin 1024) (w : Nat) (x : Thread), w = s.nextWord t ∧ x = s.thread t ∧ s.runs t .alu) ∧
    (∃ (s : State) (t : Fin 1024) (w : Nat) (x : Thread), w = s.nextWord t ∧ x = s.thread t ∧ s.runs t .ialu) ∧
    (∃ (s : State) (t : Fin 1024) (w : Nat) (x : Thread), w = s.nextWord t ∧ x = s.thread t ∧ s.runs t .bfi) ∧
    (∃ (s : State) (t : Fin 1024) (w : Nat) (x : Thread), w = s.nextWord t ∧ x = s.thread t ∧ s.runs t .movi ∧ bitOf w 13 = false) ∧
    (∃ (s : State) (t : Fin 1024) (w : Nat) (x : Thread), w = s.nextWord t ∧ x = s.thread t ∧ s.runs t .hash) ∧
    (∃ (s : State) (t : Fin 1024) (w : Nat) (x : Thread), w = s.nextWord t ∧ x = s.thread t ∧ s.runs t .tread) ∧
    (∃ (s : State) (t : Fin 1024) (w : Nat) (x : Thread), w = s.nextWord t ∧ x = s.thread t ∧ s.runs t .srd) ∧
    (∃ (s : State) (t : Fin 1024) (w : Nat) (x : Thread), w = s.nextWord t ∧ x = s.thread t ∧ s.runs t .swr) ∧
    (∃ (s : State) (t : Fin 1024) (w : Nat) (x : Thread), w = s.nextWord t ∧ x = s.thread t ∧ s.runs t .br ∧ brHolds (bits w 18 16) (x.reg (zrd w)) (x.reg (zrs1 w))) ∧
    (∃ (s : State) (t : Fin 1024) (w : Nat) (x : Thread), w = s.nextWord t ∧ x = s.thread t ∧ s.runs t .br ∧
      brHolds (bits w 18 16) (x.reg (zrd w)) (x.reg (zrs1 w)) = false) ∧
    (∃ (s : State) (t : Fin 1024) (w : Nat) (x : Thread), w = s.nextWord t ∧ x = s.thread t ∧ s.runs t .jal) ∧
    (∃ (s : State) (t : Fin 1024) (w : Nat) (x : Thread), w = s.nextWord t ∧ x = s.thread t ∧ s.runs t .jalr) ∧
    (∃ (s : State) (t : Fin 1024) (w : Nat) (x : Thread), ∃ a n space bs v, ∃ u, w = s.nextWord t ∧ x = s.thread t ∧ a = memAddr w (x.reg (zrs1 w)) ∧
      n = 2 ^ bits w 20 19 ∧ space = bits w 18 16 ∧ bs = s.loadBytes t x space a.toNat n ∧ v = leNat (if bitOf w 22 then bs.reverse else bs) ∧ s.runs t .ld ∧
      s.inSpace t x space a.toNat n false ∧ a.toNat % n = 0 ∧ u = ((s.engEvent t 0x008).spaceEvent t space).touchEvent t space a.toNat n) ∧
    (∃ (s : State) (t : Fin 1024) (w : Nat) (x : Thread), ∃ a n space bs, w = s.nextWord t ∧ x = s.thread t ∧ a = memAddr w (x.reg (zrs1 w)) ∧ n = 2 ^ bits w 20 19 ∧
      space = bits w 18 16 ∧ bs = natLe n (x.reg (zrd w)).toNat ∧ s.runs t .st ∧ s.inSpace t x space a.toNat n true ∧ a.toNat % n = 0) ∧
    (∃ (s : State) (t : Fin 1024) (w : Nat) (x : Thread), ∃ a n space old b, ∃ u, w = s.nextWord t ∧ x = s.thread t ∧ a = (x.reg (zrs1 w)).toNat ∧
      n = (if bitOf (zfn w) 2 then 8 else 4) ∧ space = bits (zfn w) 5 3 ∧ space ≤ 1 ∧ old = leNat (s.threadRead t (space = 1) a n) ∧
      b = (x.reg (zrs2 w)).toNat % 2 ^ (8 * n) ∧ s.runs t .atom ∧ s.inSpace t x space a n true ∧ a % n = 0 ∧ u = (s.engEvent t 0x00A).spaceEvent t space ∧
      bits (zfn w) 1 0 = 0) ∧
    (∃ (s : State) (t : Fin 1024) (w : Nat) (x : Thread), ∃ a n space old b, ∃ u, w = s.nextWord t ∧ x = s.thread t ∧ a = (x.reg (zrs1 w)).toNat ∧
      n = (if bitOf (zfn w) 2 then 8 else 4) ∧ space = bits (zfn w) 5 3 ∧ space ≤ 1 ∧ old = leNat (s.threadRead t (space = 1) a n) ∧
      b = (x.reg (zrs2 w)).toNat % 2 ^ (8 * n) ∧ s.runs t .atom ∧ s.inSpace t x space a n true ∧ a % n = 0 ∧ u = (s.engEvent t 0x00A).spaceEvent t space ∧
      bits (zfn w) 1 0 = 1) ∧
    (∃ (s : State) (t : Fin 1024) (w : Nat) (x : Thread), ∃ a n space old b, ∃ u, w = s.nextWord t ∧ x = s.thread t ∧ a = (x.reg (zrs1 w)).toNat ∧
      n = (if bitOf (zfn w) 2 then 8 else 4) ∧ space = bits (zfn w) 5 3 ∧ space ≤ 1 ∧ old = leNat (s.threadRead t (space = 1) a n) ∧
      b = (x.reg (zrs2 w)).toNat % 2 ^ (8 * n) ∧ s.runs t .atom ∧ s.inSpace t x space a n true ∧ a % n = 0 ∧ u = (s.engEvent t 0x00A).spaceEvent t space ∧
      bits (zfn w) 1 0 = 2) ∧
    (∃ (s : State) (t : Fin 1024) (w : Nat) (x : Thread), ∃ h, w = s.nextWord t ∧ x = s.thread t ∧ h = x.staging.get 0 0 ∧ s.runs t .chs ∧ s.sendable t h ∧
      s.creditFree t ∧ getBits h 7 0 ≠ 2) ∧
    (∃ (s : State) (t : Fin 1024) (w : Nat) (x : Thread), ∃ r rest v, w = s.nextWord t ∧ x = s.thread t ∧ s.runs t .chr ∧ x.unread = r :: rest ∧
      v = (if bits w 18 16 < getBits (r.headD 0) 19 16 then r.getD (bits w 18 16) 0 else 0)) ∧
    (∃ (s : State) (t : Fin 1024) (w : Nat) (x : Thread), w = s.nextWord t ∧ x = s.thread t ∧ s.runs t .wfe ∧ x.epend &&& x.emask ≠ 0) ∧
    (∃ (s : State) (t : Fin 1024) (w : Nat) (x : Thread), w = s.nextWord t ∧ x = s.thread t ∧ s.runs t .wfe ∧ x.epend &&& x.emask = 0) ∧
    (∃ (s : State) (t : Fin 1024) (w : Nat) (x : Thread), w = s.nextWord t ∧ x = s.thread t ∧ s.runs t .twait ∧ (x.reg (zrs1 w)).toNat ≤ s.ts64) ∧
    (∃ (s : State) (t : Fin 1024) (w : Nat) (x : Thread), w = s.nextWord t ∧ x = s.thread t ∧ s.runs t .twait ∧ s.ts64 < (x.reg (zrs1 w)).toNat) ∧
    (∃ (s : State) (t : Fin 1024) (w : Nat) (x : Thread), w = s.nextWord t ∧ x = s.thread t ∧ s.runs t .sev) ∧
    (∃ (s : State) (t : Fin 1024) (w : Nat) (x : Thread), w = s.nextWord t ∧ x = s.thread t ∧ s.runs t .sevt) ∧
    (∃ (s : State) (t : Fin 1024) (w : Nat) (x : Thread), w = s.nextWord t ∧ x = s.thread t ∧ s.runs t .crd ∧ zimm16 w < 8 ∧
      bitOf (s.fld PMC_USER.CLUSTERS) (clusterOf t)) ∧
    (∃ (s : State) (t : Fin 1024) (w : Nat) (x : Thread), w = s.nextWord t ∧ x = s.thread t ∧ s.runs t .crd ∧ zimm16 w = 16) ∧
    (∃ (s : State) (t : Fin 1024) (w : Nat) (x : Thread), w = s.nextWord t ∧ x = s.thread t ∧ s.runs t .crd ∧ zimm16 w = 17) ∧
    (∃ (s : State) (t : Fin 1024) (w : Nat) (x : Thread), w = s.nextWord t ∧ x = s.thread t ∧ s.runs t .fence ∧ (∀ p ∈ s.tbe.posted, p.thread ≠ t.val)) ∧
    (∃ (s : State) (t : Fin 1024) (w : Nat) (x : Thread), w = s.nextWord t ∧ x = s.thread t ∧ s.runs t .fence ∧ ((∃ p ∈ s.tbe.posted, p.thread = t.val))) ∧
    (∃ (s : State) (t : Fin 1024) (w : Nat) (x : Thread), w = s.nextWord t ∧ x = s.thread t ∧ s.runs t .illegal) :=
  ⟨⟨running (0x01), 1023, _, _, rfl, rfl, ⟨by decide +kernel, by decide +kernel, by decide +kernel⟩⟩,
    ⟨running (0x08), 1023, _, _, rfl, rfl, ⟨by decide +kernel, by decide +kernel, by decide +kernel⟩⟩,
    ⟨running (0x09), 1023, _, _, rfl, rfl, ⟨by decide +kernel, by decide +kernel, by decide +kernel⟩⟩,
    ⟨running (0x28), 1023, _, _, rfl, rfl, ⟨by decide +kernel, by decide +kernel, by decide +kernel⟩, by decide +kernel⟩,
    ⟨running (0x03), 1023, _, _, rfl, rfl, ⟨by decide +kernel, by decide +kernel, by decide +kernel⟩⟩,
    ⟨running (0x2B), 1023, _, _, rfl, rfl, ⟨by decide +kernel, by decide +kernel, by decide +kernel⟩⟩,
    ⟨running (0x29 + 13 * 2 ^ 11), 1023, _, _, rfl, rfl, ⟨by decide +kernel, by decide +kernel, by decide +kernel⟩⟩,
    ⟨running (0x2A + 13 * 2 ^ 11), 1023, _, _, rfl, rfl, ⟨by decide +kernel, by decide +kernel, by decide +kernel⟩⟩,
    ⟨running (0x18), 1023, _, _, rfl, rfl, ⟨by decide +kernel, by decide +kernel, by decide +kernel⟩, by decide +kernel⟩,
    ⟨running (0x18 + 2 ^ 16), 1023, _, _, rfl, rfl, ⟨by decide +kernel, by decide +kernel, by decide +kernel⟩, by decide +kernel⟩,
    ⟨running (0x19), 1023, _, _, rfl, rfl, ⟨by decide +kernel, by decide +kernel, by decide +kernel⟩⟩,
    ⟨running (0x1A), 1023, _, _, rfl, rfl, ⟨by decide +kernel, by decide +kernel, by decide +kernel⟩⟩,
    ⟨running (0x10 + 3 * 2 ^ 19), 1023, _, _, _, _, _, _, _, _, rfl, rfl, rfl, rfl, rfl, rfl, rfl, ⟨by decide +kernel, by decide +kernel, by decide +kernel⟩,
      by decide +kernel, by decide +kernel, rfl⟩,
    ⟨running (0x11 + 3 * 2 ^ 19), 1023, _, _, _, _, _, _, rfl, rfl, rfl, rfl, rfl, rfl, ⟨by decide +kernel, by decide +kernel, by decide +kernel⟩, by decide +kernel⟩,
    ⟨running (0x02 + 4 * 2 ^ 21), 1023, _, _, _, _, _, _, _, _, rfl, rfl, rfl, rfl, rfl, by decide +kernel, rfl, rfl, ⟨by decide +kernel, by decide +kernel,
      by decide +kernel⟩, by decide +kernel, by decide +kernel, rfl, by decide +kernel⟩,
    ⟨running (0x02 + 9 * 2 ^ 21), 1023, _, _, _, _, _, _, _, _, rfl, rfl, rfl, rfl, rfl, by decide +kernel, rfl, rfl, ⟨by decide +kernel, by decide +kernel,
      by decide +kernel⟩, by decide +kernel, by decide +kernel, rfl, by decide +kernel⟩,
    ⟨running (0x02 + 2 * 2 ^ 21), 1023, _, _, _, _, _, _, _, _, rfl, rfl, rfl, rfl, rfl, by decide +kernel, rfl, rfl, ⟨by decide +kernel, by decide +kernel,
      by decide +kernel⟩, by decide +kernel, by decide +kernel, rfl, by decide +kernel⟩,
    ⟨puts (running (0x21) { staging := ({} : Store Word).set 0 0 (2 ^ 16) }) [(TBC_CHAN_PERM.PERM, 511, 15, 0), (TBC_SHARE.STATIC_CREDITS, 1, 15, 0)], 1023, _, _, _, rfl,
      rfl, rfl, ⟨by decide +kernel, by decide +kernel, by decide +kernel⟩, by decide +kernel⟩,
    ⟨running (0x22) { unread := [[2 ^ 16]] }, 1023, _, _, [2 ^ 16], [], _, rfl, rfl, ⟨by decide +kernel, by decide +kernel, by decide +kernel⟩, by decide +kernel, rfl⟩,
    ⟨running (0x2D) { epend := 1, emask := 1 }, 1023, _, _, rfl, rfl, ⟨by decide +kernel, by decide +kernel, by decide +kernel⟩, by decide +kernel⟩,
    ⟨running (0x2D), 1023, _, _, rfl, rfl, ⟨by decide +kernel, by decide +kernel, by decide +kernel⟩, by decide +kernel⟩,
    ⟨running (0x2C), 1023, _, _, rfl, rfl, ⟨by decide +kernel, by decide +kernel, by decide +kernel⟩, by decide +kernel⟩,
    ⟨running (0x2C + 2 ^ 11) { g := ({} : Store Word).set 0 1 (2 ^ 63) }, 1023, _, _, rfl, rfl, ⟨by decide +kernel, by decide +kernel, by decide +kernel⟩,
      by decide +kernel⟩,
    ⟨running (0x2E), 1023, _, _, rfl, rfl, ⟨by decide +kernel, by decide +kernel, by decide +kernel⟩⟩,
    ⟨running (0x2F), 1023, _, _, rfl, rfl, ⟨by decide +kernel, by decide +kernel, by decide +kernel⟩⟩,
    ⟨puts (running (0x32 + 7 * 2 ^ 16)) [(PMC_USER.CLUSTERS, 0x8000, 0, 0)], 1023, _, _, rfl, rfl, ⟨by decide +kernel, by decide +kernel, by decide +kernel⟩,
      by decide +kernel⟩,
    ⟨running (0x32 + 16 * 2 ^ 16), 1023, _, _, rfl, rfl, ⟨by decide +kernel, by decide +kernel, by decide +kernel⟩, by decide +kernel⟩,
    ⟨running (0x32 + 17 * 2 ^ 16), 1023, _, _, rfl, rfl, ⟨by decide +kernel, by decide +kernel, by decide +kernel⟩, by decide +kernel⟩,
    ⟨running (0x33), 1023, _, _, rfl, rfl, ⟨by decide +kernel, by decide +kernel, by decide +kernel⟩, by decide +kernel⟩,
    ⟨{ running (0x33) with tbe := { (running 0x33).tbe with posted := [⟨1023, 0, []⟩] } }, 1023, _, _, rfl, rfl, ⟨by decide +kernel, by decide +kernel,
      by decide +kernel⟩, by decide +kernel⟩,
    ⟨running (0), 1023, _, _, rfl, rfl, ⟨by decide +kernel, by decide +kernel, by decide +kernel⟩⟩⟩

/-- ChwStages: states and operands that meet the premises of each clause. -/
theorem witness_ChwStages :
    (∃ w, zkind w = .chw) ∧
    (∃ (s : State) (t : Fin 1024) (w : Nat) (x : Thread), w = s.nextWord t ∧ x = s.thread t ∧ Quiet s ∧ x.step = false ∧ s.runs t .chw) :=
  ⟨⟨0x20, by decide +kernel⟩,
    ⟨running (0x20 + 7 * 2 ^ 16), 1023, _, _, rfl, rfl, by unfold Quiet; decide +kernel, by decide +kernel, ⟨by decide +kernel, by decide +kernel, by decide +kernel⟩⟩⟩

/-- TrapRaises: states and operands that meet the premises of each clause. -/
theorem witness_TrapRaises :
    (∃ w, zkind w = .trap) ∧
    (∃ (s : State) (t : Fin 1024) (x : Thread), x = s.thread t ∧ Quiet s ∧ x.step = false ∧ x.inTrap = false ∧ x.tvec ≠ 0 ∧
      Mild s (14 + clusterOf t / 4) (8 * (clusterOf t % 4)) ∧ s.runs t .trap) :=
  ⟨⟨0x30, by decide +kernel⟩,
    ⟨running (0x30 + 65535 * 2 ^ 16) { tvec := 1 }, 1023, _, rfl, by unfold Quiet; decide +kernel, by decide +kernel, by decide +kernel, by decide +kernel,
      by unfold Mild; decide +kernel, ⟨by decide +kernel, by decide +kernel, by decide +kernel⟩⟩⟩

/-- TretEnds: states and operands that meet the premises of each clause. -/
theorem witness_TretEnds :
    (∃ w, zkind w = .tret) ∧
    (∃ (s : State) (t : Fin 1024) (x : Thread), x = s.thread t ∧ Quiet s ∧ x.step = false ∧ s.runs t .tret ∧ x.inTrap) ∧
    (∃ (s : State) (t : Fin 1024) (x : Thread), x = s.thread t ∧ Quiet s ∧ x.step = false ∧ s.runs t .tret ∧ x.inTrap = false ∧ x.tvec ≠ 0 ∧
      Mild s (14 + clusterOf t / 4) (8 * (clusterOf t % 4))) :=
  ⟨⟨0x31, by decide +kernel⟩,
    ⟨running (0x31) { inTrap := true }, 1023, _, rfl, by unfold Quiet; decide +kernel, by decide +kernel, ⟨by decide +kernel, by decide +kernel, by decide +kernel⟩,
      by decide +kernel⟩,
    ⟨running (0x31) { tvec := 1 }, 1023, _, rfl, by unfold Quiet; decide +kernel, by decide +kernel, ⟨by decide +kernel, by decide +kernel, by decide +kernel⟩,
      by unfold Mild; decide +kernel⟩⟩

/-- RegisterResultFrame: states and operands that meet the premises of each clause. -/
theorem witness_RegisterResultFrame :
    (∃ (s : State) (t : Fin 1024) (w : Nat) (x : Thread) (c : Instr) (v : Word), w = s.nextWord t ∧ x = s.thread t ∧ Quiet s ∧ x.step = false ∧ ((s.runs t .alu ∧
      c = .alu t ∧ v = aluResult (zfn w) (x.reg (zrs1 w)) (x.reg (zrs2 w)) ∨ s.runs t .ialu ∧ c = .ialu t ∧
      v = ialuResult (zifn w) (zimm12 w) (x.reg (zrs1 w)) ∨ s.runs t .bfi ∧ c = .bfi t ∧
      v = bfiResult (zifn w) (bits (zimm12 w) 5 0) (bits (zimm12 w) 11 6 + 1) (x.reg (zrs1 w)) (x.reg (zrd w)) ∨ s.runs t .hash ∧ c = .hash t ∧
      v = hashResult (zfn w) (x.reg (zrs1 w)) (x.reg (zrs2 w)) (x.reg (zrd w)) ∨ s.runs t .tread ∧ c = .tread t ∧ v = BitVec.ofNat 64 s.ts64 ∨ s.runs t .srd ∧ c = .srd t ∧
      v = s.srd t x (zrs1 w)))) ∧
    (∃ (s : State) (t : Fin 1024) (w : Nat) (x : Thread) (c : Instr) (v : Word), w = s.nextWord t ∧ x = s.thread t ∧ Quiet s ∧ x.step = false ∧ ((s.runs t .alu ∧
      c = .alu t ∧ v = aluResult (zfn w) (x.reg (zrs1 w)) (x.reg (zrs2 w)) ∨ s.runs t .ialu ∧ c = .ialu t ∧
      v = ialuResult (zifn w) (zimm12 w) (x.reg (zrs1 w)) ∨ s.runs t .bfi ∧ c = .bfi t ∧
      v = bfiResult (zifn w) (bits (zimm12 w) 5 0) (bits (zimm12 w) 11 6 + 1) (x.reg (zrs1 w)) (x.reg (zrd w)) ∨ s.runs t .hash ∧ c = .hash t ∧
      v = hashResult (zfn w) (x.reg (zrs1 w)) (x.reg (zrs2 w)) (x.reg (zrd w)) ∨ s.runs t .tread ∧ c = .tread t ∧ v = BitVec.ofNat 64 s.ts64 ∨ s.runs t .srd ∧ c = .srd t ∧
      v = s.srd t x (zrs1 w)))) ∧
    (∃ (s : State) (t : Fin 1024) (w : Nat) (x : Thread) (c : Instr) (v : Word), w = s.nextWord t ∧ x = s.thread t ∧ Quiet s ∧ x.step = false ∧ ((s.runs t .alu ∧
      c = .alu t ∧ v = aluResult (zfn w) (x.reg (zrs1 w)) (x.reg (zrs2 w)) ∨ s.runs t .ialu ∧ c = .ialu t ∧
      v = ialuResult (zifn w) (zimm12 w) (x.reg (zrs1 w)) ∨ s.runs t .bfi ∧ c = .bfi t ∧
      v = bfiResult (zifn w) (bits (zimm12 w) 5 0) (bits (zimm12 w) 11 6 + 1) (x.reg (zrs1 w)) (x.reg (zrd w)) ∨ s.runs t .hash ∧ c = .hash t ∧
      v = hashResult (zfn w) (x.reg (zrs1 w)) (x.reg (zrs2 w)) (x.reg (zrd w)) ∨ s.runs t .tread ∧ c = .tread t ∧ v = BitVec.ofNat 64 s.ts64 ∨ s.runs t .srd ∧ c = .srd t ∧
      v = s.srd t x (zrs1 w)))) ∧
    (∃ (s : State) (t : Fin 1024) (w : Nat) (x : Thread) (c : Instr) (v : Word), w = s.nextWord t ∧ x = s.thread t ∧ Quiet s ∧ x.step = false ∧ ((s.runs t .alu ∧
      c = .alu t ∧ v = aluResult (zfn w) (x.reg (zrs1 w)) (x.reg (zrs2 w)) ∨ s.runs t .ialu ∧ c = .ialu t ∧
      v = ialuResult (zifn w) (zimm12 w) (x.reg (zrs1 w)) ∨ s.runs t .bfi ∧ c = .bfi t ∧
      v = bfiResult (zifn w) (bits (zimm12 w) 5 0) (bits (zimm12 w) 11 6 + 1) (x.reg (zrs1 w)) (x.reg (zrd w)) ∨ s.runs t .hash ∧ c = .hash t ∧
      v = hashResult (zfn w) (x.reg (zrs1 w)) (x.reg (zrs2 w)) (x.reg (zrd w)) ∨ s.runs t .tread ∧ c = .tread t ∧ v = BitVec.ofNat 64 s.ts64 ∨ s.runs t .srd ∧ c = .srd t ∧
      v = s.srd t x (zrs1 w)))) ∧
    (∃ (s : State) (t : Fin 1024) (w : Nat) (x : Thread) (c : Instr) (v : Word), w = s.nextWord t ∧ x = s.thread t ∧ Quiet s ∧ x.step = false ∧ ((s.runs t .alu ∧
      c = .alu t ∧ v = aluResult (zfn w) (x.reg (zrs1 w)) (x.reg (zrs2 w)) ∨ s.runs t .ialu ∧ c = .ialu t ∧
      v = ialuResult (zifn w) (zimm12 w) (x.reg (zrs1 w)) ∨ s.runs t .bfi ∧ c = .bfi t ∧
      v = bfiResult (zifn w) (bits (zimm12 w) 5 0) (bits (zimm12 w) 11 6 + 1) (x.reg (zrs1 w)) (x.reg (zrd w)) ∨ s.runs t .hash ∧ c = .hash t ∧
      v = hashResult (zfn w) (x.reg (zrs1 w)) (x.reg (zrs2 w)) (x.reg (zrd w)) ∨ s.runs t .tread ∧ c = .tread t ∧ v = BitVec.ofNat 64 s.ts64 ∨ s.runs t .srd ∧ c = .srd t ∧
      v = s.srd t x (zrs1 w)))) ∧
    (∃ (s : State) (t : Fin 1024) (w : Nat) (x : Thread) (c : Instr) (v : Word), w = s.nextWord t ∧ x = s.thread t ∧ Quiet s ∧ x.step = false ∧ ((s.runs t .alu ∧
      c = .alu t ∧ v = aluResult (zfn w) (x.reg (zrs1 w)) (x.reg (zrs2 w)) ∨ s.runs t .ialu ∧ c = .ialu t ∧
      v = ialuResult (zifn w) (zimm12 w) (x.reg (zrs1 w)) ∨ s.runs t .bfi ∧ c = .bfi t ∧
      v = bfiResult (zifn w) (bits (zimm12 w) 5 0) (bits (zimm12 w) 11 6 + 1) (x.reg (zrs1 w)) (x.reg (zrd w)) ∨ s.runs t .hash ∧ c = .hash t ∧
      v = hashResult (zfn w) (x.reg (zrs1 w)) (x.reg (zrs2 w)) (x.reg (zrd w)) ∨ s.runs t .tread ∧ c = .tread t ∧ v = BitVec.ofNat 64 s.ts64 ∨ s.runs t .srd ∧ c = .srd t ∧
      v = s.srd t x (zrs1 w)))) :=
  ⟨⟨running (0x01), 1023, _, _, .alu 1023, _, rfl, rfl, by unfold Quiet; decide +kernel, by decide +kernel, .inl ⟨⟨by decide +kernel, by decide +kernel,
    by decide +kernel⟩, rfl, rfl⟩⟩,
    ⟨running (0x08), 1023, _, _, .ialu 1023, _, rfl, rfl, by unfold Quiet; decide +kernel, by decide +kernel, .inr (.inl ⟨⟨by decide +kernel, by decide +kernel,
      by decide +kernel⟩, rfl, rfl⟩)⟩,
    ⟨running (0x09), 1023, _, _, .bfi 1023, _, rfl, rfl, by unfold Quiet; decide +kernel, by decide +kernel, .inr (.inr (.inl ⟨⟨by decide +kernel, by decide +kernel,
      by decide +kernel⟩, rfl, rfl⟩))⟩,
    ⟨running (0x03), 1023, _, _, .hash 1023, _, rfl, rfl, by unfold Quiet; decide +kernel, by decide +kernel, .inr (.inr (.inr (.inl ⟨⟨by decide +kernel,
      by decide +kernel, by decide +kernel⟩, rfl, rfl⟩)))⟩,
    ⟨running (0x2B), 1023, _, _, .tread 1023, _, rfl, rfl, by unfold Quiet; decide +kernel, by decide +kernel, .inr (.inr (.inr (.inr (.inl ⟨⟨by decide +kernel,
      by decide +kernel, by decide +kernel⟩, rfl, rfl⟩))))⟩,
    ⟨running (0x29 + 13 * 2 ^ 11), 1023, _, _, .srd 1023, _, rfl, rfl, by unfold Quiet; decide +kernel, by decide +kernel,
      .inr (.inr (.inr (.inr (.inr (⟨⟨by decide +kernel, by decide +kernel, by decide +kernel⟩, rfl, rfl⟩)))))⟩⟩

/-- MoviBuildsConstants: states and operands that meet the premises of each clause. -/
theorem witness_MoviBuildsConstants :
    (∃ w, zkind w = .movi) ∧
    (∃ (s : State) (t : Fin 1024) (w hw : Nat) (x : Thread), w = s.nextWord t ∧ hw = bits w 12 11 ∧ x = s.thread t ∧ Quiet s ∧ x.step = false ∧ s.runs t .movi ∧
      zrd w ≠ 0 ∧ bitOf w 13 = false) ∧
    (∃ (s : State) (t : Fin 1024) (w hw : Nat) (x : Thread), ∃ hi lo, w = s.nextWord t ∧ hw = bits w 12 11 ∧ x = s.thread t ∧ Quiet s ∧ x.step = false ∧ s.runs t .movi ∧
      zrd w ≠ 0 ∧ bitOf w 13 ∧ hi < 64 ∧ (hi < 16 * hw ∨ 16 * hw + 15 < lo)) ∧
    (∃ (s : State) (t : Fin 1024) (w hw : Nat) (x : Thread), ∃ hi lo, w = s.nextWord t ∧ hw = bits w 12 11 ∧ x = s.thread t ∧ Quiet s ∧ x.step = false ∧ s.runs t .movi ∧
      zrd w ≠ 0 ∧ bitOf w 13 ∧ hi < 64 ∧ (hi < 16 * hw ∨ 16 * hw + 15 < lo)) ∧
    (∃ (s : State) (t : Fin 1024) (w hw : Nat) (x : Thread), ∃ n, w = s.nextWord t ∧ hw = bits w 12 11 ∧ x = s.thread t ∧ Quiet s ∧ x.step = false ∧ s.runs t .movi ∧
      zrd w ≠ 0 ∧ bitOf w 13 ∧ n ≠ zrd w) :=
  ⟨⟨0x28, by decide +kernel⟩,
    ⟨running (0x28 + 2 ^ 6), 1023, _, _, _, rfl, rfl, rfl, by unfold Quiet; decide +kernel, by decide +kernel, ⟨by decide +kernel, by decide +kernel, by decide +kernel⟩,
      by decide +kernel⟩,
    ⟨running (0x28 + 2 ^ 6 + 2 ^ 13 + 3 * 2 ^ 11), 1023, _, _, _, 47, 0, rfl, rfl, rfl, by unfold Quiet; decide +kernel, by decide +kernel, ⟨by decide +kernel,
      by decide +kernel, by decide +kernel⟩, by decide +kernel⟩,
    ⟨running (0x28 + 2 ^ 6 + 2 ^ 13), 1023, _, _, _, 63, 16, rfl, rfl, rfl, by unfold Quiet; decide +kernel, by decide +kernel, ⟨by decide +kernel, by decide +kernel,
      by decide +kernel⟩, by decide +kernel⟩,
    ⟨running (0x28 + 2 ^ 6 + 2 ^ 13 + 3 * 2 ^ 11), 1023, _, _, _, 2, rfl, rfl, rfl, by unfold Quiet; decide +kernel, by decide +kernel, ⟨by decide +kernel,
      by decide +kernel, by decide +kernel⟩, by decide +kernel⟩⟩

/-- AccessTraps: states and operands that meet the premises of each clause. -/
theorem witness_AccessTraps :
    (∃ (s : State) (t : Fin 1024) (w : Nat) (x : Thread) (a : Word) (n : Nat) (c : Instr) (st : Bool), w = s.nextWord t ∧ x = s.thread t ∧ Quiet s ∧ x.step = false ∧
      x.inTrap = false ∧ x.tvec ≠ 0 ∧ Mild s (14 + clusterOf t / 4) (8 * (clusterOf t % 4)) ∧ a = memAddr w (x.reg (zrs1 w)) ∧ n = 2 ^ bits w 20 19 ∧ ((s.runs t .ld ∧
      c = .ld t ∧ st = false ∨ s.runs t .st ∧ c = .st t ∧ st = true)) ∧ s.inSpace t x (bits w 18 16) a.toNat n st = false) ∧
    (∃ (s : State) (t : Fin 1024) (w : Nat) (x : Thread) (a : Word) (n : Nat) (c : Instr) (st : Bool), w = s.nextWord t ∧ x = s.thread t ∧ Quiet s ∧ x.step = false ∧
      x.inTrap = false ∧ x.tvec ≠ 0 ∧ Mild s (14 + clusterOf t / 4) (8 * (clusterOf t % 4)) ∧ a = memAddr w (x.reg (zrs1 w)) ∧ n = 2 ^ bits w 20 19 ∧ ((s.runs t .ld ∧
      c = .ld t ∧ st = false ∨ s.runs t .st ∧ c = .st t ∧ st = true)) ∧ s.inSpace t x (bits w 18 16) a.toNat n st = false) ∧
    (∃ (s : State) (t : Fin 1024) (w : Nat) (x : Thread) (a : Word) (n : Nat) (c : Instr) (st : Bool), w = s.nextWord t ∧ x = s.thread t ∧ Quiet s ∧ x.step = false ∧
      x.inTrap = false ∧ x.tvec ≠ 0 ∧ Mild s (14 + clusterOf t / 4) (8 * (clusterOf t % 4)) ∧ a = memAddr w (x.reg (zrs1 w)) ∧ n = 2 ^ bits w 20 19 ∧ ((s.runs t .ld ∧
      c = .ld t ∧ st = false ∨ s.runs t .st ∧ c = .st t ∧ st = true)) ∧ s.inSpace t x (bits w 18 16) a.toNat n st ∧ a.toNat % n ≠ 0) ∧
    (∃ (s : State) (t : Fin 1024) (w : Nat) (x : Thread) (a : Word) (n : Nat) (c : Instr) (st : Bool), w = s.nextWord t ∧ x = s.thread t ∧ Quiet s ∧ x.step = false ∧
      x.inTrap = false ∧ x.tvec ≠ 0 ∧ Mild s (14 + clusterOf t / 4) (8 * (clusterOf t % 4)) ∧ a = memAddr w (x.reg (zrs1 w)) ∧ n = 2 ^ bits w 20 19 ∧ ((s.runs t .ld ∧
      c = .ld t ∧ st = false ∨ s.runs t .st ∧ c = .st t ∧ st = true)) ∧ s.inSpace t x (bits w 18 16) a.toNat n st ∧ a.toNat % n ≠ 0) :=
  ⟨⟨running (0x10 + 7 * 2 ^ 16) { tvec := 1 }, 1023, _, _, _, _, .ld 1023, false, rfl, rfl, by unfold Quiet; decide +kernel, by decide +kernel, by decide +kernel,
    by decide +kernel, by unfold Mild; decide +kernel, rfl, rfl, .inl ⟨⟨by decide +kernel, by decide +kernel, by decide +kernel⟩, rfl, rfl⟩, by decide +kernel⟩,
    ⟨running (0x11 + 7 * 2 ^ 16) { tvec := 1 }, 1023, _, _, _, _, .st 1023, true, rfl, rfl, by unfold Quiet; decide +kernel, by decide +kernel, by decide +kernel,
      by decide +kernel, by unfold Mild; decide +kernel, rfl, rfl, .inr (⟨⟨by decide +kernel, by decide +kernel, by decide +kernel⟩, rfl, rfl⟩), by decide +kernel⟩,
    ⟨running (0x10 + 2 ^ 19 + 2 ^ 11) { tvec := 1, g := ({} : Store Word).set 0 1 1 }, 1023, _, _, _, _, .ld 1023, false, rfl, rfl, by unfold Quiet; decide +kernel,
      by decide +kernel, by decide +kernel, by decide +kernel, by unfold Mild; decide +kernel, rfl, rfl, .inl ⟨⟨by decide +kernel, by decide +kernel, by decide +kernel⟩,
      rfl, rfl⟩, by decide +kernel⟩,
    ⟨running (0x11 + 2 ^ 19 + 2 ^ 11) { tvec := 1, g := ({} : Store Word).set 0 1 1 }, 1023, _, _, _, _, .st 1023, true, rfl, rfl, by unfold Quiet; decide +kernel,
      by decide +kernel, by decide +kernel, by decide +kernel, by unfold Mild; decide +kernel, rfl, rfl, .inr (⟨⟨by decide +kernel, by decide +kernel, by decide +kernel⟩,
      rfl, rfl⟩), by decide +kernel⟩⟩

/-- HostQueueCommandsComplete: states and operands that meet the premises of each clause. -/
theorem witness_HostQueueCommandsComplete :
    (∃ (s : State) (f : Fin 2080) (q page : Nat) (w : Word) (g : Nat) (x : QueuePair), ∃ t h y r n step, g = s.globalQueue f q ∧ x = s.pair g ∧ s.isNvmeFn f = false ∧
      s.hostReaches f ∧ t = s.hostTlp f ∧ h = t.globalQueue f q ∧ y = t.pair h ∧ page < doorbellPages f ∧ getBits w 27 16 = q ∧ r = getBits w 29 28 ∧ n = getBits w 15 0 ∧
      getBits w 63 31 = 0 ∧ q < t.qpCount f ∧ getBits y.cfg 24 16 = page ∧ y.state = ACTIVE ∧ step = (n + 65536 - y.C r) % 65536 ∧ r < 2 ∧ y.used r ≤ step ∧
      step ≤ y.size r) ∧
    (∃ (s : State) (f : Fin 2080) (q page : Nat) (w : Word) (g : Nat) (x : QueuePair), ∃ t h y r n step, g = s.globalQueue f q ∧ x = s.pair g ∧ s.isNvmeFn f = false ∧
      s.hostReaches f ∧ t = s.hostTlp f ∧ h = t.globalQueue f q ∧ y = t.pair h ∧ page < doorbellPages f ∧ getBits w 27 16 = q ∧ r = getBits w 29 28 ∧ n = getBits w 15 0 ∧
      getBits w 63 31 = 0 ∧ q < t.qpCount f ∧ getBits y.cfg 24 16 = page ∧ y.state = ACTIVE ∧ step = (n + 65536 - y.C r) % 65536 ∧ r < 2 ∧ y.used r ≤ step ∧
      step ≤ y.size r) ∧
    (∃ (s : State) (f : Fin 2080) (q page : Nat) (w : Word) (g : Nat) (x : QueuePair), ∃ t h y r n step, g = s.globalQueue f q ∧ x = s.pair g ∧ s.isNvmeFn f = false ∧
      s.hostReaches f ∧ t = s.hostTlp f ∧ h = t.globalQueue f q ∧ y = t.pair h ∧ page < doorbellPages f ∧ getBits w 27 16 = q ∧ r = getBits w 29 28 ∧ n = getBits w 15 0 ∧
      getBits w 63 31 = 0 ∧ q < t.qpCount f ∧ getBits y.cfg 24 16 = page ∧ y.state = ACTIVE ∧ step = (n + 65536 - y.C r) % 65536 ∧ r < 2 ∧
      (step < y.used r ∨ y.size r < step)) ∧
    (∃ (s : State) (f : Fin 2080) (q page : Nat) (w : Word) (g : Nat) (x : QueuePair), ∃ t h y r n step, g = s.globalQueue f q ∧ x = s.pair g ∧ s.isNvmeFn f = false ∧
      s.hostReaches f ∧ t = s.hostTlp f ∧ h = t.globalQueue f q ∧ y = t.pair h ∧ page < doorbellPages f ∧ getBits w 27 16 = q ∧ r = getBits w 29 28 ∧ n = getBits w 15 0 ∧
      getBits w 63 31 = 0 ∧ q < t.qpCount f ∧ getBits y.cfg 24 16 = page ∧ y.state = ACTIVE ∧ step = (n + 65536 - y.C r) % 65536 ∧ 2 ≤ r ∧ step ≤ y.used r) ∧
    (∃ (s : State) (f : Fin 2080) (q page : Nat) (w : Word) (g : Nat) (x : QueuePair), ∃ t h y r n step, g = s.globalQueue f q ∧ x = s.pair g ∧ s.isNvmeFn f = false ∧
      s.hostReaches f ∧ t = s.hostTlp f ∧ h = t.globalQueue f q ∧ y = t.pair h ∧ page < doorbellPages f ∧ getBits w 27 16 = q ∧ r = getBits w 29 28 ∧ n = getBits w 15 0 ∧
      getBits w 63 31 = 0 ∧ q < t.qpCount f ∧ getBits y.cfg 24 16 = page ∧ y.state = ACTIVE ∧ step = (n + 65536 - y.C r) % 65536 ∧ 2 ≤ r ∧ y.used r < step) ∧
    (∃ (s : State) (f : Fin 2080) (q page : Nat) (g : Nat) (x : QueuePair), ∃ bytes aligned, g = s.globalQueue f q ∧ x = s.pair g ∧ s.isNvmeFn f = false ∧
      s.hostReaches f ∧ page < doorbellPages f ∧ (bytes ≠ 8 ∨ aligned = false)) ∧
    (∃ (s : State) (f : Fin 2080) (q page : Nat) (g : Nat) (x : QueuePair), ∃ bytes aligned, g = s.globalQueue f q ∧ x = s.pair g ∧ s.isNvmeFn f = false ∧
      s.hostReaches f ∧ page < doorbellPages f ∧ (bytes ≠ 8 ∨ aligned = false)) ∧
    (∃ (s : State) (f : Fin 2080) (q : Nat) (g : Nat) (x : QueuePair), ∃ l, ∃ t, ∃ r, g = s.globalQueue f q ∧ x = s.pair g ∧ s.linkOf f = some l ∧ s.mode ≠ DUSK ∧
      s.isSarup g = false ∧ s.nextFetch l = some (f.val, q) ∧ s.readPending f (· == .txDescriptors f q) = false ∧
      (t = (s.onLink l fun k => { k with lastFn := f }).onFn f (fun x => { x with lastQueue := q })) ∧ cplError r = none) ∧
    (∃ (s : State) (f : Fin 2080) (q : Nat) (g : Nat) (x : QueuePair), ∃ l, ∃ t, ∃ r e, g = s.globalQueue f q ∧ x = s.pair g ∧ s.linkOf f = some l ∧ s.mode ≠ DUSK ∧
      s.isSarup g = false ∧ s.nextFetch l = some (f.val, q) ∧ s.readPending f (· == .txDescriptors f q) = false ∧
      (t = (s.onLink l fun k => { k with lastFn := f }).onFn f (fun x => { x with lastQueue := q })) ∧ cplError r = some e) ∧
    (∃ (s : State) (f : Fin 2080) (q : Nat) (g : Nat) (x : QueuePair), ∃ t, g = s.globalQueue f q ∧ x = s.pair g ∧ q < s.qpCount f ∧ s.releaseChain f g = some t) ∧
    (∃ (s : State) (f : Fin 2080) (q : Nat) (g : Nat) (x : QueuePair), ∃ t rest, g = s.globalQueue f q ∧ x = s.pair g ∧ q < s.qpCount f ∧ x.rxIrq.times = t :: rest ∧
      x.rxIrq.armed ∧ getBits x.irq 41 32 ≠ 0 ∧ t + ofUs (getBits x.irq 41 32) ≤ s.now ∧ s.mode ≠ MIDNIGHT) ∧
    (∃ (s : State) (f : Fin 2080) (q : Nat) (w : Word) (g : Nat) (x : QueuePair), g = s.globalQueue f q ∧ x = s.pair g ∧ s.mode ≠ NIGHT ∧ q = s.fld FNC_Q_SEL.QUEUE f ∧
      q < s.qpCount f ∧ getBits w 1 1 = 0 ∧ getBits w 0 0 = 1 ∧ x.state = DISABLED) ∧
    (∃ (s : State) (f : Fin 2080) (q : Nat) (w : Word) (g : Nat) (x : QueuePair), g = s.globalQueue f q ∧ x = s.pair g ∧ s.mode ≠ NIGHT ∧ q = s.fld FNC_Q_SEL.QUEUE f ∧
      q < s.qpCount f ∧ getBits w 1 1 = 0 ∧ getBits w 0 0 = 1 ∧ x.state ≠ DISABLED) ∧
    (∃ (s : State) (f : Fin 2080) (q : Nat) (w : Word) (g : Nat) (x : QueuePair), g = s.globalQueue f q ∧ x = s.pair g ∧ s.mode ≠ NIGHT ∧ q = s.fld FNC_Q_SEL.QUEUE f ∧
      q < s.qpCount f ∧ getBits w 1 1 = 0 ∧ getBits w 0 0 = 0 ∧ x.state = ACTIVE) ∧
    (∃ (s : State) (f : Fin 2080) (q : Nat) (g : Nat) (x : QueuePair), g = s.globalQueue f q ∧ x = s.pair g ∧ q < s.qpCount f ∧ x.state = STOPPING ∧ (∀ c ∈ x.chains,
      c.left = 0)) ∧
    (∃ (s : State) (f : Fin 2080) (q : Nat) (w : Word) (g : Nat) (x : QueuePair), g = s.globalQueue f q ∧ x = s.pair g ∧ s.mode ≠ NIGHT ∧ wfld w FNC_RES_CTL.REFUSED = 0 ∧
      wfld w FNC_RES_CTL.VALID = 1 ∧ s.resRefused f = false) ∧
    (∃ (s : State) (f : Fin 2080) (q : Nat) (w : Word) (g : Nat) (x : QueuePair), g = s.globalQueue f q ∧ x = s.pair g ∧ s.mode ≠ NIGHT ∧ wfld w FNC_RES_CTL.REFUSED = 0 ∧
      wfld w FNC_RES_CTL.VALID = 1 ∧ s.isSet FNC_RES_CTL.VALID f = false ∧ s.resRefused f) ∧
    (∃ (s : State) (f : Fin 2080) (q : Nat) (w : Word) (g : Nat) (x : QueuePair), g = s.globalQueue f q ∧ x = s.pair g ∧ s.mode ≠ NIGHT ∧ wfld w FNC_RES_CTL.REFUSED = 0 ∧
      wfld w FNC_RES_CTL.VALID = 0 ∧ s.isSet FNC_RES_CTL.VALID f ∧ s.queueBusy f) ∧
    (∃ (s : State) (f : Fin 2080) (q : Nat) (w : Word) (g : Nat) (x : QueuePair), g = s.globalQueue f q ∧ x = s.pair g ∧ s.mode ≠ NIGHT ∧ wfld w FNC_RES_CTL.REFUSED = 0 ∧
      wfld w FNC_RES_CTL.VALID = 0 ∧ s.queueBusy f = false) :=
  ⟨⟨hosted (lastPage ACTIVE), 30, 0, 271, 64, _, _, _, _, _, _, _, _, rfl, rfl, by decide +kernel, by decide +kernel, rfl, rfl, rfl, by decide +kernel, by decide +kernel,
    rfl, rfl, by decide +kernel, by decide +kernel, by decide +kernel, by decide +kernel, rfl, by decide +kernel⟩,
    ⟨hosted (lastPage ACTIVE), 30, 0, 271, 0, _, _, _, _, _, _, _, _, rfl, rfl, by decide +kernel, by decide +kernel, rfl, rfl, rfl, by decide +kernel, by decide +kernel,
      rfl, rfl, by decide +kernel, by decide +kernel, by decide +kernel, by decide +kernel, rfl, by decide +kernel⟩,
    ⟨hosted (lastPage ACTIVE), 30, 0, 271, 65, _, _, _, _, _, _, _, _, rfl, rfl, by decide +kernel, by decide +kernel, rfl, rfl, rfl, by decide +kernel,
      by decide +kernel, rfl, rfl, by decide +kernel, by decide +kernel, by decide +kernel, by decide +kernel, rfl, by decide +kernel⟩,
    ⟨hosted (lastPage ACTIVE), 30, 0, 271, BitVec.ofNat 64 (3 * 2 ^ 28), _, _, _, _, _, _, _, _, rfl, rfl, by decide +kernel, by decide +kernel, rfl, rfl, rfl,
      by decide +kernel, by decide +kernel, rfl, rfl, by decide +kernel, by decide +kernel, by decide +kernel, by decide +kernel, rfl, by decide +kernel⟩,
    ⟨hosted (lastPage ACTIVE), 30, 0, 271, BitVec.ofNat 64 (3 * 2 ^ 28 + 1), _, _, _, _, _, _, _, _, rfl, rfl, by decide +kernel, by decide +kernel, rfl, rfl, rfl,
      by decide +kernel, by decide +kernel, rfl, rfl, by decide +kernel, by decide +kernel, by decide +kernel, by decide +kernel, rfl, by decide +kernel⟩,
    ⟨hosted ({}), 30, 0, 271, _, _, 4, true, rfl, rfl, by decide +kernel⟩,
    ⟨hosted ({}), 30, 0, 271, _, _, 8, false, rfl, rfl, by decide +kernel⟩,
    ⟨hosted ({ (lastPage ACTIVE) with prod := ({} : Store Nat).set 0 0 1 }), 30, 0, _, _, 15, _, .success, rfl, rfl, by decide +kernel, by decide +kernel,
      by decide +kernel, by decide +kernel, by decide +kernel, rfl, by decide +kernel⟩,
    ⟨hosted ({ (lastPage ACTIVE) with prod := ({} : Store Nat).set 0 0 1 }), 30, 0, _, _, 15, _, .abort, .completerAbort, rfl, rfl, by decide +kernel, by decide +kernel,
      by decide +kernel, by decide +kernel, by decide +kernel, rfl, by decide +kernel⟩,
    ⟨hosted ({ chains := [{ id := 0, index := 0, slots := 1, cookie := 0, len := 0, cqe := false, left := 0 }] }), 30, 0, _, _,
      (hosted ({ chains := [{ id := 0, index := 0, slots := 1, cookie := 0, len := 0, cqe := false, left := 0 }] })).onPair 0 fun q => { q with chains := [] }, rfl, rfl,
      by decide +kernel, rfl⟩,
    ⟨late (hosted ({ irq := BitVec.ofNat 64 (2 ^ 32), rxIrq := { armed := true, times := [0] } })), 30, 0, _, _, 0, [], rfl, rfl, by decide +kernel⟩,
    ⟨hosted ({}), 30, 0, 1, _, _, rfl, rfl, by decide +kernel⟩,
    ⟨hosted (lastPage ACTIVE), 30, 0, 1, _, _, rfl, rfl, by decide +kernel⟩,
    ⟨hosted (lastPage ACTIVE), 30, 0, 0, _, _, rfl, rfl, by decide +kernel⟩,
    ⟨hosted ({ state := STOPPING }), 30, 0, _, _, rfl, rfl, by decide +kernel⟩,
    ⟨hosted ({}), 30, 0, BitVec.ofNat 64 (2 ^ FNC_RES_CTL.VALID.lo), _, _, rfl, rfl, by decide +kernel⟩,
    ⟨puts (hosted {}) [(FNC_RES_QP.QP_COUNT, 4097, 30, 0), (FNC_RES_CTL.VALID, 0, 30, 0)], 30, 0, BitVec.ofNat 64 (2 ^ FNC_RES_CTL.VALID.lo), _, _, rfl, rfl,
      by decide +kernel⟩,
    ⟨hosted (lastPage ACTIVE), 30, 0, 0, _, _, rfl, rfl, by decide +kernel⟩,
    ⟨hosted ({}), 30, 0, 0, _, _, rfl, rfl, by decide +kernel⟩⟩

/-- HostLinkCommandsComplete: states and operands that meet the premises of each clause. -/
theorem witness_HostLinkCommandsComplete :
    (∃ (s : State) (l : Fin 16), ∃ u, (u = s.onLink l (fun k => { k with perst := false })) ∧ u.linkExists l ∧ u.linksRun ∧ (u.hlink l).heldDetect = false) ∧
    (∃ (s : State) (l : Fin 16), s.linkExists l ∧ s.linksRun ∧ (s.hlink l).perst = false ∧ (s.hlink l).heldDetect = false ∧ s.trainLanes l ≠ 0) ∧
    (∃ (s : State) (l : Fin 16), ∃ e a, s.isSet HL_LINK_STATUS.UP l ∧ linkErrorAer e = some a) ∧
    (∃ (s : State) (f : Fin 2080), f.val < 32 ∧ s.fnPresent f ∧ s.fnInReset f = false) ∧
    (∃ (s : State) (f : Fin 2080), 32 ≤ f.val ∧ s.fnPresent f ∧ s.fnInReset f = false) ∧
    (∃ (s : State) (f : Fin 2080), ∃ k p, s.linkOf f = some k ∧ s.pfOf f = some p ∧ 32 ≤ f.val ∧ (s.pcie f).flr.isSome ∧ (s.pcie p).flr = none ∧ s.drainedFn f) ∧
    (∃ (s : State) (pf : Fin 32) (n : Nat), s.isSet HL_LINK_STATUS.UP (pf.val / 2) ∧ s.vfEnabled pf = false ∧ n ≤ s.vfCeiling pf ∧ s.mode ≠ DAWN ∧ s.mode ≠ TWILIGHT ∧
      s.fnInReset pf = false) ∧
    (∃ (s : State) (pf : Fin 32) (n : Nat), ∃ gone, s.isSet HL_LINK_STATUS.UP (pf.val / 2) ∧ n ≤ s.vfCeiling pf ∧ s.fnInReset pf = false ∧ gone = s.enabledVfs pf) ∧
    (∃ (s : State) (f : Fin 2080), ∃ k, s.linkOf f = some k ∧ (s.pcie f).busMaster) ∧
    (∃ (s : State) (f : Fin 2080), ∃ k, s.linkOf f = some k ∧ s.fnPresent f ∧ s.fnInReset f = false) ∧
    (∃ (s : State) (f : Fin 2080), ∃ k, ∃ (e : Fin 20), ∃ a, s.linkOf f = some k ∧ s.fnPresent f ∧ s.fnInReset f = false ∧ aerErrors[e.val]? = some a) ∧
    (∃ (s : State) (l : Fin 16) (tag : Nat), ∃ r, ∃ u, ((s.hlink l).reads.find? (fun r => r.tag == tag) = some r) ∧ s.up ≥ r.issued + s.cplTimeout l ∧
      (u = (s.onLink l fun k => { k with reads := k.reads.filter fun x => x.tag != tag, void := k.void ++ [(tag, s.up)] }).bump .HL_STAT l 4) ∧
      (u.pcie r.fn).flr = none) ∧
    (∃ (s : State) (l : Fin 16) (tag : Nat), ∃ r, ∃ u, ((s.hlink l).reads.find? (fun r => r.tag == tag) = some r) ∧ s.up ≥ r.issued + s.cplTimeout l ∧
      (u = (s.onLink l fun k => { k with reads := k.reads.filter fun x => x.tag != tag, void := k.void ++ [(tag, s.up)] }).bump .HL_STAT l 4) ∧
      (u.pcie r.fn).flr.isSome) ∧
    (∃ (s : State) (l : Fin 16) (tag : Nat), ((s.hlink l).void.any (fun v => v.1 == tag))) ∧
    (∃ (s : State) (l : Fin 16) (tag : Nat), ∃ st r, ((s.hlink l).void.any (fun v => v.1 == tag) = false) ∧ ((s.hlink l).reads.find? (fun r => r.tag == tag) = some r) ∧
      (s.pcie r.fn).busMaster ∧ (s.pcie r.fn).flr = none ∧ cplError st = none) ∧
    (∃ (s : State) (l : Fin 16) (tag : Nat), ∃ v, ((s.hlink l).void.find? (fun v => v.1 == tag) = some v) ∧ v.2 + s.cplTimeout l ≤ s.up) ∧
    (∃ (s : State) (l : Fin 16), ∃ slot : Fin 4, bits (s.fld HL_IDE_STATUS.STATE l) (2 * slot + 1) (2 * slot) ≠ 0) :=
  ⟨⟨linked { perst := true }, 15, _, rfl, by decide +kernel⟩,
    ⟨linked {}, 15, by decide +kernel⟩,
    ⟨linked {}, 15, .receiver, .receiver, by decide +kernel⟩,
    ⟨linked {}, 30, by decide +kernel⟩,
    ⟨withVf {}, 32, by decide +kernel⟩,
    ⟨withVf { flr := some 0 }, 32, 0, 0, by decide +kernel⟩,
    ⟨puts (withVf {}) [(HL_SRIOV_STATUS.VFE_NET, 0, 0, 0)], 0, 1, by decide +kernel⟩,
    ⟨withVf {}, 0, 1, _, by decide +kernel, by decide +kernel, by decide +kernel, rfl⟩,
    ⟨hosted {}, 30, 15, by decide +kernel⟩,
    ⟨hosted {}, 30, 15, by decide +kernel⟩,
    ⟨hosted {}, 30, 15, 19, .ideMisrouted, by decide +kernel⟩,
    ⟨late (linked { reads := [{ tag := 0, fn := 30, use := .txDescriptors 30 0, issued := 0 }] }), 15, 0, { tag := 0, fn := 30, use := .txDescriptors 30 0, issued := 0 },
      _, by decide +kernel, by decide +kernel, rfl, by decide +kernel⟩,
    ⟨late ({ (linked { reads := [{ tag := 0, fn := 30, use := .txDescriptors 30 0, issued := 0 }] }) with hl.fns := day.hl.fns.set {} 30 { busMaster := true, flr := some 0 } }),
      15, 0, { tag := 0, fn := 30, use := .txDescriptors 30 0, issued := 0 }, _, by decide +kernel, by decide +kernel, rfl, by decide +kernel⟩,
    ⟨linked { void := [(0, 0)] }, 15, 0, by decide +kernel⟩,
    ⟨linked { reads := [{ tag := 0, fn := 30, use := .txDescriptors 30 0, issued := 0 }] }, 15, 0, .success,
      { tag := 0, fn := 30, use := .txDescriptors 30 0, issued := 0 }, by decide +kernel⟩,
    ⟨late (linked { void := [(0, 0)] }), 15, 0, (0, 0), by decide +kernel⟩,
    ⟨puts (linked {}) [(HL_IDE_STATUS.STATE, 3 * 2 ^ 6, 15, 0)], 15, 3, by decide +kernel⟩⟩

/-- HostAccessesComplete: states and operands that meet the premises of each clause. -/
theorem witness_HostAccessesComplete :
    (∃ (s : State) (l : Fin 16) (f : Fin 2080) (bar : Nat) (sec : Bool) (t : State), s.mode ≠ NIGHT ∧ s.isSet HL_LINK_STATUS.UP l ∧
      t = (s.bump .HL_STAT l 0).devEvent 0x30A ∧ (t.isSet HL_LINK_CTL.IDE_REQ l = false ∨ sec) ∧ t.takesMemory l f ∧ t.hasBar f bar) ∧
    (∃ (s : State) (l : Fin 16) (f : Fin 2080) (bar : Nat) (sec : Bool) (t : State), s.mode ≠ NIGHT ∧ s.isSet HL_LINK_STATUS.UP l ∧
      t = (s.bump .HL_STAT l 0).devEvent 0x30A ∧ (t.isSet HL_LINK_CTL.IDE_REQ l = false ∨ sec) ∧ t.takesMemory l f ∧ t.hasBar f bar) ∧
    (∃ (s : State) (l : Fin 16) (f : Fin 2080) (bar : Nat) (sec : Bool) (t : State), s.mode ≠ NIGHT ∧ s.isSet HL_LINK_STATUS.UP l ∧
      t = (s.bump .HL_STAT l 0).devEvent 0x30A ∧ (t.isSet HL_LINK_CTL.IDE_REQ l = false ∨ sec) ∧ (t.takesMemory l f = false ∨ t.hasBar f bar = false)) ∧
    (∃ (s : State) (l : Fin 16) (f : Fin 2080) (bar : Nat) (sec : Bool) (t : State), s.mode ≠ NIGHT ∧ s.isSet HL_LINK_STATUS.UP l ∧
      t = (s.bump .HL_STAT l 0).devEvent 0x30A ∧ (t.isSet HL_LINK_CTL.IDE_REQ l = false ∨ sec) ∧ (t.takesMemory l f = false ∨ t.hasBar f bar = false)) ∧
    (∃ (s : State) (l : Fin 16) (sec : Bool) (t : State), s.mode ≠ NIGHT ∧ s.isSet HL_LINK_STATUS.UP l ∧ t = (s.bump .HL_STAT l 0).devEvent 0x30A ∧
      t.isSet HL_LINK_CTL.IDE_REQ l ∧ sec = false) ∧
    (∃ (s : State) (t : State), ∃ k, s.mode ≠ NIGHT ∧ s.mgrLink = some k ∧ s.isSet HL_LINK_STATUS.UP k ∧ t = (s.bump .HL_STAT k 0).devEvent 0x30A ∧
      t.takesMemory k (2 * k)) ∧
    (∃ (s : State), ∃ h : Fin 24, s.mode ≠ NIGHT ∧ s.isSet SEC_LIFECYCLE.DEBUG_OPEN ∧ s.coresRun (h / 8) ∧ bitOf (s.fld GLB_CC_STATUS.DEBUG) h = false) ∧
    (∃ (s : State), s.mode ≠ NIGHT ∧ s.isSet SEC_LIFECYCLE.DEBUG_OPEN = false ∧ s.isSet SEC_TRIGGER.DEBUG_EN) ∧
    (∃ (s : State) (pf : Fin 32), s.mode ≠ NIGHT ∧ s.doeRuns pf) :=
  ⟨⟨hosted {}, 15, 30, 0, false, _, by decide +kernel, by decide +kernel, rfl, by decide +kernel⟩,
    ⟨puts (hosted {}) [(HL_LINK_CTL.IDE_REQ, 1, 15, 0)], 15, 30, 0, true, _, by decide +kernel, by decide +kernel, rfl, by decide +kernel⟩,
    ⟨hosted {}, 15, 30, 2, false, _, by decide +kernel, by decide +kernel, rfl, by decide +kernel⟩,
    ⟨hosted {}, 15, 31, 0, false, _, by decide +kernel, by decide +kernel, rfl, by decide +kernel⟩,
    ⟨puts (hosted {}) [(HL_LINK_CTL.IDE_REQ, 1, 15, 0)], 15, false, _, by decide +kernel, by decide +kernel, rfl, by decide +kernel⟩,
    ⟨puts (hosted {}) [(GLB_STRAPS.MGR_LINK, 15, 0, 0)], _, 15, by decide +kernel, by decide +kernel, by decide +kernel, rfl, by decide +kernel⟩,
    ⟨puts day [(SEC_LIFECYCLE.DEBUG_OPEN, 1, 0, 0), (GLB_CC_CTL.RUN, 2, 0, 0)], 23, by decide +kernel⟩,
    ⟨puts day [(SEC_TRIGGER.DEBUG_EN, 1, 0, 0)], by decide +kernel⟩,
    ⟨hosted {}, 31, by decide +kernel⟩⟩

/-- SarupCommandsComplete: states and operands that meet the premises of each clause. -/
theorem witness_SarupCommandsComplete :
    (∃ (s : State) (w : Word) (i : Nat), ∃ f k, i = wfld w XPT_CMD.INDEX ∧ s.mode ≠ NIGHT ∧ s.isSet XPT_CMD_STATUS.BUSY = false ∧ wfld w XPT_CMD.OP = 1 ∧ i < 262144 ∧
      s.connState i = cIdle ∧ s.queueOwner (bits (s.xptData 0) 28 14) = some (f, k) ∧ s.isSarup (bits (s.xptData 0) 28 14) ∧ s.ownsConn f i) ∧
    (∃ (s : State) (w : Word) (i : Nat), i = wfld w XPT_CMD.INDEX ∧ s.mode ≠ NIGHT ∧ s.isSet XPT_CMD_STATUS.BUSY = false ∧ wfld w XPT_CMD.OP = 2 ∧ i < 262144) ∧
    (∃ (s : State) (w : Word) (i : Nat), i = wfld w XPT_CMD.INDEX ∧ s.mode ≠ NIGHT ∧ s.isSet XPT_CMD_STATUS.BUSY = false ∧ wfld w XPT_CMD.OP = 3 ∧ i < 262144) ∧
    (∃ (s : State) (w : Word) (i : Nat), i = wfld w XPT_CMD.INDEX ∧ s.mode ≠ NIGHT ∧ s.isSet XPT_CMD_STATUS.BUSY = false ∧ wfld w XPT_CMD.OP = 4 ∧ s.winEn i = false) ∧
    (∃ (s : State) (w : Word) (i : Nat), i = wfld w XPT_CMD.INDEX ∧ s.mode ≠ NIGHT ∧ s.isSet XPT_CMD_STATUS.BUSY = false ∧ wfld w XPT_CMD.OP = 5) ∧
    (∃ (s : State) (w : Word) (i : Nat), i = wfld w XPT_CMD.INDEX ∧ s.mode ≠ NIGHT ∧ s.isSet XPT_CMD_STATUS.BUSY = false ∧ wfld w XPT_CMD.OP = 6 ∧ s.winEn i) ∧
    (∃ (s : State) (w : Word) (i : Nat), ∃ g : Fin 32768, i = wfld w XPT_CMD.INDEX ∧ s.mode ≠ NIGHT ∧ (s.pair g).state = DISABLED) ∧
    (∃ (s : State) (w : Word) (i : Nat), ∃ (op : Nat) (q : SarupQueue) (reply : Option CplStatus) (u : State), i = wfld w XPT_CMD.INDEX ∧ s.xptRuns ∧ s.mode ≠ DUSK ∧
      ((∃ (f : Fin 2080) (k l : Nat) (v : WorkReq) (n : Nat) (t : State), q = .host f k ∧ s.linkOf f = some l ∧ s.wrAt f (s.globalQueue f k) = some (v, n) ∧ v.op = op ∧
      s.isSarup (s.globalQueue f k) ∧ s.nextFetch l = some (f.val, k) ∧ s.readPending f (· == .txDescriptors f k) = false ∧
      t = ((s.onLink l fun x => { x with lastFn := f }).onFn f fun x => { x with lastQueue := k }) ∧ (reply = none ∧
      u = (t.issueRead f (.txDescriptors f k)).settle ∨ ∃ r, reply = some r ∧ cplError r = none ∧
      u = (t.sarupFetch f k).settle)) ∨ (∃ (e : Fin 1024) (m : Msg) (rest : List Msg) (g f k : Nat) (t : State), q = .engine e ∧ s.xpt.posted.get [] e = m :: rest ∧
      s.engineQueue e = some g ∧ s.queueOwner g = some (f, k) ∧ m.work.op = op ∧ t = s.onXpt (fun x => { x with posted := x.posted.set [] e rest }) ∧
      (t.pair g).state = ACTIVE ∧ t.wrBad f g m.work = false ∧ u = (t.runWork f g m.work (t.wrChain g m.work 0 0 (some m))).settle)) ∧ op = 0) ∧
    (∃ (s : State) (w : Word) (i : Nat), ∃ (op : Nat) (q : SarupQueue) (reply : Option CplStatus) (u : State), i = wfld w XPT_CMD.INDEX ∧ s.xptRuns ∧ s.mode ≠ DUSK ∧
      ((∃ (f : Fin 2080) (k l : Nat) (v : WorkReq) (n : Nat) (t : State), q = .host f k ∧ s.linkOf f = some l ∧ s.wrAt f (s.globalQueue f k) = some (v, n) ∧ v.op = op ∧
      s.isSarup (s.globalQueue f k) ∧ s.nextFetch l = some (f.val, k) ∧ s.readPending f (· == .txDescriptors f k) = false ∧
      t = ((s.onLink l fun x => { x with lastFn := f }).onFn f fun x => { x with lastQueue := k }) ∧ (reply = none ∧
      u = (t.issueRead f (.txDescriptors f k)).settle ∨ ∃ r, reply = some r ∧ cplError r = none ∧
      u = (t.sarupFetch f k).settle)) ∨ (∃ (e : Fin 1024) (m : Msg) (rest : List Msg) (g f k : Nat) (t : State), q = .engine e ∧ s.xpt.posted.get [] e = m :: rest ∧
      s.engineQueue e = some g ∧ s.queueOwner g = some (f, k) ∧ m.work.op = op ∧ t = s.onXpt (fun x => { x with posted := x.posted.set [] e rest }) ∧
      (t.pair g).state = ACTIVE ∧ t.wrBad f g m.work = false ∧ u = (t.runWork f g m.work (t.wrChain g m.work 0 0 (some m))).settle)) ∧ op = 1) ∧
    (∃ (s : State) (w : Word) (i : Nat), ∃ (op : Nat) (q : SarupQueue) (reply : Option CplStatus) (u : State), i = wfld w XPT_CMD.INDEX ∧ s.xptRuns ∧ s.mode ≠ DUSK ∧
      ((∃ (f : Fin 2080) (k l : Nat) (v : WorkReq) (n : Nat) (t : State), q = .host f k ∧ s.linkOf f = some l ∧ s.wrAt f (s.globalQueue f k) = some (v, n) ∧ v.op = op ∧
      s.isSarup (s.globalQueue f k) ∧ s.nextFetch l = some (f.val, k) ∧ s.readPending f (· == .txDescriptors f k) = false ∧
      t = ((s.onLink l fun x => { x with lastFn := f }).onFn f fun x => { x with lastQueue := k }) ∧ (reply = none ∧
      u = (t.issueRead f (.txDescriptors f k)).settle ∨ ∃ r, reply = some r ∧ cplError r = none ∧
      u = (t.sarupFetch f k).settle)) ∨ (∃ (e : Fin 1024) (m : Msg) (rest : List Msg) (g f k : Nat) (t : State), q = .engine e ∧ s.xpt.posted.get [] e = m :: rest ∧
      s.engineQueue e = some g ∧ s.queueOwner g = some (f, k) ∧ m.work.op = op ∧ t = s.onXpt (fun x => { x with posted := x.posted.set [] e rest }) ∧
      (t.pair g).state = ACTIVE ∧ t.wrBad f g m.work = false ∧ u = (t.runWork f g m.work (t.wrChain g m.work 0 0 (some m))).settle)) ∧ op = 2) ∧
    (∃ (s : State) (w : Word) (i : Nat), ∃ (op : Nat) (q : SarupQueue) (reply : Option CplStatus) (u : State), i = wfld w XPT_CMD.INDEX ∧ s.xptRuns ∧ s.mode ≠ DUSK ∧
      ((∃ (f : Fin 2080) (k l : Nat) (v : WorkReq) (n : Nat) (t : State), q = .host f k ∧ s.linkOf f = some l ∧ s.wrAt f (s.globalQueue f k) = some (v, n) ∧ v.op = op ∧
      s.isSarup (s.globalQueue f k) ∧ s.nextFetch l = some (f.val, k) ∧ s.readPending f (· == .txDescriptors f k) = false ∧
      t = ((s.onLink l fun x => { x with lastFn := f }).onFn f fun x => { x with lastQueue := k }) ∧ (reply = none ∧
      u = (t.issueRead f (.txDescriptors f k)).settle ∨ ∃ r, reply = some r ∧ cplError r = none ∧
      u = (t.sarupFetch f k).settle)) ∨ (∃ (e : Fin 1024) (m : Msg) (rest : List Msg) (g f k : Nat) (t : State), q = .engine e ∧ s.xpt.posted.get [] e = m :: rest ∧
      s.engineQueue e = some g ∧ s.queueOwner g = some (f, k) ∧ m.work.op = op ∧ t = s.onXpt (fun x => { x with posted := x.posted.set [] e rest }) ∧
      (t.pair g).state = ACTIVE ∧ t.wrBad f g m.work = false ∧ u = (t.runWork f g m.work (t.wrChain g m.work 0 0 (some m))).settle)) ∧ op = 2) ∧
    (∃ (s : State) (w : Word) (i : Nat), ∃ (op : Nat) (q : SarupQueue) (reply : Option CplStatus) (u : State), i = wfld w XPT_CMD.INDEX ∧ s.xptRuns ∧ s.mode ≠ DUSK ∧
      ((∃ (f : Fin 2080) (k l : Nat) (v : WorkReq) (n : Nat) (t : State), q = .host f k ∧ s.linkOf f = some l ∧ s.wrAt f (s.globalQueue f k) = some (v, n) ∧ v.op = op ∧
      s.isSarup (s.globalQueue f k) ∧ s.nextFetch l = some (f.val, k) ∧ s.readPending f (· == .txDescriptors f k) = false ∧
      t = ((s.onLink l fun x => { x with lastFn := f }).onFn f fun x => { x with lastQueue := k }) ∧ (reply = none ∧
      u = (t.issueRead f (.txDescriptors f k)).settle ∨ ∃ r, reply = some r ∧ cplError r = none ∧
      u = (t.sarupFetch f k).settle)) ∨ (∃ (e : Fin 1024) (m : Msg) (rest : List Msg) (g f k : Nat) (t : State), q = .engine e ∧ s.xpt.posted.get [] e = m :: rest ∧
      s.engineQueue e = some g ∧ s.queueOwner g = some (f, k) ∧ m.work.op = op ∧ t = s.onXpt (fun x => { x with posted := x.posted.set [] e rest }) ∧
      (t.pair g).state = ACTIVE ∧ t.wrBad f g m.work = false ∧ u = (t.runWork f g m.work (t.wrChain g m.work 0 0 (some m))).settle)) ∧ op = 3) ∧
    (∃ (s : State) (w : Word) (i : Nat), ∃ (op : Nat) (q : SarupQueue) (reply : Option CplStatus) (u : State), i = wfld w XPT_CMD.INDEX ∧ s.xptRuns ∧ s.mode ≠ DUSK ∧
      ((∃ (f : Fin 2080) (k l : Nat) (v : WorkReq) (n : Nat) (t : State), q = .host f k ∧ s.linkOf f = some l ∧ s.wrAt f (s.globalQueue f k) = some (v, n) ∧ v.op = op ∧
      s.isSarup (s.globalQueue f k) ∧ s.nextFetch l = some (f.val, k) ∧ s.readPending f (· == .txDescriptors f k) = false ∧
      t = ((s.onLink l fun x => { x with lastFn := f }).onFn f fun x => { x with lastQueue := k }) ∧ (reply = none ∧
      u = (t.issueRead f (.txDescriptors f k)).settle ∨ ∃ r, reply = some r ∧ cplError r = none ∧
      u = (t.sarupFetch f k).settle)) ∨ (∃ (e : Fin 1024) (m : Msg) (rest : List Msg) (g f k : Nat) (t : State), q = .engine e ∧ s.xpt.posted.get [] e = m :: rest ∧
      s.engineQueue e = some g ∧ s.queueOwner g = some (f, k) ∧ m.work.op = op ∧ t = s.onXpt (fun x => { x with posted := x.posted.set [] e rest }) ∧
      (t.pair g).state = ACTIVE ∧ t.wrBad f g m.work = false ∧ u = (t.runWork f g m.work (t.wrChain g m.work 0 0 (some m))).settle)) ∧ op = 4) ∧
    (∃ (s : State) (w : Word) (i : Nat), ∃ (op : Nat) (q : SarupQueue) (reply : Option CplStatus) (u : State), i = wfld w XPT_CMD.INDEX ∧ s.xptRuns ∧ s.mode ≠ DUSK ∧
      ((∃ (f : Fin 2080) (k l : Nat) (v : WorkReq) (n : Nat) (t : State), q = .host f k ∧ s.linkOf f = some l ∧ s.wrAt f (s.globalQueue f k) = some (v, n) ∧ v.op = op ∧
      s.isSarup (s.globalQueue f k) ∧ s.nextFetch l = some (f.val, k) ∧ s.readPending f (· == .txDescriptors f k) = false ∧
      t = ((s.onLink l fun x => { x with lastFn := f }).onFn f fun x => { x with lastQueue := k }) ∧ (reply = none ∧
      u = (t.issueRead f (.txDescriptors f k)).settle ∨ ∃ r, reply = some r ∧ cplError r = none ∧
      u = (t.sarupFetch f k).settle)) ∨ (∃ (e : Fin 1024) (m : Msg) (rest : List Msg) (g f k : Nat) (t : State), q = .engine e ∧ s.xpt.posted.get [] e = m :: rest ∧
      s.engineQueue e = some g ∧ s.queueOwner g = some (f, k) ∧ m.work.op = op ∧ t = s.onXpt (fun x => { x with posted := x.posted.set [] e rest }) ∧
      (t.pair g).state = ACTIVE ∧ t.wrBad f g m.work = false ∧ u = (t.runWork f g m.work (t.wrChain g m.work 0 0 (some m))).settle)) ∧ op = 5) ∧
    (∃ (s : State) (w : Word) (i : Nat), ∃ (op : Nat) (q : SarupQueue) (reply : Option CplStatus) (u : State), i = wfld w XPT_CMD.INDEX ∧ s.xptRuns ∧ s.mode ≠ DUSK ∧
      ((∃ (f : Fin 2080) (k l : Nat) (v : WorkReq) (n : Nat) (t : State), q = .host f k ∧ s.linkOf f = some l ∧ s.wrAt f (s.globalQueue f k) = some (v, n) ∧ v.op = op ∧
      s.isSarup (s.globalQueue f k) ∧ s.nextFetch l = some (f.val, k) ∧ s.readPending f (· == .txDescriptors f k) = false ∧
      t = ((s.onLink l fun x => { x with lastFn := f }).onFn f fun x => { x with lastQueue := k }) ∧ (reply = none ∧
      u = (t.issueRead f (.txDescriptors f k)).settle ∨ ∃ r, reply = some r ∧ cplError r = none ∧
      u = (t.sarupFetch f k).settle)) ∨ (∃ (e : Fin 1024) (m : Msg) (rest : List Msg) (g f k : Nat) (t : State), q = .engine e ∧ s.xpt.posted.get [] e = m :: rest ∧
      s.engineQueue e = some g ∧ s.queueOwner g = some (f, k) ∧ m.work.op = op ∧ t = s.onXpt (fun x => { x with posted := x.posted.set [] e rest }) ∧
      (t.pair g).state = ACTIVE ∧ t.wrBad f g m.work = false ∧ u = (t.runWork f g m.work (t.wrChain g m.work 0 0 (some m))).settle)) ∧ op = 6) ∧
    (∃ (s : State) (w : Word) (i : Nat), ∃ (op : Nat) (q : SarupQueue) (reply : Option CplStatus) (u : State), i = wfld w XPT_CMD.INDEX ∧ s.xptRuns ∧ s.mode ≠ DUSK ∧
      ((∃ (f : Fin 2080) (k l : Nat) (v : WorkReq) (n : Nat) (t : State), q = .host f k ∧ s.linkOf f = some l ∧ s.wrAt f (s.globalQueue f k) = some (v, n) ∧ v.op = op ∧
      s.isSarup (s.globalQueue f k) ∧ s.nextFetch l = some (f.val, k) ∧ s.readPending f (· == .txDescriptors f k) = false ∧
      t = ((s.onLink l fun x => { x with lastFn := f }).onFn f fun x => { x with lastQueue := k }) ∧ (reply = none ∧
      u = (t.issueRead f (.txDescriptors f k)).settle ∨ ∃ r, reply = some r ∧ cplError r = none ∧
      u = (t.sarupFetch f k).settle)) ∨ (∃ (e : Fin 1024) (m : Msg) (rest : List Msg) (g f k : Nat) (t : State), q = .engine e ∧ s.xpt.posted.get [] e = m :: rest ∧
      s.engineQueue e = some g ∧ s.queueOwner g = some (f, k) ∧ m.work.op = op ∧ t = s.onXpt (fun x => { x with posted := x.posted.set [] e rest }) ∧
      (t.pair g).state = ACTIVE ∧ t.wrBad f g m.work = false ∧ u = (t.runWork f g m.work (t.wrChain g m.work 0 0 (some m))).settle)) ∧ op = 7) ∧
    (∃ (s : State) (w : Word) (i : Nat), ∃ (op : Nat) (q : SarupQueue) (reply : Option CplStatus) (u : State), i = wfld w XPT_CMD.INDEX ∧ s.xptRuns ∧ s.mode ≠ DUSK ∧
      ((∃ (f : Fin 2080) (k l : Nat) (v : WorkReq) (n : Nat) (t : State), q = .host f k ∧ s.linkOf f = some l ∧ s.wrAt f (s.globalQueue f k) = some (v, n) ∧ v.op = op ∧
      s.isSarup (s.globalQueue f k) ∧ s.nextFetch l = some (f.val, k) ∧ s.readPending f (· == .txDescriptors f k) = false ∧
      t = ((s.onLink l fun x => { x with lastFn := f }).onFn f fun x => { x with lastQueue := k }) ∧ (reply = none ∧
      u = (t.issueRead f (.txDescriptors f k)).settle ∨ ∃ r, reply = some r ∧ cplError r = none ∧
      u = (t.sarupFetch f k).settle)) ∨ (∃ (e : Fin 1024) (m : Msg) (rest : List Msg) (g f k : Nat) (t : State), q = .engine e ∧ s.xpt.posted.get [] e = m :: rest ∧
      s.engineQueue e = some g ∧ s.queueOwner g = some (f, k) ∧ m.work.op = op ∧ t = s.onXpt (fun x => { x with posted := x.posted.set [] e rest }) ∧
      (t.pair g).state = ACTIVE ∧ t.wrBad f g m.work = false ∧ u = (t.runWork f g m.work (t.wrChain g m.work 0 0 (some m))).settle)) ∧ op = 8) ∧
    (∃ (s : State) (w : Word) (i : Nat), ∃ (op : Nat) (q : SarupQueue) (reply : Option CplStatus) (u : State), i = wfld w XPT_CMD.INDEX ∧ s.xptRuns ∧ s.mode ≠ DUSK ∧
      ((∃ (f : Fin 2080) (k l : Nat) (v : WorkReq) (n : Nat) (t : State), q = .host f k ∧ s.linkOf f = some l ∧ s.wrAt f (s.globalQueue f k) = some (v, n) ∧ v.op = op ∧
      s.isSarup (s.globalQueue f k) ∧ s.nextFetch l = some (f.val, k) ∧ s.readPending f (· == .txDescriptors f k) = false ∧
      t = ((s.onLink l fun x => { x with lastFn := f }).onFn f fun x => { x with lastQueue := k }) ∧ (reply = none ∧
      u = (t.issueRead f (.txDescriptors f k)).settle ∨ ∃ r, reply = some r ∧ cplError r = none ∧
      u = (t.sarupFetch f k).settle)) ∨ (∃ (e : Fin 1024) (m : Msg) (rest : List Msg) (g f k : Nat) (t : State), q = .engine e ∧ s.xpt.posted.get [] e = m :: rest ∧
      s.engineQueue e = some g ∧ s.queueOwner g = some (f, k) ∧ m.work.op = op ∧ t = s.onXpt (fun x => { x with posted := x.posted.set [] e rest }) ∧
      (t.pair g).state = ACTIVE ∧ t.wrBad f g m.work = false ∧ u = (t.runWork f g m.work (t.wrChain g m.work 0 0 (some m))).settle)) ∧ op = 8) ∧
    (∃ (s : State) (w : Word) (i : Nat), i = wfld w XPT_CMD.INDEX ∧ i < 262144 ∧ s.connState i = cQuarantine ∧ (s.conn i).since + ofMs 500 ≤ s.up) ∧
    (∃ (s : State) (w : Word) (i : Nat), ∃ g q es c cs r, i = wfld w XPT_CMD.INDEX ∧ s.hq.pairs.entries = (g, q) :: es ∧ q.chains = c :: cs ∧ c.left ≠ 0 ∧
      c.sarup = some r ∧ r.revoke = some i) ∧
    (∃ (s : State) (w : Word) (i : Nat), i = wfld w XPT_CMD.INDEX ∧ s.hq.pairs.entries = [] ∧ s.xpt.revoking = some i) ∧
    (∃ (s : State) (w : Word) (i : Nat), ∃ psn x, i = wfld w XPT_CMD.INDEX ∧ ((s.conn i).flushes.find? (fun x => x.1 == psn) = some x) ∧ s.connState i = cReady ∧
      s.xptRuns ∧ 0 < psnDiff (s.conn i).recvBase psn ∧ psnDiff (s.conn i).recvBase psn < 2 ^ 31) ∧
    (∃ (s : State) (w : Word) (i : Nat), i = wfld w XPT_CMD.INDEX ∧ s.connState i = cReady ∧ (s.conn i).ackCount ≠ 0 ∧
      (s.conn i).ackSince + ofUs (max 1 (s.fld XPT_CFG.ACK_US)) ≤ s.up) ∧
    (∃ (s : State) (w : Word) (i : Nat), ∃ psn x, i = wfld w XPT_CMD.INDEX ∧ ((s.conn i).out.find? (fun x => x.psn == psn) = some x) ∧ s.connState i = cReady ∧
      x.rnrAt = none ∧ s.sarupInside i psn = false ∧ x.sentUp + ofUs (bits (s.ctxWord i 3) 15 0 * 2 ^ min (x.sends - 1) 3) ≤ s.up ∧
      x.sends ≤ bits (s.ctxWord i 3) 19 16) ∧
    (∃ (s : State) (w : Word) (i : Nat), ∃ psn x, i = wfld w XPT_CMD.INDEX ∧ ((s.conn i).out.find? (fun x => x.psn == psn) = some x) ∧ s.connState i = cReady ∧
      x.rnrAt = none ∧ s.sarupInside i psn = false ∧ x.sentUp + ofUs (bits (s.ctxWord i 3) 15 0 * 2 ^ min (x.sends - 1) 3) ≤ s.up ∧
      bits (s.ctxWord i 3) 19 16 < x.sends) ∧
    (∃ (s : State) (w : Word) (i : Nat), ∃ psn x, ∃ d, i = wfld w XPT_CMD.INDEX ∧ ((s.conn i).out.find? (fun x => x.psn == psn) = some x) ∧ s.connState i = cReady ∧
      x.rnrAt = some d ∧ d ≤ s.up) ∧
    (∃ (s : State) (w : Word) (i : Nat), ∃ n ns f k g t, i = wfld w XPT_CMD.INDEX ∧ g = s.connQueue i ∧ (s.conn i).passed = n :: ns ∧ n.refused = false ∧
      s.queueOwner g = some (f, k) ∧ (s.pair g).full 3 = false ∧ s.queueReach f g ∧ (s.pair g).state = ACTIVE ∧
      (t = ((s.onConn i fun c => { c with notes := c.notes.filter (fun x => !List.contains [n] x), sends := c.sends.filter fun x => !List.any [n] fun n => n.kind == 2 && n.ssn == x.ssn }).bump .XPT_STAT 0 12).writeCompletion f g 3 n.ts (place n.imm 31 0 + place i 49 32) (sarupWord2 n.start 0 n.kind 1 n.degraded false n.hdrTs.isSome n.len) (n.hdrTs.getD 0)) ∧
      s.engineThread g = none) ∧
    (∃ (s : State) (w : Word) (i : Nat), ∃ n ns f k g t, ∃ e, i = wfld w XPT_CMD.INDEX ∧ g = s.connQueue i ∧ (s.conn i).passed = n :: ns ∧ n.refused = false ∧
      s.queueOwner g = some (f, k) ∧ (s.pair g).full 3 = false ∧ s.queueReach f g ∧ (s.pair g).state = ACTIVE ∧
      (t = ((s.onConn i fun c => { c with notes := c.notes.filter (fun x => !List.contains [n] x), sends := c.sends.filter fun x => !List.any [n] fun n => n.kind == 2 && n.ssn == x.ssn }).bump .XPT_STAT 0 12).writeCompletion f g 3 n.ts (place n.imm 31 0 + place i 49 32) (sarupWord2 n.start 0 n.kind 1 n.degraded false n.hdrTs.isSome n.len) (n.hdrTs.getD 0)) ∧
      s.engineThread g = some e) :=
  ⟨⟨(puts (hosted {}) [(XPT_FN_CONN.CONN_BASE, 262143, 0, 30), (XPT_FN_CONN.CONN_COUNT, 1, 0, 30)]).setRaw .XPT_QP_BIND 0 0 1,
    BitVec.ofNat 64 (1 * 2 ^ XPT_CMD.OP.lo + 262143 * 2 ^ XPT_CMD.INDEX.lo), _, 30, 0, rfl, by decide +kernel⟩,
    ⟨day, BitVec.ofNat 64 (2 * 2 ^ XPT_CMD.OP.lo + 262143 * 2 ^ XPT_CMD.INDEX.lo), _, rfl, by decide +kernel⟩,
    ⟨day, BitVec.ofNat 64 (3 * 2 ^ XPT_CMD.OP.lo + 262143 * 2 ^ XPT_CMD.INDEX.lo), _, rfl, by decide +kernel⟩,
    ⟨day, BitVec.ofNat 64 (4 * 2 ^ XPT_CMD.OP.lo + 262143 * 2 ^ XPT_CMD.INDEX.lo), _, rfl, by decide +kernel⟩,
    ⟨day, BitVec.ofNat 64 (5 * 2 ^ XPT_CMD.OP.lo + 262143 * 2 ^ XPT_CMD.INDEX.lo), _, rfl, by decide +kernel⟩,
    ⟨opened true day, BitVec.ofNat 64 (6 * 2 ^ XPT_CMD.OP.lo + 1048575 * 2 ^ XPT_CMD.INDEX.lo), _, rfl, by decide +kernel⟩,
    ⟨day, BitVec.ofNat 64 (0 * 2 ^ XPT_CMD.OP.lo + 262143 * 2 ^ XPT_CMD.INDEX.lo), _, 32767, rfl, by decide +kernel⟩,
    ⟨working 0, 0, _, 0, .host 30 0, none, _, rfl, by decide +kernel, by decide +kernel, Or.inl ⟨30, 0, 15, { addr := 0, w1 := 0 * 2 ^ 32, w2 := 0, w3 := 0 }, 1, _, rfl,
      by decide +kernel, by decide +kernel, by decide +kernel, by decide +kernel, by decide +kernel, by decide +kernel, rfl, Or.inl ⟨rfl, rfl⟩⟩, by decide +kernel⟩,
    ⟨working 1, 0, _, 1, .host 30 0, none, _, rfl, by decide +kernel, by decide +kernel, Or.inl ⟨30, 0, 15, { addr := 0, w1 := 1 * 2 ^ 32, w2 := 0, w3 := 0 }, 1, _, rfl,
      by decide +kernel, by decide +kernel, by decide +kernel, by decide +kernel, by decide +kernel, by decide +kernel, rfl, Or.inl ⟨rfl, rfl⟩⟩, by decide +kernel⟩,
    ⟨working 2, 0, _, 2, .host 30 0, none, _, rfl, by decide +kernel, by decide +kernel, Or.inl ⟨30, 0, 15, { addr := 0, w1 := 2 * 2 ^ 32, w2 := 0, w3 := 0 }, 1, _, rfl,
      by decide +kernel, by decide +kernel, by decide +kernel, by decide +kernel, by decide +kernel, by decide +kernel, rfl, Or.inl ⟨rfl, rfl⟩⟩, by decide +kernel⟩,
    ⟨posting 2, 0, _, 2, .engine 1023, none, _, rfl, by decide +kernel, by decide +kernel, Or.inr ⟨1023, mesg 5 1 [0, 8 + 2 * 2 ^ 32, 0, 0, 0, 0], [], 0, 30, 0, _, rfl,
      by decide +kernel, by decide +kernel, by decide +kernel, by decide +kernel, rfl, by decide +kernel, by decide +kernel, rfl⟩, by decide +kernel⟩,
    ⟨working 3, 0, _, 3, .host 30 0, none, _, rfl, by decide +kernel, by decide +kernel, Or.inl ⟨30, 0, 15, { addr := 0, w1 := 3 * 2 ^ 32, w2 := 0, w3 := 0 }, 1, _, rfl,
      by decide +kernel, by decide +kernel, by decide +kernel, by decide +kernel, by decide +kernel, by decide +kernel, rfl, Or.inl ⟨rfl, rfl⟩⟩, by decide +kernel⟩,
    ⟨working 4, 0, _, 4, .host 30 0, none, _, rfl, by decide +kernel, by decide +kernel, Or.inl ⟨30, 0, 15, { addr := 0, w1 := 4 * 2 ^ 32, w2 := 0, w3 := 0 }, 1, _, rfl,
      by decide +kernel, by decide +kernel, by decide +kernel, by decide +kernel, by decide +kernel, by decide +kernel, rfl, Or.inl ⟨rfl, rfl⟩⟩, by decide +kernel⟩,
    ⟨working 5, 0, _, 5, .host 30 0, none, _, rfl, by decide +kernel, by decide +kernel, Or.inl ⟨30, 0, 15, { addr := 0, w1 := 5 * 2 ^ 32, w2 := 0, w3 := 0 }, 1, _, rfl,
      by decide +kernel, by decide +kernel, by decide +kernel, by decide +kernel, by decide +kernel, by decide +kernel, rfl, Or.inl ⟨rfl, rfl⟩⟩, by decide +kernel⟩,
    ⟨working 6, 0, _, 6, .host 30 0, none, _, rfl, by decide +kernel, by decide +kernel, Or.inl ⟨30, 0, 15, { addr := 0, w1 := 6 * 2 ^ 32, w2 := 0, w3 := 0 }, 1, _, rfl,
      by decide +kernel, by decide +kernel, by decide +kernel, by decide +kernel, by decide +kernel, by decide +kernel, rfl, Or.inl ⟨rfl, rfl⟩⟩, by decide +kernel⟩,
    ⟨working 7, 0, _, 7, .host 30 0, none, _, rfl, by decide +kernel, by decide +kernel, Or.inl ⟨30, 0, 15, { addr := 0, w1 := 7 * 2 ^ 32, w2 := 0, w3 := 0 }, 1, _, rfl,
      by decide +kernel, by decide +kernel, by decide +kernel, by decide +kernel, by decide +kernel, by decide +kernel, rfl, Or.inl ⟨rfl, rfl⟩⟩, by decide +kernel⟩,
    ⟨working 8, 0, _, 8, .host 30 0, none, _, rfl, by decide +kernel, by decide +kernel, Or.inl ⟨30, 0, 15, { addr := 0, w1 := 8 * 2 ^ 32, w2 := 0, w3 := 0 }, 1, _, rfl,
      by decide +kernel, by decide +kernel, by decide +kernel, by decide +kernel, by decide +kernel, by decide +kernel, rfl, Or.inl ⟨rfl, rfl⟩⟩, by decide +kernel⟩,
    ⟨posting 8, 0, _, 8, .engine 1023, none, _, rfl, by decide +kernel, by decide +kernel, Or.inr ⟨1023, mesg 5 1 [0, 8 + 8 * 2 ^ 32, 0, 0, 0, 0], [], 0, 30, 0, _, rfl,
      by decide +kernel, by decide +kernel, by decide +kernel, by decide +kernel, rfl, by decide +kernel, by decide +kernel, rfl⟩, by decide +kernel⟩,
    ⟨(late day).setCtx 262143 0 3, BitVec.ofNat 64 (0 * 2 ^ XPT_CMD.OP.lo + 262143 * 2 ^ XPT_CMD.INDEX.lo), _, rfl, by decide +kernel⟩,
    ⟨{ day with hq.pairs := day.hq.pairs.set {} 32767 { chains := [{ id := 0, index := 0, slots := 1, cookie := 0, len := 0, cqe := false, left := 1, sarup := some { op := 8, revoke := some 262143 } }] } },
      BitVec.ofNat 64 (0 * 2 ^ XPT_CMD.OP.lo + 262143 * 2 ^ XPT_CMD.INDEX.lo), _, _, _, _, _, _, _, rfl, rfl, rfl, by decide +kernel, rfl, by decide +kernel⟩,
    ⟨{ day with xpt.revoking := some 262143 }, BitVec.ofNat 64 (0 * 2 ^ XPT_CMD.OP.lo + 262143 * 2 ^ XPT_CMD.INDEX.lo), _, rfl, by decide +kernel⟩,
    ⟨late (ready { flushes := [(0, 9)], recvBase := 1 }), BitVec.ofNat 64 (0 * 2 ^ XPT_CMD.OP.lo + 262143 * 2 ^ XPT_CMD.INDEX.lo), _, 0, (0, 9), rfl, by decide +kernel⟩,
    ⟨late (ready { ackCount := 1 }), BitVec.ofNat 64 (0 * 2 ^ XPT_CMD.OP.lo + 262143 * 2 ^ XPT_CMD.INDEX.lo), _, rfl, by decide +kernel⟩,
    ⟨late (ready { out := [{ psn := 5, first := true, last := true, body := { op := 0 }, sends := 7 }] }),
      BitVec.ofNat 64 (0 * 2 ^ XPT_CMD.OP.lo + 262143 * 2 ^ XPT_CMD.INDEX.lo), _, 5, { psn := 5, first := true, last := true, body := { op := 0 }, sends := 7 }, rfl,
      by decide +kernel⟩,
    ⟨late (ready { out := [{ psn := 5, first := true, last := true, body := { op := 0 }, sends := 8 }] }),
      BitVec.ofNat 64 (0 * 2 ^ XPT_CMD.OP.lo + 262143 * 2 ^ XPT_CMD.INDEX.lo), _, 5, { psn := 5, first := true, last := true, body := { op := 0 }, sends := 8 }, rfl,
      by decide +kernel⟩,
    ⟨late (ready { out := [{ psn := 5, first := true, last := true, body := { op := 0 }, rnrAt := (some 0) }] }),
      BitVec.ofNat 64 (0 * 2 ^ XPT_CMD.OP.lo + 262143 * 2 ^ XPT_CMD.INDEX.lo), _, 5, { psn := 5, first := true, last := true, body := { op := 0 }, rnrAt := some 0 }, 0,
      rfl, by decide +kernel⟩,
    ⟨ready { notes := [{ msgId := 0, kind := 1, last := some 0 }], recvBase := 1 }, BitVec.ofNat 64 (0 * 2 ^ XPT_CMD.OP.lo + 262143 * 2 ^ XPT_CMD.INDEX.lo), _,
      { msgId := 0, kind := 1, last := some 0 }, [], 30, 0, _, _, rfl, rfl, by decide +kernel, by decide +kernel, by decide +kernel, by decide +kernel, by decide +kernel,
      by decide +kernel, rfl, by decide +kernel⟩,
    ⟨(ready { notes := [{ msgId := 0, kind := 1, last := some 0 }], recvBase := 1 }).setRaw .XPT_QP_BIND 0 0 (BitVec.ofNat 64 (3 + 4 * 1023)),
      BitVec.ofNat 64 (0 * 2 ^ XPT_CMD.OP.lo + 262143 * 2 ^ XPT_CMD.INDEX.lo), _, { msgId := 0, kind := 1, last := some 0 }, [], 30, 0, _, _, 1023, rfl, rfl,
      by decide +kernel, by decide +kernel, by decide +kernel, by decide +kernel, by decide +kernel, by decide +kernel, rfl, by decide +kernel⟩⟩

/-- SarupPacketsComplete: states and operands that meet the premises of each clause. -/
theorem witness_SarupPacketsComplete :
    (∃ (s : State) (k g : Nat) (p : Packet) (h : SarupIn) (t : State), s.xpt.input[k]? = some (g, p) ∧ s.sarupFate g p.bytes = .packet h ∧ t = s.touchCtx h.conn ∧
      h.body.op = oAck) ∧
    (∃ (s : State) (k g : Nat) (p : Packet) (h : SarupIn) (t : State), s.xpt.input[k]? = some (g, p) ∧ s.sarupFate g p.bytes = .packet h ∧ t = s.touchCtx h.conn ∧
      h.body.op = oNak) ∧
    (∃ (s : State) (k g : Nat) (p : Packet) (h : SarupIn) (t : State), ∃ fn a, s.xpt.input[k]? = some (g, p) ∧ s.sarupFate g p.bytes = .packet h ∧ t = s.touchCtx h.conn ∧
      psnDiff h.psn (t.conn h.conn).recvBase < 1024 ∧ h.psn ∉ (t.conn h.conn).got ∧ (t.pcie (t.connFn h.conn)).busMaster ∧
      t.winCheck h.conn h.body.key h.body.off h.body.payload.length 12 = some (fn, a) ∧ t.xReach fn ∧ h.body.op = oWrite) ∧
    (∃ (s : State) (k g : Nat) (p : Packet) (h : SarupIn) (t : State), ∃ fn a, s.xpt.input[k]? = some (g, p) ∧ s.sarupFate g p.bytes = .packet h ∧ t = s.touchCtx h.conn ∧
      psnDiff h.psn (t.conn h.conn).recvBase < 1024 ∧ h.psn ∉ (t.conn h.conn).got ∧ (t.pcie (t.connFn h.conn)).busMaster ∧
      t.winCheck h.conn h.body.key h.body.off h.body.payload.length 12 = some (fn, a) ∧ t.xReach fn ∧ h.body.op = oWriteImm) ∧
    (∃ (s : State) (k g : Nat) (p : Packet) (h : SarupIn) (t : State), ∃ x, s.xpt.input[k]? = some (g, p) ∧ s.sarupFate g p.bytes = .packet h ∧ t = s.touchCtx h.conn ∧
      psnDiff h.psn (t.conn h.conn).recvBase < 1024 ∧ h.psn ∉ (t.conn h.conn).got ∧ (t.pcie (t.connFn h.conn)).busMaster ∧ h.body.op = oSend ∧
      ((t.conn h.conn).sends.find? (fun x => x.ssn == h.body.key) = some x) ∧ x.bufs ≠ []) ∧
    (∃ (s : State) (k g : Nat) (p : Packet) (h : SarupIn) (t : State), ∃ x, s.xpt.input[k]? = some (g, p) ∧ s.sarupFate g p.bytes = .packet h ∧ t = s.touchCtx h.conn ∧
      psnDiff h.psn (t.conn h.conn).recvBase < 1024 ∧ h.psn ∉ (t.conn h.conn).got ∧ (t.pcie (t.connFn h.conn)).busMaster ∧ h.body.op = oSend ∧
      ((t.conn h.conn).sends.find? (fun x => x.ssn == h.body.key) = some x) ∧ x.bufs = []) ∧
    (∃ (s : State) (k g : Nat) (p : Packet) (h : SarupIn) (t : State), ∃ a n, s.xpt.input[k]? = some (g, p) ∧ s.sarupFate g p.bytes = .packet h ∧ t = s.touchCtx h.conn ∧
      psnDiff h.psn (t.conn h.conn).recvBase < 1024 ∧ h.psn ∉ (t.conn h.conn).got ∧ (t.pcie (t.connFn h.conn)).busMaster ∧ h.body.op = oReadReq ∧
      n = beNat (slice h.body.payload 0 4) ∧ 4 ≤ h.body.payload.length ∧ t.winCheck h.conn h.body.key h.body.off n 13 = some (none, a)) ∧
    (∃ (s : State) (k g : Nat) (p : Packet) (h : SarupIn) (t : State), ∃ a n, ∃ f r, s.xpt.input[k]? = some (g, p) ∧ s.sarupFate g p.bytes = .packet h ∧
      t = s.touchCtx h.conn ∧ psnDiff h.psn (t.conn h.conn).recvBase < 1024 ∧ h.psn ∉ (t.conn h.conn).got ∧ (t.pcie (t.connFn h.conn)).busMaster ∧ h.body.op = oReadReq ∧
      n = beNat (slice h.body.payload 0 4) ∧ 4 ≤ h.body.payload.length ∧ t.winCheck h.conn h.body.key h.body.off n 13 = some (some f, a) ∧ t.dmaOk f ∧
      t.readPending f (· == .sarup h.conn h.psn) = false ∧ cplError r = none) ∧
    (∃ (s : State) (k g : Nat) (p : Packet) (h : SarupIn) (t : State), ∃ (a : Nat) (new : Nat → Nat), s.xpt.input[k]? = some (g, p) ∧ s.sarupFate g p.bytes = .packet h ∧
      t = s.touchCtx h.conn ∧ psnDiff h.psn (t.conn h.conn).recvBase < 1024 ∧ h.psn ∉ (t.conn h.conn).got ∧ (t.pcie (t.connFn h.conn)).busMaster ∧ h.body.op = oFetchAdd ∧
      8 ≤ h.body.payload.length ∧ (new = (fun old => (old + beNat (slice h.body.payload 0 8)) % 2 ^ 64)) ∧ t.winCheck h.conn h.body.key h.body.off 8 14 = some (none,
      a)) ∧
    (∃ (s : State) (k g : Nat) (p : Packet) (h : SarupIn) (t : State), ∃ (a : Nat) (new : Nat → Nat), ∃ f r u, s.xpt.input[k]? = some (g, p) ∧
      s.sarupFate g p.bytes = .packet h ∧ t = s.touchCtx h.conn ∧ psnDiff h.psn (t.conn h.conn).recvBase < 1024 ∧ h.psn ∉ (t.conn h.conn).got ∧
      (t.pcie (t.connFn h.conn)).busMaster ∧ h.body.op = oFetchAdd ∧ 8 ≤ h.body.payload.length ∧ (new = (fun old => (old + beNat (slice h.body.payload 0 8)) % 2 ^ 64)) ∧
      t.winCheck h.conn h.body.key h.body.off 8 14 = some (some f, a) ∧ t.dmaOk f ∧ t.readPending f (· == .sarup h.conn h.psn) = false ∧ cplError r = none ∧
      u = t.linkCount f 1 1) ∧
    (∃ (s : State) (k g : Nat) (p : Packet) (h : SarupIn) (t : State), ∃ (a : Nat) (new : Nat → Nat), s.xpt.input[k]? = some (g, p) ∧ s.sarupFate g p.bytes = .packet h ∧
      t = s.touchCtx h.conn ∧ psnDiff h.psn (t.conn h.conn).recvBase < 1024 ∧ h.psn ∉ (t.conn h.conn).got ∧ (t.pcie (t.connFn h.conn)).busMaster ∧ h.body.op = oCas ∧
      16 ≤ h.body.payload.length ∧ (new = (fun old => if old = beNat (slice h.body.payload 0 8) then beNat (slice h.body.payload 8 8) else old)) ∧
      t.winCheck h.conn h.body.key h.body.off 8 14 = some (none, a)) ∧
    (∃ (s : State) (k g : Nat) (p : Packet) (h : SarupIn) (t : State), ∃ (a : Nat) (new : Nat → Nat), ∃ f r u, s.xpt.input[k]? = some (g, p) ∧
      s.sarupFate g p.bytes = .packet h ∧ t = s.touchCtx h.conn ∧ psnDiff h.psn (t.conn h.conn).recvBase < 1024 ∧ h.psn ∉ (t.conn h.conn).got ∧
      (t.pcie (t.connFn h.conn)).busMaster ∧ h.body.op = oCas ∧ 16 ≤ h.body.payload.length ∧
      (new = (fun old => if old = beNat (slice h.body.payload 0 8) then beNat (slice h.body.payload 8 8) else old)) ∧
      t.winCheck h.conn h.body.key h.body.off 8 14 = some (some f, a) ∧ t.dmaOk f ∧ t.readPending f (· == .sarup h.conn h.psn) = false ∧ cplError r = none ∧
      u = t.linkCount f 1 1) ∧
    (∃ (s : State) (k g : Nat) (p : Packet) (h : SarupIn) (t : State), ∃ x r u, s.xpt.input[k]? = some (g, p) ∧ s.sarupFate g p.bytes = .packet h ∧ t = s.touchCtx h.conn ∧
      psnDiff h.psn (t.conn h.conn).recvBase < 1024 ∧ h.psn ∉ (t.conn h.conn).got ∧ (t.pcie (t.connFn h.conn)).busMaster ∧ h.body.op = oReadResp ∧
      t.xReach (t.localFn (t.connFn h.conn) (t.connQueue h.conn)) ∧ t.request h.conn 3 h.body.msgId = some (x, r) ∧
      (u = (t.xWrite (t.localFn (t.connFn h.conn) (t.connQueue h.conn)) (r.addr + h.body.off) h.body.payload).onPair (t.connQueue h.conn) (fun q => { q with chains := q.chains.map fun y => if y.id = x.id then { y with sarup := some { r with placed := r.placed + h.body.payload.length } } else y })) ∧
      r.placed + h.body.payload.length < x.len) ∧
    (∃ (s : State) (k g : Nat) (p : Packet) (h : SarupIn) (t : State), ∃ x r u, s.xpt.input[k]? = some (g, p) ∧ s.sarupFate g p.bytes = .packet h ∧ t = s.touchCtx h.conn ∧
      psnDiff h.psn (t.conn h.conn).recvBase < 1024 ∧ h.psn ∉ (t.conn h.conn).got ∧ (t.pcie (t.connFn h.conn)).busMaster ∧ h.body.op = oReadResp ∧
      t.xReach (t.localFn (t.connFn h.conn) (t.connQueue h.conn)) ∧ t.request h.conn 3 h.body.msgId = some (x, r) ∧
      (u = (t.xWrite (t.localFn (t.connFn h.conn) (t.connQueue h.conn)) (r.addr + h.body.off) h.body.payload).onPair (t.connQueue h.conn) (fun q => { q with chains := q.chains.map fun y => if y.id = x.id then { y with sarup := some { r with placed := r.placed + h.body.payload.length } } else y })) ∧
      x.len ≤ r.placed + h.body.payload.length) ∧
    (∃ (s : State) (k g : Nat) (p : Packet) (h : SarupIn) (t : State), s.xpt.input[k]? = some (g, p) ∧ s.sarupFate g p.bytes = .packet h ∧ t = s.touchCtx h.conn ∧
      psnDiff h.psn (t.conn h.conn).recvBase < 1024 ∧ h.psn ∉ (t.conn h.conn).got ∧ (t.pcie (t.connFn h.conn)).busMaster ∧ h.body.op = oAtomicResp) ∧
    (∃ (s : State) (k g : Nat) (p : Packet) (h : SarupIn) (t : State), s.xpt.input[k]? = some (g, p) ∧ s.sarupFate g p.bytes = .packet h ∧ t = s.touchCtx h.conn ∧
      psnDiff h.psn (t.conn h.conn).recvBase < 1024 ∧ h.psn ∉ (t.conn h.conn).got ∧ (t.pcie (t.connFn h.conn)).busMaster ∧ h.body.op = oFlushResp) ∧
    (∃ (s : State) (k g : Nat) (p : Packet) (h : SarupIn) (t : State), s.xpt.input[k]? = some (g, p) ∧ s.sarupFate g p.bytes = .packet h ∧ t = s.touchCtx h.conn ∧
      psnDiff h.psn (t.conn h.conn).recvBase < 1024 ∧ h.psn ∉ (t.conn h.conn).got ∧ (t.pcie (t.connFn h.conn)).busMaster ∧ h.body.op = oFlush) :=
  ⟨⟨taking 0 { op := oAck, key := 0, off := 0, payload := (List.replicate 128 0) } (ready {}), 0, 0,
    packetOf 0 { op := oAck, key := 0, off := 0, payload := (List.replicate 128 0) }, readAs 0 { op := oAck, key := 0, off := 0, payload := (List.replicate 128 0) }, _,
    by decide +kernel, by decide +kernel, rfl, by decide +kernel⟩,
    ⟨taking 0 { op := oNak, key := 0, off := 0, payload := (List.replicate 4 0) } (ready {}), 0, 0,
      packetOf 0 { op := oNak, key := 0, off := 0, payload := (List.replicate 4 0) }, readAs 0 { op := oNak, key := 0, off := 0, payload := (List.replicate 4 0) }, _,
      by decide +kernel, by decide +kernel, rfl, by decide +kernel⟩,
    ⟨taking 0 { op := oWrite, key := (1048575 * 4096), off := 0, payload := (List.replicate 8 0) } (opened false (ready {})), 0, 0,
      packetOf 0 { op := oWrite, key := (1048575 * 4096), off := 0, payload := (List.replicate 8 0) },
      readAs 0 { op := oWrite, key := (1048575 * 4096), off := 0, payload := (List.replicate 8 0) }, _, some 30, 2 ^ 30, by decide +kernel, by decide +kernel, rfl,
      by decide +kernel⟩,
    ⟨taking 0 { op := oWriteImm, key := (1048575 * 4096), off := 0, payload := (List.replicate 8 0) } (opened false (ready {})), 0, 0,
      packetOf 0 { op := oWriteImm, key := (1048575 * 4096), off := 0, payload := (List.replicate 8 0) },
      readAs 0 { op := oWriteImm, key := (1048575 * 4096), off := 0, payload := (List.replicate 8 0) }, _, some 30, 2 ^ 30, by decide +kernel, by decide +kernel, rfl,
      by decide +kernel⟩,
    ⟨taking 0 { op := oSend, key := 0, off := 0, payload := (List.replicate 8 0) } (ready { sends := [{ ssn := 0, start := 0, bufs := [(0, 8, 0)] }] }), 0, 0,
      packetOf 0 { op := oSend, key := 0, off := 0, payload := (List.replicate 8 0) }, readAs 0 { op := oSend, key := 0, off := 0, payload := (List.replicate 8 0) }, _,
      { ssn := 0, start := 0, bufs := [(0, 8, 0)] }, by decide +kernel, by decide +kernel, rfl, by decide +kernel⟩,
    ⟨taking 0 { op := oSend, key := 0, off := 0, payload := (List.replicate 8 0) } (ready { sends := [{ ssn := 0, start := 0, bufs := [] }] }), 0, 0,
      packetOf 0 { op := oSend, key := 0, off := 0, payload := (List.replicate 8 0) }, readAs 0 { op := oSend, key := 0, off := 0, payload := (List.replicate 8 0) }, _,
      { ssn := 0, start := 0, bufs := [] }, by decide +kernel, by decide +kernel, rfl, by decide +kernel⟩,
    ⟨taking 0 { op := oReadReq, key := (1048575 * 4096), off := 0, payload := [0, 0, 0, 8] } (opened true (ready {})), 0, 0,
      packetOf 0 { op := oReadReq, key := (1048575 * 4096), off := 0, payload := [0, 0, 0, 8] },
      readAs 0 { op := oReadReq, key := (1048575 * 4096), off := 0, payload := [0, 0, 0, 8] }, _, 2 ^ 30, 8, by decide +kernel, by decide +kernel, rfl,
      by decide +kernel⟩,
    ⟨taking 0 { op := oReadReq, key := (1048575 * 4096), off := 0, payload := [0, 0, 0, 8] } (opened false (ready {})), 0, 0,
      packetOf 0 { op := oReadReq, key := (1048575 * 4096), off := 0, payload := [0, 0, 0, 8] },
      readAs 0 { op := oReadReq, key := (1048575 * 4096), off := 0, payload := [0, 0, 0, 8] }, _, 2 ^ 30, 8, 30, .success, by decide +kernel, by decide +kernel, rfl,
      by decide +kernel⟩,
    ⟨taking 0 { op := oFetchAdd, key := (1048575 * 4096), off := 0, payload := (List.replicate 8 0) } (opened true (ready {})), 0, 0,
      packetOf 0 { op := oFetchAdd, key := (1048575 * 4096), off := 0, payload := (List.replicate 8 0) },
      readAs 0 { op := oFetchAdd, key := (1048575 * 4096), off := 0, payload := (List.replicate 8 0) }, _, 2 ^ 30, _, by decide +kernel, by decide +kernel, rfl,
      by decide +kernel, by decide +kernel, by decide +kernel, by decide +kernel, by decide +kernel, rfl, by decide +kernel⟩,
    ⟨taking 0 { op := oFetchAdd, key := (1048575 * 4096), off := 0, payload := (List.replicate 8 0) } (opened false (ready {})), 0, 0,
      packetOf 0 { op := oFetchAdd, key := (1048575 * 4096), off := 0, payload := (List.replicate 8 0) },
      readAs 0 { op := oFetchAdd, key := (1048575 * 4096), off := 0, payload := (List.replicate 8 0) }, _, 2 ^ 30, _, 30, .success, _, by decide +kernel,
      by decide +kernel, rfl, by decide +kernel, by decide +kernel, by decide +kernel, by decide +kernel, by decide +kernel, rfl, by decide +kernel, by decide +kernel,
      by decide +kernel, by decide +kernel, rfl⟩,
    ⟨taking 0 { op := oCas, key := (1048575 * 4096), off := 0, payload := (List.replicate 16 0) } (opened true (ready {})), 0, 0,
      packetOf 0 { op := oCas, key := (1048575 * 4096), off := 0, payload := (List.replicate 16 0) },
      readAs 0 { op := oCas, key := (1048575 * 4096), off := 0, payload := (List.replicate 16 0) }, _, 2 ^ 30, _, by decide +kernel, by decide +kernel, rfl,
      by decide +kernel, by decide +kernel, by decide +kernel, by decide +kernel, by decide +kernel, rfl, by decide +kernel⟩,
    ⟨taking 0 { op := oCas, key := (1048575 * 4096), off := 0, payload := (List.replicate 16 0) } (opened false (ready {})), 0, 0,
      packetOf 0 { op := oCas, key := (1048575 * 4096), off := 0, payload := (List.replicate 16 0) },
      readAs 0 { op := oCas, key := (1048575 * 4096), off := 0, payload := (List.replicate 16 0) }, _, 2 ^ 30, _, 30, .success, _, by decide +kernel, by decide +kernel,
      rfl, by decide +kernel, by decide +kernel, by decide +kernel, by decide +kernel, by decide +kernel, rfl, by decide +kernel, by decide +kernel, by decide +kernel,
      by decide +kernel, rfl⟩,
    ⟨taking 0 { op := oReadResp, key := 0, off := 0, payload := (List.replicate 8 0) } (ready {} (asking 3 16)), 0, 0,
      packetOf 0 { op := oReadResp, key := 0, off := 0, payload := (List.replicate 8 0) },
      readAs 0 { op := oReadResp, key := 0, off := 0, payload := (List.replicate 8 0) }, _,
      { id := 0, index := 0, slots := 1, cookie := 0, len := 16, cqe := false, left := 1, sarup := some { op := 3, conn := 262143 } }, { op := 3, conn := 262143 }, _,
      by decide +kernel, by decide +kernel, rfl, by decide +kernel, by decide +kernel, by decide +kernel, by decide +kernel, by decide +kernel, by decide +kernel, rfl,
      by decide +kernel⟩,
    ⟨taking 0 { op := oReadResp, key := 0, off := 0, payload := (List.replicate 8 0) } (ready {} (asking 3 8)), 0, 0,
      packetOf 0 { op := oReadResp, key := 0, off := 0, payload := (List.replicate 8 0) },
      readAs 0 { op := oReadResp, key := 0, off := 0, payload := (List.replicate 8 0) }, _,
      { id := 0, index := 0, slots := 1, cookie := 0, len := 8, cqe := false, left := 1, sarup := some { op := 3, conn := 262143 } }, { op := 3, conn := 262143 }, _,
      by decide +kernel, by decide +kernel, rfl, by decide +kernel, by decide +kernel, by decide +kernel, by decide +kernel, by decide +kernel, by decide +kernel, rfl,
      by decide +kernel⟩,
    ⟨taking 0 { op := oAtomicResp, key := 0, off := 0, payload := (List.replicate 8 0) } (ready {}), 0, 0,
      packetOf 0 { op := oAtomicResp, key := 0, off := 0, payload := (List.replicate 8 0) },
      readAs 0 { op := oAtomicResp, key := 0, off := 0, payload := (List.replicate 8 0) }, _, by decide +kernel, by decide +kernel, rfl, by decide +kernel⟩,
    ⟨taking 0 { op := oFlushResp, key := 0, off := 0, payload := [] } (ready {}), 0, 0, packetOf 0 { op := oFlushResp, key := 0, off := 0, payload := [] },
      readAs 0 { op := oFlushResp, key := 0, off := 0, payload := [] }, _, by decide +kernel, by decide +kernel, rfl, by decide +kernel⟩,
    ⟨taking 0 { op := oFlush, key := 0, off := 0, payload := [] } (ready {}), 0, 0, packetOf 0 { op := oFlush, key := 0, off := 0, payload := [] },
      readAs 0 { op := oFlush, key := 0, off := 0, payload := [] }, _, by decide +kernel, by decide +kernel, rfl, by decide +kernel⟩⟩

/-- SarupDuplicates: states and operands that meet the premises of each clause. -/
theorem witness_SarupDuplicates :
    (∃ (s : State) (k g : Nat) (p : Packet) (h : SarupIn) (t : State), ∃ u, s.xpt.input[k]? = some (g, p) ∧ s.sarupFate g p.bytes = .packet h ∧ t = s.touchCtx h.conn ∧
      (2 ^ 31 ≤ psnDiff h.psn (t.conn h.conn).recvBase ∨ psnDiff h.psn (t.conn h.conn).recvBase < 1024 ∧ h.psn ∈ (t.conn h.conn).got) ∧
      u = (((t.bump .XPT_STAT 0 3).sendAck h.conn).xptTake k).settle ∧ h.body.op = oWrite) ∧
    (∃ (s : State) (k g : Nat) (p : Packet) (h : SarupIn) (t : State), ∃ u, s.xpt.input[k]? = some (g, p) ∧ s.sarupFate g p.bytes = .packet h ∧ t = s.touchCtx h.conn ∧
      (2 ^ 31 ≤ psnDiff h.psn (t.conn h.conn).recvBase ∨ psnDiff h.psn (t.conn h.conn).recvBase < 1024 ∧ h.psn ∈ (t.conn h.conn).got) ∧
      u = (((t.bump .XPT_STAT 0 3).sendAck h.conn).xptTake k).settle ∧ h.body.op = oWriteImm) ∧
    (∃ (s : State) (k g : Nat) (p : Packet) (h : SarupIn) (t : State), ∃ u, s.xpt.input[k]? = some (g, p) ∧ s.sarupFate g p.bytes = .packet h ∧ t = s.touchCtx h.conn ∧
      (2 ^ 31 ≤ psnDiff h.psn (t.conn h.conn).recvBase ∨ psnDiff h.psn (t.conn h.conn).recvBase < 1024 ∧ h.psn ∈ (t.conn h.conn).got) ∧
      u = (((t.bump .XPT_STAT 0 3).sendAck h.conn).xptTake k).settle ∧ h.body.op = oSend) ∧
    (∃ (s : State) (k g : Nat) (p : Packet) (h : SarupIn) (t : State), ∃ u, s.xpt.input[k]? = some (g, p) ∧ s.sarupFate g p.bytes = .packet h ∧ t = s.touchCtx h.conn ∧
      (2 ^ 31 ≤ psnDiff h.psn (t.conn h.conn).recvBase ∨ psnDiff h.psn (t.conn h.conn).recvBase < 1024 ∧ h.psn ∈ (t.conn h.conn).got) ∧
      u = (((t.bump .XPT_STAT 0 3).sendAck h.conn).xptTake k).settle ∧ h.body.op = oReadReq) ∧
    (∃ (s : State) (k g : Nat) (p : Packet) (h : SarupIn) (t : State), ∃ u, s.xpt.input[k]? = some (g, p) ∧ s.sarupFate g p.bytes = .packet h ∧ t = s.touchCtx h.conn ∧
      (2 ^ 31 ≤ psnDiff h.psn (t.conn h.conn).recvBase ∨ psnDiff h.psn (t.conn h.conn).recvBase < 1024 ∧ h.psn ∈ (t.conn h.conn).got) ∧
      u = (((t.bump .XPT_STAT 0 3).sendAck h.conn).xptTake k).settle ∧ h.body.op = oReadResp) ∧
    (∃ (s : State) (k g : Nat) (p : Packet) (h : SarupIn) (t : State), ∃ u, s.xpt.input[k]? = some (g, p) ∧ s.sarupFate g p.bytes = .packet h ∧ t = s.touchCtx h.conn ∧
      (2 ^ 31 ≤ psnDiff h.psn (t.conn h.conn).recvBase ∨ psnDiff h.psn (t.conn h.conn).recvBase < 1024 ∧ h.psn ∈ (t.conn h.conn).got) ∧
      u = (((t.bump .XPT_STAT 0 3).sendAck h.conn).xptTake k).settle ∧ h.body.op = oFetchAdd) ∧
    (∃ (s : State) (k g : Nat) (p : Packet) (h : SarupIn) (t : State), ∃ u, s.xpt.input[k]? = some (g, p) ∧ s.sarupFate g p.bytes = .packet h ∧ t = s.touchCtx h.conn ∧
      (2 ^ 31 ≤ psnDiff h.psn (t.conn h.conn).recvBase ∨ psnDiff h.psn (t.conn h.conn).recvBase < 1024 ∧ h.psn ∈ (t.conn h.conn).got) ∧
      u = (((t.bump .XPT_STAT 0 3).sendAck h.conn).xptTake k).settle ∧ h.body.op = oCas) ∧
    (∃ (s : State) (k g : Nat) (p : Packet) (h : SarupIn) (t : State), ∃ u, s.xpt.input[k]? = some (g, p) ∧ s.sarupFate g p.bytes = .packet h ∧ t = s.touchCtx h.conn ∧
      (2 ^ 31 ≤ psnDiff h.psn (t.conn h.conn).recvBase ∨ psnDiff h.psn (t.conn h.conn).recvBase < 1024 ∧ h.psn ∈ (t.conn h.conn).got) ∧
      u = (((t.bump .XPT_STAT 0 3).sendAck h.conn).xptTake k).settle ∧ h.body.op = oAtomicResp) ∧
    (∃ (s : State) (k g : Nat) (p : Packet) (h : SarupIn) (t : State), ∃ u, s.xpt.input[k]? = some (g, p) ∧ s.sarupFate g p.bytes = .packet h ∧ t = s.touchCtx h.conn ∧
      (2 ^ 31 ≤ psnDiff h.psn (t.conn h.conn).recvBase ∨ psnDiff h.psn (t.conn h.conn).recvBase < 1024 ∧ h.psn ∈ (t.conn h.conn).got) ∧
      u = (((t.bump .XPT_STAT 0 3).sendAck h.conn).xptTake k).settle ∧ h.body.op = oFlush) ∧
    (∃ (s : State) (k g : Nat) (p : Packet) (h : SarupIn) (t : State), ∃ u, s.xpt.input[k]? = some (g, p) ∧ s.sarupFate g p.bytes = .packet h ∧ t = s.touchCtx h.conn ∧
      (2 ^ 31 ≤ psnDiff h.psn (t.conn h.conn).recvBase ∨ psnDiff h.psn (t.conn h.conn).recvBase < 1024 ∧ h.psn ∈ (t.conn h.conn).got) ∧
      u = (((t.bump .XPT_STAT 0 3).sendAck h.conn).xptTake k).settle ∧ h.body.op = oFlush) ∧
    (∃ (s : State) (k g : Nat) (p : Packet) (h : SarupIn) (t : State), ∃ u, s.xpt.input[k]? = some (g, p) ∧ s.sarupFate g p.bytes = .packet h ∧ t = s.touchCtx h.conn ∧
      (2 ^ 31 ≤ psnDiff h.psn (t.conn h.conn).recvBase ∨ psnDiff h.psn (t.conn h.conn).recvBase < 1024 ∧ h.psn ∈ (t.conn h.conn).got) ∧
      u = (((t.bump .XPT_STAT 0 3).sendAck h.conn).xptTake k).settle ∧ h.body.op = oFlushResp) :=
  ⟨⟨taking 0 { op := oWrite, key := 0, off := 0, payload := [] } (ready { recvBase := 1 }), 0, 0, packetOf 0 { op := oWrite, key := 0, off := 0, payload := [] },
    readAs 0 { op := oWrite, key := 0, off := 0, payload := [] }, _, _, by decide +kernel, by decide +kernel, rfl, by decide +kernel, rfl, by decide +kernel⟩,
    ⟨taking 0 { op := oWriteImm, key := 0, off := 0, payload := [] } (ready { recvBase := 1 }), 0, 0, packetOf 0 { op := oWriteImm, key := 0, off := 0, payload := [] },
      readAs 0 { op := oWriteImm, key := 0, off := 0, payload := [] }, _, _, by decide +kernel, by decide +kernel, rfl, by decide +kernel, rfl, by decide +kernel⟩,
    ⟨taking 0 { op := oSend, key := 0, off := 0, payload := [] } (ready { recvBase := 1 }), 0, 0, packetOf 0 { op := oSend, key := 0, off := 0, payload := [] },
      readAs 0 { op := oSend, key := 0, off := 0, payload := [] }, _, _, by decide +kernel, by decide +kernel, rfl, by decide +kernel, rfl, by decide +kernel⟩,
    ⟨taking 0 { op := oReadReq, key := 0, off := 0, payload := [] } (ready { recvBase := 1 }), 0, 0, packetOf 0 { op := oReadReq, key := 0, off := 0, payload := [] },
      readAs 0 { op := oReadReq, key := 0, off := 0, payload := [] }, _, _, by decide +kernel, by decide +kernel, rfl, by decide +kernel, rfl, by decide +kernel⟩,
    ⟨taking 0 { op := oReadResp, key := 0, off := 0, payload := [] } (ready { recvBase := 1 }), 0, 0, packetOf 0 { op := oReadResp, key := 0, off := 0, payload := [] },
      readAs 0 { op := oReadResp, key := 0, off := 0, payload := [] }, _, _, by decide +kernel, by decide +kernel, rfl, by decide +kernel, rfl, by decide +kernel⟩,
    ⟨taking 0 { op := oFetchAdd, key := 0, off := 0, payload := [] } (ready { recvBase := 1 }), 0, 0, packetOf 0 { op := oFetchAdd, key := 0, off := 0, payload := [] },
      readAs 0 { op := oFetchAdd, key := 0, off := 0, payload := [] }, _, _, by decide +kernel, by decide +kernel, rfl, by decide +kernel, rfl, by decide +kernel⟩,
    ⟨taking 0 { op := oCas, key := 0, off := 0, payload := [] } (ready { recvBase := 1 }), 0, 0, packetOf 0 { op := oCas, key := 0, off := 0, payload := [] },
      readAs 0 { op := oCas, key := 0, off := 0, payload := [] }, _, _, by decide +kernel, by decide +kernel, rfl, by decide +kernel, rfl, by decide +kernel⟩,
    ⟨taking 0 { op := oAtomicResp, key := 0, off := 0, payload := [] } (ready { recvBase := 1 }), 0, 0,
      packetOf 0 { op := oAtomicResp, key := 0, off := 0, payload := [] }, readAs 0 { op := oAtomicResp, key := 0, off := 0, payload := [] }, _, _, by decide +kernel,
      by decide +kernel, rfl, by decide +kernel, rfl, by decide +kernel⟩,
    ⟨taking 0 { op := oFlush, key := 0, off := 0, payload := [] } (ready { recvBase := 1 }), 0, 0, packetOf 0 { op := oFlush, key := 0, off := 0, payload := [] },
      readAs 0 { op := oFlush, key := 0, off := 0, payload := [] }, _, _, by decide +kernel, by decide +kernel, rfl, by decide +kernel, rfl, by decide +kernel⟩,
    ⟨taking 1023 { op := oFlush, key := 0, off := 0, payload := [] } (ready { got := [1023] }), 0, 0, packetOf 1023 { op := oFlush, key := 0, off := 0, payload := [] },
      readAs 1023 { op := oFlush, key := 0, off := 0, payload := [] }, _, _, by decide +kernel, by decide +kernel, rfl, by decide +kernel, rfl, by decide +kernel⟩,
    ⟨taking 0 { op := oFlushResp, key := 0, off := 0, payload := [] } (ready { recvBase := 1 }), 0, 0, packetOf 0 { op := oFlushResp, key := 0, off := 0, payload := [] },
      readAs 0 { op := oFlushResp, key := 0, off := 0, payload := [] }, _, _, by decide +kernel, by decide +kernel, rfl, by decide +kernel, rfl, by decide +kernel⟩⟩

/-- SarupBeyondWindow: states and operands that meet the premises of each clause. -/
theorem witness_SarupBeyondWindow :
    (∃ (s : State) (k g : Nat) (p : Packet) (h : SarupIn) (t : State), ∃ u, s.xpt.input[k]? = some (g, p) ∧ s.sarupFate g p.bytes = .packet h ∧ t = s.touchCtx h.conn ∧
      1024 ≤ psnDiff h.psn (t.conn h.conn).recvBase ∧ psnDiff h.psn (t.conn h.conn).recvBase < 2 ^ 31 ∧
      u = (((t.bump .XPT_STAT 0 4).fire 27 22 0 initXpt).xptTake k).settle ∧ h.body.op = oWrite) ∧
    (∃ (s : State) (k g : Nat) (p : Packet) (h : SarupIn) (t : State), ∃ u, s.xpt.input[k]? = some (g, p) ∧ s.sarupFate g p.bytes = .packet h ∧ t = s.touchCtx h.conn ∧
      1024 ≤ psnDiff h.psn (t.conn h.conn).recvBase ∧ psnDiff h.psn (t.conn h.conn).recvBase < 2 ^ 31 ∧
      u = (((t.bump .XPT_STAT 0 4).fire 27 22 0 initXpt).xptTake k).settle ∧ h.body.op = oWriteImm) ∧
    (∃ (s : State) (k g : Nat) (p : Packet) (h : SarupIn) (t : State), ∃ u, s.xpt.input[k]? = some (g, p) ∧ s.sarupFate g p.bytes = .packet h ∧ t = s.touchCtx h.conn ∧
      1024 ≤ psnDiff h.psn (t.conn h.conn).recvBase ∧ psnDiff h.psn (t.conn h.conn).recvBase < 2 ^ 31 ∧
      u = (((t.bump .XPT_STAT 0 4).fire 27 22 0 initXpt).xptTake k).settle ∧ h.body.op = oSend) ∧
    (∃ (s : State) (k g : Nat) (p : Packet) (h : SarupIn) (t : State), ∃ u, s.xpt.input[k]? = some (g, p) ∧ s.sarupFate g p.bytes = .packet h ∧ t = s.touchCtx h.conn ∧
      1024 ≤ psnDiff h.psn (t.conn h.conn).recvBase ∧ psnDiff h.psn (t.conn h.conn).recvBase < 2 ^ 31 ∧
      u = (((t.bump .XPT_STAT 0 4).fire 27 22 0 initXpt).xptTake k).settle ∧ h.body.op = oReadReq) ∧
    (∃ (s : State) (k g : Nat) (p : Packet) (h : SarupIn) (t : State), ∃ u, s.xpt.input[k]? = some (g, p) ∧ s.sarupFate g p.bytes = .packet h ∧ t = s.touchCtx h.conn ∧
      1024 ≤ psnDiff h.psn (t.conn h.conn).recvBase ∧ psnDiff h.psn (t.conn h.conn).recvBase < 2 ^ 31 ∧
      u = (((t.bump .XPT_STAT 0 4).fire 27 22 0 initXpt).xptTake k).settle ∧ h.body.op = oReadResp) ∧
    (∃ (s : State) (k g : Nat) (p : Packet) (h : SarupIn) (t : State), ∃ u, s.xpt.input[k]? = some (g, p) ∧ s.sarupFate g p.bytes = .packet h ∧ t = s.touchCtx h.conn ∧
      1024 ≤ psnDiff h.psn (t.conn h.conn).recvBase ∧ psnDiff h.psn (t.conn h.conn).recvBase < 2 ^ 31 ∧
      u = (((t.bump .XPT_STAT 0 4).fire 27 22 0 initXpt).xptTake k).settle ∧ h.body.op = oFetchAdd) ∧
    (∃ (s : State) (k g : Nat) (p : Packet) (h : SarupIn) (t : State), ∃ u, s.xpt.input[k]? = some (g, p) ∧ s.sarupFate g p.bytes = .packet h ∧ t = s.touchCtx h.conn ∧
      1024 ≤ psnDiff h.psn (t.conn h.conn).recvBase ∧ psnDiff h.psn (t.conn h.conn).recvBase < 2 ^ 31 ∧
      u = (((t.bump .XPT_STAT 0 4).fire 27 22 0 initXpt).xptTake k).settle ∧ h.body.op = oCas) ∧
    (∃ (s : State) (k g : Nat) (p : Packet) (h : SarupIn) (t : State), ∃ u, s.xpt.input[k]? = some (g, p) ∧ s.sarupFate g p.bytes = .packet h ∧ t = s.touchCtx h.conn ∧
      1024 ≤ psnDiff h.psn (t.conn h.conn).recvBase ∧ psnDiff h.psn (t.conn h.conn).recvBase < 2 ^ 31 ∧
      u = (((t.bump .XPT_STAT 0 4).fire 27 22 0 initXpt).xptTake k).settle ∧ h.body.op = oAtomicResp) ∧
    (∃ (s : State) (k g : Nat) (p : Packet) (h : SarupIn) (t : State), ∃ u, s.xpt.input[k]? = some (g, p) ∧ s.sarupFate g p.bytes = .packet h ∧ t = s.touchCtx h.conn ∧
      1024 ≤ psnDiff h.psn (t.conn h.conn).recvBase ∧ psnDiff h.psn (t.conn h.conn).recvBase < 2 ^ 31 ∧
      u = (((t.bump .XPT_STAT 0 4).fire 27 22 0 initXpt).xptTake k).settle ∧ h.body.op = oFlush) ∧
    (∃ (s : State) (k g : Nat) (p : Packet) (h : SarupIn) (t : State), ∃ u, s.xpt.input[k]? = some (g, p) ∧ s.sarupFate g p.bytes = .packet h ∧ t = s.touchCtx h.conn ∧
      1024 ≤ psnDiff h.psn (t.conn h.conn).recvBase ∧ psnDiff h.psn (t.conn h.conn).recvBase < 2 ^ 31 ∧
      u = (((t.bump .XPT_STAT 0 4).fire 27 22 0 initXpt).xptTake k).settle ∧ h.body.op = oFlush) ∧
    (∃ (s : State) (k g : Nat) (p : Packet) (h : SarupIn) (t : State), ∃ u, s.xpt.input[k]? = some (g, p) ∧ s.sarupFate g p.bytes = .packet h ∧ t = s.touchCtx h.conn ∧
      1024 ≤ psnDiff h.psn (t.conn h.conn).recvBase ∧ psnDiff h.psn (t.conn h.conn).recvBase < 2 ^ 31 ∧
      u = (((t.bump .XPT_STAT 0 4).fire 27 22 0 initXpt).xptTake k).settle ∧ h.body.op = oFlushResp) :=
  ⟨⟨taking 1024 { op := oWrite, key := 0, off := 0, payload := [] } (ready {}), 0, 0, packetOf 1024 { op := oWrite, key := 0, off := 0, payload := [] },
    readAs 1024 { op := oWrite, key := 0, off := 0, payload := [] }, _, _, by decide +kernel, by decide +kernel, rfl, by decide +kernel, by decide +kernel, rfl,
    by decide +kernel⟩,
    ⟨taking 1024 { op := oWriteImm, key := 0, off := 0, payload := [] } (ready {}), 0, 0, packetOf 1024 { op := oWriteImm, key := 0, off := 0, payload := [] },
      readAs 1024 { op := oWriteImm, key := 0, off := 0, payload := [] }, _, _, by decide +kernel, by decide +kernel, rfl, by decide +kernel, by decide +kernel, rfl,
      by decide +kernel⟩,
    ⟨taking 1024 { op := oSend, key := 0, off := 0, payload := [] } (ready {}), 0, 0, packetOf 1024 { op := oSend, key := 0, off := 0, payload := [] },
      readAs 1024 { op := oSend, key := 0, off := 0, payload := [] }, _, _, by decide +kernel, by decide +kernel, rfl, by decide +kernel, by decide +kernel, rfl,
      by decide +kernel⟩,
    ⟨taking 1024 { op := oReadReq, key := 0, off := 0, payload := [] } (ready {}), 0, 0, packetOf 1024 { op := oReadReq, key := 0, off := 0, payload := [] },
      readAs 1024 { op := oReadReq, key := 0, off := 0, payload := [] }, _, _, by decide +kernel, by decide +kernel, rfl, by decide +kernel, by decide +kernel, rfl,
      by decide +kernel⟩,
    ⟨taking 1024 { op := oReadResp, key := 0, off := 0, payload := [] } (ready {}), 0, 0, packetOf 1024 { op := oReadResp, key := 0, off := 0, payload := [] },
      readAs 1024 { op := oReadResp, key := 0, off := 0, payload := [] }, _, _, by decide +kernel, by decide +kernel, rfl, by decide +kernel, by decide +kernel, rfl,
      by decide +kernel⟩,
    ⟨taking 1024 { op := oFetchAdd, key := 0, off := 0, payload := [] } (ready {}), 0, 0, packetOf 1024 { op := oFetchAdd, key := 0, off := 0, payload := [] },
      readAs 1024 { op := oFetchAdd, key := 0, off := 0, payload := [] }, _, _, by decide +kernel, by decide +kernel, rfl, by decide +kernel, by decide +kernel, rfl,
      by decide +kernel⟩,
    ⟨taking 1024 { op := oCas, key := 0, off := 0, payload := [] } (ready {}), 0, 0, packetOf 1024 { op := oCas, key := 0, off := 0, payload := [] },
      readAs 1024 { op := oCas, key := 0, off := 0, payload := [] }, _, _, by decide +kernel, by decide +kernel, rfl, by decide +kernel, by decide +kernel, rfl,
      by decide +kernel⟩,
    ⟨taking 1024 { op := oAtomicResp, key := 0, off := 0, payload := [] } (ready {}), 0, 0, packetOf 1024 { op := oAtomicResp, key := 0, off := 0, payload := [] },
      readAs 1024 { op := oAtomicResp, key := 0, off := 0, payload := [] }, _, _, by decide +kernel, by decide +kernel, rfl, by decide +kernel, by decide +kernel, rfl,
      by decide +kernel⟩,
    ⟨taking 1024 { op := oFlush, key := 0, off := 0, payload := [] } (ready {}), 0, 0, packetOf 1024 { op := oFlush, key := 0, off := 0, payload := [] },
      readAs 1024 { op := oFlush, key := 0, off := 0, payload := [] }, _, _, by decide +kernel, by decide +kernel, rfl, by decide +kernel, by decide +kernel, rfl,
      by decide +kernel⟩,
    ⟨taking 2147483647 { op := oFlush, key := 0, off := 0, payload := [] } (ready {}), 0, 0, packetOf 2147483647 { op := oFlush, key := 0, off := 0, payload := [] },
      readAs 2147483647 { op := oFlush, key := 0, off := 0, payload := [] }, _, _, by decide +kernel, by decide +kernel, rfl, by decide +kernel, by decide +kernel, rfl,
      by decide +kernel⟩,
    ⟨taking 1024 { op := oFlushResp, key := 0, off := 0, payload := [] } (ready {}), 0, 0, packetOf 1024 { op := oFlushResp, key := 0, off := 0, payload := [] },
      readAs 1024 { op := oFlushResp, key := 0, off := 0, payload := [] }, _, _, by decide +kernel, by decide +kernel, rfl, by decide +kernel, by decide +kernel, rfl,
      by decide +kernel⟩⟩

/-- EnabledWindowKept: states and operands that meet the premises of each clause. -/
theorem witness_EnabledWindowKept :
    ∃ (s : State) (w : Word), s.mode ≠ NIGHT ∧ Quiet s ∧ Mild s 27 23 ∧ wfld w XPT_CMD.OP = 4 ∧ s.isSet XPT_CMD_STATUS.BUSY = false ∧ s.winEn (wfld w XPT_CMD.INDEX) :=
  ⟨opened true day, BitVec.ofNat 64 (4 * 2 ^ XPT_CMD.OP.lo + 1048575 * 2 ^ XPT_CMD.INDEX.lo), by unfold Quiet Mild; decide +kernel⟩

/-- StorageControllersComplete: states and operands that meet the premises of each clause. -/
theorem witness_StorageControllersComplete :
    (∃ (s : State) (f : Fin 2080) (v : BitVec 32) (c : NvmCtl), ∃ t d, c = s.nvmCtl f ∧ s.isNvmeFn f ∧ s.hostReaches f ∧ t = s.hostTlp f ∧ d = t.nvmCtl f ∧
      bitOf v.toNat 0 ∧ d.enabled = false ∧ d.rdy = false) ∧
    (∃ (s : State) (f : Fin 2080) (v : BitVec 32) (c : NvmCtl), ∃ t d, c = s.nvmCtl f ∧ s.isNvmeFn f ∧ s.hostReaches f ∧ t = s.hostTlp f ∧ d = t.nvmCtl f ∧
      bitOf v.toNat 0 = false ∧ d.enabled) ∧
    (∃ (s : State) (f : Fin 2080) (v : BitVec 32) (c : NvmCtl), ∃ t d, c = s.nvmCtl f ∧ s.isNvmeFn f ∧ s.hostReaches f ∧ t = s.hostTlp f ∧ d = t.nvmCtl f ∧
      bits v.toNat 15 14 ≠ 0 ∧ bitOf v.toNat 0 ∧ d.enabled) ∧
    (∃ (s : State) (f : Fin 2080) (v : BitVec 32) (q : Nat) (c : NvmCtl), ∃ t d, c = s.nvmCtl f ∧ s.isNvmeFn f ∧ s.hostReaches f ∧ t = s.hostTlp f ∧ d = t.nvmCtl f ∧
      d.enabled ∧ v.toNat % 65536 < (d.sq q).size) ∧
    (∃ (s : State) (f : Fin 2080) (v : BitVec 32) (q : Nat) (c : NvmCtl), ∃ t d, c = s.nvmCtl f ∧ s.isNvmeFn f ∧ s.hostReaches f ∧ t = s.hostTlp f ∧ d = t.nvmCtl f ∧
      d.enabled ∧ v.toNat % 65536 < (d.cq q).size) ∧
    (∃ (s : State) (f : Fin 2080) (c : NvmCtl), c = s.nvmCtl f ∧ c.enabled ∧ s.isSet NVM_CFG.EN ∧ s.inService ∧ s.isSet NVM_FN_RES.VALID 0 f ∧ s.fnInReset f = false) ∧
    (∃ (s : State) (f : Fin 2080) (c : NvmCtl), c = s.nvmCtl f ∧ c.shst = 1 ∧ ((∀ m ∈ s.nvm.cmds, m.fn = f.val → m.stage = .event)) ∧ s.nvm.dirty = 0) ∧
    (∃ (s : State) (f : Fin 2080) (q : Nat) (c : NvmCtl), ∃ r, c = s.nvmCtl f ∧ s.ctlFetches f ∧ s.nextSq f = some q ∧ s.readPending f (· == .nvmeCommand f q) = false ∧
      cplError r = none) ∧
    (∃ (s : State) (f : Fin 2080) (q : Nat) (c : NvmCtl), ∃ r e, c = s.nvmCtl f ∧ s.ctlFetches f ∧ s.nextSq f = some q ∧ s.readPending f (· == .nvmeCommand f q) = false ∧
      cplError r = some e) ∧
    (∃ (s : State) (f : Fin 2080) (c : NvmCtl), ∃ h m, c = s.nvmCtl f ∧ s.nvmCmd h = some m ∧ m.sq ≠ 0 ∧ m.stage = .held ∧ s.mayDispatch m ∧ m.opcode = 0) ∧
    (∃ (s : State) (f : Fin 2080) (c : NvmCtl), ∃ h m, c = s.nvmCtl f ∧ s.nvmCmd h = some m ∧ m.sq ≠ 0 ∧ m.stage = .held ∧ s.mayDispatch m ∧ m.opcode = 1) ∧
    (∃ (s : State) (f : Fin 2080) (c : NvmCtl), ∃ h m, c = s.nvmCtl f ∧ s.nvmCmd h = some m ∧ m.sq ≠ 0 ∧ m.stage = .held ∧ s.mayDispatch m ∧ m.opcode = 2) ∧
    (∃ (s : State) (f : Fin 2080) (c : NvmCtl), ∃ h m, c = s.nvmCtl f ∧ s.nvmCmd h = some m ∧ m.sq ≠ 0 ∧ m.stage = .held ∧ s.mayDispatch m ∧ m.opcode = 5) ∧
    (∃ (s : State) (f : Fin 2080) (c : NvmCtl), ∃ h m, c = s.nvmCtl f ∧ s.nvmCmd h = some m ∧ m.sq ≠ 0 ∧ m.stage = .held ∧ s.mayDispatch m ∧ m.opcode = 8) ∧
    (∃ (s : State) (f : Fin 2080) (c : NvmCtl), ∃ h m, c = s.nvmCtl f ∧ s.nvmCmd h = some m ∧ m.sq ≠ 0 ∧ m.stage = .held ∧ s.mayDispatch m ∧ m.opcode = 9) ∧
    (∃ (s : State) (f : Fin 2080) (w : Word) (c : NvmCtl), ∃ n k g, ∃ d u, c = s.nvmCtl f ∧ s.mode ≠ NIGHT ∧ n = wfld w NVM_CMD.NS ∧ k = wfld w NVM_CMD.NSID ∧
      g = wfld w NVM_CMD.FUNCTION ∧ wfld w NVM_CMD.OP = 1 ∧ ((∀ a ∈ s.attachments, attached (s.attachment a.1 a.2) → attNs (s.attachment a.1 a.2) = n →
      attDirty (s.attachment a.1 a.2) = 0 ∧ s.attBusy a.1 a.2 = false)) ∧ (d = (fun i => (s.raw .NVM_CMD_DATA 0 i).toNat)) ∧
      (u = s.onNvm (fun x => { x with ns := (((x.ns.set 0 (4 * n) (d 0 % 2 ^ 52)).set 0 (4 * n + 1) (d 1 % 65536)).set 0 (4 * n + 2) (d 2)).set 0 (4 * n + 3) (d 3) }))) ∧
    (∃ (s : State) (f : Fin 2080) (w : Word) (c : NvmCtl), ∃ n k g, c = s.nvmCtl f ∧ s.mode ≠ NIGHT ∧ n = wfld w NVM_CMD.NS ∧ k = wfld w NVM_CMD.NSID ∧
      g = wfld w NVM_CMD.FUNCTION ∧ wfld w NVM_CMD.OP = 2) ∧
    (∃ (s : State) (f : Fin 2080) (w : Word) (c : NvmCtl), ∃ n k g, c = s.nvmCtl f ∧ s.mode ≠ NIGHT ∧ n = wfld w NVM_CMD.NS ∧ k = wfld w NVM_CMD.NSID ∧
      g = wfld w NVM_CMD.FUNCTION ∧ wfld w NVM_CMD.OP = 3 ∧ g < 2080 ∧ 0 < k ∧ k ≤ 256 ∧ s.isNvmeFn g ∧ attached (s.attachment g k) = false ∧ bitOf (s.nsWord n 0) 49) ∧
    (∃ (s : State) (f : Fin 2080) (w : Word) (c : NvmCtl), ∃ n k g, c = s.nvmCtl f ∧ s.mode ≠ NIGHT ∧ n = wfld w NVM_CMD.NS ∧ k = wfld w NVM_CMD.NSID ∧
      g = wfld w NVM_CMD.FUNCTION ∧ wfld w NVM_CMD.OP = 4 ∧ g < 2080 ∧ 0 < k ∧ k ≤ 256 ∧ s.isNvmeFn g ∧ attached (s.attachment g k) ∧ attDirty (s.attachment g k) = 0 ∧
      s.attBusy g k = false) ∧
    (∃ (s : State) (f : Fin 2080) (w : Word) (c : NvmCtl), c = s.nvmCtl f ∧ s.mode ≠ NIGHT ∧ s.isNvmeFn f ∧ c.enabled = false ∧
      (wfld w NVM_FN_RES.VALID = 0 ∨ s.nvmResRefused f w = false)) :=
  ⟨⟨stored {}, 31, 1, _, _, _, rfl, by decide +kernel, by decide +kernel, rfl, rfl, by decide +kernel⟩,
    ⟨stored ctl, 31, 0, _, _, _, rfl, by decide +kernel, by decide +kernel, rfl, rfl, by decide +kernel⟩,
    ⟨stored ctl, 31, BitVec.ofNat 32 (1 + 2 ^ 14), _, _, _, rfl, by decide +kernel, by decide +kernel, rfl, rfl, by decide +kernel⟩,
    ⟨stored ctl, 31, 1, 1, _, _, _, rfl, by decide +kernel, by decide +kernel, rfl, rfl, by decide +kernel⟩,
    ⟨stored ctl, 31, 1, 1, _, _, _, rfl, by decide +kernel, by decide +kernel, rfl, rfl, by decide +kernel⟩,
    ⟨stored ctl, 31, _, rfl, by decide +kernel⟩,
    ⟨stored { ctl with shst := 1 }, 31, _, rfl, by decide +kernel⟩,
    ⟨stored ctl, 31, 1, _, .success, rfl, by decide +kernel⟩,
    ⟨stored ctl, 31, 1, _, .abort, .completerAbort, rfl, by decide +kernel⟩,
    ⟨stored ctl [nvmOf [(0, 0)]], 31, _, 5, nvmOf [(0, 0)], rfl, by decide +kernel⟩,
    ⟨stored ctl [nvmOf [(0, 1)]], 31, _, 5, nvmOf [(0, 1)], rfl, by decide +kernel⟩,
    ⟨stored ctl [nvmOf [(0, 2)]], 31, _, 5, nvmOf [(0, 2)], rfl, by decide +kernel⟩,
    ⟨stored ctl [nvmOf [(0, 5)]], 31, _, 5, nvmOf [(0, 5)], rfl, by decide +kernel⟩,
    ⟨stored ctl [nvmOf [(0, 8)]], 31, _, 5, nvmOf [(0, 8)], rfl, by decide +kernel⟩,
    ⟨stored ctl [nvmOf [(0, 9)]], 31, _, 5, nvmOf [(0, 9)], rfl, by decide +kernel⟩,
    ⟨stored ctl, 31, BitVec.ofNat 64 (1 * 2 ^ NVM_CMD.OP.lo + 7 * 2 ^ NVM_CMD.NS.lo + 1 * 2 ^ NVM_CMD.NSID.lo + 31 * 2 ^ NVM_CMD.FUNCTION.lo), _, _, _, _, _, _, rfl,
      by decide +kernel, rfl, rfl, rfl, by decide +kernel, by decide +kernel, rfl, rfl⟩,
    ⟨stored ctl, 31, BitVec.ofNat 64 (2 * 2 ^ NVM_CMD.OP.lo + 7 * 2 ^ NVM_CMD.NS.lo + 1 * 2 ^ NVM_CMD.NSID.lo + 31 * 2 ^ NVM_CMD.FUNCTION.lo), _, _, _, _, rfl,
      by decide +kernel, rfl, rfl, rfl, by decide +kernel⟩,
    ⟨(stored ctl).onNvm fun n => { n with ns := n.ns.set 0 28 (2 ^ 49) }, 31,
      BitVec.ofNat 64 (3 * 2 ^ NVM_CMD.OP.lo + 7 * 2 ^ NVM_CMD.NS.lo + 1 * 2 ^ NVM_CMD.NSID.lo + 31 * 2 ^ NVM_CMD.FUNCTION.lo), _, _, _, _, rfl, by decide +kernel, rfl,
      rfl, rfl, by decide +kernel⟩,
    ⟨attachedTo [], 31, BitVec.ofNat 64 (4 * 2 ^ NVM_CMD.OP.lo + 7 * 2 ^ NVM_CMD.NS.lo + 1 * 2 ^ NVM_CMD.NSID.lo + 31 * 2 ^ NVM_CMD.FUNCTION.lo), _, _, _, _, rfl,
      by decide +kernel, rfl, rfl, rfl, by decide +kernel⟩,
    ⟨stored {}, 31, 0, _, rfl, by decide +kernel⟩⟩

/-- StorageCommandsComplete: states and operands that meet the premises of each clause. -/
theorem witness_StorageCommandsComplete :
    (∃ (s : State) (h : Nat) (m : NvmCmd) (c : NvmCtl), ∃ cq, c = s.nvmCtl m.fn ∧ s.adminCmd h 1 = some m ∧ cq = bits (m.dw 11) 31 16 ∧ bits c.cc 19 16 = 6 ∧ 2 ≤ m.qsize ∧
      m.qid ≠ 0 ∧ m.qid ≤ s.nvmPairs m.fn ∧ (c.sq m.qid).size = 0 ∧ cq ≠ 0 ∧ cq ≤ s.nvmPairs m.fn ∧ (c.cq cq).size ≠ 0 ∧ bitOf (m.dw 11) 0 ∧ m.prp1 % c.page = 0) ∧
    (∃ (s : State) (h : Nat) (m : NvmCmd) (c : NvmCtl), ∃ iv, c = s.nvmCtl m.fn ∧ s.adminCmd h 5 = some m ∧ iv = bits (m.dw 11) 31 16 ∧ bits c.cc 23 20 = 4 ∧ 2 ≤ m.qsize ∧
      m.qid ≠ 0 ∧ m.qid ≤ s.nvmPairs m.fn ∧ (c.cq m.qid).size = 0 ∧ iv < s.nvmVectors m.fn ∧ bitOf (m.dw 11) 0 ∧ m.prp1 % c.page = 0) ∧
    (∃ (s : State) (h : Nat) (m : NvmCmd) (c : NvmCtl), c = s.nvmCtl m.fn ∧ s.adminCmd h 0 = some m ∧ m.qid ≠ 0 ∧ (c.sq m.qid).size ≠ 0) ∧
    (∃ (s : State) (h : Nat) (m : NvmCmd) (c : NvmCtl), c = s.nvmCtl m.fn ∧ s.adminCmd h 4 = some m ∧ m.qid ≠ 0 ∧ (c.cq m.qid).size ≠ 0 ∧ ((∀ e ∈ c.sqs.entries,
      e.1 = 0 ∨ e.2.cq ≠ m.qid))) ∧
    (∃ (s : State) (h : Nat) (m : NvmCmd) (c : NvmCtl), ∃ page len off r, c = s.nvmCtl m.fn ∧ s.adminCmd h 2 = some m ∧ s.logPage m.fn (bits (m.dw 10) 7 0) = some page ∧
      (bits (m.dw 10) 7 0 = 1 ∨ bits (m.dw 10) 7 0 = 4) ∧ len = 4 * (bits (m.dw 10) 31 16 + 65536 * bits (m.dw 11) 15 0 + 1) ∧ off = m.dw 12 + 2 ^ 32 * m.dw 13 ∧
      off ≤ page.length ∧ off % 4 = 0 ∧ s.adminData m (slice page off (min len (2 ^ 21))) = (r, true) ∧ bitOf (m.dw 10) 15) ∧
    (∃ (s : State) (h : Nat) (m : NvmCmd) (c : NvmCtl), ∃ r, c = s.nvmCtl m.fn ∧ s.adminCmd h 6 = some m ∧ bits (m.dw 10) 7 0 = 1 ∧
      s.adminData m (s.identifyCtl m.fn) = (r, true)) ∧
    (∃ (s : State) (h : Nat) (m : NvmCmd) (c : NvmCtl), ∃ r, c = s.nvmCtl m.fn ∧ s.adminCmd h 6 = some m ∧ bits (m.dw 10) 7 0 = 0 ∧ 0 < m.nsid ∧ m.nsid ≤ 256 ∧
      attached (s.attachment m.fn m.nsid) ∧ s.adminData m (s.identifyNs (attNs (s.attachment m.fn m.nsid))) = (r, true)) ∧
    (∃ (s : State) (h : Nat) (m : NvmCmd) (c : NvmCtl), ∃ x rest, c = s.nvmCtl m.fn ∧ s.adminCmd h 8 = some m ∧ s.nvm.cmds = x :: rest ∧ x.fn = m.fn ∧ x.sq = m.qid ∧
      x.sq ≠ 0 ∧ x.cid = bits (m.dw 10) 31 16 ∧ x.stage = .held) ∧
    (∃ (s : State) (h : Nat) (m : NvmCmd) (c : NvmCtl), c = s.nvmCtl m.fn ∧ s.adminCmd h 8 = some m ∧ (∀ x ∈ s.nvm.cmds, x.cid ≠ bits (m.dw 10) 31 16)) ∧
    (∃ (s : State) (h : Nat) (m : NvmCmd) (c : NvmCtl), ∃ fid, c = s.nvmCtl m.fn ∧ s.adminCmd h 9 = some m ∧ fid = bits (m.dw 10) 7 0 ∧ (fid = 1 ∨ fid = 0x0B) ∧
      bitOf (m.dw 10) 31 = false) ∧
    (∃ (s : State) (h : Nat) (m : NvmCmd) (c : NvmCtl), ∃ fid, c = s.nvmCtl m.fn ∧ s.adminCmd h 0x0A = some m ∧ fid = bits (m.dw 10) 7 0 ∧
      (fid = 1 ∨ fid = 6 ∨ fid = 8 ∨ fid = 0x0B ∨ fid = 0xC0)) ∧
    (∃ (s : State) (h : Nat) (m : NvmCmd) (c : NvmCtl), c = s.nvmCtl m.fn ∧ s.adminCmd h 0x0A = some m ∧ bits (m.dw 10) 7 0 = 7) ∧
    (∃ (s : State) (h : Nat) (m : NvmCmd) (c : NvmCtl), c = s.nvmCtl m.fn ∧ s.adminCmd h 0x0C = some m ∧
      ((s.nvm.cmds.filter fun x => x.fn == m.fn && x.stage == .event).length < 4)) ∧
    (∃ (s : State) (m : NvmCmd) (c : NvmCtl), ∃ x u, ∃ rest k, c = s.nvmCtl m.fn ∧ u = s.takeMsg 0 ∧ s.message 0 6 1 = some x ∧
      u.nvm.ready.get [] (clusterOf x.thread) = k :: rest ∧ x.epoch = u.epoch (clusterOf x.thread) ∧ u.nvmCmd k = some m) ∧
    (∃ (s : State) (m : NvmCmd) (c : NvmCtl), ∃ x u, ∃ w, c = s.nvmCtl m.fn ∧ u = s.takeMsg 0 ∧ s.message 0 6 2 = some x ∧ u.nvmCmd (getBits (x.word 1) 31 0) = some m ∧
      w = x.word 2) ∧
    (∃ (s : State) (m : NvmCmd) (c : NvmCtl), ∃ x u, ∃ f k v, c = s.nvmCtl m.fn ∧ u = s.takeMsg 0 ∧ f = getBits (x.word 1) 11 0 ∧ k = getBits (x.word 1) 20 12 ∧ f < 2080 ∧
      attached (u.attachment f k) ∧ v = (attDirty (u.attachment f k) : Int) + signed 32 (getBits (x.word 1) 63 32) ∧ s.message 0 6 3 = some x ∧ 0 ≤ v) ∧
    (∃ (s : State) (m : NvmCmd) (c : NvmCtl), ∃ x u, ∃ f k v, c = s.nvmCtl m.fn ∧ u = s.takeMsg 0 ∧ f = getBits (x.word 1) 11 0 ∧ k = getBits (x.word 1) 20 12 ∧ f < 2080 ∧
      attached (u.attachment f k) ∧ v = (attDirty (u.attachment f k) : Int) + signed 32 (getBits (x.word 1) 63 32) ∧ s.message 0 6 4 = some x) :=
  ⟨⟨stored ctl [nvmOf [(0, 1), (10, 2 + 2 ^ 16), (11, 1 + 2 ^ 16)] 0 .admin], 5, nvmOf [(0, 1), (10, 2 + 2 ^ 16), (11, 1 + 2 ^ 16)] 0 .admin, _, _, rfl,
    by decide +kernel, rfl, by decide +kernel⟩,
    ⟨stored ctl [nvmOf [(0, 5), (10, 2 + 2 ^ 16), (11, 1 + 3 * 2 ^ 16)] 0 .admin], 5, nvmOf [(0, 5), (10, 2 + 2 ^ 16), (11, 1 + 3 * 2 ^ 16)] 0 .admin, _, _, rfl,
      by decide +kernel, rfl, by decide +kernel⟩,
    ⟨stored ctl [nvmOf [(0, 0), (10, 1)] 0 .admin], 5, nvmOf [(0, 0), (10, 1)] 0 .admin, _, rfl, by decide +kernel⟩,
    ⟨stored { ctl with sqs := {} } [nvmOf [(0, 4), (10, 1)] 0 .admin], 5, nvmOf [(0, 4), (10, 1)] 0 .admin, _, rfl, by decide +kernel⟩,
    ⟨stored ctl [nvmOf [(0, 2), (10, 1 + 2 ^ 15)] 0 .admin], 5, nvmOf [(0, 2), (10, 1 + 2 ^ 15)] 0 .admin, _, _, 4, 0, _, rfl, by decide +kernel,
      logPage_errors (by decide +kernel), by decide +kernel, by decide +kernel, by decide +kernel, by decide +kernel, by decide +kernel, adminData_eq (by decide +kernel),
      by decide +kernel⟩,
    ⟨stored ctl [nvmOf [(0, 6), (10, 1)] 0 .admin], 5, nvmOf [(0, 6), (10, 1)] 0 .admin, _, _, rfl, by decide +kernel, by decide +kernel,
      adminData_eq (by decide +kernel)⟩,
    ⟨attachedTo [nvmOf [(0, 6), (1, 1)] 0 .admin], 5, nvmOf [(0, 6), (1, 1)] 0 .admin, _, _, rfl, by decide +kernel, by decide +kernel, by decide +kernel,
      by decide +kernel, by decide +kernel, adminData_eq (by decide +kernel)⟩,
    ⟨stored ctl [nvmOf [(0, 2 ^ 16)], { nvmOf [(0, 8), (10, 1 + 2 ^ 16)] 0 .admin with handle := 6 }], 6, { nvmOf [(0, 8), (10, 1 + 2 ^ 16)] 0 .admin with handle := 6 },
      _, nvmOf [(0, 2 ^ 16)], [{ nvmOf [(0, 8), (10, 1 + 2 ^ 16)] 0 .admin with handle := 6 }], rfl, by decide +kernel⟩,
    ⟨stored ctl [nvmOf [(0, 8), (10, 1 + 2 ^ 16)] 0 .admin], 5, nvmOf [(0, 8), (10, 1 + 2 ^ 16)] 0 .admin, _, rfl, by decide +kernel⟩,
    ⟨stored ctl [nvmOf [(0, 9), (10, 1)] 0 .admin], 5, nvmOf [(0, 9), (10, 1)] 0 .admin, _, _, rfl, by decide +kernel, rfl, by decide +kernel⟩,
    ⟨stored ctl [nvmOf [(0, 10), (10, 0xC0)] 0 .admin], 5, nvmOf [(0, 10), (10, 0xC0)] 0 .admin, _, _, rfl, by decide +kernel, rfl, by decide +kernel⟩,
    ⟨stored ctl [nvmOf [(0, 10), (10, 7)] 0 .admin], 5, nvmOf [(0, 10), (10, 7)] 0 .admin, _, rfl, by decide +kernel⟩,
    ⟨stored ctl [nvmOf [(0, 12)] 0 .admin], 5, nvmOf [(0, 12)] 0 .admin, _, rfl, by decide +kernel⟩,
    ⟨(attachedTo [nvmOf []] [mesg 6 1 [0]]).onNvm fun n => { n with ready := n.ready.set [] 15 [5] }, nvmOf [], _, mesg 6 1 [0], _, [], 5, rfl, rfl, by decide +kernel⟩,
    ⟨(attachedTo [nvmOf [] 1 (.taken 1023)] [mesg 6 2 [5, 0]]).onNvm fun n => { n with ready := n.ready.set [] 15 [5] }, nvmOf [] 1 (.taken 1023), _, mesg 6 2 [5, 0], _,
      _, rfl, rfl, by decide +kernel, by decide +kernel, rfl⟩,
    ⟨(attachedTo [] [mesg 6 3 [31 + 2 ^ 12 + 2 ^ 32]]).onNvm fun n => { n with ready := n.ready.set [] 15 [5] }, nvmOf [] 1 (.taken 1023), _,
      mesg 6 3 [31 + 2 ^ 12 + 2 ^ 32], _, _, _, _, rfl, rfl, rfl, rfl, by decide +kernel, by decide +kernel, rfl, by decide +kernel⟩,
    ⟨(attachedTo [] [mesg 6 4 [31 + 2 ^ 12 + 2 ^ 32]]).onNvm fun n => { n with ready := n.ready.set [] 15 [5] }, nvmOf [] 1 (.taken 1023), _,
      mesg 6 4 [31 + 2 ^ 12 + 2 ^ 32], _, _, _, _, rfl, rfl, rfl, rfl, by decide +kernel, by decide +kernel, rfl, by decide +kernel⟩⟩

/-- KeyCommandsComplete: states and operands that meet the premises of each clause. Of IMPORT, all but what the key unwrapping says (log entry 21); of an image, all where its signatures are accepted. -/
theorem witness_KeyCommandsComplete :
    (∃ (s : State) (w : Word) (i : Nat), ∃ r, i = wfld w CRY_KEY_CMD.INDEX ∧ s.mode ≠ NIGHT ∧ s.mode ≠ MIDNIGHT ∧ s.isSet CRY_KEY_STATUS.BUSY = false ∧
      wfld w CRY_KEY_CMD.OP = 1 ∧ wfld w CRY_KEY_CMD.ALG ≤ 5 ∧ s.readKey i = (r, none)) ∧
    ((∃ (s : State) (w : Word) (i : Nat) (kek : KeyEntry) (blob : List Byte), i = wfld w CRY_KEY_CMD.INDEX ∧ s.mode ≠ NIGHT ∧ s.mode ≠ MIDNIGHT ∧
      s.isSet CRY_KEY_STATUS.BUSY = false ∧ wfld w CRY_KEY_CMD.OP = 2 ∧ wfld w CRY_KEY_CMD.ALG ≤ 5 ∧ (s.readKey i).2 = none ∧
      blob = (s.readKey i).1.ddrRead (s.raw .CRY_KEY_DATA 0 0).toNat (16 + keyLength (wfld w CRY_KEY_CMD.ALG)) ∧
        ((s.readKey i).1.readKey (getBits (s.raw .CRY_KEY_DATA 0 1) 19 0)).2 = some kek ∧ kek.alg = 5)) ∧
    (∃ (s : State) (w : Word) (i : Nat), ∃ r k u, i = wfld w CRY_KEY_CMD.INDEX ∧ s.mode ≠ NIGHT ∧ s.mode ≠ MIDNIGHT ∧ s.isSet CRY_KEY_STATUS.BUSY = false ∧
      wfld w CRY_KEY_CMD.OP = 3 ∧ s.readKey i = (r, some k) ∧
      (u = (r.ddrWrite (s.keyAddr i) (List.replicate 128 0)).onSec (fun x => { x with cache := x.cache.filter fun e => e.1 != i, images := x.images.keep fun k => k != i })) ∧
      u.keyInUse i = false) ∧
    (∃ (s : State) (w : Word) (i : Nat), ∃ r k u, i = wfld w CRY_KEY_CMD.INDEX ∧ s.mode ≠ NIGHT ∧ s.mode ≠ MIDNIGHT ∧ s.isSet CRY_KEY_STATUS.BUSY = false ∧
      wfld w CRY_KEY_CMD.OP = 3 ∧ s.readKey i = (r, some k) ∧
      (u = (r.ddrWrite (s.keyAddr i) (List.replicate 128 0)).onSec (fun x => { x with cache := x.cache.filter fun e => e.1 != i, images := x.images.keep fun k => k != i })) ∧
      u.keyInUse i) ∧
    (∃ (s : State) (w : Word) (i : Nat), ∃ r k, i = wfld w CRY_KEY_CMD.INDEX ∧ s.mode ≠ NIGHT ∧ s.mode ≠ MIDNIGHT ∧ s.isSet CRY_KEY_STATUS.BUSY = false ∧
      wfld w CRY_KEY_CMD.OP = 4 ∧ s.readKey i = (r, some k)) ∧
    (∃ (s : State) (w : Word) (i : Nat), ∃ r, i = wfld w CRY_KEY_CMD.INDEX ∧ s.mode ≠ NIGHT ∧ s.mode ≠ MIDNIGHT ∧ s.isSet CRY_KEY_STATUS.BUSY = false ∧
      wfld w CRY_KEY_CMD.OP = 4 ∧ s.readKey i = (r, none)) ∧
    (∃ (s : State) (w : Word) (i : Nat), i = wfld w CRY_KEY_CMD.INDEX ∧ s.sec.deleting = some i ∧ s.keyInUse i = false) ∧
    ((∀ h : List Byte, h = hash384 [] → ecdsaOk (List.replicate 97 0) (imgSigned (manifest h)) (List.replicate 96 0) →
      mlDsaOk (List.replicate 2592 0) (imgSigned (manifest h)) (List.replicate 4627 0) →
      (slotted DAWN).booting ∧ (slotted DAWN).sec.waitsImage = false ∧ (slotted DAWN).imageCheck (slotted DAWN).bootKind (manifest h) = 0)) ∧
    (∃ (s : State) (w : Word) (i : Nat), ∃ img, ∃ (k : Fin 8), ∃ u, i = wfld w CRY_KEY_CMD.INDEX ∧ s.booting ∧ s.sec.waitsImage = false ∧ k.val ≠ 0 ∧
      (k.val = 7 ∨ s.imageCheck s.bootKind img = k.val) ∧
      u = (if k.val = 7 then ((s.put SEC_BOOT_STATUS.FAIL k).fire 29 1 0 initSec).fire 31 6 else (s.put SEC_BOOT_STATUS.FAIL k).fire 29 1 0 initSec) ∧
      u.mode = TWILIGHT) ∧
    (∃ (s : State) (w : Word) (i : Nat), ∃ img, ∃ (k : Fin 8), ∃ u, i = wfld w CRY_KEY_CMD.INDEX ∧ s.booting ∧ s.sec.waitsImage = false ∧ k.val ≠ 0 ∧
      (k.val = 7 ∨ s.imageCheck s.bootKind img = k.val) ∧
      u = (if k.val = 7 then ((s.put SEC_BOOT_STATUS.FAIL k).fire 29 1 0 initSec).fire 31 6 else (s.put SEC_BOOT_STATUS.FAIL k).fire 29 1 0 initSec) ∧ u.mode ≠ TWILIGHT ∧
      u.isSet GLB_MODE.TRANSIT = false) ∧
    (∃ (s : State) (w : Word) (i : Nat), ∃ c v n, i = wfld w CRY_KEY_CMD.INDEX ∧ s.mode ≠ NIGHT ∧ c = wfld w SEC_ROLLBACK_CMD.COUNTER ∧ v = wfld w SEC_ROLLBACK_CMD.VALUE ∧
      s.isSet SEC_ROLLBACK_CMD.BUSY = false ∧ s.fld (SEC_ROLLBACK.COUNTER c) < v ∧ s.rollbackLimit c = some n ∧ v ≤ n) ∧
    (∃ (s : State) (req : Requester) (w : Word) (i : Nat), ∃ k, i = wfld w CRY_KEY_CMD.INDEX ∧ s.mode ≠ NIGHT ∧ k = wfld w SEC_MEASURE_EXTEND.INDEX ∧ 6 ≤ k ∧
      isManager req) ∧
    (∃ (s : State) (w : Word) (i : Nat), i = wfld w CRY_KEY_CMD.INDEX ∧ s.mode ≠ NIGHT ∧ wfld w SEC_TRIGGER.LOCKDOWN = 1) ∧
    (∃ (s : State) (w : Word) (i : Nat), i = wfld w CRY_KEY_CMD.INDEX ∧ s.mode ≠ NIGHT ∧ wfld w SEC_TRIGGER.LOCKDOWN ≠ 1) ∧
    (∃ (s : State) (w : Word) (i : Nat), ∃ c v, i = wfld w CRY_KEY_CMD.INDEX ∧ s.sec.rollback = some (c, v)) ∧
    (∃ (s : State) (w : Word) (i : Nat), i = wfld w CRY_KEY_CMD.INDEX ∧ s.isSet SEC_TRIGGER.GLITCH_EN) ∧
    (∃ (s : State) (w : Word) (i : Nat), i = wfld w CRY_KEY_CMD.INDEX ∧ s.isSet SEC_TRIGGER.OTP_EN) :=
  ⟨⟨keyed 5, keyCmd 1 6, _, _, rfl, by decide +kernel, by decide +kernel, by decide +kernel, by decide +kernel, by decide +kernel, rfl⟩,
    ⟨(keyed 5).setRaw .CRY_KEY_DATA 0 1 5, keyCmd 2 6, _, key5 5, _, rfl, by decide +kernel, by decide +kernel, by decide +kernel, by decide +kernel, by decide +kernel,
      by decide +kernel, rfl, by decide +kernel⟩,
    ⟨keyed 5, keyCmd 3 5, _, _, key5 5, _, rfl, by decide +kernel, by decide +kernel, by decide +kernel, by decide +kernel, rfl, rfl, by decide +kernel⟩,
    ⟨keyed 5 [{ core := 0, msg := mesg 3 5 [5, 0], key := some (key5 5) }], keyCmd 3 5, _, _, key5 5, _, rfl, by decide +kernel, by decide +kernel, by decide +kernel,
      by decide +kernel, rfl, rfl, by decide +kernel⟩,
    ⟨keyed 5, keyCmd 4 5, _, _, key5 5, rfl, by decide +kernel, by decide +kernel, by decide +kernel, by decide +kernel, rfl⟩,
    ⟨keyed 5, keyCmd 4 6, _, _, rfl, by decide +kernel, by decide +kernel, by decide +kernel, by decide +kernel, rfl⟩,
    ⟨{ day with sec.deleting := some 5 }, keyCmd 0 5, _, rfl, by decide +kernel⟩,
    image_passes,
    ⟨slotted TWILIGHT, 0, _, [], 1, _, rfl, by decide +kernel, by decide +kernel, by decide +kernel, by decide +kernel, rfl, by decide +kernel⟩,
    ⟨slotted DAWN, 0, _, [], 7, _, rfl, by decide +kernel, by decide +kernel, by decide +kernel, by decide +kernel, rfl, by decide +kernel⟩,
    ⟨puts day [(SEC_ROLLBACK.COUNTER 3, 5, 0, 0)], BitVec.ofNat 64 (3 * 2 ^ SEC_ROLLBACK_CMD.COUNTER.lo + 128 * 2 ^ SEC_ROLLBACK_CMD.VALUE.lo), _, _, _, 128, rfl,
      by decide +kernel, rfl, rfl, by decide +kernel⟩,
    ⟨day, .jtag, BitVec.ofNat 64 (15 * 2 ^ SEC_MEASURE_EXTEND.INDEX.lo), _, _, rfl, by decide +kernel, rfl, by decide +kernel⟩,
    ⟨day, BitVec.ofNat 64 (2 ^ SEC_TRIGGER.LOCKDOWN.lo), _, rfl, by decide +kernel⟩,
    ⟨day, 0, _, rfl, by decide +kernel⟩,
    ⟨{ day with sec.rollback := some (3, 128) }, 0, _, 3, 128, rfl, by decide +kernel⟩,
    ⟨puts day [(SEC_TRIGGER.GLITCH_EN, 1, 0, 0)], 0, _, rfl, by decide +kernel⟩,
    ⟨puts day [(SEC_TRIGGER.OTP_EN, 1, 0, 0)], 0, _, rfl, by decide +kernel⟩⟩

/-- RootOfTrustRequestsComplete: states and operands that meet the premises of each clause; of a signed command and of an image, where the signatures are accepted (log entry 21). -/
theorem witness_RootOfTrustRequestsComplete :
    (∃ (s : State) (msg : List Word), ∃ r : Fin 8, ∃ n, s.mode ≠ NIGHT ∧ (r = 2 ∨ r = 3) ∧ opcodeOf msg = 0x41 ∧ n = slice (Config.freeBytes s.free 48) 0 48) ∧
    ((ecdsaOk (List.replicate 97 0) (cmdSigned (signedBytes 1)) (List.replicate 96 0) →
      mlDsaOk (List.replicate 2592 0) (cmdSigned (signedBytes 1)) (List.replicate 4627 0) →
      ∃ (s : State) (msg : List Word) (r : Fin 8) (t : State), s.mode ≠ NIGHT ∧ (r = 2 ∨ r = 3) ∧ opcodeOf msg = 0x42 ∧ s.fld SEC_LIFECYCLE.STATE ≠ 3 ∧
        s.sec.refuseUntil.get 0 r ≤ s.up ∧
        cmdCode (s.rotRead r msg 8192) = 1 ∧ s.signedStatus r (s.rotRead r msg 8192) = rotOk ∧ s.signedEffect (s.rotRead r msg 8192) = some t)) ∧
    ((ecdsaOk (List.replicate 97 0) (cmdSigned (signedBytes 2)) (List.replicate 96 0) →
      mlDsaOk (List.replicate 2592 0) (cmdSigned (signedBytes 2)) (List.replicate 4627 0) →
      ∃ (s : State) (msg : List Word) (r : Fin 8) (t : State), s.mode ≠ NIGHT ∧ (r = 2 ∨ r = 3) ∧ opcodeOf msg = 0x42 ∧ s.fld SEC_LIFECYCLE.STATE ≠ 3 ∧
        s.sec.refuseUntil.get 0 r ≤ s.up ∧
        cmdCode (s.rotRead r msg 8192) = 2 ∧ s.signedStatus r (s.rotRead r msg 8192) = rotOk ∧ s.signedEffect (s.rotRead r msg 8192) = some t)) ∧
    ((ecdsaOk (List.replicate 97 0) (cmdSigned (signedBytes 3)) (List.replicate 96 0) →
      mlDsaOk (List.replicate 2592 0) (cmdSigned (signedBytes 3)) (List.replicate 4627 0) →
      ∃ (s : State) (msg : List Word) (r : Fin 8) (t : State), s.mode ≠ NIGHT ∧ (r = 2 ∨ r = 3) ∧ opcodeOf msg = 0x42 ∧ s.fld SEC_LIFECYCLE.STATE ≠ 3 ∧
        s.sec.refuseUntil.get 0 r ≤ s.up ∧
        cmdCode (s.rotRead r msg 8192) = 3 ∧ s.signedStatus r (s.rotRead r msg 8192) = rotOk ∧ s.signedEffect (s.rotRead r msg 8192) = some t)) ∧
    ((ecdsaOk (List.replicate 97 0) (cmdSigned (signedBytes 4)) (List.replicate 96 0) →
      mlDsaOk (List.replicate 2592 0) (cmdSigned (signedBytes 4)) (List.replicate 4627 0) →
      ∃ (s : State) (msg : List Word) (r : Fin 8) (t : State), s.mode ≠ NIGHT ∧ (r = 2 ∨ r = 3) ∧ opcodeOf msg = 0x42 ∧ s.fld SEC_LIFECYCLE.STATE ≠ 3 ∧
        s.sec.refuseUntil.get 0 r ≤ s.up ∧
        cmdCode (s.rotRead r msg 8192) = 4 ∧ s.signedStatus r (s.rotRead r msg 8192) = rotOk ∧ s.signedEffect (s.rotRead r msg 8192) = some t)) ∧
    ((∀ h : List Byte, h = hash384 [] → ecdsaOk (List.replicate 97 0) (imgSigned (manifest h)) (List.replicate 96 0) →
      mlDsaOk (List.replicate 2592 0) (imgSigned (manifest h)) (List.replicate 4627 0) →
      ∃ (s : State) (msg : List Word) (r : Fin 8) (n : Nat), s.mode ≠ NIGHT ∧ (r = 2 ∨ r = 3) ∧ opcodeOf msg = 0x43 ∧ s.sec.waitsImage ∧ n = getBits (msg.getD 2 0) 63 0 ∧
        n ≤ 0x2000000 ∧ s.imageCheck s.bootKind (s.rotRead r msg n) = 0)) ∧
    (∃ (s : State) (msg : List Word), ∃ t, s.mode ≠ NIGHT ∧ t = (s.mbxPost 2096 false msg msg.length).1 ∧ opcodeOf msg = 0x44) ∧
    (∃ (s : State) (msg : List Word), ∃ t, s.mode ≠ NIGHT ∧ t = (s.mbxPost 2096 false msg msg.length).1 ∧ opcodeOf msg = 0x45) ∧
    (∃ (s : State), ∃ x rest u, s.mode ≠ NIGHT ∧ (s.mbox 2096).toFar = x :: rest ∧ roomOf (s.mbox 2096).toMgr ≠ 0 ∧ u = s.mbxPop 2096 false ∧
      getBits (x.words.getD 0 0) 7 0 = 0x44 ∧ u.fld SEC_LIFECYCLE.STATE = 0) ∧
    (∃ (s : State), ∃ x rest u, ∃ k a, s.mode ≠ NIGHT ∧ (s.mbox 2096).toFar = x :: rest ∧ roomOf (s.mbox 2096).toMgr ≠ 0 ∧ u = s.mbxPop 2096 false ∧
      getBits (x.words.getD 0 0) 7 0 = 0x45 ∧ k = (x.words.getD 2 0).toNat ∧ a = (x.words.getD 1 0).toNat ∧ k < 4 ∧ u.fld SEC_LIFECYCLE.STATE < 2 ∧
      bitOf (u.fld SEC_SLOT_STATUS.PROGRAMMED) k = false ∧ 2 ^ 40 ≤ a ∧ a + 2689 ≤ 2 ^ 40 + 2 ^ 39) ∧
    (∃ (s : State), ∃ (p : Fin 2), ∃ bs, ∃ q, s.mode ≠ NIGHT ∧ q = s.spdmReply false (s.sec.mctpSignature.get [] p) bs) :=
  ⟨⟨day, [BitVec.ofNat 64 0x41], 3, _, by decide +kernel, by decide +kernel, by decide +kernel, rfl⟩,
    fun he hm => ⟨signing 1, signedMsg 1, 3, _, by decide +kernel, Or.inr rfl, by decide +kernel, by decide +kernel, by decide +kernel, by decide +kernel,
      signed_passes _ _ (signed_tail 1 _ _ (by decide)) (signed_tail 1 _ _ (by decide)) (signed_tail 1 _ _ (by decide)) (signed_tail 1 _ _ (by decide)) (signed_tail 1 _ _ (by decide)) (by decide +kernel) (by decide +kernel) (by decide +kernel) (signing_holds _ (by decide +kernel)) he hm,
      Option.some_get (by decide +kernel) |>.symm⟩,
    fun he hm => ⟨signing 2, signedMsg 2, 3, _, by decide +kernel, Or.inr rfl, by decide +kernel, by decide +kernel, by decide +kernel, by decide +kernel,
      signed_passes _ _ (signed_tail 2 _ _ (by decide)) (signed_tail 2 _ _ (by decide)) (signed_tail 2 _ _ (by decide)) (signed_tail 2 _ _ (by decide)) (signed_tail 2 _ _ (by decide)) (by decide +kernel) (by decide +kernel) (by decide +kernel) (signing_holds _ (by decide +kernel)) he hm,
      Option.some_get (by decide +kernel) |>.symm⟩,
    fun he hm => ⟨signing 3, signedMsg 3, 3, _, by decide +kernel, Or.inr rfl, by decide +kernel, by decide +kernel, by decide +kernel, by decide +kernel,
      signed_passes _ _ (signed_tail 3 _ _ (by decide)) (signed_tail 3 _ _ (by decide)) (signed_tail 3 _ _ (by decide)) (signed_tail 3 _ _ (by decide)) (signed_tail 3 _ _ (by decide)) (by decide +kernel) (by decide +kernel) (by decide +kernel) (signing_holds _ (by decide +kernel)) he hm,
      Option.some_get (by decide +kernel) |>.symm⟩,
    fun he hm => ⟨signing 4, signedMsg 4, 3, _, by decide +kernel, Or.inr rfl, by decide +kernel, by decide +kernel, by decide +kernel, by decide +kernel,
      signed_passes _ _ (signed_tail 4 _ _ (by decide)) (signed_tail 4 _ _ (by decide)) (signed_tail 4 _ _ (by decide)) (signed_tail 4 _ _ (by decide)) (signed_tail 4 _ _ (by decide)) (by decide +kernel) (by decide +kernel) (by decide +kernel) (signing_holds _ (by decide +kernel)) he hm,
      Option.some_get (by decide +kernel) |>.symm⟩,
    fun h e he hm => ⟨slotted DAWN { waitsImage := true }, imageMsg 96 (leWords 6 h), 3, 96, by decide +kernel, Or.inr rfl, rfl, rfl, rfl, by decide, by
      rw [show (slotted DAWN { waitsImage := true }).rotRead (3 : Fin 8) (imageMsg 96 (leWords 6 h)) 96 = manifest h from image_read _ h (by rw [e]; exact slice_length _ _ _)]
      exact image_checks _ h e (slotted_holds _ _ (by decide +kernel)) (by decide +kernel) he hm⟩,
    ⟨day, [BitVec.ofNat 64 0x44], _, by decide +kernel, rfl, by decide +kernel⟩,
    ⟨day, [BitVec.ofNat 64 0x45], _, by decide +kernel, rfl, by decide +kernel⟩,
    ⟨{ day with mbx := day.mbx.set {} 2096 { toFar := [{ words := [BitVec.ofNat 64 0x44] }] } }, { words := [BitVec.ofNat 64 0x44] }, [], _, by decide +kernel,
      by decide +kernel, by decide +kernel, rfl, by decide +kernel⟩,
    ⟨{ day with mbx := day.mbx.set {} 2096 { toFar := [{ words := [BitVec.ofNat 64 0x45, BitVec.ofNat 64 (2 ^ 40 + 2 ^ 39 - 2689), 3] }] } },
      { words := [BitVec.ofNat 64 0x45, BitVec.ofNat 64 (2 ^ 40 + 2 ^ 39 - 2689), 3] }, [], _, _, _, by decide +kernel, by decide +kernel, by decide +kernel, rfl,
      by decide +kernel, rfl, rfl, by decide +kernel⟩,
    ⟨day, 1, [], _, by decide +kernel, rfl⟩⟩

/-- KeysStayIn: states and operands that meet the premises of each clause. -/
theorem witness_KeysStayIn :
    (∃ (s : State) (w : Word) (r : State) (k : KeyEntry) (u : State), s.mode ≠ NIGHT ∧ s.mode ≠ MIDNIGHT ∧ s.isSet CRY_KEY_STATUS.BUSY = false ∧
      wfld w CRY_KEY_CMD.ALG ≤ 5 ∧ s.readKey (wfld w CRY_KEY_CMD.INDEX) = (r, some k) ∧ u = r.keyEnds krBusy ∧ wfld w CRY_KEY_CMD.OP = 1) ∧
    (∃ (s : State) (w : Word) (r : State) (k : KeyEntry) (u : State), s.mode ≠ NIGHT ∧ s.mode ≠ MIDNIGHT ∧ s.isSet CRY_KEY_STATUS.BUSY = false ∧
      wfld w CRY_KEY_CMD.ALG ≤ 5 ∧ s.readKey (wfld w CRY_KEY_CMD.INDEX) = (r, some k) ∧ u = r.keyEnds krBusy ∧ wfld w CRY_KEY_CMD.OP = 2) ∧
    (∃ (j : Nat), j < 8) :=
  ⟨⟨keyed 5, keyCmd 1 5, _, key5 5, _, by decide +kernel, by decide +kernel, by decide +kernel, by decide +kernel, rfl, rfl, by decide +kernel⟩,
    ⟨keyed 5, keyCmd 2 5, _, key5 5, _, by decide +kernel, by decide +kernel, by decide +kernel, by decide +kernel, rfl, rfl, by decide +kernel⟩,
    ⟨7, by decide +kernel⟩⟩

/-- TelemetryCommandsComplete: states and operands that meet the premises of each clause. -/
theorem witness_TelemetryCommandsComplete :
    (∃ (s : State) (w : Word), ∃ i u, s.mode ≠ NIGHT ∧ i = wfld w CMP_FC_CMD.INDEX ∧ u = s.spillPair i ∧ wfld w CMP_FC_CMD.OP = 1) ∧
    (∃ (s : State) (w : Word), ∃ i u, s.mode ≠ NIGHT ∧ i = wfld w CMP_FC_CMD.INDEX ∧ u = s.spillPair i ∧ wfld w CMP_FC_CMD.OP = 2) ∧
    (∃ (s : State) (w : Word), s.mode ≠ NIGHT ∧ wfld w CMP_FC_CMD.OP = 3) ∧
    (∃ (s : State) (w : Word), ∃ (h : Fin 32), ∃ u, s.mode ≠ NIGHT ∧ u = s.writeReg .CMP_HIST_CFG 0 h (w &&& ~~~(BitVec.ofNat 64 32)) ∧ wfld w CMP_HIST_CFG.SNAP = 1 ∧
      u.isSet CMP_HIST_CFG.CLEAR_ON_SNAP 0 h = false) ∧
    (∃ (s : State) (w : Word), ∃ (h : Fin 32), ∃ u, s.mode ≠ NIGHT ∧ u = s.writeReg .CMP_HIST_CFG 0 h (w &&& ~~~(BitVec.ofNat 64 32)) ∧ wfld w CMP_HIST_CFG.SNAP = 1 ∧
      u.isSet CMP_HIST_CFG.CLEAR_ON_SNAP 0 h) ∧
    (∃ (s : State) (w : Word), ∃ (p : Fin 8), ∃ u, s.mode ≠ NIGHT ∧ ((s.isSet CMP_SK_CFG.EN 0 p → wfld w CMP_SK_CFG.MODE = s.fld CMP_SK_CFG.MODE 0 p ∧
      wfld w CMP_SK_CFG.PROF = s.fld CMP_SK_CFG.PROF 0 p)) ∧ u = s.writeReg .CMP_SK_CFG 0 p (w &&& ~~~(BitVec.ofNat 64 0x300)) ∧ wfld w CMP_SK_CFG.SWAP = 1 ∧
      wfld w CMP_SK_CFG.CLEAR = 0 ∧ s.isSet CMP_SK_CFG.CLEARED 0 p) ∧
    (∃ (s : State) (w : Word), ∃ (p : Fin 8), ∃ u, s.mode ≠ NIGHT ∧ ((s.isSet CMP_SK_CFG.EN 0 p → wfld w CMP_SK_CFG.MODE = s.fld CMP_SK_CFG.MODE 0 p ∧
      wfld w CMP_SK_CFG.PROF = s.fld CMP_SK_CFG.PROF 0 p)) ∧ u = s.writeReg .CMP_SK_CFG 0 p (w &&& ~~~(BitVec.ofNat 64 0x300)) ∧ wfld w CMP_SK_CFG.SWAP = 1 ∧
      wfld w CMP_SK_CFG.CLEAR = 0 ∧ s.isSet CMP_SK_CFG.CLEARED 0 p = false) ∧
    (∃ (s : State) (w : Word), ∃ (p : Fin 8), ∃ u, s.mode ≠ NIGHT ∧ ((s.isSet CMP_SK_CFG.EN 0 p → wfld w CMP_SK_CFG.MODE = s.fld CMP_SK_CFG.MODE 0 p ∧
      wfld w CMP_SK_CFG.PROF = s.fld CMP_SK_CFG.PROF 0 p)) ∧ u = s.writeReg .CMP_SK_CFG 0 p (w &&& ~~~(BitVec.ofNat 64 0x300)) ∧ wfld w CMP_SK_CFG.SWAP = 0 ∧
      wfld w CMP_SK_CFG.CLEAR = 1) ∧
    (∃ (s : State) (w : Word), ∃ p key e, s.mode ≠ NIGHT ∧ wfld w CMP_SK_QUERY.GO = 1 ∧ p = wfld w CMP_SK_QUERY.SKETCH ∧
      (key = (wordBytes ((List.range 8).map fun i => s.raw .CMP_SK_KEY 0 i)).take (s.profileLength p (s.fld CMP_SK_CFG.PROF 0 p))) ∧ e = s.estimate p key) ∧
    (∃ (s : State), s.tel.block ≠ [] ∧ s.tel.blockAt + ofMs (max 1 (s.fld CMP_REC_CFG.CLOSE_MS)) ≤ s.up) ∧
    (∃ (s : State), ∃ (p : Fin 8), ∃ u, p.val ∈ s.tel.clearing ∧ u = s.zeroBank p (1 - s.fld CMP_SK_CFG.ACTIVE 0 p)) :=
  ⟨⟨day, BitVec.ofNat 64 (1 * 2 ^ CMP_FC_CMD.OP.lo), _, _, by decide +kernel, rfl, rfl, by decide +kernel⟩,
    ⟨day, BitVec.ofNat 64 (2 * 2 ^ CMP_FC_CMD.OP.lo), _, _, by decide +kernel, rfl, rfl, by decide +kernel⟩,
    ⟨day, BitVec.ofNat 64 (3 * 2 ^ CMP_FC_CMD.OP.lo), by decide +kernel⟩,
    ⟨day, BitVec.ofNat 64 (2 ^ CMP_HIST_CFG.SNAP.lo), 31, _, by decide +kernel, rfl, by decide +kernel⟩,
    ⟨day, BitVec.ofNat 64 (2 ^ CMP_HIST_CFG.SNAP.lo + 2 ^ CMP_HIST_CFG.CLEAR_ON_SNAP.lo), 31, _, by decide +kernel, rfl, by decide +kernel⟩,
    ⟨puts day [(CMP_SK_CFG.CLEARED, 1, 0, 7)], BitVec.ofNat 64 (2 ^ CMP_SK_CFG.SWAP.lo), 7, _, by decide +kernel, by decide +kernel, rfl, by decide +kernel⟩,
    ⟨puts day [(CMP_SK_CFG.CLEARED, 0, 0, 7)], BitVec.ofNat 64 (2 ^ CMP_SK_CFG.SWAP.lo), 7, _, by decide +kernel, by decide +kernel, rfl, by decide +kernel⟩,
    ⟨day, BitVec.ofNat 64 (2 ^ CMP_SK_CFG.CLEAR.lo), 7, _, by decide +kernel, by decide +kernel, rfl, by decide +kernel⟩,
    ⟨day, BitVec.ofNat 64 (2 ^ CMP_SK_QUERY.GO.lo + 7 * 2 ^ CMP_SK_QUERY.SKETCH.lo), _, _, _, by decide +kernel, by decide +kernel, rfl, rfl, rfl⟩,
    ⟨late { day with tel.block := [default] }, by decide +kernel⟩,
    ⟨{ day with tel.clearing := [7] }, 7, _, by decide +kernel, rfl⟩⟩

/-- MailboxCommandsComplete: states and operands that meet the premises of each clause. -/
theorem witness_MailboxCommandsComplete :
    (∃ (s : State) (w : Word), ∃ u, s.mode ≠ NIGHT ∧ u = s.writeReg .GLB_CC_CTL 0 0 w ∧ s.mode ≠ DAWN ∧ s.mode ≠ TWILIGHT) ∧
    (∃ (s : State) (w : Word), ∃ p m toMgr words len, s.mode ≠ NIGHT ∧ s.placeReached p ∧ s.mbxSide p = some (m, toMgr, words) ∧ len = wfld w MBX_POST.LEN ∧
      isTokenPost toMgr words len = false ∧ m < 2096) ∧
    (∃ (s : State), ∃ p m toMgr words, s.mode ≠ NIGHT ∧ s.placeReached p ∧ s.mbxSide p = some (m, toMgr, words) ∧ m < 2096) ∧
    (∃ (s : State) (w : Word), ∃ u v, s.mode ≠ NIGHT ∧ wfld w MBX_MGR_CTL.RESET = 1 ∧ u = s.writeReg .MBX_MGR_CTL 0 0 w ∧
      (v = (List.range 192).foldl (fun t i => t.setRaw .MBX_OUT_DATA 0 i 0) ((u.mbx.keys.filter (· ≤ 2096)).foldl (fun t m => t.mbxDiscard m true) u))) ∧
    (∃ (s : State), ∃ h : Fin 24, s.fld GLB_CC_MTIMECMP.CMP 0 h ≤ s.ts64) ∧
    (∃ (s : State), ∃ (m : Fin 2104), ∃ toMgr, ∃ x, ∃ rest, (s.mbox m).queue toMgr = x :: rest ∧ x.posted + ofMs (s.mbxTimeout m) ≤ s.up ∧
      ((s.mbox m).flags toMgr).timeout = false) :=
  ⟨⟨day, 0, _, by decide +kernel, rfl, by decide +kernel⟩,
    ⟨windowed 2 [], 8, .window 0, _, _, _, _, by decide +kernel, by decide +kernel, rfl, rfl, by decide +kernel⟩,
    ⟨windowed 2 [], .window 0, _, _, _, by decide +kernel, by decide +kernel, rfl, by decide +kernel⟩,
    ⟨day, BitVec.ofNat 64 (2 ^ MBX_MGR_CTL.RESET.lo), _, _, by decide +kernel, by decide +kernel, rfl, rfl⟩,
    ⟨late (puts day [(GLB_CC_MTIMECMP.CMP, 0, 0, 23)]), 23, by decide +kernel⟩,
    ⟨late (windowed 2 [{ words := List.replicate 8 0 }]), 2080, false, { words := List.replicate 8 0 }, [], by decide +kernel⟩⟩

/-- MailboxRefusals: states and operands that meet the premises of each clause. -/
theorem witness_MailboxRefusals :
    (∃ (s : State) (p : MbxPlace) (w : Word) (m : Nat) (toMgr : Bool) (words : List Word) (len : Nat), s.placeReached p ∧ Quiet s ∧ s.mbxSide p = some (m, toMgr, words) ∧
      m < 2096 ∧ len = wfld w MBX_POST.LEN ∧ isTokenPost toMgr words len = false ∧ Mild s 30 2 ∧ (len = 0 ∨ 8 < len)) ∧
    (∃ (s : State) (p : MbxPlace) (w : Word) (m : Nat) (toMgr : Bool) (words : List Word) (len : Nat), s.placeReached p ∧ Quiet s ∧ s.mbxSide p = some (m, toMgr, words) ∧
      m < 2096 ∧ len = wfld w MBX_POST.LEN ∧ isTokenPost toMgr words len = false ∧ Mild s 30 2 ∧ (len = 0 ∨ 8 < len)) ∧
    (∃ (s : State) (p : MbxPlace) (w : Word) (m : Nat) (toMgr : Bool) (words : List Word) (len : Nat), ∃ k, s.placeReached p ∧ Quiet s ∧ s.mbxSide p = some (m, toMgr,
      words) ∧ m < 2096 ∧ len = wfld w MBX_POST.LEN ∧ isTokenPost toMgr words len = false ∧ Mild s 30 2 ∧ 0 < len ∧ len ≤ 8 ∧ s.mbxAbsent m toMgr = false ∧
      roomOf ((s.mbox m).queue toMgr) < len ∧ k ≠ m) ∧
    (∃ (s : State) (p : MbxPlace) (w : Word) (m : Nat) (toMgr : Bool) (words : List Word) (len : Nat), ∃ k, s.placeReached p ∧ Quiet s ∧ s.mbxSide p = some (m, toMgr,
      words) ∧ m < 2096 ∧ len = wfld w MBX_POST.LEN ∧ isTokenPost toMgr words len = false ∧ Mild s 30 2 ∧ 0 < len ∧ len ≤ 8 ∧ s.mbxAbsent m toMgr ∧ Mild s 30 0 ∧ k ≠ m) ∧
    (∃ (s : State) (p : MbxPlace) (m : Nat) (toMgr : Bool) (words : List Word), s.placeReached p ∧ Quiet s ∧ s.mbxSide p = some (m, toMgr, words) ∧ m < 2096 ∧
      (s.mbox m).queue (!toMgr) = []) :=
  ⟨⟨windowed 2 [], .window 0, 0, _, _, _, _, by decide +kernel, by unfold Quiet; decide +kernel, rfl, by decide +kernel, rfl, by unfold Mild; decide +kernel⟩,
    ⟨windowed 2 [], .window 0, 9, _, _, _, _, by decide +kernel, by unfold Quiet; decide +kernel, rfl, by decide +kernel, rfl, by unfold Mild; decide +kernel⟩,
    ⟨windowed 2 [{ words := List.replicate 8 0 }], .window 0, 1, _, _, _, _, 2081, by decide +kernel, by unfold Quiet; decide +kernel, rfl, by decide +kernel, rfl,
      by unfold Mild; decide +kernel⟩,
    ⟨windowed 1 [], .window 0, 8, _, _, _, _, 2081, by decide +kernel, by unfold Quiet; decide +kernel, rfl, by decide +kernel, rfl, by unfold Mild; decide +kernel⟩,
    ⟨windowed 2 [], .window 0, _, _, _, by decide +kernel, by unfold Quiet; decide +kernel, rfl, by decide +kernel⟩⟩

/-- FaultCommandsComplete: states and operands that meet the premises of each clause. -/
theorem witness_FaultCommandsComplete :
    (∃ (s : State) (w : Word), s.mode ≠ NIGHT ∧ wfld w GONG_INJECT.GO = 1) ∧
    (∃ (s : State) (w : Word), s.mode ≠ NIGHT ∧ wfld w GONG_CFG.CLR_COUNTS = 1) ∧
    (∃ (s : State), ∃ g : Fin 32, s.mode ≠ NIGHT ∧ g ≠ 0 ∧ s.fld GONG_STATUS.SRC 0 g = 0) ∧
    (∃ (s : State) (w : Word), ∃ u a len, s.mode ≠ NIGHT ∧ wfld w SNR_LOAD.GO = 1 ∧ u = s.writeReg .SNR_LOAD 0 0 w ∧ a = page4k (u.fld SNR_LOAD.ADDR) ∧
      len = leNat (s.ddrRead a 8) ∧ s.isSet SNR_LOAD.BUSY = false ∧ len ≤ 2 ^ 23 ∧ ceilDiv len 65536 ≤ s.snareBlocks.length) ∧
    (∃ (s : State), ∃ (k : Fin 11), ∃ n, ∃ x, ∃ rest, ∃ t, s.gong.running = x :: rest ∧ x.kind = k.val ∧ x.unit = n ∧ k ≠ 4 ∧
      (t = s.onGong (fun g => { g with running := g.running.filter fun y => !(y.kind == k.val && y.unit == n) })) ∧
      (t.gong.transient.any (fun e => e.kind == k.val && e.unit == n && decide (x.ts < e.ts + t.fld GONG_CFG.LASTING_S * 4000000000)) = false)) ∧
    (∃ (s : State), ∃ us, s.mode ≠ NIGHT ∧ max 1 (s.fld GONG_CFG.STALL_US) ≤ us) ∧
    (∃ (s : State), s.isSet SNR_LOAD.BUSY ∧ ((∀ p ∈ s.net.snare, ∀ i ∈ s.net.images, i.old → i.num ≠ p.image))) ∧
    (∃ (s : State), ∃ (n : Fin 4) (l : Nat), l < 16 ∧ s.linkExists l ∧ s.refClock l = some n.val) ∧
    (∃ (s : State), s.mode ≠ NIGHT) ∧
    (∃ (s : State), ∃ (c : Fin 8), ∃ (row : BitVec 26), ∃ addr, ∃ (unc : Bool), ∃ u, s.mode ≠ NIGHT ∧
      u = (s.fire (18 + c / 4) (8 * (c % 4) + b2n unc) addr).startTest 2 (c.val + 8 * row.toNat)) ∧
    (∃ (s : State), ∃ (c : Fin 8) (row : BitVec 26), s.mode ≠ NIGHT ∧ (2, c.val + 8 * row.toNat) ∈ s.gong.poisoned) ∧
    (∃ (s : State), s.mode ≠ NIGHT) ∧
    (∃ (s : State), s.mode ≠ NIGHT) ∧
    (∃ (s : State), s.mode ≠ NIGHT) ∧
    (∃ (s : State), s.mode ≠ NIGHT) ∧
    (∃ (s : State), ∃ v, s.avsStep = some v ∧ s.modes.avsFails = 2) ∧
    (∃ (s : State), ∃ v, s.avsStep = some v ∧ s.modes.avsFails < 2) :=
  ⟨⟨day, BitVec.ofNat 64 (2 ^ GONG_INJECT.GO.lo + 1 * 2 ^ GONG_INJECT.SOURCE.lo), by decide +kernel⟩,
    ⟨day, BitVec.ofNat 64 (2 ^ GONG_CFG.CLR_COUNTS.lo), by decide +kernel⟩,
    ⟨day, 31, by decide +kernel⟩,
    ⟨day, BitVec.ofNat 64 (2 ^ SNR_LOAD.GO.lo), _, _, _, by decide +kernel, by decide +kernel, rfl, rfl, rfl, by decide +kernel⟩,
    ⟨testing 10 3, 10, 3, _, [], _, rfl, by decide +kernel, by decide +kernel, by decide +kernel, rfl, by decide +kernel⟩,
    ⟨day, 100, by decide +kernel⟩,
    ⟨puts day [(SNR_LOAD.BUSY, 1, 0, 0)], by decide +kernel⟩,
    ⟨puts day [(HL_LINK_CFG.WIDTH, 1, 15, 0), (HL_LINK_CFG.CLK, 0, 15, 0)], 3, 15, by decide +kernel⟩,
    ⟨day, by decide +kernel⟩,
    ⟨day, 7, 0, 0, true, _, by decide +kernel, rfl⟩,
    ⟨{ day with gong.poisoned := [(2, 7 + 8 * 3)] }, 7, 3, by decide +kernel⟩,
    ⟨day, by decide +kernel⟩,
    ⟨day, by decide +kernel⟩,
    ⟨day, by decide +kernel⟩,
    ⟨day, by decide +kernel⟩,
    ⟨{ puts day [(PWR_AVS.REQUEST_MV, 700, 0, 0), (PWR_AVS.SETPOINT_MV, 703, 0, 0)] with modes.avsFails := 2 }, 703, by decide +kernel⟩,
    ⟨puts day [(PWR_AVS.REQUEST_MV, 720, 0, 0), (PWR_AVS.SETPOINT_MV, 703, 0, 0)], 715, by decide +kernel⟩⟩

/-- InjectReports: states and operands that meet the premises of each clause. -/
theorem witness_InjectReports :
    (∃ (s : State) (w : Word) (g src : Nat), s.mode ≠ NIGHT ∧ Quiet s ∧ wfld w GONG_INJECT.GO = 1 ∧ g = wfld w GONG_INJECT.SOURCE / 32 ∧
      src = wfld w GONG_INJECT.SOURCE % 32 ∧ Mild s g src ∧ s.severity g src = 0) ∧
    (∃ (s : State) (w : Word) (g src : Nat), s.mode ≠ NIGHT ∧ Quiet s ∧ wfld w GONG_INJECT.GO = 1 ∧ g = wfld w GONG_INJECT.SOURCE / 32 ∧
      src = wfld w GONG_INJECT.SOURCE % 32 ∧ Mild s g src ∧ s.severity g src ≠ 0 ∧ s.isSet GONG_FIRST_INFO.VALID 0 g = false) ∧
    (∃ (s : State) (w : Word) (g src : Nat), s.mode ≠ NIGHT ∧ Quiet s ∧ wfld w GONG_INJECT.GO = 1 ∧ g = wfld w GONG_INJECT.SOURCE / 32 ∧
      src = wfld w GONG_INJECT.SOURCE % 32 ∧ Mild s g src ∧ s.severity g src ≠ 0 ∧ s.isSet GONG_FIRST_INFO.VALID 0 g ∧ s.outranks g src false (s.severity g src)) ∧
    (∃ (s : State) (w : Word) (g src : Nat), ∃ f, s.mode ≠ NIGHT ∧ Quiet s ∧ wfld w GONG_INJECT.GO = 1 ∧ g = wfld w GONG_INJECT.SOURCE / 32 ∧
      src = wfld w GONG_INJECT.SOURCE % 32 ∧ Mild s g src ∧ s.severity g src ≠ 0 ∧ s.isSet GONG_FIRST_INFO.VALID 0 g ∧ s.outranks g src false (s.severity g src) = false ∧
      f ∈ [GONG_FIRST_INFO.VALID, GONG_FIRST_INFO.SOURCE, GONG_FIRST_INFO.ACCESS, GONG_FIRST_INFO.SEV, GONG_FIRST_INFO.INITIATOR, GONG_FIRST_INFO.TYPE]) :=
  ⟨⟨puts day [(GONG_SEV.SEV 5, 0, 0, 30)], BitVec.ofNat 64 (2 ^ GONG_INJECT.GO.lo + (30 * 32 + 5) * 2 ^ GONG_INJECT.SOURCE.lo), _, _, by decide +kernel,
    by unfold Quiet; decide +kernel, by decide +kernel, rfl, rfl, by unfold Mild; decide +kernel⟩,
    ⟨puts day [(GONG_SEV.SEV 5, 1, 0, 30)], BitVec.ofNat 64 (2 ^ GONG_INJECT.GO.lo + (30 * 32 + 5) * 2 ^ GONG_INJECT.SOURCE.lo), _, _, by decide +kernel,
      by unfold Quiet; decide +kernel, by decide +kernel, rfl, rfl, by unfold Mild; decide +kernel⟩,
    ⟨puts day [(GONG_SEV.SEV 5, 1, 0, 30), (GONG_FIRST_INFO.VALID, 1, 0, 30), (GONG_FIRST_INFO.SOURCE, 6, 0, 30), (GONG_FIRST_INFO.SEV, 1, 0, 30)],
      BitVec.ofNat 64 (2 ^ GONG_INJECT.GO.lo + (30 * 32 + 5) * 2 ^ GONG_INJECT.SOURCE.lo), _, _, by decide +kernel, by unfold Quiet; decide +kernel, by decide +kernel,
      rfl, rfl, by unfold Mild; decide +kernel⟩,
    ⟨puts day [(GONG_SEV.SEV 5, 1, 0, 30), (GONG_FIRST_INFO.VALID, 1, 0, 30), (GONG_FIRST_INFO.SOURCE, 4, 0, 30), (GONG_FIRST_INFO.SEV, 1, 0, 30)],
      BitVec.ofNat 64 (2 ^ GONG_INJECT.GO.lo + (30 * 32 + 5) * 2 ^ GONG_INJECT.SOURCE.lo), _, _, GONG_FIRST_INFO.SEV, by decide +kernel, by unfold Quiet; decide +kernel,
      by decide +kernel, rfl, rfl, by unfold Mild; decide +kernel, by decide +kernel, by decide +kernel, by decide +kernel, by simp⟩⟩

end Sys2Proof.Tests
end

section
/-! SUPPORT. Accesses to device register space (00_scope): what a write by the field types leaves in each bit (R4, R5), what an access
without effect leaves (R2, R463, R519), and that the accesses complete (R2, R6, R8, R56). -/
namespace Sys2Proof.Machine

/-! ## Writes by access type (R4, R5) -/

/-- A write of a register takes bit `j` from the written word: it is of type RW, WO or, while the block is unlocked, RWL. -/
def takesBit (l : Layout) (lockd : Bool) (j : Nat) : Bool := l.rw.testBit j || l.wo.testBit j || (!lockd && l.rwl.testBit j)

/-- Bit `j` of a register after a write: the bit taken or kept, which ones then clear by W1C and set by W1S. -/
theorem getLsbD_mergeWrite (l : Layout) (lockd : Bool) (old w : Word) {j : Nat} (hj : j < 64) :
    (mergeWrite l lockd old w).getLsbD j =
      ((bif takesBit l lockd j then w.getLsbD j else old.getLsbD j) && !(w.getLsbD j && l.w1c.testBit j) ||
        (w.getLsbD j && l.w1s.testBit j)) := by
  have mask : (BitVec.ofNat 64 l.rw ||| BitVec.ofNat 64 l.wo ||| (if lockd then 0 else BitVec.ofNat 64 l.rwl)).getLsbD j = takesBit l lockd j := by
    cases lockd <;> simp [takesBit, hj, BitVec.getLsbD_ofNat, -BitVec.getLsbD_eq_getElem]
  simp only [mergeWrite, BitVec.getLsbD_or, BitVec.getLsbD_and, BitVec.getLsbD_not, mask]
  cases takesBit l lockd j <;> simp [hj, -BitVec.getLsbD_eq_getElem, BitVec.getLsbD_ofNat]

theorem getLsbD_mergeWrite_taken {l : Layout} {lockd : Bool} (old w : Word) {j : Nat} (hj : j < 64) (ht : takesBit l lockd j = true)
    (hc : l.w1c.testBit j = false) (hs : l.w1s.testBit j = false) : (mergeWrite l lockd old w).getLsbD j = w.getLsbD j := by
  simp [getLsbD_mergeWrite l lockd old w hj, ht, hc, hs]

theorem getLsbD_mergeWrite_kept {l : Layout} {lockd : Bool} (old w : Word) {j : Nat} (hj : j < 64) (ht : takesBit l lockd j = false)
    (hc : l.w1c.testBit j = false) (hs : l.w1s.testBit j = false) : (mergeWrite l lockd old w).getLsbD j = old.getLsbD j := by
  simp [getLsbD_mergeWrite l lockd old w hj, ht, hc, hs]

theorem getLsbD_mergeWrite_w1c {l : Layout} {lockd : Bool} (old w : Word) {j : Nat} (hj : j < 64) (ht : takesBit l lockd j = false)
    (hc : l.w1c.testBit j = true) (hs : l.w1s.testBit j = false) :
    (mergeWrite l lockd old w).getLsbD j = (old.getLsbD j && !w.getLsbD j) := by
  simp [getLsbD_mergeWrite l lockd old w hj, ht, hc, hs]

theorem getLsbD_mergeWrite_w1s {l : Layout} {lockd : Bool} (old w : Word) {j : Nat} (hj : j < 64) (ht : takesBit l lockd j = false)
    (hc : l.w1c.testBit j = false) (hs : l.w1s.testBit j = true) :
    (mergeWrite l lockd old w).getLsbD j = (old.getLsbD j || w.getLsbD j) := by
  simp [getLsbD_mergeWrite l lockd old w hj, ht, hc, hs]

/-- No bit of a layout has two of the types that a write acts on: RW or WO, RWL, W1C and W1S. -/
def typesApart (l : Layout) : Bool :=
  (l.rw ||| l.wo) &&& l.rwl == 0 && ((l.rw ||| l.wo ||| l.rwl) &&& (l.w1c ||| l.w1s) == 0 && l.w1c &&& l.w1s == 0)

theorem mem_registers (r : RegName) : r ∈ RegName.all := List.mem_of_getElem? (regOfIdx_ctorIdx r)

theorem typesApart_layout (r : RegName) : typesApart r.layout = true :=
  List.all_eq_true.mp (by decide +kernel : (RegName.all.all fun r => typesApart r.layout) = true) r (mem_registers r)

theorem testBit_and_testBit_of_and_eq_zero {a b : Nat} (h : a &&& b = 0) (j : Nat) : (a.testBit j && b.testBit j) = false := by
  simpa using congrArg (Nat.testBit · j) h

/-- The types of one bit of a register exclude one another. -/
theorem types_of_bit (r : RegName) (j : Nat) :
    ((r.layout.rw ||| r.layout.wo).testBit j && r.layout.rwl.testBit j) = false ∧
    ((r.layout.rw ||| r.layout.wo ||| r.layout.rwl).testBit j && (r.layout.w1c ||| r.layout.w1s).testBit j) = false ∧
    (r.layout.w1c.testBit j && r.layout.w1s.testBit j) = false := by
  have h := typesApart_layout r
  simp only [typesApart, Bool.and_eq_true, beq_iff_eq] at h
  obtain ⟨hl, hw, h1⟩ := h
  exact ⟨testBit_and_testBit_of_and_eq_zero hl j, testBit_and_testBit_of_and_eq_zero hw j, testBit_and_testBit_of_and_eq_zero h1 j⟩

/-- Settles O3: the bit rule of `mergeWrite`, each type's bits being of no other type. -/
theorem writeByAccessType : Obligations.WriteByAccessType := by
  unfold Obligations.WriteByAccessType
  intro s r n i w j hj
  obtain ⟨hl, hw, h1⟩ := types_of_bit r j
  simp only [Nat.testBit_or] at hl hw ⊢
  simp only [raw_writeReg_same]
  refine ⟨fun h => ?rw, fun h u => ?unlocked, fun h u => ?locked, fun h => ?w1c, fun h => ?w1s, fun h => ?other,
    (Only.refl _ s).writeReg r n i w (by simp)⟩
  case rw =>
    have ht : takesBit r.layout (s.locked r n) j = true := by
      rcases h with h | h <;> simp [takesBit, h]
    have ⟨hc, hs⟩ : r.layout.w1c.testBit j = false ∧ r.layout.w1s.testBit j = false := by
      rcases h with h | h <;> simpa [h] using hw
    exact getLsbD_mergeWrite_taken _ _ hj ht hc hs
  case unlocked =>
    have ⟨hc, hs⟩ : r.layout.w1c.testBit j = false ∧ r.layout.w1s.testBit j = false := by simpa [h] using hw
    exact getLsbD_mergeWrite_taken _ _ hj (by simp [takesBit, h, u]) hc hs
  case locked =>
    have ⟨hr, ho⟩ : r.layout.rw.testBit j = false ∧ r.layout.wo.testBit j = false := by simpa [h] using hl
    have ⟨hc, hs⟩ : r.layout.w1c.testBit j = false ∧ r.layout.w1s.testBit j = false := by simpa [h] using hw
    exact getLsbD_mergeWrite_kept _ _ hj (by simp [takesBit, hr, ho, u]) hc hs
  case w1c =>
    have ⟨⟨hr, ho⟩, hx⟩ : (r.layout.rw.testBit j = false ∧ r.layout.wo.testBit j = false) ∧ r.layout.rwl.testBit j = false := by
      simpa [h] using hw
    exact getLsbD_mergeWrite_w1c _ _ hj (by simp [takesBit, hr, ho, hx]) h (by simpa [h] using h1)
  case w1s =>
    have ⟨⟨hr, ho⟩, hx⟩ : (r.layout.rw.testBit j = false ∧ r.layout.wo.testBit j = false) ∧ r.layout.rwl.testBit j = false := by
      simpa [h] using hw
    exact getLsbD_mergeWrite_w1s _ _ hj (by simp [takesBit, hr, ho, hx]) (by simpa [h] using h1) h
  case other =>
    simp only [Bool.or_eq_false_iff] at h
    obtain ⟨⟨⟨⟨hr, ho⟩, hx⟩, hc⟩, hs⟩ := h
    exact getLsbD_mergeWrite_kept _ _ hj (by simp [takesBit, hr, ho, hx]) hc hs

/-! ## Accesses without effect (R2, R463, R519) -/

/-- Counting an access changes the harts' counters and the free values drawn, and nothing else. -/
theorem accessedBy_eq (s : State) (req : Requester) :
    s.accessedBy req = { s with tel := (s.accessedBy req).tel, free := (s.accessedBy req).free } := by
  cases req with
  | hart h => simp only [State.accessedBy, State.hartEvent, State.drawn]
  | _ => rfl

@[simp] theorem accessedBy_regs (s : State) (req : Requester) : (s.accessedBy req).regs = s.regs := by rw [accessedBy_eq]

@[simp] theorem accessedBy_bus (s : State) (req : Requester) : (s.accessedBy req).bus = s.bus := by rw [accessedBy_eq]

@[simp] theorem accessedBy_gong (s : State) (req : Requester) : (s.accessedBy req).gong = s.gong := by rw [accessedBy_eq]

theorem raw_congr_regs {s t : State} (h : t.regs = s.regs) (r : RegName) (n i : Nat) : t.raw r n i = s.raw r n i := by
  unfold State.raw; rw [h]

theorem fld_congr_regs {s t : State} (h : t.regs = s.regs) (f : Field) (n i : Nat) : t.fld f n i = s.fld f n i := by
  unfold State.fld; rw [raw_congr_regs h]

/-- With GONG_ACCESS.SEV not fatal an access error changes GONG_ACCESS and Gong's records alone. -/
theorem only_accessError (s : State) (req : Requester) (addr : Nat) (write : Bool) (h : s.fld GONG_ACCESS.SEV ≠ 3) :
    Only (.GONG_ACCESS :: gongRegs) s (s.accessError req addr write) := by
  unfold State.accessError
  dsimp only
  rw [if_neg h]
  split
  · exact Only.refl _ s
  · exact ((Only.refl _ s).put _ _ _ _ (List.mem_cons_self ..)).firstError _ _ _ _ _ _ _ fun r => List.mem_cons_of_mem _

/-- The flag of the addressed block's group is set, unless SEV masks it. -/
theorem fld_accessError_flag (s : State) (req : Requester) (addr : Nat) (write : Bool) (h : s.fld GONG_ACCESS.SEV ≠ 3)
    (h0 : s.fld GONG_ACCESS.SEV ≠ 0) (hg : s.accessGroup (blockAt addr) < 32) :
    (s.accessError req addr write).fld ⟨.GONG_ACCESS, s.accessGroup (blockAt addr), s.accessGroup (blockAt addr)⟩ = 1 := by
  unfold State.accessError
  dsimp only
  rw [if_neg h0, if_neg h, ((Only.refl gongRegs _).firstError _ _ _ _ _ _ _ fun _ => id).fld _
      (by simp [gongRegs] : RegName.GONG_ACCESS ∉ gongRegs),
    fld_put_same _ _ _ _ _ (by dsimp only; omega) (Nat.le_refl _)]
  simp

/-- An access without effect is the access error, and a read answers all ones. -/
theorem noEffect_eq (s : State) (req : Requester) (addr : Nat) (write : Bool) :
    s.noEffect req addr write =
      { (s.accessedBy req).accessError req addr write with
        bus := if write then ((s.accessedBy req).accessError req addr write).bus
          else { ((s.accessedBy req).accessError req addr write).bus with resp := some (BitVec.allOnes 64) } } := by
  cases write <;> rfl

/-- A narrow or misaligned access that reads no half of a time register has no effect (R2, R8). -/
theorem narrow_eq_noEffect (s : State) (req : Requester) (addr bytes : Nat) (write : Bool)
    (h : write ∨ bytes ≠ 4 ∨ addr % 4 ≠ 0 ∨ ∀ x, regAt (addr / 8 * 8) = some x → isTimeReg x.1 = false) :
    s.narrow req addr bytes write = s.noEffect req addr write := by
  unfold State.narrow
  split
  · next r n k he =>
    refine if_neg ?_
    rintro ⟨hw, hb, ht, ha⟩
    rcases h with h | h | h | h
    · simp [h] at hw
    · exact h hb
    · exact h ha
    · simp [h _ he] at ht
  · rfl

/-- Settles O1: the access is the access error on `s.accessedBy req`, which touches Gong's registers alone, so no fatal action waits. -/
theorem ineffectiveAccesses : Obligations.IneffectiveAccesses := by
  unfold Obligations.IneffectiveAccesses
  rintro req addr bytes write s u hm hq rfl
  refine ⟨fun hb h => ?narrow, fun h => ?reserved, fun h t ht => ?_⟩
  case narrow =>
    change execNarrowAccess req addr bytes write s = _
    rw [execNarrowAccess, if_neg hm, if_neg hb, narrow_eq_noEffect s req addr bytes write h, done]
  case reserved =>
    change execReservedAccess req addr write s = _
    rw [execReservedAccess, if_neg hm, h, Option.isSome_none, if_neg Bool.false_ne_true, done]
  have hsev : (s.accessedBy req).fld GONG_ACCESS.SEV = s.fld GONG_ACCESS.SEV := fld_congr_regs (accessedBy_regs s req) _ _ _
  have ho := only_accessError (s.accessedBy req) req addr write (hsev ▸ h)
  have hqn : Quiet (s.noEffect req addr write) := by
    rw [noEffect_eq]
    exact hq.of_gong (ho.gong.trans (accessedBy_gong s req))
  rw [settle_of_quiet hqn, noEffect_eq] at ht
  subst ht
  refine ⟨fun r hr n i => ?_, ?_, fun h0 hg => ?_⟩
  · exact (ho.2 r hr n i).trans (raw_congr_regs (accessedBy_regs s req) r n i)
  · have hbus : ((s.accessedBy req).accessError req addr write).bus = s.bus := by rw [ho.1]; exact accessedBy_bus s req
    rw [hbus]
    dsimp only
    rw [ho.1]
  · exact fld_accessError_flag _ req addr write (hsev ▸ h) (hsev ▸ h0) hg

/-! ## Accesses that complete (R2, R6, R8, R56) -/

/-- Settles O2, command by command: outside NIGHT each meaning takes its branch for a register that exists. -/
theorem registerAccessesComplete : Obligations.RegisterAccessesComplete := by
  unfold Obligations.RegisterAccessesComplete
  intro req r n k w s hm
  refine ⟨fun h => ?read, fun h => ?write, fun h ht => ?low, ?nsf, ?eps⟩
  case read =>
    change execRcRead req r n k s = _
    rw [execRcRead, if_neg hm, if_pos h, done]
  case write =>
    change execRegisterWrite req r n k w s = _
    rw [execRegisterWrite, if_neg hm, if_pos h, done]
  case low =>
    change execTimeLowHalfRead req r n k s = _
    rw [execTimeLowHalfRead, if_neg hm, h, ht, Bool.and_self, if_pos rfl, State.readLow]
  case nsf =>
    change execTimeNsfRead req s = _
    rw [execTimeNsfRead, if_neg hm]
    rfl
  case eps =>
    change execEpsTimeRead req s = _
    rw [execEpsTimeRead, if_neg hm]
    rfl

end Sys2Proof.Machine
end

section
/-! SUPPORT. How a change of mode begins (R25, R30 to R32, R414): at a write of GLB_MODE, at the register trigger, at the end of the drain
and by itself. Each case is one beginning of a transition (`Begun`), with what it leaves alone. -/
namespace Sys2Proof.Machine

/-! ## The beginning of a transition (R25, R30 to R32) -/

/-- In `t` the transition from the mode of `s` to mode `m` has begun, and of the registers only those of `l` have changed: TRANSIT reads 1,
REQ `m`, MODE the mode left. -/
def Begun (l : List RegName) (s : State) (m : Nat) (auto : Bool) (rank init : Nat) (t : State) : Prop :=
  t.fld GLB_MODE.TRANSIT = 1 ∧ t.fld GLB_MODE.REQ = m ∧ t.mode = s.mode ∧ RegsBut l s t ∧
    t = { s with regs := t.regs, modes := s.noted m auto rank init }

theorem regs_beginTransition (s : State) (m : Nat) (auto : Bool) (rank init : Nat) :
    (s.beginTransition m auto rank init).regs = ((s.put GLB_MODE.TRANSIT 1).put GLB_MODE.REQ m).regs := rfl

/-- A field of GLB_MODE outside TRANSIT and REQ reads after the beginning of a transition what it read before. -/
theorem fld_beginTransition (s : State) (m : Nat) (auto : Bool) (rank init : Nat) (f : Field) (hr : f.reg = .GLB_MODE) (hf : f.hi < 64)
    (hd : f.hi < 3 ∨ 6 < f.lo) : (s.beginTransition m auto rank init).fld f = s.fld f := by
  rw [fld_congr_regs (regs_beginTransition ..), fld_put_apart _ _ _ _ _ _ hr.symm hf (hd.imp (by simp only [GLB_MODE.REQ]; omega) id),
    fld_put_apart _ _ _ _ _ _ hr.symm hf (hd.imp id (by simp only [GLB_MODE.TRANSIT]; omega))]

/-- A transition begun from a state `u` that differs from `s` in registers of `l` alone, and not in its mode, is begun from `s`. -/
theorem begun_beginTransition {l : List RegName} {s u : State} (h : Only l s u) (hl : RegName.GLB_MODE ∈ l) (hmode : u.mode = s.mode)
    {m : Nat} (hm : m < 8) (auto : Bool) (rank init : Nat) : Begun l s m auto rank init (u.beginTransition m auto rank init) := by
  have hregs : Only l s ((u.put GLB_MODE.TRANSIT 1).put GLB_MODE.REQ m) := (h.put _ _ _ _ hl).put _ _ _ _ hl
  have hnoted : u.noted m auto rank init = s.noted m auto rank init := by
    unfold State.noted
    rw [hmode, h.1]
    rfl
  refine ⟨?transit, ?req, ?mode, hregs.2, ?frame⟩
  case transit =>
    rw [fld_congr_regs (regs_beginTransition ..), fld_put_apart _ GLB_MODE.REQ GLB_MODE.TRANSIT _ _ _ rfl (by decide) (by decide),
      fld_put_same _ _ _ _ _ (by decide) (by decide)]
    rfl
  case req =>
    rw [fld_congr_regs (regs_beginTransition ..), fld_put_same _ _ _ _ _ (by decide) (by decide)]
    exact Nat.mod_eq_of_lt hm
  case mode =>
    exact (fld_beginTransition u m auto rank init GLB_MODE.MODE rfl (by decide) (by decide)).trans hmode
  case frame =>
    change { (u.put GLB_MODE.TRANSIT 1).put GLB_MODE.REQ m with modes := u.noted m auto rank init } = _
    rw [hnoted, hregs.1]
    rfl

/-! ## Writes of GLB_MODE (R25, R30) -/

/-- GLB_MODE as a write of `w` leaves it before the request that it carries acts: the plain fields are stored, REQ and FORCE are not. -/
def State.storeMode (s : State) (w : Word) : State :=
  ((s.writeReg .GLB_MODE 0 0 w).put GLB_MODE.REQ (s.fld GLB_MODE.REQ)).put GLB_MODE.FORCE 0

theorem only_storeMode (s : State) (w : Word) : Only [.GLB_MODE] s (s.storeMode w) :=
  (((Only.refl _ s).writeReg _ _ _ _ (by decide)).put GLB_MODE.REQ _ _ _ (by decide)).put GLB_MODE.FORCE _ _ _ (by decide)

/-- A field of GLB_MODE below REQ, or between REQ and FORCE, is in `storeMode` what the write left. -/
theorem fld_storeMode (s : State) (w : Word) (f : Field) (hr : f.reg = .GLB_MODE) (hf : f.hi < 9) (hd : f.hi < 4 ∨ 6 < f.lo) :
    (s.storeMode w).fld f = (s.writeReg .GLB_MODE 0 0 w).fld f := by
  unfold State.storeMode
  rw [fld_put_apart _ _ _ _ _ _ hr.symm (by omega) (.inl hf), fld_put_apart _ _ _ _ _ _ hr.symm (by omega) hd]

theorem mode_storeMode (s : State) (w : Word) : (s.storeMode w).mode = s.mode :=
  (fld_storeMode s w GLB_MODE.MODE rfl (by decide) (by decide)).trans (fld_writeReg_keep s GLB_MODE.MODE 0 0 w (by split <;> decide))

theorem transit_storeMode (s : State) (w : Word) : (s.storeMode w).fld GLB_MODE.TRANSIT = s.fld GLB_MODE.TRANSIT :=
  (fld_storeMode s w GLB_MODE.TRANSIT rfl (by decide) (by decide)).trans (fld_writeReg_keep s GLB_MODE.TRANSIT 0 0 w (by split <;> decide))

theorem duskEnd_storeMode (s : State) (w : Word) : (s.storeMode w).fld GLB_MODE.DUSK_END = wfld w GLB_MODE.DUSK_END :=
  (fld_storeMode s w GLB_MODE.DUSK_END rfl (by decide) (by decide)).trans
    (fld_writeReg_set s GLB_MODE.DUSK_END 0 0 w (by split <;> decide) (by decide))

theorem isSet_eq_false {s : State} {f : Field} {n i : Nat} (h : s.fld f n i = 0) : s.isSet f n i = false := by
  simp [State.isSet, h]

theorem isSet_eq_true {s : State} {f : Field} {n i : Nat} (h : s.fld f n i ≠ 0) : s.isSet f n i = true := by
  simpa [State.isSet] using h

/-- The table Mode transitions lists no change from NIGHT, to MIDNIGHT or to the mode itself. -/
theorem requestable_bounds {m t : Nat} (h : requestable m t) : m ≠ NIGHT ∧ t ≠ m ∧ t ≠ MIDNIGHT ∧ t < 8 := by
  simp only [requestable, Bool.or_eq_true, Bool.and_eq_true, beq_iff_eq, DAWN, DAY, NOON, EVENING, DUSK] at h
  simp only [NIGHT, MIDNIGHT]
  omega

/-- A request that the table Mode transitions lists, where no transition is in progress and FORCE is 0, begins its transition. -/
theorem writeMode_of_requestable {s : State} {w : Word} {m : Nat} (init : Nat) (hreq : wfld w GLB_MODE.REQ = m)
    (ht : s.fld GLB_MODE.TRANSIT = 0) (hf : wfld w GLB_MODE.FORCE = 0) (hok : requestable s.mode m) :
    s.writeMode init w = (s.storeMode w).beginTransition m false 3 init := by
  obtain ⟨-, hne, hmid, -⟩ := requestable_bounds hok
  simp [State.writeMode, hreq, hne, hmid, hok, hf, isSet_eq_false ht, State.storeMode]

/-- REQ equal to MODE and FORCE in DUSK end the drain (R30). -/
theorem writeMode_of_force {s : State} {w : Word} (init : Nat) (hs : s.mode = DUSK) (ht : s.fld GLB_MODE.TRANSIT = 0)
    (hreq : wfld w GLB_MODE.REQ = DUSK) (hf : wfld w GLB_MODE.FORCE = 1) : s.writeMode init w = (s.storeMode w).endDrain := by
  simp [State.writeMode, hreq, hs, hf, isSet_eq_false ht, State.storeMode]

/-- A request for MIDNIGHT from another mode is the register trigger (R414). -/
theorem writeMode_of_midnight {s : State} {w : Word} (init : Nat) (hs : s.mode ≠ MIDNIGHT) (hreq : wfld w GLB_MODE.REQ = MIDNIGHT) :
    s.writeMode init w = (s.storeMode w).securityTrigger 0 := by
  simp [State.writeMode, hreq, hs.symm, State.storeMode]

/-! ## The register trigger (R414) -/

theorem meets_storeMode (s : State) (w : Word) (rank : Nat) : (s.storeMode w).meets rank = s.meets rank := by
  unfold State.meets State.isSet
  rw [transit_storeMode]
  rfl

/-- A trigger that meets no manager's request, outside NIGHT and MIDNIGHT, sets its cause bit and begins the entry of MIDNIGHT. -/
theorem securityTrigger_eq {u : State} (k : Nat) (hn : u.mode ≠ NIGHT) (hm : u.mode ≠ MIDNIGHT) (hmeets : u.meets 3 = false) :
    u.securityTrigger k = (u.put ⟨.SEC_TRIGGER, 16 + k, 16 + k⟩ 1).beginTransition MIDNIGHT false 2 := by
  have hmode : (u.put ⟨.SEC_TRIGGER, 16 + k, 16 + k⟩ 1).mode = u.mode := fld_put_ne _ _ _ _ _ _ _ _ (by simp [GLB_MODE.MODE])
  have hmeet : (u.put ⟨.SEC_TRIGGER, 16 + k, 16 + k⟩ 1).meets 3 = u.meets 3 := by
    unfold State.meets State.isSet
    rw [fld_put_ne _ _ _ _ _ _ _ _ (by simp [GLB_MODE.TRANSIT])]
    rfl
  unfold State.securityTrigger
  dsimp only
  rw [if_neg hn, if_neg (hmode ▸ hm), hmeet, hmeets]
  rfl

/-- Such a trigger on a state that differs from `s` in GLB_MODE alone, and not in its mode, begins the entry of MIDNIGHT from `s`. -/
theorem begun_securityTrigger {s u : State} {k : Nat} (hk : k < 16) (h : Only [.GLB_MODE] s u) (hmode : u.mode = s.mode)
    (hn : s.mode ≠ NIGHT) (hm : s.mode ≠ MIDNIGHT) (hmeets : u.meets 3 = false) :
    Begun [.GLB_MODE, .SEC_TRIGGER] s MIDNIGHT false 2 0 (u.securityTrigger k) ∧
      (u.securityTrigger k).fld ⟨.SEC_TRIGGER, 16 + k, 16 + k⟩ = 1 := by
  rw [securityTrigger_eq k (hmode ▸ hn) (hmode ▸ hm) hmeets]
  have honly : Only [.GLB_MODE, .SEC_TRIGGER] s (u.put ⟨.SEC_TRIGGER, 16 + k, 16 + k⟩ 1) :=
    (h.mono (by simp)).put _ _ _ _ (by simp)
  have hmode' : (u.put ⟨.SEC_TRIGGER, 16 + k, 16 + k⟩ 1).mode = s.mode :=
    (fld_put_ne _ _ _ _ _ _ _ _ (by simp [GLB_MODE.MODE])).trans hmode
  refine ⟨begun_beginTransition honly (by decide) hmode' (by decide) false 2 0, ?_⟩
  rw [fld_congr_regs (regs_beginTransition ..), fld_put_ne _ _ _ _ _ _ _ _ (by simp [GLB_MODE.REQ]),
    fld_put_ne _ _ _ _ _ _ _ _ (by simp [GLB_MODE.TRANSIT]), fld_put_same _ _ _ _ _ (by dsimp only; omega) (Nat.le_refl _)]
  simp

/-! ## Requests of modes -/

theorem Begun.quiet {l : List RegName} {s t : State} {m : Nat} {auto : Bool} {rank init : Nat} (h : Begun l s m auto rank init t)
    (hq : Quiet s) : Quiet t := by
  obtain ⟨-, -, -, -, ht⟩ := h
  exact hq.of_gong (by rw [ht])

/-- A write of GLB_MODE by a row that acts outside NIGHT answers the transition that the write begins, with DUSK_END as written. -/
theorem answers_writeMode {c : Instr} {s : State} {w : Word} {m : Nat} {init : Nat}
    (he : exec c s = if s.mode = NIGHT then .next s else done (s.writeMode init w)) (hq : Quiet s)
    (ht : s.fld GLB_MODE.TRANSIT = 0) (hf : wfld w GLB_MODE.FORCE = 0) (hreq : wfld w GLB_MODE.REQ = m) (hok : requestable s.mode m) :
    ∃ t, exec c s = .next t ∧ t.fld GLB_MODE.TRANSIT = 1 ∧ t.fld GLB_MODE.REQ = m ∧ t.mode = s.mode ∧
      t.fld GLB_MODE.DUSK_END = wfld w GLB_MODE.DUSK_END ∧ RegsBut [.GLB_MODE] s t ∧
      t = { s with regs := t.regs, modes := s.noted m false 3 init } := by
  obtain ⟨hn, -, -, hm⟩ := requestable_bounds hok
  have hb : Begun [.GLB_MODE] s m false 3 init ((s.storeMode w).beginTransition m false 3 init) :=
    begun_beginTransition (only_storeMode s w) (by decide) (mode_storeMode s w) hm false 3 init
  have hd : ((s.storeMode w).beginTransition m false 3 init).fld GLB_MODE.DUSK_END = wfld w GLB_MODE.DUSK_END :=
    (fld_beginTransition _ m false 3 init GLB_MODE.DUSK_END rfl (by decide) (by decide)).trans (duskEnd_storeMode s w)
  have hx : exec c s = .next ((s.storeMode w).beginTransition m false 3 init) := by
    rw [he, if_neg hn, writeMode_of_requestable init hreq ht hf hok, done_of_quiet (hb.quiet hq)]
  obtain ⟨htr, hrq, hmo, hregs, hframe⟩ := hb
  exact ⟨_, hx, htr, hrq, hmo, hd, hregs, hframe⟩

/-- Settles O10: the mode read and the mode asked for are a change that the table lists, so the write begins its transition. -/
theorem modeRequestAccepted : Obligations.ModeRequestAccepted := by
  unfold Obligations.ModeRequestAccepted
  intro req w s hq ht hf
  refine ⟨fun hr hs => ?day, fun hr hs => ?noon, fun hr hs => ?evening, fun hr hs => ?dusk⟩
  case day => exact answers_writeMode rfl hq ht hf hr (by rcases hs with hs | hs | hs <;> rw [hs] <;> rfl)
  case noon => exact answers_writeMode rfl hq ht hf hr (by rw [hs]; rfl)
  case evening => exact answers_writeMode rfl hq ht hf hr (by rw [hs]; rfl)
  case dusk => exact answers_writeMode rfl hq ht hf hr (by rcases hs with hs | hs | hs <;> rw [hs] <;> rfl)

/-- Settles O12: the request for MIDNIGHT is the register trigger on the stored word, and FORCE ends the drain that DUSK_END directs. -/
theorem midnightRequestAndForce : Obligations.MidnightRequestAndForce := by
  unfold Obligations.MidnightRequestAndForce
  intro req w s hq
  refine ⟨fun hn hm hr hmeets => ?midnight, fun hs ht hr hf => ?force⟩
  case midnight =>
    obtain ⟨hb, hbit⟩ := begun_securityTrigger (k := 0) (by decide) (only_storeMode s w) (mode_storeMode s w) hn hm
      ((meets_storeMode s w 3).trans hmeets)
    refine ⟨_, ?_, hbit, hb⟩
    change execReqMidnight req w s = _
    rw [execReqMidnight, if_neg hn, writeMode_of_midnight _ hm hr, done_of_quiet (hb.quiet hq)]
  case force =>
    have hend : (s.storeMode w).endDrain = (s.storeMode w).beginTransition (if wfld w GLB_MODE.DUSK_END = 0 then NIGHT else DAY) false := by
      simp [State.endDrain, State.isSet, duskEnd_storeMode, ite_not]
    have hb : Begun [.GLB_MODE] s (if wfld w GLB_MODE.DUSK_END = 0 then NIGHT else DAY) false 0 0 (s.storeMode w).endDrain :=
      hend ▸ begun_beginTransition (only_storeMode s w) (by decide) (mode_storeMode s w) (by split <;> decide) false 0 0
    refine ⟨_, ?_, hb⟩
    change execForce req w s = _
    rw [execForce, if_neg (by rw [hs]; decide), writeMode_of_force _ hs ht hr hf, done_of_quiet (hb.quiet hq)]

/-! ## The end of the drain and the automatic changes (R30 to R32) -/

/-- A row that answers `s` with a transition begun has GLB_MODE and the note of the transition as its only effects. -/
theorem answers_beginTransition {c : Instr} {s : State} {m : Nat} {auto : Bool} {rank : Nat} (hm : m < 8)
    (he : exec c s = .next (s.beginTransition m auto rank)) : ∃ t, exec c s = .next t ∧ Begun [.GLB_MODE] s m auto rank 0 t :=
  ⟨_, he, begun_beginTransition (Only.refl _ s) (by decide) rfl hm auto rank 0⟩

/-- Settles O11: each row's condition is its rule's, and what it answers is the transition begun. -/
theorem automaticTransitions : Obligations.AutomaticTransitions := by
  unfold Obligations.AutomaticTransitions
  intro s ht
  have hidle : s.isSet GLB_MODE.TRANSIT = false := isSet_eq_false ht
  refine ⟨fun hs hd he => ?night, fun hs hd he => ?day, fun since hs ha hi hsince hheld hleft => ?entry, fun hs hw => ?back⟩
  case night =>
    refine answers_beginTransition (by decide) ?_
    change execDuskDrainEnd s = _
    rw [execDuskDrainEnd, if_pos ⟨hs, by rw [hidle]; rfl, hd⟩, State.endDrain, isSet_eq_false he]
    rfl
  case day =>
    refine answers_beginTransition (by decide) ?_
    change execDuskDrainEnd s = _
    rw [execDuskDrainEnd, if_pos ⟨hs, by rw [hidle]; rfl, hd⟩, State.endDrain, isSet_eq_true (by rw [he]; decide), if_pos rfl]
  case entry =>
    refine answers_beginTransition (by decide) ?_
    change execAutoEveningEntry s = _
    exact if_pos ⟨hs, by rw [hidle]; rfl, ha, hi, by rw [hsince]; exact hheld, all_add_le _ _ _ hleft⟩
  case back =>
    refine answers_beginTransition (by decide) ?_
    change execAutoEveningReturn s = _
    exact if_pos ⟨hs, by rw [hidle]; rfl, hw⟩

end Sys2Proof.Machine
end

section
/-! SUPPORT. What a device reset leaves (R48, R50 to R52, R527): its operations one after another, each with what it leaves alone. -/
namespace Sys2Proof.Machine

/-! ## Units outside Carillon, Gong and the links -/

/-- From `s` to `t` no register outside `l` changes, no memory, no waiting command, and none of the units whose state a device reset clears:
packets, tables, threads, queue pairs, controllers, connections, mailboxes, telemetry. -/
def UnitsKept (l : List RegName) (s t : State) : Prop :=
  RegsBut l s t ∧ t.net = s.net ∧ t.tbl = s.tbl ∧ t.tbe = s.tbe ∧ t.hq = s.hq ∧ t.nvm = s.nvm ∧ t.xpt = s.xpt ∧ t.mbx = s.mbx ∧
    t.tel = s.tel ∧ t.ddr = s.ddr ∧ t.host = s.host ∧ t.pending = s.pending

theorem UnitsKept.trans {l : List RegName} {a b c : State} (h : UnitsKept l a b) (k : UnitsKept l b c) : UnitsKept l a c := by
  obtain ⟨h0, h1, h2, h3, h4, h5, h6, h7, h8, h9, h10, h11⟩ := h
  obtain ⟨k0, k1, k2, k3, k4, k5, k6, k7, k8, k9, k10, k11⟩ := k
  exact ⟨h0.trans k0, k1.trans h1, k2.trans h2, k3.trans h3, k4.trans h4, k5.trans h5, k6.trans h6, k7.trans h7, k8.trans h8, k9.trans h9,
    k10.trans h10, k11.trans h11⟩

theorem UnitsKept.mono {l m : List RegName} {a b : State} (h : UnitsKept l a b) (hs : ∀ r ∈ l, r ∈ m) : UnitsKept m a b :=
  ⟨h.1.mono hs, h.2⟩

theorem Only.unitsKept {l : List RegName} {s t : State} (h : Only l s t) : UnitsKept l s t := by
  refine ⟨h.2, ?_⟩
  rw [h.1]
  simp

theorem unitsKept_fire (s : State) (g src addr init typ : Nat) : UnitsKept gongRegs s (s.fire g src addr init typ) :=
  ⟨regsBut_fire s g src addr init typ, by simp⟩

theorem unitsKept_carModeChange (before s : State) : UnitsKept carRegs s (State.carModeChange before s) := by
  obtain ⟨hregs, -, -, -, -, hnet, htbl, htbe, hhq, htel, -, hmbx, hnvm, hxpt, -, hddr, hhost, -, hpend⟩ :=
    (carKeeps_carModeChange s before s).mpr (carKeeps_self s)
  exact ⟨hregs, hnet, htbl, htbe, hhq, hnvm, hxpt, hmbx, htel, hddr, hhost, hpend⟩

/-! ## The operations of a device reset -/

theorem only_avsAfter (s : State) (src : ResetSource) : Only [.PWR_AVS] s (s.avsAfter src) := by
  unfold State.avsAfter
  split
  · exact ((Only.refl _ s).put PWR_AVS.REQUEST_MV _ _ _ (by decide)).put PWR_AVS.ACK_ERR _ _ _ (by decide)
  · exact Only.refl _ s

theorem unitsKept_unlockAfter (s before : State) (src : ResetSource) :
    UnitsKept (.SEC_LIFECYCLE :: gongRegs) s (s.unlockAfter before src) := by
  have hput : ∀ (u : State) (f : Field) (v : Nat), f.reg = .SEC_LIFECYCLE → Only (.SEC_LIFECYCLE :: gongRegs) u (u.put f v) := fun u f v hf =>
    (Only.refl _ u).put _ _ _ _ (by rw [hf]; exact List.mem_cons_self ..)
  have hopen := hput s SEC_LIFECYCLE.DEBUG_OPEN 0 rfl
  unfold State.unlockAfter
  dsimp only
  split
  · exact (hopen.trans (hput _ SEC_LIFECYCLE.DEBUG_UNLOCKED _ rfl)).unitsKept
  · split
    · exact (hopen.trans (hput _ SEC_LIFECYCLE.DEBUG_UNLOCKED _ rfl)).unitsKept.trans
        ((unitsKept_fire _ _ _ _ _ _).mono fun _ => List.mem_cons_of_mem _)
    · exact hopen.unitsKept

theorem unitsKept_rollbackCut (s before : State) : UnitsKept [.SEC_ROLLBACK] s (s.rollbackCut before) := by
  unfold State.rollbackCut
  split
  · next c v _ =>
    have h : Only [.SEC_ROLLBACK] s (s.put (SEC_ROLLBACK.COUNTER c)
        (s.fld (SEC_ROLLBACK.COUNTER c) + (Config.freeWord s.free).toNat % (v - s.fld (SEC_ROLLBACK.COUNTER c) + 1))) :=
      (Only.refl _ s).put _ _ _ _ (List.mem_singleton_self _)
    exact h.unitsKept
  · exact (Only.refl _ s).unitsKept

/-- The contents that a device reset starts from: what the reset keeps, all else at its reset value. -/
def State.resetBase (s : State) (src : ResetSource) : State :=
  { State.reset with
    regs := s.regs.keep fun k => (keptRegs src).contains (k / 2 ^ 40)
    bus := if src = .aon then {} else s.bus
    host := s.host
    ddr := s.ddr
    pending := s.pending
    free := s.free
    car := if src = .aon then {} else s.car
    gong := if src.cold then {} else { retiredCount := s.gong.retiredCount }
    hl := { links := ⟨s.hl.links.entries.filterMap fun e => if e.2.perst then some (e.1, { perst := true }) else none⟩ }
    modes := s.modesAfter src
    sec := s.secAfter src }

/-- GLB_RESET_CAUSE and what the reset makes of the fuses' registers. -/
def State.resetRecords (s : State) (src : ResetSource) : State :=
  ((((s.resetBase src).setRaw .GLB_RESET_CAUSE 0 0 (causeAfter s src)).avsAfter src).unlockAfter s src).rollbackCut s

/-- GLB_MODE of a part that a reset has put in NIGHT, with or without a transition to `next`. -/
def State.toNight (s : State) (transit next : Nat) : State :=
  ((s.put GLB_MODE.MODE NIGHT).put GLB_MODE.TRANSIT transit).put GLB_MODE.REQ next

/-- The locks kept, PTM and its maps off, Carillon following the change of mode. -/
def State.resetClocks (s before : State) (plls : Nat) : State :=
  State.carModeChange before ((List.range 16).foldl
    (fun t l => (t.put CAR_LINK_STATUS.PTM_ON 0 0 l).put CAR_LINK_STATUS.MAPPED 0 0 l) (s.put PWR_PLL_STATUS.LOCKED plls))

/-- A device reset in four parts: what it keeps, its records, the mode, the clocks. -/
theorem deviceReset_eq (s : State) (src : ResetSource) :
    s.deviceReset src = ((s.resetRecords src).toNight
      (b2n (src != .por && src != .supply && src != .aon && (s.resetRecords src).modes.hold == .no))
      ((s.resetRecords src).nextMode (s.resetTarget src))).resetClocks s (if src = .aon then 0 else s.fld PWR_PLL_STATUS.LOCKED % 2) := rfl

/-- Registers that a device reset writes after its causes. -/
def resetRegs : List RegName := [.PWR_AVS, .SEC_LIFECYCLE, .SEC_ROLLBACK, .GLB_MODE, .PWR_PLL_STATUS, .CAR_LINK_STATUS] ++ carRegs

/-- Registers that a device reset writes after GLB_MODE. -/
def clockRegs : List RegName := [.PWR_PLL_STATUS, .CAR_LINK_STATUS] ++ carRegs

theorem only_foldl {α : Type} {l : List RegName} {f : State → α → State} (xs : List α) (s : State) (h : ∀ t x, Only l t (f t x)) :
    Only l s (xs.foldl f s) := by
  induction xs generalizing s with
  | nil => exact Only.refl l s
  | cons x xs ih => exact (h s x).trans (ih (f s x))

theorem unitsKept_resetRecords (s : State) (src : ResetSource) :
    UnitsKept resetRegs ((s.resetBase src).setRaw .GLB_RESET_CAUSE 0 0 (causeAfter s src)) (s.resetRecords src) :=
  (((only_avsAfter _ src).unitsKept.mono (by decide)).trans ((unitsKept_unlockAfter _ s src).mono (by decide))).trans
    ((unitsKept_rollbackCut _ s).mono (by decide))

theorem only_toNight (s : State) (transit next : Nat) : Only [.GLB_MODE] s (s.toNight transit next) :=
  (((Only.refl _ s).put GLB_MODE.MODE _ _ _ (by decide)).put GLB_MODE.TRANSIT _ _ _ (by decide)).put GLB_MODE.REQ _ _ _ (by decide)

theorem mode_toNight (s : State) (transit next : Nat) : (s.toNight transit next).mode = NIGHT := by
  unfold State.toNight State.mode
  rw [fld_put_apart _ GLB_MODE.REQ GLB_MODE.MODE _ _ _ rfl (by decide) (by decide),
    fld_put_apart _ GLB_MODE.TRANSIT GLB_MODE.MODE _ _ _ rfl (by decide) (by decide), fld_put_same _ _ _ _ _ (by decide) (by decide)]
  rfl

theorem unitsKept_resetClocks (s before : State) (plls : Nat) : UnitsKept clockRegs s (s.resetClocks before plls) := by
  have hlinks : ∀ (t : State) (l : Nat), Only clockRegs t ((t.put CAR_LINK_STATUS.PTM_ON 0 0 l).put CAR_LINK_STATUS.MAPPED 0 0 l) := fun t l =>
    ((Only.refl _ t).put CAR_LINK_STATUS.PTM_ON _ _ _ (by decide)).put CAR_LINK_STATUS.MAPPED _ _ _ (by decide)
  have hput : Only clockRegs s (s.put PWR_PLL_STATUS.LOCKED plls) := (Only.refl _ s).put _ _ _ _ (by decide)
  exact (hput.trans (only_foldl _ _ hlinks)).unitsKept.trans ((unitsKept_carModeChange before _).mono (by decide))

/-- After GLB_RESET_CAUSE is written, the rest of a device reset touches `resetRegs` alone and keeps the units as the reset set them. -/
theorem unitsKept_deviceReset (s : State) (src : ResetSource) :
    UnitsKept resetRegs ((s.resetBase src).setRaw .GLB_RESET_CAUSE 0 0 (causeAfter s src)) (s.deviceReset src) := by
  rw [deviceReset_eq]
  exact ((unitsKept_resetRecords s src).trans ((only_toNight _ _ _).unitsKept.mono (by decide))).trans
    ((unitsKept_resetClocks _ _ _).mono (by decide))

theorem mode_deviceReset (s : State) (src : ResetSource) : (s.deviceReset src).mode = NIGHT := by
  rw [deviceReset_eq]
  exact ((unitsKept_resetClocks _ _ _).1.fld GLB_MODE.MODE (by decide) 0 0).trans (mode_toNight _ _ _)

theorem cause_deviceReset (s : State) (src : ResetSource) : (s.deviceReset src).raw .GLB_RESET_CAUSE = causeAfter s src :=
  ((unitsKept_deviceReset s src).1 _ (by decide) 0 0).trans (raw_setRaw_same _ _ _ _ _)

/-- The loss of VDD_AON starts the counter and its checker at 0 again. -/
theorem time_deviceReset_aon (s : State) : (s.deviceReset .aon).car.time = 0 ∧ (s.deviceReset .aon).car.checker = 0 := by
  have h : Keeps (s.resetBase .aon) (s.deviceReset .aon) := by
    rw [deviceReset_eq, State.resetClocks, keeps_carModeChange, keeps_foldl _ _ _ _ fun _ _ _ => by simp]
    simp [State.toNight, State.resetRecords]
  obtain ⟨-, htime, hchecker⟩ := h
  exact ⟨htime, hchecker⟩

/-- Settles O14: what the reset starts from holds the units' reset values, and none of its operations touches them. -/
theorem deviceResetEffect : Obligations.DeviceResetEffect := by
  unfold Obligations.DeviceResetEffect
  intro s src
  obtain ⟨-, hnet, htbl, htbe, hhq, hnvm, hxpt, hmbx, htel, hddr, hhost, hpend⟩ := unitsKept_deviceReset s src
  have htime : src ≠ .aon → (s.deviceReset src).car.time = s.car.time ∧ (s.deviceReset src).car.checker = s.car.checker := fun h =>
    ((keeps_deviceReset s s src h).mpr (keeps_self s)).2
  exact ⟨mode_deviceReset s src, cause_deviceReset s src, hnet, htbl, htbe, hhq, hnvm, hxpt, hmbx, htel, hddr, hhost, hpend, htime,
    fun h => h ▸ time_deviceReset_aon s⟩

end Sys2Proof.Machine
end

section
/-! SUPPORT. What the reset state reads (R51, R461, R524), and that the resets, the power events and the clock events complete with the
effects of their rules (R24, R30, R34, R35, R42 to R49, R83, R511, R513, R525). -/
namespace Sys2Proof.Machine

/-! ## The reset state (R51, R52, R461, R524) -/

/-- Every register but PWR_PLL_STATUS, the one that the reset state lists, reads its reset word. -/
theorem raw_reset {r : RegName} {n i : Nat} (h : regCode r n i ≠ regCode .PWR_PLL_STATUS 0 0) : State.reset.raw r n i = resetWord r n i := by
  have hlook : Store.look State.reset.regs.entries (regCode r n i) = none := if_neg h.symm
  unfold State.raw Store.get
  rw [hlook]
  rfl

/-- Settles O5: the reset state lists one register, and all else is as its structure's defaults say. -/
theorem resetState : Obligations.ResetState := by
  unfold Obligations.ResetState
  refine ⟨fun _ _ _ => raw_reset, ?pll, ?mode, ?transit, rfl, rfl, rfl, rfl, rfl, fun _ => rfl, rfl, rfl, rfl, rfl⟩
  case pll => decide +kernel
  case mode => decide +kernel
  case transit => decide +kernel

/-! ## Device resets and their ends (R46 to R51, R511) -/

/-- VDD_AON is below its reset level where it is below 0.72 V (R41). -/
theorem railDown_aon (s : State) (uv : Nat) : s.railDown 2 false uv = decide (uv < 720000) := by
  simp only [State.railDown, railLevels, State.railNominal]
  exact decide_eq_decide.mpr (by omega)

/-- A transition in progress completes into a device reset where it leads to NIGHT, into its mode otherwise (R24, R30). -/
theorem completeTransition_eq {s : State} (ht : s.fld GLB_MODE.TRANSIT = 1) (cfg : Option (List Word)) :
    s.completeTransition cfg = if s.fld GLB_MODE.REQ = NIGHT then s.deviceReset .dusk else s.enterMode (s.fld GLB_MODE.REQ) cfg := by
  rw [State.completeTransition, isSet_eq_true (by rw [ht]; decide), if_neg (by decide)]

/-- A hold that ends while POR# is high and no rail is low boots the part. -/
theorem endHold_eq_powerUp {s : State} (straps : Nat) (hp : s.modes.porLow = false) (hl : s.modes.lowRails = []) :
    s.endHold straps = ({ s with modes := { s.modes with hold := .no } } : State).powerUp straps := by
  unfold State.endHold
  dsimp only
  rw [if_neg (by rw [hp]; decide), if_neg (not_not_intro hl)]

/-- Settles O13, row by row: under its condition each meaning takes the branch of its rule. -/
theorem deviceResetCommandsComplete : Obligations.DeviceResetCommandsComplete := by
  unfold Obligations.DeviceResetCommandsComplete
  intro s rail upper uv tj req w straps cfg
  refine ⟨fun hr hv hp ha => ?supply, fun ha hv => ?aon, fun hj ht ha => ?thermal, fun hp ha => ?por, fun he h2 hd hn => ?watchdog,
    fun hn hk => ?manager, fun ht hr => ?dusk, fun hh hl => ?deassert, fun hh hv hl => ?recovery, fun hh hv hp hl => ?powerUp⟩
  case supply =>
    change execSupplyReset rail upper uv s = _
    have hdown : s.railDown rail upper uv = true := decide_eq_true hv
    rw [execSupplyReset, if_neg (by simp [hr, hdown])]
    exact if_neg (by simp [hp, ha])
  case aon =>
    change execAonReset uv s = _
    exact if_neg (by simp [ha, railDown_aon, hv])
  case thermal =>
    change execThermalShutdown tj s = _
    exact if_neg (by simp [ht, ha, hj])
  case por =>
    change execPorAssert s = _
    exact if_neg (by simp [hp, ha])
  case watchdog =>
    change execWdogSecondExpiry s = _
    exact if_pos (.inl (by simp [State.wdogExpires, he, h2, hd, hn]))
  case manager =>
    change execManagerReset req w s = _
    rw [execManagerReset, if_neg (by simp [hn]), if_pos hk]
    rfl
  case dusk =>
    change done (s.completeTransition cfg) = _
    rw [completeTransition_eq ht, if_pos hr, done]
  case deassert =>
    change execPorDeassert straps s = _
    rw [execPorDeassert, if_pos hh]
    exact congrArg done (endHold_eq_powerUp (s := { s with modes := { s.modes with porLow := false } }) straps.toNat rfl hl)
  case recovery =>
    change execRailRecovery rail upper uv straps s = _
    have hup : s.railDown rail upper uv = false := decide_eq_false (Nat.not_lt.mpr hv)
    have hrails : s.modes.lowRails.filter (· != monitorOf rail upper) = [] := by simpa using hl
    unfold execRailRecovery
    dsimp only
    rw [hup, hrails, if_neg (by decide), if_pos ⟨hh, rfl⟩, done]
  case powerUp =>
    change execVddAonPowerUp uv straps s = _
    rw [execVddAonPowerUp, if_pos ⟨hh, by simp [railDown_aon, hv]⟩, if_neg (by rw [hp]; decide), endHold_eq_powerUp straps.toNat hp hl, done]

/-! ## Power, clocks and temperature (R24, R30, R34, R35, R42 to R49, R83, R513, R525) -/

/-- Settles O15, row by row: under its condition each meaning takes the branch of its rule. -/
theorem powerEventsComplete : Obligations.PowerEventsComplete := by
  unfold Obligations.PowerEventsComplete
  intro s req w dom rail upper uv ns tj lane cfg
  refine ⟨fun ht hr => ?enter, fun hs ht hl hd hdue => ?late, fun hn hok hq => ?ctl, fun hn hset hoff => ?ctlRefused, fun hd hc => ?wake,
    fun hs hd hh hb => ?gate, fun u ha hv hsag hwarn hu => ?sagBegin, fun u hsag hv hns hu hpair => ?sagEnd, fun ha hw => ?lost,
    fun ha => ?relock, fun ha => ?relockSerdes, fun hj ht => ?throttle, fun hj => ?release, fun hn => ?kick, fun he h2 hd hn => ?first,
    fun v hv => ?ack, fun v hv hf => ?ackTimeout⟩
  case enter =>
    change done (s.completeTransition cfg) = _
    rw [completeTransition_eq ht, if_neg hr, done]
  case late =>
    change execDuskDrainTimeout s = _
    exact if_pos ⟨hs, by rw [isSet_eq_false ht]; rfl, by rw [hl]; rfl, by rw [hd]; rfl, hdue⟩
  case ctl =>
    change execEveningCtlWrite req w s = _
    have hkeep : ((s.writeReg .GLB_EVENING_CTL 0 0 w).isSet GLB_EVENING_CTL.AUTO_ENTER &&
        !(s.writeReg .GLB_EVENING_CTL 0 0 w).autoEnter) = false := by
      rcases hok with h | h <;> rw [h] <;> simp
    rw [execEveningCtlWrite, if_neg hn]
    dsimp only
    rw [hkeep]
    exact done_of_quiet (hq.of_gong rfl)
  case ctlRefused =>
    change execEveningCtlWrite req w s = _
    rw [execEveningCtlWrite, if_neg hn]
    dsimp only
    rw [hset, hoff]
    rfl
  case wake =>
    change execDomainWake dom s = _
    rw [execDomainWake, if_neg (Nat.not_lt.mpr hd), State.wakeDomain, if_pos hc]
    rfl
  case gate =>
    change execDomainGate dom s = _
    exact if_pos ⟨hs, hd, by rw [hh]; rfl, by rw [hb]; rfl⟩
  case sagBegin =>
    subst hu
    change execSagBegin rail upper uv s = _
    have hlow : s.railWarns rail upper uv = true := decide_eq_true hv
    unfold execSagBegin
    dsimp only
    rw [if_neg (by simpa [hlow, ha] using hsag), if_neg (by rw [hwarn]; decide)]
    rfl
  case sagEnd =>
    subst hu
    change execSagEnd rail upper uv ns s = _
    have hclear : s.railClear rail upper uv = true := decide_eq_true hv
    unfold execSagEnd
    dsimp only at hpair ⊢
    rw [if_neg (by simpa [hclear, Nat.not_lt.mpr hns] using hsag), if_neg (by rw [hpair]; simp)]
    rfl
  case lost =>
    change execPllLockLost .alwaysOn s = _
    unfold execPllLockLost
    dsimp only
    rw [if_neg ha, if_pos hw]
    rfl
  case relock =>
    change execPllRelock .alwaysOn s = _
    exact if_neg ha
  case relockSerdes =>
    change execPllRelock (.serdes lane) s = _
    exact if_neg ha
  case throttle =>
    change execThermalThrottle tj s = _
    exact if_neg (by simp [isSet_eq_false ht, Int.not_lt.mpr hj])
  case release =>
    change execThrottleRelease tj s = _
    rw [execThrottleRelease, if_pos hj]
  case kick =>
    change execWdogKick req w s = _
    exact if_neg hn
  case first =>
    change execWdogFirstExpiry s = _
    exact if_pos ⟨he, by rw [h2]; rfl, hd, hn⟩
  case ack =>
    change execAvsAck s = _
    rw [execAvsAck, hv]
  case ackTimeout =>
    change execAvsAckTimeout s = _
    rw [execAvsAckTimeout, hv]
    exact congrArg Host.Outcome.next (if_neg (by dsimp only; omega))

end Sys2Proof.Machine
end

section
/-! SUPPORT. Device time (R46, R52, R57, R59, R90): only an edge of AOCLK and the loss of VDD_AON move the counter and its checker, both
alike, so the two stay equal. -/
namespace Sys2Proof.Machine

/-! ## Commands -/

theorem keeps_execVddAonPowerUp (z : State) (uv : Nat) (straps : BitVec 9) (s : State) : KeepsOut z (execVddAonPowerUp uv straps s) s := by
  unfold execVddAonPowerUp
  split
  · rw [done, keepsOut_next, keeps_settle, keeps_endHold]
    split
    · exact keeps_put ..
    · rfl
  · exact (keepsOut_next ..).mpr Iff.rfl

/-- Every command but AON_RESET keeps the queue and the counters: each meaning has its own lemma. -/
theorem keepsOut_exec (z : State) (c : Instr) (s : State) (h : ∀ uv, c ≠ .aonReset uv) : KeepsOut z (exec c s) s := by
  cases c with
  | aonReset uv => exact absurd rfl (h uv)
  | vddAonPowerUp uv straps => exact keeps_execVddAonPowerUp z uv straps s
  | _ => simp [exec]

theorem counters_exec {c : Instr} {s t : State} (h : ∀ uv, c ≠ .aonReset uv) (ht : exec c s = .next t) :
    t.car.time = s.car.time ∧ t.car.checker = s.car.checker :=
  ((keepsOut_exec s c s h t ht).mpr (keeps_self s)).2

/-- After AON_RESET the counters are where they were, or start at 0 together. -/
theorem checker_execAonReset {uv : Nat} {s t : State} (hs : s.car.checker = s.car.time) (ht : exec (.aonReset uv) s = .next t) :
    t.car.checker = t.car.time := by
  change execAonReset uv s = .next t at ht
  unfold execAonReset at ht
  split at ht
  · cases ht
    exact hs
  · cases ht
    obtain ⟨-, htime, hchecker⟩ := (keeps_settle (s.deviceReset .aon) (s.deviceReset .aon)).mpr (keeps_self _)
    obtain ⟨htime0, hchecker0⟩ := time_deviceReset_aon s
    rw [htime, hchecker, htime0, hchecker0]

/-! ## One edge of AOCLK -/

theorem movedBy_lt (t : Nat) (d : Int) : movedBy t d < counterSpan := by
  have hspan : (0 : Int) < counterSpan := by decide
  have hlow := Int.emod_nonneg ((t : Int) + d) hspan.ne'
  have hhigh := Int.emod_lt_of_pos ((t : Int) + d) hspan
  unfold movedBy
  omega

theorem movedBy_zero {t : Nat} (h : t < counterSpan) : movedBy t 0 = t := by
  rw [movedBy, Int.add_zero, ← Int.natCast_emod, Int.toNat_natCast, Nat.mod_eq_of_lt h]

/-- What the steps accepted before an edge add to the counter: nothing while a bound is held (R57, R58). -/
def State.stepSum (s : State) : Int := if s.held then 0 else s.car.steps.sum

/-- Counters within their span move by the accepted steps and by nothing else (R57). -/
theorem counters_applySteps {s : State} (htime : s.car.time < counterSpan) (hchecker : s.car.checker < counterSpan) :
    s.applySteps.car.time = movedBy s.car.time s.stepSum ∧ s.applySteps.car.checker = movedBy s.car.checker s.stepSum := by
  unfold State.applySteps State.stepSum
  by_cases hnone : s.car.steps = []
  · simp [hnone, movedBy_zero htime, movedBy_zero hchecker]
  by_cases hheld : s.held = true
  · simp [hnone, hheld, movedBy_zero htime, movedBy_zero hchecker]
  obtain ⟨-, hshift, hshift'⟩ := (keeps_shiftInstants s s s.car.steps.sum).mpr (keeps_self s)
  rw [if_neg hnone, if_neg hheld, if_neg hheld]
  dsimp only
  split <;> simp only [put_car, hshift, hshift', and_self]

/-- What follows the counter's move within an edge leaves the counters alone. -/
theorem keeps_tick {s : State} (h : s.modes.hold ≠ .aonDown) : Keeps s.advance.applySteps s.tick := by
  unfold State.tick
  rw [if_neg h]
  simp

theorem counters_tick {s : State} (h : s.modes.hold ≠ .aonDown) :
    s.tick.car.time = movedBy (movedBy s.car.time s.perEdge) s.stepSum ∧
      s.tick.car.checker = movedBy (movedBy s.car.checker s.perEdge) s.stepSum := by
  obtain ⟨-, htime, hchecker⟩ := keeps_tick h
  rw [htime, hchecker]
  exact counters_applySteps (s := s.advance) (movedBy_lt _ _) (movedBy_lt _ _)

theorem step_of_pending_nil {s : State} (h : s.pending = []) : step s = .next s.tick := by
  rw [step, h]

theorem step_of_pending_cons {s : State} {c : Instr} {rest : List Instr} (h : s.pending = c :: rest) :
    step s = exec c { s with pending := rest } := by
  rw [step, h]

/-- Settles O6: every meaning keeps the counters, and within an edge only its first two parts move them. -/
theorem counterMovesAtEdgesOnly : Obligations.CounterMovesAtEdgesOnly := by
  unfold Obligations.CounterMovesAtEdgesOnly
  refine ⟨fun c s t hc ht => counters_exec hc ht, fun s t hempty hup ht => ?_⟩
  rw [step_of_pending_nil hempty] at ht
  cases ht
  exact counters_tick hup

/-- Settles O7: a command leaves both counters or clears both, and an edge adds the same to both. -/
theorem checkerAgrees : Obligations.CheckerAgrees := by
  unfold Obligations.CheckerAgrees
  intro s t hs ht
  cases hp : s.pending with
  | nil =>
    rw [step_of_pending_nil hp] at ht
    cases ht
    by_cases hdown : s.modes.hold = .aonDown
    · rwa [State.tick, if_pos hdown]
    · obtain ⟨htime, hchecker⟩ := counters_tick hdown
      rw [htime, hchecker, hs]
  | cons c rest =>
    rw [step_of_pending_cons hp] at ht
    by_cases haon : ∃ uv, c = .aonReset uv
    · obtain ⟨uv, rfl⟩ := haon
      exact checker_execAonReset (s := { s with pending := rest }) hs ht
    · obtain ⟨htime, hchecker⟩ := counters_exec (fun uv hc => haon ⟨uv, hc⟩) ht
      rw [htime, hchecker]
      exact hs

end Sys2Proof.Machine
end

section
/-! SUPPORT. Carillon's commands and inputs complete with the effects of their rules (R57, R59, R61 to R65, R67, R69, R72, R74, R75, R78 to
R80, R85, R87, R126, R129). -/
namespace Sys2Proof.Machine

/-! ## Leap seconds (R85) -/

theorem unsigned_lt (n : Nat) (v : Int) : unsigned n v < 2 ^ n := by
  have hpos : (0 : Int) < 2 ^ n := by positivity
  have hlow := Int.emod_nonneg v hpos.ne'
  have hhigh := Int.emod_lt_of_pos v hpos
  unfold unsigned
  zify
  omega

/-- CAR_UTC and CAR_LEAP_TIME after a removed second: OFFSET is one less, APPLIED is 1, and no leap second is pending. -/
def State.leapRemoved (s : State) : State :=
  (((s.put CAR_UTC.OFFSET (unsigned 16 (s.int CAR_UTC.OFFSET - 1))).put CAR_UTC.APPLIED 1).put CAR_LEAP_TIME.SEC 0).put CAR_UTC.LEAP59 0

theorem only_leapRemoved (s : State) : Only [.CAR_UTC, .CAR_LEAP_TIME] s s.leapRemoved :=
  ((((Only.refl _ s).put CAR_UTC.OFFSET _ _ _ (by decide)).put CAR_UTC.APPLIED _ _ _ (by decide)).put CAR_LEAP_TIME.SEC _ _ _ (by decide)).put
    CAR_UTC.LEAP59 _ _ _ (by decide)

theorem int_leapRemoved_offset (s : State) :
    s.leapRemoved.int CAR_UTC.OFFSET = signed 16 (unsigned 16 (s.int CAR_UTC.OFFSET - 1)) := by
  refine congrArg (signed 16) ?_
  rw [State.leapRemoved, fld_put_apart _ CAR_UTC.LEAP59 CAR_UTC.OFFSET _ _ _ rfl (by decide) (by decide),
    fld_put_ne _ CAR_LEAP_TIME.SEC CAR_UTC.OFFSET _ _ _ _ _ (by decide),
    fld_put_apart _ CAR_UTC.APPLIED CAR_UTC.OFFSET _ _ _ rfl (by decide) (by decide), fld_put_same _ _ _ _ _ (by decide) (by decide)]
  exact Nat.mod_eq_of_lt (unsigned_lt 16 _)

theorem fld_leapRemoved_applied (s : State) : s.leapRemoved.fld CAR_UTC.APPLIED = 1 := by
  rw [State.leapRemoved, fld_put_apart _ CAR_UTC.LEAP59 CAR_UTC.APPLIED _ _ _ rfl (by decide) (by decide),
    fld_put_ne _ CAR_LEAP_TIME.SEC CAR_UTC.APPLIED _ _ _ _ _ (by decide), fld_put_same _ _ _ _ _ (by decide) (by decide)]
  rfl

theorem fld_leapRemoved_leap59 (s : State) : s.leapRemoved.fld CAR_UTC.LEAP59 = 0 := by
  rw [State.leapRemoved, fld_put_same _ _ _ _ _ (by decide) (by decide)]
  rfl

theorem fld_leapRemoved_leapTime (s : State) : s.leapRemoved.fld CAR_LEAP_TIME.SEC = 0 := by
  rw [State.leapRemoved, fld_put_ne _ CAR_UTC.LEAP59 CAR_LEAP_TIME.SEC _ _ _ _ _ (by decide), fld_put_same _ _ _ _ _ (by decide) (by decide)]
  rfl

theorem fld_leapRemoved_fromPtp (s : State) : s.leapRemoved.fld CAR_UTC.FROM_PTP = s.fld CAR_UTC.FROM_PTP := by
  rw [State.leapRemoved, fld_put_apart _ CAR_UTC.LEAP59 CAR_UTC.FROM_PTP _ _ _ rfl (by decide) (by decide),
    fld_put_ne _ CAR_LEAP_TIME.SEC CAR_UTC.FROM_PTP _ _ _ _ _ (by decide),
    fld_put_apart _ CAR_UTC.APPLIED CAR_UTC.FROM_PTP _ _ _ rfl (by decide) (by decide),
    fld_put_apart _ CAR_UTC.OFFSET CAR_UTC.FROM_PTP _ _ _ rfl (by decide) (by decide)]

/-- The offset and flags of CAR_UTC are noted as those in force: a leap second changed what software wrote. -/
def State.noteUtc (s : State) : State := { s with car := { s.car with utcWritten := s.fld ⟨.CAR_UTC, 18, 0⟩ } }

/-- A pending leap second that is not inserted and did not come over PTP is a removed one: OFFSET goes down and event 11 is raised. -/
theorem execLeapApply_removed {s : State} (hpend : s.fld CAR_LEAP_TIME.SEC ≠ 0) (hdue : s.fld CAR_LEAP_TIME.SEC ≤ s.seconds)
    (hup : s.fld CAR_UTC.LEAP61 = 0) (hptp : s.fld CAR_UTC.FROM_PTP = 0) : execLeapApply s = done (s.leapRemoved.noteUtc.carEvent 11) := by
  have hfrom : s.leapRemoved.isSet CAR_UTC.FROM_PTP = false := isSet_eq_false ((fld_leapRemoved_fromPtp s).trans hptp)
  unfold execLeapApply
  dsimp only
  rw [if_neg (by omega), isSet_eq_false hup]
  change done (State.carEvent (if s.leapRemoved.isSet CAR_UTC.FROM_PTP then _ else _) 11) = _
  rw [hfrom]
  rfl

/-- A removed leap second that is due is applied (R85). -/
theorem completes_leapApply {s : State} (hpend : s.fld CAR_LEAP_TIME.SEC ≠ 0) (hdue : s.fld CAR_LEAP_TIME.SEC ≤ s.seconds)
    (hup : s.fld CAR_UTC.LEAP61 = 0) (hptp : s.fld CAR_UTC.FROM_PTP = 0) (hm : Mild s 1 11) (hq : Quiet s) :
    Completes .leapApply s fun t =>
      t.int CAR_UTC.OFFSET = signed 16 (unsigned 16 (s.int CAR_UTC.OFFSET - 1)) ∧ t.fld CAR_UTC.APPLIED = 1 ∧ t.fld CAR_UTC.LEAP59 = 0 ∧
        t.fld CAR_LEAP_TIME.SEC = 0 ∧ RegsBut ([.CAR_UTC, .CAR_LEAP_TIME] ++ gongRegs) s t ∧ t.car.time = s.car.time := by
  have hleap := only_leapRemoved s
  have hmild : Mild s.leapRemoved.noteUtc 1 11 := (hleap.mild 1 11 (by decide)).mpr hm
  have hevent : Only gongRegs s.leapRemoved.noteUtc (s.leapRemoved.noteUtc.carEvent 11) := only_fire _ _ _ _ _ _ hmild
  have hkept (f : Field) (hf : f.reg ∉ gongRegs) : (s.leapRemoved.noteUtc.carEvent 11).fld f = s.leapRemoved.fld f := hevent.fld f hf 0 0
  refine completes_done (execLeapApply_removed hpend hdue hup hptp) (hevent.quiet (hq.of_gong hleap.gong))
    ⟨?offset, (hkept CAR_UTC.APPLIED (by decide)).trans (fld_leapRemoved_applied s),
      (hkept CAR_UTC.LEAP59 (by decide)).trans (fld_leapRemoved_leap59 s), (hkept CAR_LEAP_TIME.SEC (by decide)).trans (fld_leapRemoved_leapTime s),
      ?regs, ?time⟩
  case offset =>
    exact (congrArg (signed 16) (hkept CAR_UTC.OFFSET (by decide))).trans (int_leapRemoved_offset s)
  case regs =>
    have hnoted : RegsBut [.CAR_UTC, .CAR_LEAP_TIME] s s.leapRemoved.noteUtc := hleap.2
    exact (hnoted.mono (by decide)).trans (hevent.2.mono (by decide))
  case time =>
    exact (congrArg CarState.time (fire_car s.leapRemoved.noteUtc ..)).trans rfl

/-- LEAP61 clears at the end of the inserted second (R85). -/
theorem completes_leapFlagClear {s : State} {sec : Nat} (hsec : s.car.leapSecond = some sec) (hdue : sec + 1 ≤ s.seconds)
    (hptp : s.fld CAR_UTC.FROM_PTP = 0) :
    Completes .leapFlagClear s fun t => t.fld CAR_UTC.LEAP61 = 0 ∧ t.car.leapSecond = none ∧ RegsBut [.CAR_UTC] s t := by
  have hfrom : (s.put CAR_UTC.LEAP61 0).isSet CAR_UTC.FROM_PTP = false :=
    isSet_eq_false ((fld_put_apart s CAR_UTC.LEAP61 CAR_UTC.FROM_PTP _ _ _ rfl (by decide) (by decide)).trans hptp)
  have hexec : exec .leapFlagClear s =
      .next { (s.put CAR_UTC.LEAP61 0).noteUtc with car := { (s.put CAR_UTC.LEAP61 0).noteUtc.car with leapSecond := none } } := by
    change execLeapFlagClear s = _
    simp only [execLeapFlagClear, hsec, if_pos hdue, hfrom]
    rfl
  refine completes_next hexec ⟨?flag, rfl, ?regs⟩
  case flag =>
    exact (fld_put_same s CAR_UTC.LEAP61 0 0 0 (by decide) (by decide)).trans rfl
  case regs =>
    exact ((Only.refl _ s).put CAR_UTC.LEAP61 _ _ _ (by decide)).2

/-! ## Writes and internal events -/

/-- Settles O16, row by row: under its condition each meaning takes the branch of its rule. -/
theorem carillonCommandsComplete : Obligations.CarillonCommandsComplete := by
  unfold Obligations.CarillonCommandsComplete
  intro s req w n
  refine ⟨fun hn hok => ?step, fun hn hbad => ?refused, rfl, fun hn hoff => ?servo, fun hn hl hlow => ?pathLow, fun hn hl hpath => ?path,
    fun hn => ?source, fun hlast => ?publish, fun c hc hset hend => ?carry, completes_leapApply, fun sec => completes_leapFlagClear,
    fun x hx hen hsq hnear hsec => ?pps⟩
  case step =>
    change execStepWrite req w s = _
    rw [execStepWrite, if_neg hn, if_pos hok]
  case refused =>
    change execStepWrite req w s = _
    rw [execStepWrite, if_neg hn, if_neg (by rw [hbad]; decide), done]
  case servo =>
    change execServoDisable req w s = _
    unfold execServoDisable
    dsimp only
    rw [if_neg hn, isSet_eq_false hoff]
    rfl
  case pathLow =>
    change execSrcPathWrite req n w s = _
    rw [execSrcPathWrite, if_neg hn, hl, if_neg (by decide), if_pos hlow]
    rfl
  case path =>
    change execSrcPathWrite req n w s = _
    rw [execSrcPathWrite, if_neg hn, hl, if_neg (by decide), if_neg (Nat.not_lt.mpr hpath)]
    rfl
  case source =>
    change execSrcEnableWrite req n w s = _
    exact if_neg hn
  case publish =>
    change execEpsPublish s = _
    exact if_pos (all_add_le _ _ _ hlast)
  case carry =>
    change execCarryHoldEnd s = _
    rw [execCarryHoldEnd, hc]
    exact if_pos ⟨hset, hend⟩
  case pps =>
    subst hx
    change execPpsOutEdge s = _
    have hopen : ¬ (s.isSet CAR_PPS_OUT.SQUELCH ∧ s.isSet CAR_STATUS.UNSYNC) := by
      rcases hsq with h | h <;> simp [isSet_eq_false h]
    exact if_pos ⟨hen, hopen, hnear, hsec⟩

/-! ## PTP (R61, R62, R72) -/

/-- A message of another version or domain than the port's is no message for it. -/
theorem takePtp_foreign {s : State} {p : Nat} {m : List Byte}
    (h : (ptpHeader m).version ≠ 2 ∨ (ptpHeader m).domain ≠ s.fld CAR_PTP_PORT.DOMAIN 0 p) (peer : PtpPeer) (t : Int) (deg : Bool) (synce : Int) :
    s.takePtp p m peer t deg synce = s :=
  if_pos h

theorem takePtp_announce {s : State} {p : Nat} {m : List Byte} (hv : (ptpHeader m).version = 2)
    (hd : (ptpHeader m).domain = s.fld CAR_PTP_PORT.DOMAIN 0 p) (hk : (ptpHeader m).kind = 11) (peer : PtpPeer) (t : Int) (deg : Bool)
    (synce : Int) : s.takePtp p m peer t deg synce = s.takeAnnounce p (ptpHeader m) peer m := by
  unfold State.takePtp
  dsimp only
  rw [if_neg (by simp [hv, hd]), hk]
  rfl

/-- A Sync of the best master of a port that is a time receiver is measured. -/
theorem takePtp_sync {s : State} {p : Nat} {m : List Byte} {b : ForeignMaster} (hv : (ptpHeader m).version = 2)
    (hd : (ptpHeader m).domain = s.fld CAR_PTP_PORT.DOMAIN 0 p) (hk : (ptpHeader m).kind = 0) (hb : s.bestMaster p = some b)
    (hid : b.id = (ptpHeader m).id) (hst : s.ptpState p = .slave) (peer : PtpPeer) (t : Int) (deg : Bool) (synce : Int) :
    s.takePtp p m peer t deg synce = s.takeSync p (ptpHeader m) m t deg synce := by
  have hparent : ((s.bestMaster p).any (·.id == (ptpHeader m).id) && s.ptpState p == .slave) = true := by simp [hb, hid, hst]
  unfold State.takePtp
  dsimp only
  rw [if_neg (by simp [hv, hd]), hk, hparent]
  rfl

/-- The oldest frame handed over to a port with a role, over the port's transport, is taken. -/
theorem exec_ptpFrameRx {s : State} {p : Fin 32} {f : PtpFrame} {rest : List PtpFrame} (hrx : (s.ptp p).rx = f :: rest)
    (hheld : (s.ptp p).heldOff = false) (hrole : s.isSet CAR_PTP_PORT.ROLE 0 p)
    (hport : beNat (slice f.bytes (etherAt f.bytes) 2) = 0x88F7 ↔ s.fld CAR_PTP_PORT.TRANSPORT 0 p = 0) (synce : Int) :
    exec (.ptpFrameRx p synce) s = .next (State.carSettle s ((s.onPtp p fun q => { q with rx := rest }).takePtp p (ptpMessage f.bytes).1
      (ptpMessage f.bytes).2 f.t f.degraded synce)).settle := by
  change execPtpFrameRx p synce s = _
  have hsame : (beNat (slice f.bytes (etherAt f.bytes) 2) == 0x88F7) = (s.fld CAR_PTP_PORT.TRANSPORT 0 p == 0) :=
    Bool.eq_iff_iff.mpr (by simpa using hport)
  unfold execPtpFrameRx
  rw [hrx]
  dsimp only
  rw [hheld, hrole, hsame, if_neg (by simp)]
  rfl

/-! ## Inputs -/

/-- Settles O17, row by row: under its condition each meaning takes the branch of its rule. -/
theorem carillonInputsComplete : Obligations.CarillonInputsComplete := by
  unfold Obligations.CarillonInputsComplete
  intro s p phase synce n x freq
  refine ⟨fun f rest u m h hrx hheld hrole hport hu hm hh => ?frame, fun hfree => ?send, fun k hk hkind hen => ?timeout,
    fun due hen hseen hdue => ?missing, fun falling hf hen => ⟨fun hok htod hheld => ?edge, fun hbad => ?rejected⟩, fun hen hb hsum => ?badSum,
    fun e hen hb hsum hrmc hlast hnear hheard hassoc => ?sentence, fun h e hheld hlast hend => ?hold,
    fun since m hsince hsel hrev huse hbefore hwait => ?restore⟩
  case frame =>
    subst hu hm hh
    exact ⟨exec_ptpFrameRx hrx hheld hrole hport synce, fun hforeign => takePtp_foreign hforeign .., fun hv hd =>
      ⟨fun hk => takePtp_announce hv hd hk .., fun b hk hb hid hst => takePtp_sync hv hd hk hb hid hst ..⟩⟩
  case send =>
    have hopen : ¬ (!s.ptpSends p phase) = true := by simp [hfree]
    refine ⟨fun hst hdue => ?announce, fun hst hdue => ?sync, fun t seq hfu => ?followUp, fun b hst hpp hb hdue => ?delayReq,
      fun hpp hdue => ?pdelayReq⟩
    case announce =>
      change execPtpMessageTx p .announce phase s = _
      exact (if_neg hopen).trans (if_pos ⟨hst, hdue⟩)
    case sync =>
      change execPtpMessageTx p .sync phase s = _
      exact (if_neg hopen).trans (if_pos ⟨hst, hdue⟩)
    case followUp =>
      change execPtpMessageTx p .followUp phase s = _
      refine (if_neg hopen).trans ?_
      rw [hfu]
      rfl
    case delayReq =>
      change execPtpMessageTx p .delayReq phase s = _
      refine (if_neg hopen).trans ?_
      rw [hb]
      exact if_pos ⟨hst, by rw [hpp]; rfl, hdue⟩
    case pdelayReq =>
      change execPtpMessageTx p .pdelayReq phase s = _
      exact (if_neg hopen).trans (if_pos ⟨hpp, hdue⟩)
  case timeout =>
    subst hk
    change execAnnounceTimeout n s = _
    exact if_pos ⟨hkind, hen⟩
  case missing =>
    change execMeasurementMissing n s = _
    rw [execMeasurementMissing, hseen]
    exact if_pos ⟨hen, hdue⟩
  case edge =>
    subst hf
    change execPpsEdge false (s.isSet CAR_PPS_IN.FALLING) phase freq s = _
    have hnamed : (if s.isSet CAR_NMEA.ASSOC then none else (s.ppsIn (b2n false)).held) = none := ite_eq_left_iff.mpr fun _ => hheld
    unfold execPpsEdge
    dsimp only
    rw [if_neg (by simp [hen]), if_neg (by simp [hok]), hnamed]
    simp only [Bool.false_eq_true, Bool.false_and, if_false, htod, if_true]
    rfl
  case rejected =>
    subst hf
    change execPpsEdge false (s.isSet CAR_PPS_IN.FALLING) phase freq s = _
    unfold execPpsEdge
    dsimp only
    rw [if_neg (by simp [hen]), if_pos (by simp [hbad])]
    rfl
  case badSum =>
    change execNmeaSentence x s = _
    rw [execNmeaSentence, if_neg (by simp [hen, hb]), hsum]
    rfl
  case sentence =>
    change execNmeaSentence x s = _
    have hnear' : ¬ (ofMs 900 < s.now - e) := by omega
    rw [execNmeaSentence, if_neg (by simp [hen, hb]), if_neg (by simp [hsum, hrmc])]
    dsimp only
    rw [hlast]
    dsimp only
    rw [if_neg (by simp [hnear', hheard]), isSet_eq_false hassoc]
    rfl
  case hold =>
    change execNmeaHoldExpiry s = _
    rw [execNmeaHoldExpiry, hheld, hlast]
    exact if_pos hend
  case restore =>
    change execWtrExpiry n s = _
    rw [execWtrExpiry, hsince, hsel]
    exact if_pos ⟨hrev, huse, hbefore, hwait⟩

end Sys2Proof.Machine
end

section
/-! SUPPORT. The commands and events of time delivery complete with the effects of their rules (R91, R93, R96, R103, R104, R111 to R114). -/
namespace Sys2Proof.Machine

/-! ## PTM dialogues (R91, R93) -/

@[simp] theorem linkTime_onLinkTime_same (s : State) (l : Nat) (g : LinkTime → LinkTime) :
    (s.onLinkTime l g).linkTime l = g (s.linkTime l) :=
  Store.get_set_same _ _ _ _

/-- A link after a dialogue that succeeded with answer `a`. -/
def State.ptmAnswered (s : State) (l : Nat) (a : PtmAnswer) : State :=
  s.onLinkTime l fun t => { t with
    pairs := withPair t.pairs (s.ptmPair l a), failed := 0, good := t.good + 1, asked := some s.up, span := some a.span }

/-- A link after a dialogue that failed, before the fourth failure in a row takes its map. -/
def State.ptmFailed (s : State) (l : Nat) : State :=
  (s.sat CAR_LINK_STATUS.FAILS 1 0 l).onLinkTime l fun t => { t with failed := t.failed + 1, asked := some s.up, span := none }

theorem ptmDialogue_open {s : State} {l : Nat} (hruns : s.ptmRuns l) (hdue : s.ptmDue l) : ¬ (!s.ptmRuns l || !s.ptmDue l) = true := by
  simp [hruns, hdue]

/-- A dialogue that succeeds maps the link at its sixteenth success in a row, and otherwise leaves its registers alone (R91, R93). -/
theorem exec_ptmDialogue_some {s : State} {l : Fin 16} (hruns : s.ptmRuns l) (hdue : s.ptmDue l) (a : PtmAnswer) :
    exec (.ptmDialogue l (some a)) s =
      if s.fld CAR_LINK_STATUS.MAPPED 0 l = 0 ∧ 16 ≤ (s.linkTime l).good + 1 then
        .next (((s.ptmAnswered l a).put CAR_LINK_STATUS.MAPPED 1 0 l).bumpEpoch l)
      else .next (s.ptmAnswered l a) := by
  have hgood : ((s.ptmAnswered l a).linkTime l).good = (s.linkTime l).good + 1 := by rw [State.ptmAnswered, linkTime_onLinkTime_same]
  have hregs : (s.ptmAnswered l a).fld CAR_LINK_STATUS.MAPPED 0 l = s.fld CAR_LINK_STATUS.MAPPED 0 l := rfl
  have hmap : (!(s.ptmAnswered l a).isSet CAR_LINK_STATUS.MAPPED 0 l && decide (16 ≤ ((s.ptmAnswered l a).linkTime l).good)) = true ↔
      s.fld CAR_LINK_STATUS.MAPPED 0 l = 0 ∧ 16 ≤ (s.linkTime l).good + 1 := by
    simp [State.isSet, hgood, hregs]
  change execPtmDialogue l (some a) s = _
  exact (if_neg (ptmDialogue_open hruns hdue)).trans (if_congr hmap rfl rfl)

/-- A dialogue that fails counts, and the fourth failure in a row loses the map (R93). -/
theorem exec_ptmDialogue_none {s : State} {l : Fin 16} (hruns : s.ptmRuns l) (hdue : s.ptmDue l) :
    exec (.ptmDialogue l none) s = .next (if 3 ≤ (s.linkTime l).failed then (s.ptmFailed l).loseMap l else s.ptmFailed l) := by
  have hfourth : 4 ≤ ((s.ptmFailed l).linkTime l).failed ↔ 3 ≤ (s.linkTime l).failed := by
    rw [State.ptmFailed, linkTime_onLinkTime_same]
    exact Nat.succ_le_succ_iff
  change execPtmDialogue l none s = _
  exact (if_neg (ptmDialogue_open hruns hdue)).trans (congrArg _ (if_congr hfourth rfl rfl))

/-- A link that loses its map has no pairs, its page carries NO_MAP, and MAPPED alone of its registers changes (R93). -/
theorem loseMap_effect (s : State) (l : Nat) :
    (s.loseMap l).fld CAR_LINK_STATUS.MAPPED 0 l = 0 ∧ ((s.loseMap l).linkTime l).pairs = [] ∧
      ((s.loseMap l).linkTime l).page = (s.linkTime l).page.unmapped ∧ RegsBut [.CAR_LINK_STATUS] s (s.loseMap l) := by
  have hlink : (s.loseMap l).linkTime l = { s.linkTime l with
      pairs := [], good := 0, failed := 0, asked := none, span := none, page := (s.linkTime l).page.unmapped } := by
    rw [State.loseMap, linkTime_onLinkTime_same]
    rfl
  refine ⟨fld_put_same s CAR_LINK_STATUS.MAPPED 0 0 l (by decide) (by decide), ?_, ?_,
    ((Only.refl _ s).put CAR_LINK_STATUS.MAPPED 0 0 l (by decide)).2⟩ <;> rw [hlink]

/-! ## Time tokens (R111, R112) -/

/-- The token unit as it holds a request that it has accepted: its interval and flags are those of now (R112). -/
def State.acceptedToken (s : State) (f : Nat) (nonce : List Byte) (buf tag : Nat) : TokenRequest :=
  { fn := f, nonce := slice nonce 0 32, buf, tag, queue := none
    earliest := (s.now - s.eps.getD 0) / perQuarter % 2 ^ 64, latest := ceilDiv (s.now + s.eps.getD 0) perQuarter % 2 ^ 64
    flags := s.fld CAR_STATUS.DEGRADED + 2 * s.fld CAR_STATUS.CARRY, utc := s.fld CAR_UTC.OFFSET }

/-- A request that is not refused joins the batch being gathered, without a reply (R111, R112). -/
theorem tokenByMailbox_accepted {s : State} {f : Nat} (h : s.tokenRefusal f = none) (nonce : List Byte) (buf tag : Nat) :
    s.tokenByMailbox f nonce buf tag =
      { s with td := { s.td with waiting := s.td.waiting ++ [s.acceptedToken f nonce buf tag] } } := by
  have hreq : s.tokenRequest f nonce buf tag none =
      ({ s with td := { s.td with waiting := s.td.waiting ++ [s.acceptedToken f nonce buf tag] } }, none) := by
    rw [State.tokenRequest, h]
    rfl
  rw [State.tokenByMailbox, hreq]

/-! ## The statement -/

/-- Settles O18, row by row: under its condition each meaning takes the branch of its rule. -/
theorem timeDeliveryCommandsComplete : Obligations.TimeDeliveryCommandsComplete := by
  unfold Obligations.TimeDeliveryCommandsComplete
  intro s l a f nonce buf tag
  refine ⟨fun hruns hdue => ⟨fun u hu => ⟨fun hkept => ?kept, fun hmap hgood => ?mapped⟩, fun hfew => ?failed, fun hthird => ?lost⟩,
    fun hen hup hmode hlast => ?page, fun x hx hruns hnear hnew => ?edge, fun t hruns hbell hat hdue => ?frame,
    fun hok hq => ?token, fun hwait hclosed hnear => ?close, fun b rest hb => ?reply⟩
  case kept =>
    subst hu
    rw [exec_ptmDialogue_some hruns hdue, if_neg (by omega)]
    rfl
  case mapped =>
    subst hu
    exact (exec_ptmDialogue_some hruns hdue a).trans (if_pos ⟨hmap, hgood⟩)
  case failed =>
    rw [exec_ptmDialogue_none hruns hdue, if_neg (by omega)]
    rfl
  case lost =>
    obtain ⟨hmapped, hpairs, hpage, hregs⟩ := loseMap_effect (s.ptmFailed l) l
    have hpage' : ((s.ptmFailed l).linkTime l).page = (s.linkTime l).page := by
      rw [State.ptmFailed, linkTime_onLinkTime_same]
      rfl
    have hregs' : RegsBut [.CAR_LINK_STATUS] s (s.ptmFailed l) := ((Only.refl _ s).sat CAR_LINK_STATUS.FAILS 1 0 l (by decide)).2
    refine completes_next (u := (s.ptmFailed l).loseMap l) ?_ ⟨hmapped, hpairs, hpage' ▸ hpage, hregs'.trans hregs⟩
    rw [exec_ptmDialogue_none hruns hdue, if_pos (by omega)]
  case page =>
    change execPagePublish l s = _
    exact if_pos ⟨hen, hup, hmode, all_add_le _ _ _ hlast⟩
  case edge =>
    subst hx
    change execBellEdge l s = _
    exact if_neg (by rintro (hquiet | hfar | hold); exacts [by simp [hruns] at hquiet, absurd hnear (not_lt.mpr hfar), hnew hold])
  case frame =>
    change execBellFrame l s = _
    exact if_pos ⟨hruns, hbell, any_add_le _ _ _ _ hat hdue⟩
  case token =>
    have htaken := tokenByMailbox_accepted hok nonce buf.toNat tag.toNat
    refine completes_done (u := s.tokenByMailbox f nonce buf.toNat tag.toNat) rfl (hq.of_gong (by rw [htaken])) ?_
    rw [htaken]
    exact ⟨⟨_, rfl, rfl, rfl, rfl, rfl⟩, rfl⟩
  case close =>
    change execTokenBatchClose s = _
    exact if_neg (by rintro (hnone | hsame | hfar); exacts [hwait hnone, hclosed hsame, absurd hnear (not_lt.mpr hfar)])
  case reply =>
    change execTokenReply s = _
    rw [execTokenReply, hb]
    rfl

end Sys2Proof.Machine
end

section
/-! SUPPORT. The commands and events of the Ethernet ports complete with the effects of their rules (R109, R118 to R120, R122 to R126, R130
to R132, R135, R136). -/
namespace Sys2Proof.Machine

/-! ## Link up (R120) -/

@[simp] theorem port_onPort_same (s : State) (p : Nat) (g : PortState → PortState) : (s.onPort p g).port p = g (s.port p) :=
  Store.get_set_same _ _ _ _

@[simp] theorem onPort_regs (s : State) (p : Nat) (g : PortState → PortState) : (s.onPort p g).regs = s.regs := rfl

/-- An update of a port, after changes of registers alone, leaves everything but registers and ports as it was. -/
theorem onPort_eq_of_regsOnly {s u : State} (h : RegsOnly s u) (p : Nat) (g : PortState → PortState) :
    u.onPort p g = { s with regs := (u.onPort p g).regs, ports := (u.onPort p g).ports } :=
  congrArg (fun v : State => { v with ports := u.ports.modify {} p g }) h

/-- Every receiver of port `p` has lock. -/
def State.lanesLocked (s : State) (p : Nat) : State :=
  (List.range (s.portWidth p)).foldl (fun t i => t.put ETH_LANE_STATUS.CDR_LOCK 1 (p + i)) s

/-- ETH_PORT_STATUS reports a link up, with AN_DONE and TRAIN_DONE as the port's configuration has them. -/
def State.reportUp (s : State) (p an train : Nat) : State :=
  (((((s.put ETH_PORT_STATUS.LINK 1 p).put ETH_PORT_STATUS.AN_DONE an p).put ETH_PORT_STATUS.FEC_ALIGN 1 p).put
    ETH_PORT_STATUS.TRAIN_DONE train p).put ETH_PORT_STATUS.LOCAL_FAULT 0 p).put ETH_PORT_STATUS.REMOTE_FAULT 0 p

theorem only_lanesLocked (s : State) (p : Nat) : Only [.ETH_LANE_STATUS] s (s.lanesLocked p) :=
  only_foldl _ _ fun t i => (Only.refl _ t).put ETH_LANE_STATUS.CDR_LOCK 1 (p + i) 0 (by decide)

theorem only_reportUp (s : State) (p an train : Nat) : Only [.ETH_PORT_STATUS] s (s.reportUp p an train) :=
  ((((((Only.refl _ s).put ETH_PORT_STATUS.LINK _ _ _ (by decide)).put ETH_PORT_STATUS.AN_DONE _ _ _ (by decide)).put
    ETH_PORT_STATUS.FEC_ALIGN _ _ _ (by decide)).put ETH_PORT_STATUS.TRAIN_DONE _ _ _ (by decide)).put
    ETH_PORT_STATUS.LOCAL_FAULT _ _ _ (by decide)).put ETH_PORT_STATUS.REMOTE_FAULT _ _ _ (by decide)

/-- LINK and FEC_ALIGN read 1, both faults 0, and TS_READY what it read. -/
theorem fld_reportUp (s : State) (p an train : Nat) :
    (s.reportUp p an train).fld ETH_PORT_STATUS.LINK p = 1 ∧ (s.reportUp p an train).fld ETH_PORT_STATUS.FEC_ALIGN p = 1 ∧
      (s.reportUp p an train).fld ETH_PORT_STATUS.LOCAL_FAULT p = 0 ∧ (s.reportUp p an train).fld ETH_PORT_STATUS.REMOTE_FAULT p = 0 ∧
      (s.reportUp p an train).fld ETH_PORT_STATUS.TS_READY p = s.fld ETH_PORT_STATUS.TS_READY p := by
  simp (disch := decide) only [State.reportUp, fld_put_apart, fld_put_same]
  decide

/-- A port that runs its lanes, without link and with none of its lanes under test, comes up (R120). -/
theorem exec_linkUp {s : State} {p : Fin 32} (hruns : s.portRuns p) (hlink : s.fld ETH_PORT_STATUS.LINK p = 0)
    (htest : ∀ i < s.portWidth p, s.underTest 3 (p + i) = false) :
    ∃ an train, exec (.linkUp p) s =
      .next (((s.lanesLocked p).reportUp p an train).onPort p fun q => { q with tsBad := false }) := by
  have hopen : ¬ (!s.portRuns p || s.isSet ETH_PORT_STATUS.LINK p || (List.range (s.portWidth p)).any fun i => s.underTest 3 (p + i)) = true := by
    simpa [hruns, isSet_eq_false hlink] using htest
  exact ⟨_, _, if_neg hopen⟩

/-! ## The statement -/

/-- Settles O19, row by row: under its condition each meaning takes the branch of its rule. -/
theorem portCommandsComplete : Obligations.PortCommandsComplete := by
  unfold Obligations.PortCommandsComplete
  intro s req p w tx rx fr bad corrected phase
  refine ⟨fun hn hown hsup hfree hen => ?store, fun hn hown hbad => ?refuse, fun hn => ⟨if_neg hn, if_neg hn, if_neg hn⟩,
    fun hruns hlink htest => ?up, fun hlink => ?down, fun hlink hready hbad htx hrx => ?measure, fun hcarries hloop => ?receive,
    fun hflow hsent hocc hhalf => ?xoff, fun q hcarries => if_pos hcarries, fun e q hcarries => if_pos hcarries,
    fun k hpaused => ?pauseEnd, fun x rest hcarries hpattern hfree hq hslots => ?send, rfl, fun since hsince hready hhold hwait => ?restore,
    fun hen hlock => ?lock⟩
  case store =>
    have hopen : ¬ (s.isSet ETH_PORT_CTL.EN p || (List.range (cfgWidth w)).any (fun i => s.isSet ETH_PORT_CTL.EN (p + i)) ||
        !cfgSupported p w) = true := by
      simpa [State.isSet, hen, hsup] using hfree
    change execPortCfgWrite req p w s = _
    rw [execPortCfgWrite, if_neg hn, if_neg (by simp [hown]), if_neg hopen]
  case refuse =>
    have hshut : (s.isSet ETH_PORT_CTL.EN p || (List.range (cfgWidth w)).any (fun i => s.isSet ETH_PORT_CTL.EN (p + i)) ||
        !cfgSupported p w) = true := by
      rcases hbad with h | h <;> simp [h, State.isSet]
    change execPortCfgWrite req p w s = _
    rw [execPortCfgWrite, if_neg hn, if_neg (by simp [hown]), if_pos hshut]
  case up =>
    obtain ⟨an, train, hexec⟩ := exec_linkUp hruns hlink htest
    have hlanes := only_lanesLocked s p
    have hreport := only_reportUp (s.lanesLocked p) p an train
    have honly : Only [.ETH_LANE_STATUS, .ETH_PORT_STATUS] s ((s.lanesLocked p).reportUp p an train) :=
      (hlanes.mono (by simp)).trans (hreport.mono (by simp))
    obtain ⟨hup, halign, hlocal, hremote, hready⟩ := fld_reportUp (s.lanesLocked p) p an train
    have hkept (f : Field) := fld_congr_regs (onPort_regs ((s.lanesLocked p).reportUp p an train) p fun q => { q with tsBad := false }) f p 0
    refine completes_next hexec ⟨(hkept _).trans hup, (hkept _).trans halign, (hkept _).trans hlocal, (hkept _).trans hremote,
      (hkept _).trans (hready.trans (hlanes.fld ETH_PORT_STATUS.TS_READY (by decide) p 0)), by rw [port_onPort_same],
      fun r hr n i => (raw_congr_regs (onPort_regs ..) r n i).trans (honly.2 r hr n i), onPort_eq_of_regsOnly honly.1 p _⟩
  case down =>
    have hsame : exec (.linkDown p []) s =
        done (State.linkDown (if s.isSet ETH_PORT_STATUS.LINK p then s.put ETH_PORT_STATUS.LOCAL_FAULT 0 p else s) p) := rfl
    rw [hsame, isSet_eq_false hlink]
    rfl
  case measure =>
    have hopen : ¬ (!s.isSet ETH_PORT_STATUS.LINK p || s.isSet ETH_PORT_STATUS.TS_READY p || (s.port p).tsBad) = true := by
      simp [State.isSet, hlink, hready, hbad]
    have hinside : ¬ ((if s.isSet ETH_TS_INT.FUSED p then 16 else 64) < tx.natAbs ∨
        (if s.isSet ETH_TS_INT.FUSED p then 16 else 64) < rx.natAbs) := by
      split <;> omega
    change execTsMeasureDone p tx rx s = _
    exact (if_neg hopen).trans (if_neg hinside)
  case receive =>
    change execFrameRx p fr corrected bad phase s = _
    rw [execFrameRx, if_neg (by simp [hcarries]), if_neg hloop]
    rfl
  case xoff =>
    have hopen : ¬ (!s.flowOn p 8 || s.xoffSent p 8 == 0) = true := by simp [hflow, hsent]
    change execXoffRepeat p none s = _
    exact (if_neg hopen).trans ((if_neg hocc.not_gt).trans (if_neg hhalf.not_gt))
  case pauseEnd =>
    change execPauseEnd p (some k) s = _
    exact if_neg (by simp [hpaused])
  case send =>
    have hopen : ¬ (!s.portCarries p || s.sendsPattern p || !s.portFree p phase) = true := by simp [hcarries, hpattern, hfree]
    change execFrameTx p phase s = _
    refine (if_neg hopen).trans ?_
    rw [hq]
    exact if_neg (by simpa using hslots)
  case restore =>
    change execSynceRestore s = _
    rw [execSynceRestore, hsince]
    exact if_pos (by simp [hready, hhold, hwait])
  case lock =>
    change execRecoveredClockLock p s = _
    exact if_neg (by simp [hen, isSet_eq_false hlock])

end Sys2Proof.Machine
end

section
/-! SUPPORT. The commands and events of the scheduler, the HOLD logic and the launch calendars complete with the effects of their rules (R105,
R107, R109, R110, R264 to R266, R271, R281). -/
namespace Sys2Proof.Machine

/-! ## Words of the scheduler's memories (R266, R271, R281) -/

/-- The buckets of a policer entry after a write of one of its words: full or empty as RESET_TO of the entry stands, from now on (R281). -/
def State.policerAfter (s : State) (p i : Nat) : PolicerState :=
  if !bitOf (s.policerWord p i 0) 6 then
    { tc := bits (s.policerWord p i 2) 23 0 * 1000000, te := bits (s.policerWord p i 2) 47 24 * 1000000, edge := s.edges }
  else { edge := s.edges }

theorem edge_policerAfter (s : State) (p i : Nat) : (s.policerAfter p i).edge = s.edges := by
  unfold State.policerAfter
  split <;> rfl

/-- Word `k` of pipeline `p`'s policer memory is stored under its mask, and the buckets of its entry start anew (R281). -/
def State.storePolicer (s : State) (p k : Nat) (w : Word) : State :=
  let t := s.setRaw .PPL_POLICER p k (w &&& BitVec.ofNat 64 (policerMask k))
  { t with net := { s.net with policers := s.net.policers.set {} (8192 * p + k / 4) (t.policerAfter p (k / 4)) } }

theorem edge_storePolicer (s : State) (p k : Nat) (w : Word) :
    ((s.storePolicer p k w).net.policers.get {} (8192 * p + k / 4)).edge = s.edges := by
  rw [State.storePolicer]
  dsimp only
  rw [Store.get_set_same, edge_policerAfter, setRaw_edges]

/-- A write of a policer word that has fields stores it (R281). -/
theorem exec_policerWrite {s : State} {k : Nat} (hn : s.mode ≠ NIGHT) (hk : k < 32768) (hword : k % 4 ≠ 3) (req : Requester) (p : Fin 8)
    (w : Word) : exec (.policerWrite req p k w) s = .next (s.storePolicer p k w) := by
  have hopen : ¬ (32768 ≤ k ∨ k % 4 = 3) := by omega
  change execPolicerWrite req p k w s = _
  rw [execPolicerWrite, if_neg hn, if_neg hopen]
  rfl

/-! ## The statement -/

/-- Settles O20, row by row: under its condition each meaning takes the branch of its rule. -/
theorem schedulerCommandsComplete : Obligations.SchedulerCommandsComplete := by
  unfold Obligations.SchedulerCommandsComplete
  intro s req node p e k place w phase
  refine ⟨fun j d q hflow hpick hrx => ?select, fun hn hk hempty => ?shaperEmpty, fun hn hk hfull => ?shaperFull,
    fun hn hk hword => ?policer, fun hn hk hstays => ?group, fun hn hk heven hmoves hframes => ?groupRefused, fun hn hk hsame => ?l1,
    fun h hat hheld hflow hreached => ?release, fun h hat hheld hmax => ?expire, fun i h hfind hat hready => ?enter,
    fun x hat hcarries hpattern hpause hfree hdue => ?launch⟩
  case select =>
    have hopen : ¬ (!s.framesFlow) = true := by simp [hflow]
    change execFrameSelect node none s = _
    rw [execFrameSelect, if_neg hopen]
    dsimp only
    rw [hpick]
    dsimp only
    rw [hrx]
    rfl
  case shaperEmpty =>
    have hone : ¬ getBits (w &&& BitVec.ofNat 64 (2 ^ 61 - 1)) 60 60 = 0 := by omega
    change execShaperWrite req k w s = _
    rw [execShaperWrite, if_neg hn, if_neg hk.not_ge]
    dsimp only
    rw [if_neg hone]
  case shaperFull =>
    change execShaperWrite req k w s = _
    rw [execShaperWrite, if_neg hn, if_neg hk.not_ge]
    dsimp only
    rw [if_pos hfull]
  case policer =>
    have hstored := (Only.refl [.PPL_POLICER] s).setRaw .PPL_POLICER p k (w &&& BitVec.ofNat 64 (policerMask k)) (by decide)
    exact completes_next (exec_policerWrite hn hk hword req p w) ⟨raw_setRaw_same s _ _ _ _, hstored.2, edge_storePolicer s p k w, rfl⟩
  case group =>
    have hopen : ¬ (k % 2 = 0 ∧ getBits w 11 0 ≠ s.groupParent (k / 2) ∧ s.groupFrames (k / 2) ≠ []) := by
      rintro ⟨heven, hmoves, hframes⟩
      rcases hstays with h | h | h
      · omega
      · exact hmoves h
      · exact hframes h
    change execGroupWrite req k w s = _
    rw [execGroupWrite, if_neg hn, if_neg hk.not_ge, if_neg hopen]
  case groupRefused =>
    change execGroupWrite req k w s = _
    rw [execGroupWrite, if_neg hn, if_neg hk.not_ge, if_pos ⟨heven, hmoves, hframes⟩]
    rfl
  case l1 =>
    change execL1Write req k w s = _
    rw [execL1Write, if_neg hn, if_neg hk.not_ge, if_neg fun h => h.1 hsame]
  case release =>
    change execHoldRelease node place s = _
    rw [execHoldRelease, hat]
    dsimp only
    rw [if_neg (by simp [hflow]), if_neg (by simp [hheld]), if_neg (by simp [hreached])]
    rfl
  case expire =>
    change execHoldExpiry node place s = _
    rw [execHoldExpiry, hat]
    exact if_neg (by simp [hheld, hmax])
  case enter =>
    change execLaunchEnter e k s = _
    rw [execLaunchEnter, hfind]
    dsimp only
    rw [hat]
    exact if_neg (by simp [hready])
  case launch =>
    change execLaunchSend e 0 phase s = _
    rw [execLaunchSend]
    dsimp only
    rw [hat]
    exact if_neg (by simpa [hcarries, hpattern, hpause, hfree] using hdue)

end Sys2Proof.Machine
end

section
/-! SUPPORT. The commits of a generation and the commands of the action memory complete with the effects of their rules (R150, R156, R157). -/
namespace Sys2Proof.Machine

/-! ## Flips of a generation (R157) -/

theorem only_flip (s : State) (p : Nat) : Only [.PPL_GEN] s (s.flip p) :=
  ((Only.refl _ s).put PPL_GEN.ACTIVE _ _ _ (by decide)).put PPL_GEN.PENDING _ _ _ (by decide)

theorem fld_flip (s : State) (p : Nat) :
    (s.flip p).fld PPL_GEN.ACTIVE p = 1 - s.fld PPL_GEN.ACTIVE p ∧ (s.flip p).fld PPL_GEN.PENDING p = 1 := by
  simp (disch := decide) only [State.flip, fld_put_apart, fld_put_same]
  exact ⟨Nat.mod_eq_of_lt (Nat.lt_succ_of_le (Nat.sub_le _ _)), rfl⟩

/-- The flip of one pipeline leaves another's PPL_GEN alone. -/
theorem raw_flip_ne (s : State) {p q : Nat} (hp : p < 8) (hq : q < 8) (h : p ≠ q) : (s.flip p).raw .PPL_GEN q = s.raw .PPL_GEN q := by
  have hcode : regCode .PPL_GEN p 0 ≠ regCode .PPL_GEN q 0 :=
    regCode_ne_of_place _ _ (by omega) (by omega) (by decide) (by decide) (.inl h)
  exact (raw_setRaw_of_ne _ _ _ _ _ _ _ _ hcode).trans (raw_setRaw_of_ne _ _ _ _ _ _ _ _ hcode)

/-- The pipelines of a list flip, one after the other. -/
def State.flips (s : State) (ps : List Nat) : State := ps.foldl (fun t p => t.flip p) s

theorem only_flips (s : State) (ps : List Nat) : Only [.PPL_GEN] s (s.flips ps) := only_foldl ps s only_flip

/-- A pipeline outside the list keeps its PPL_GEN. -/
theorem raw_flips_of_notMem (s : State) {ps : List Nat} (hps : ∀ p ∈ ps, p < 8) {q : Nat} (hq : q < 8) (h : q ∉ ps) :
    (s.flips ps).raw .PPL_GEN q = s.raw .PPL_GEN q := by
  induction ps generalizing s with
  | nil => rfl
  | cons p ps ih =>
    obtain ⟨hne, hrest⟩ := not_or.mp (mt List.mem_cons.mpr h)
    obtain ⟨hp, hps⟩ := List.forall_mem_cons.mp hps
    exact (ih (s.flip p) hps hrest).trans (raw_flip_ne s hp hq (Ne.symm hne))

/-- A pipeline that the list names once has flipped once. -/
theorem fld_flips_of_mem (s : State) {ps : List Nat} (hps : ∀ p ∈ ps, p < 8) (hd : ps.Nodup) {q : Nat} (h : q ∈ ps) :
    (s.flips ps).fld PPL_GEN.ACTIVE q = 1 - s.fld PPL_GEN.ACTIVE q ∧ (s.flips ps).fld PPL_GEN.PENDING q = 1 := by
  induction ps generalizing s with
  | nil => exact absurd h List.not_mem_nil
  | cons p ps ih =>
    have hq := hps q h
    obtain ⟨hp, hbelow⟩ := List.forall_mem_cons.mp hps
    obtain ⟨hout, hd⟩ := List.nodup_cons.mp hd
    rcases List.mem_cons.mp h with rfl | h
    · have hkept : (s.flips (q :: ps)).raw .PPL_GEN q = (s.flip q).raw .PPL_GEN q :=
        raw_flips_of_notMem (s.flip q) (ps := ps) hbelow hq hout
      have hlater (f : Field) (hf : f.reg = .PPL_GEN) : (s.flips (q :: ps)).fld f q = (s.flip q).fld f q := by
        unfold State.fld
        rw [hf]
        exact congrArg (getBits · f.hi f.lo) hkept
      rw [hlater _ rfl, hlater _ rfl]
      exact fld_flip s q
    · have hne : p ≠ q := fun e => hout (e ▸ h)
      have hbefore : (s.flip p).fld PPL_GEN.ACTIVE q = s.fld PPL_GEN.ACTIVE q :=
        congrArg (getBits · PPL_GEN.ACTIVE.hi PPL_GEN.ACTIVE.lo) (raw_flip_ne s hp hq hne)
      rw [← hbefore]
      exact ih (s.flip p) hbelow hd h

/-- The pipelines that a global commit flips: those of its mask without a commit pending. -/
def State.committed (s : State) (mask : Nat) : List Nat := (List.range 8).filter fun p => bitOf mask p && !s.isSet PPL_GEN.PENDING p

theorem mem_committed (s : State) (mask q : Nat) :
    q ∈ s.committed mask ↔ q < 8 ∧ bitOf mask q = true ∧ s.fld PPL_GEN.PENDING q = 0 := by
  simp [State.committed, State.isSet]

theorem committed_nodup (s : State) (mask : Nat) : (s.committed mask).Nodup := List.nodup_range.filter _

/-- A global commit of a mask with pipelines in it says in REFUSED which it refuses, and flips those that it can (R157). -/
theorem exec_globalCommit {s : State} {w : Word} (hn : s.mode ≠ NIGHT) (hmask : wfld w PPL_GEN_GLOBAL.COMMIT_MASK ≠ 0) (req : Requester) :
    ∃ refused, exec (.globalCommit req w) s = .next (((s.writeReg .PPL_GEN_GLOBAL 0 0 w).put PPL_GEN_GLOBAL.REFUSED refused).flips
      (s.committed (wfld w PPL_GEN_GLOBAL.COMMIT_MASK))) := by
  have hstored : Only [.PPL_GEN_GLOBAL] s (s.writeReg .PPL_GEN_GLOBAL 0 0 w) := (Only.refl _ s).writeReg _ _ _ _ (by decide)
  have hsame : (s.writeReg .PPL_GEN_GLOBAL 0 0 w).committed = s.committed := by
    funext mask
    unfold State.committed State.isSet
    simp only [hstored.fld PPL_GEN.PENDING (by decide)]
  rw [← hsame]
  exact ⟨_, (if_neg hn).trans (if_neg hmask)⟩

/-! ## The action memory (R150, R156) -/

/-- A run of `n` places from `base` holds what was set there. -/
theorem get_foldl_set_inside (m : Store Nat) (base : Nat) (v : Nat → Nat) {n i : Nat} (h : i < n) :
    ((List.range n).foldl (fun m i => m.set 0 (base + i) (v i)) m).get 0 (base + i) = v i := by
  induction n with
  | zero => omega
  | succ n ih =>
    rw [List.range_succ, List.foldl_concat]
    by_cases hlast : i = n
    · rw [hlast, Store.get_set_same]
    · rw [Store.get_set_ne _ _ _ _ _ _ (by omega), ih (by omega)]

/-- Outside that run nothing changes. -/
theorem get_foldl_set_outside (m : Store Nat) (base : Nat) (v : Nat → Nat) {n a : Nat} (h : ∀ i < n, a ≠ base + i) :
    ((List.range n).foldl (fun m i => m.set 0 (base + i) (v i)) m).get 0 a = m.get 0 a := by
  induction n with
  | zero => rfl
  | succ n ih =>
    rw [List.range_succ, List.foldl_concat, Store.get_set_ne _ _ _ _ _ _ (h n n.lt_succ_self).symm]
    exact ih fun i hi => h i (hi.trans n.lt_succ_self)

/-- The action memory once the four words of PPL_ACT_DATA of pipeline `p` stand from `base` on. -/
def State.actionsStored (s : State) (p base : Nat) : Store Nat :=
  (List.range 4).foldl (fun m i => m.set 0 (base + i) (s.raw .PPL_ACT_DATA p i).toNat) s.net.actions

/-- The first `n` words of PPL_ACT_DATA of pipeline `p` are loaded from the action memory, from `base` on. -/
def State.actionLoaded (s : State) (p base n : Nat) : State :=
  (List.range n).foldl (fun t i => t.setRaw .PPL_ACT_DATA p i (BitVec.ofNat 64 (t.net.actions.get 0 (base + i)))) s

theorem only_actionLoaded (s : State) (p base n : Nat) : Only [.PPL_ACT_DATA] s (s.actionLoaded p base n) :=
  only_foldl _ s fun t i => (Only.refl _ t).setRaw _ p i _ (by decide)

theorem actionLoaded_succ (s : State) (p base n : Nat) :
    s.actionLoaded p base (n + 1) = (s.actionLoaded p base n).setRaw .PPL_ACT_DATA p n (BitVec.ofNat 64 (s.net.actions.get 0 (base + n))) := by
  have hnet : (s.actionLoaded p base n).net = s.net := by rw [(only_actionLoaded s p base n).1]
  rw [← hnet, State.actionLoaded, List.range_succ, List.foldl_concat]
  rfl

theorem raw_actionLoaded (s : State) {p : Nat} (base : Nat) {n i : Nat} (hp : p < 8) (hn : n ≤ 4) (hi : i < n) :
    (s.actionLoaded p base n).raw .PPL_ACT_DATA p i = BitVec.ofNat 64 (s.net.actions.get 0 (base + i)) := by
  induction n with
  | zero => omega
  | succ n ih =>
    rw [actionLoaded_succ]
    by_cases hlast : i = n
    · rw [hlast, raw_setRaw_same]
    · have hcode : regCode .PPL_ACT_DATA p n ≠ regCode .PPL_ACT_DATA p i :=
        regCode_ne_of_place _ _ (by omega) (by omega) (by omega) (by omega) (.inr (Ne.symm hlast))
      rw [raw_setRaw_of_ne _ _ _ _ _ _ _ _ hcode, ih (by omega) (by omega)]

theorem actCommand_write {w : Word} (hwrite : wfld w PPL_ACT_ADDR.WRITE = 1) (hread : wfld w PPL_ACT_ADDR.READ = 0) (s : State) (p : Nat) :
    s.actCommand p w = { s.writeReg .PPL_ACT_ADDR p 0 w with
      net := { s.net with actions := s.actionsStored p ((p * 65536 + wfld w PPL_ACT_ADDR.INDEX) * 4) } } := by
  have hdata (i : Nat) : (s.writeReg .PPL_ACT_ADDR p 0 w).raw .PPL_ACT_DATA p i = s.raw .PPL_ACT_DATA p i :=
    raw_writeReg_ne _ _ _ _ _ _ _ _ (by decide)
  have hno : ¬ wfld w PPL_ACT_ADDR.READ = 1 := by omega
  simp only [State.actCommand, State.actionsStored, if_pos hwrite, if_neg hno, hdata]
  rfl

theorem actCommand_read {w : Word} (hwrite : wfld w PPL_ACT_ADDR.WRITE = 0) (hread : wfld w PPL_ACT_ADDR.READ = 1) (s : State) (p : Nat) :
    s.actCommand p w = (s.writeReg .PPL_ACT_ADDR p 0 w).actionLoaded p ((p * 65536 + wfld w PPL_ACT_ADDR.INDEX) * 4) 4 := by
  have hno : ¬ wfld w PPL_ACT_ADDR.WRITE = 1 := by omega
  simp only [State.actCommand, State.actionLoaded, if_neg hno, if_pos hread]

/-! ## The statement -/

/-- Settles O22: a commit's stored word leaves ACTIVE and PENDING as they were, and the action commands walk the four words of the index. -/
theorem pipelineCommandsComplete : Obligations.PipelineCommandsComplete := by
  unfold Obligations.PipelineCommandsComplete
  intro s req p w
  have hgen : Only [.PPL_GEN] s (s.writeReg .PPL_GEN p 0 w) := (Only.refl _ s).writeReg _ _ _ _ (by decide)
  have hactive : (s.writeReg .PPL_GEN p 0 w).fld PPL_GEN.ACTIVE p = s.fld PPL_GEN.ACTIVE p := 
    fld_writeReg_keep s PPL_GEN.ACTIVE p 0 w (by split <;> rfl)
  refine ⟨fun hn hcommit hfree => ?commit, fun hn hcommit hpending => ?refuse, fun hn hmask => ?global, fun hpending hold => ?flipDone,
    fun hn hwrite hread => ?write, fun hn hwrite hread => ?read⟩
  case commit =>
    have hexec : exec (.genCommit req p w) s = .next ((s.writeReg .PPL_GEN p 0 w).flip p) := by
      change execGenCommit req p w s = _
      rw [execGenCommit, if_neg hn]
      exact (if_neg (by omega)).trans (if_neg (by simp [isSet_eq_false hfree]))
    obtain ⟨hflip, hpending⟩ := fld_flip (s.writeReg .PPL_GEN p 0 w) p
    exact completes_next hexec ⟨by rw [hflip, hactive], hpending, hgen.trans (only_flip _ _)⟩
  case refuse =>
    have hexec : exec (.genCommit req p w) s = .next ((s.writeReg .PPL_GEN p 0 w).put PPL_GEN.REFUSED 1 p) := by
      change execGenCommit req p w s = _
      rw [execGenCommit, if_neg hn]
      exact (if_neg (by omega)).trans (if_pos (isSet_eq_true (by omega)))
    exact completes_next hexec ⟨(fld_put_apart _ PPL_GEN.REFUSED PPL_GEN.ACTIVE _ _ _ rfl (by decide) (by decide)).trans hactive,
      fld_put_same _ PPL_GEN.REFUSED _ _ _ (by decide) (by decide), hgen.put _ _ _ _ (by decide)⟩
  case global =>
    obtain ⟨refused, hexec⟩ := exec_globalCommit hn hmask req
    have hu : Only [.PPL_GEN_GLOBAL] s ((s.writeReg .PPL_GEN_GLOBAL 0 0 w).put PPL_GEN_GLOBAL.REFUSED refused) :=
      ((Only.refl _ s).writeReg _ _ _ _ (by decide)).put _ _ _ _ (by decide)
    have hbelow : ∀ q ∈ s.committed (wfld w PPL_GEN_GLOBAL.COMMIT_MASK), q < 8 := fun q h => ((mem_committed ..).mp h).1
    refine completes_next hexec ⟨fun q hq hbit hfree => ?_, fun q hq hleft => ?_,
      (hu.mono (by simp)).trans ((only_flips _ _).mono (by simp))⟩
    · have hin : q ∈ s.committed (wfld w PPL_GEN_GLOBAL.COMMIT_MASK) := (mem_committed ..).mpr ⟨hq, hbit, hfree⟩
      have hflips := fld_flips_of_mem ((s.writeReg .PPL_GEN_GLOBAL 0 0 w).put PPL_GEN_GLOBAL.REFUSED refused) hbelow (committed_nodup ..) hin
      rwa [hu.fld PPL_GEN.ACTIVE (by decide)] at hflips
    · have hout : q ∉ s.committed (wfld w PPL_GEN_GLOBAL.COMMIT_MASK) := by
        rw [mem_committed]
        rintro ⟨-, hbit, hfree⟩
        rcases hleft with h | h
        · simp [h] at hbit
        · omega
      exact (raw_flips_of_notMem _ hbelow hq hout).trans (hu.2 _ (by decide) _ _)
  case flipDone =>
    change execGenFlipDone p s = _
    exact if_pos ⟨isSet_eq_true (by omega), hold⟩
  case write =>
    have hexec : exec (.actWrite req p w) s = .next (s.actCommand p w) := if_neg hn
    rw [actCommand_write hwrite hread] at hexec
    have haddr : Only [.PPL_ACT_ADDR] s (s.writeReg .PPL_ACT_ADDR p 0 w) := (Only.refl _ s).writeReg _ _ _ _ (by decide)
    exact completes_next hexec ⟨fun i hi => get_foldl_set_inside _ _ _ hi, fun a ha => get_foldl_set_outside _ _ _ ha, haddr.2, rfl⟩
  case read =>
    have hexec : exec (.actRead req p w) s = .next (s.actCommand p w) := if_neg hn
    rw [actCommand_read hwrite hread] at hexec
    have haddr : Only [.PPL_ACT_ADDR] s (s.writeReg .PPL_ACT_ADDR p 0 w) := (Only.refl _ s).writeReg _ _ _ _ (by decide)
    exact completes_next hexec ⟨fun i hi => raw_actionLoaded _ _ p.isLt le_rfl hi,
      (haddr.mono (by simp)).trans ((only_actionLoaded ..).mono (by simp))⟩

end Sys2Proof.Machine
end

section
/-! SUPPORT. The events of the packet pipelines complete with the effects of their rules (R139, R159 to R161, R163, R164, R180, R198). -/
namespace Sys2Proof.Machine

/-! ## Snare's answers (R159) -/

/-- The packet at a place of Snare's queue leaves it. -/
def State.leaveSnare (s : State) (place : Nat) : State := { s with net := { s.net with snare := s.net.snare.eraseIdx place } }

/-- Where a scanner serves, an answer for a packet whose profile keeps no streams is that of the scan from the initial state. -/
theorem exec_snareAnswer {s : State} {place : Nat} {w : Walk} (hserves : ∃ n : Fin 8, s.scannerServes n) (hat : s.net.snare[place]? = some w)
    (hstream : s.fld PPL_SCAN_PROF.STREAM w.pkt.pipe (w.scan.getD 0) = 0) (ids onward : List (BitVec 32)) :
    exec (.snareAnswer place ids onward) s =
      .next (((s.leaveSnare place).scanned w.pkt.pipe w ids).flowControl).settle := by
  have hany : (List.range 8).any s.scannerServes = true := by
    obtain ⟨n, hn⟩ := hserves
    exact List.any_eq_true.mpr ⟨n, List.mem_range.mpr n.isLt, hn⟩
  have hfld := (fld_congr_regs (rfl : (s.leaveSnare place).regs = s.regs) PPL_SCAN_PROF.STREAM w.pkt.pipe (w.scan.getD 0)).trans hstream
  change execSnareAnswer place ids onward s = _
  rw [execSnareAnswer, if_pos hany, hat]
  dsimp only
  rw [← State.leaveSnare, isSet_eq_false hfld]
  rfl

/-- A scan without a match ends in the final verdict (R159). -/
theorem scanned_nil {s : State} {w : Walk} (hfresh : s.stale w = false) (p : Nat) :
    s.scanned p w [] =
      s.finalVerdict p { w with pkt := { w.pkt with depthCut := decide (w.pkt.payload + 4096 < w.pkt.bytes.length) } } := by
  simp only [State.scanned, hfresh, Bool.false_eq_true, if_false, if_true]

/-! ## The statement -/

/-- Settles O21, row by row: under its condition each meaning takes the branch of its rule. -/
theorem pipelineEventsComplete : Obligations.PipelineEventsComplete := by
  unfold Obligations.PipelineEventsComplete
  intro s p w rest x k place xs t key pool ids onward
  refine ⟨fun u hu hruns hheld hresumed hfresh => ?resume, fun hruns hheld hresumed hroom hfeed => ?fromFeed,
    fun hserves hat hstream => exec_snareAnswer hserves hat hstream ids onward, fun hserves hat hstream hfresh => ?noMatch,
    fun htier hkey u hu => ?fetch, fun hat hstale hmine => ?staleHere, fun hnone hat hstale hmine => ?staleSnare, fun y hat hidle => ?idle,
    fun hfind => ?dispatch, fun e l hat hdue hsome hawake => ?timeout⟩
  case resume =>
    change execPacketAdmit p s = _
    rw [execPacketAdmit, if_neg (by simp [hruns])]
    dsimp only
    rw [hheld, hresumed]
    dsimp only
    rw [← hu, if_neg (by simp [hfresh])]
    rfl
  case fromFeed =>
    change execPacketAdmit p s = _
    rw [execPacketAdmit, if_neg (by simp [hruns])]
    dsimp only
    rw [hheld, hresumed]
    dsimp only
    rw [if_neg fun h => absurd h.1 hroom.not_ge, hfeed]
    rfl
  case noMatch =>
    rw [exec_snareAnswer hserves hat hstream, scanned_nil (s := s.leaveSnare place) hfresh]
    rfl
  case fetch =>
    change execFlowFetchDone t key s = _
    rw [hu, execFlowFetchDone, if_neg (by rw [htier, hkey]; decide)]
  case staleHere =>
    change execStaleDrop p place s = _
    rw [execStaleDrop, hat]
    exact if_neg (by simp [hstale, hmine])
  case staleSnare =>
    change execStaleDrop p place s = _
    rw [execStaleDrop, hnone, List.getElem?_nil, List.length_nil, Nat.sub_zero, hat]
    exact if_neg (by simp [hstale, hmine])
  case idle =>
    change execStreamIdleEvict place s = _
    rw [execStreamIdleEvict, hat]
    exact if_neg (Nat.not_lt.mpr hidle)
  case dispatch =>
    change execPoolDispatch pool s = _
    rw [execPoolDispatch, hfind]
    rfl
  case timeout =>
    obtain ⟨d, hd⟩ := Option.isSome_iff_exists.mp hsome
    have hlate : (e.deadline.all fun d => decide (s.up < d)) = false := by
      rw [hd, Option.all_some, decide_eq_false (Nat.not_lt.mpr (hdue d hd))]
    change execReorderTimeout p place s = _
    rw [execReorderTimeout, hat]
    exact if_neg (by simp [hawake, hlate])

end Sys2Proof.Machine
end

section
/-! SUPPORT. The commands of the lookup tables, the learning unit and the sweeper complete with the effects of their rules (R169, R171, R172,
R175, R181, R187 to R194), and what WRITE_INDEX stores in a direct-indexed table. -/
namespace Sys2Proof.Machine

/-! ## Bytes of table memory (R169, R182) -/

@[simp] theorem length_natLe (n v : Nat) : (natLe n v).length = n := by
  induction n generalizing v with
  | zero => rfl
  | succ n ih => exact congrArg (· + 1) (ih (v / 256))

@[simp] theorem length_overRom (s : State) (a : Nat) (bs : List Byte) : (s.overRom a bs).length = bs.length := by
  unfold State.overRom
  split <;> simp

/-- What the boot ROM's tables change, they change back. -/
theorem overRom_overRom (s : State) (a : Nat) (bs : List Byte) : s.overRom a (s.overRom a bs) = bs := by
  unfold State.overRom
  cases s.tbl.rom with
  | false => rfl
  | true =>
    refine List.ext_getElem (by simp) fun i _ _ => ?_
    simp only [if_true, List.getElem_map, List.getElem_zipIdx, Nat.zero_add]
    split
    · rw [BitVec.xor_assoc, BitVec.xor_self, BitVec.xor_zero]
    · rfl

/-- Table memory reads back what was written. -/
theorem tblRead_tblWrite (s : State) (a : Nat) (bs : List Byte) : (s.tblWrite a bs).tblRead a bs.length = bs := by
  have hback := Memory.readBytes_writeBytes s.tbl.mem a (s.overRom a bs)
  rw [length_overRom] at hback
  exact (congrArg (s.overRom a) hback).trans (overRom_overRom s a bs)

/-- A write of table memory leaves every byte outside it alone. -/
theorem read_tblWrite_outside (s : State) {a x : Nat} {bs : List Byte} (h : x < a ∨ a + bs.length ≤ x) :
    Memory.read (s.tblWrite a bs).tbl.mem x = Memory.read s.tbl.mem x :=
  Memory.read_writeBytes_outside _ _ _ _ (by rwa [length_overRom])

/-! ## Entries of a direct-indexed table (R171, R172, R181) -/

/-- The cells of a direct-indexed table, as one way. -/
def State.directCells (s : State) (t : Nat) : Cuckoo :=
  { s.cuckoo t 0 with
    form := .headed, size := s.entrySize t, base0 := s.fld TBL_T_WAYS.BASE0 0 t * 65536, tier := false, wild := false, sub := 0, before := 0 }

/-- The cell of an index. -/
def directCell (i : Nat) : Spot := .slot 0 (i / 4) (i % 4)

theorem directSpot_inside {s : State} {t i : Nat} (h : i < s.fld TBL_T_WAYS.BLOCKS 0 t * s.perBlock t) :
    s.directSpot t i = some (s.directCells t, directCell i) := if_pos h

theorem directSpot_beyond {s : State} {t i : Nat} (h : s.fld TBL_T_WAYS.BLOCKS 0 t * s.perBlock t ≤ i) : s.directSpot t i = none :=
  if_neg h.not_gt

/-- The address of the entry of an index. -/
def State.directAddr (s : State) (t i : Nat) : Nat := s.fld TBL_T_WAYS.BASE0 0 t * 65536 + i * s.entrySize t

theorem addr_directCells (s : State) (t i : Nat) : (s.directCells t).addr 0 (i / 4) (i % 4) = s.directAddr t i := by
  change _ + (4 * (i / 4) + i % 4) * _ = _
  rw [Nat.div_add_mod]
  rfl

theorem entry_directCell (s : State) (t i : Nat) :
    s.entry (s.directCells t) (directCell i) = leNat (s.tblRead (s.directAddr t i) (s.entrySize t)) := by
  rw [← addr_directCells]
  rfl

/-- The state with another count of the learned entries. -/
def State.withLearned (s : State) (n : Nat) : State := { s with tbl := { s.tbl with learned := n } }

/-- An entry stored in a direct-indexed table is written to table memory at its index; beside that only the count of the learned entries
follows (R189). -/
theorem setEntry_directCell (s : State) (t i e : Nat) : ∃ n, s.setEntry (s.directCells t) (directCell i) e =
    (s.withLearned n).tblWrite (s.directAddr t i) (natLe (s.entrySize t) e) := by
  have hcount (n : Nat) : (if n = s.tbl.learned then s else s.withLearned n) = s.withLearned n := by
    split
    · next h => rw [h]; rfl
    · rfl
  rw [← addr_directCells]
  exact ⟨_, congrArg (fun u : State => u.tblWrite _ _) (hcount _)⟩

/-! ## WRITE_INDEX (R172, R175, R181) -/

/-- The entry that WRITE_INDEX makes of an image of `n` bytes, where `old` stood: LEARNED 0, PRIORITY 0, HIT 1, MISS 0 and the next VERSION. -/
def directEntry (n image old : Nat) : Nat :=
  setBits (setBits (setBits (setBits (setBits (image % 2 ^ (8 * n)) 7 7 0) 63 48 0) 3 3 1) 5 4 0) 47 24 (entVersion old + 1)

/-- The state with the entry of an image stored at an index of a direct-indexed table, and `n` learned entries counted. -/
def State.directStored (s : State) (t i image n : Nat) : State :=
  (s.withLearned n).tblWrite (s.directAddr t i)
    (natLe (s.entrySize t) (directEntry (s.entrySize t) image (leNat (s.tblRead (s.directAddr t i) (s.entrySize t)))))

/-- WRITE_INDEX of an image stores its entry and adjusts the counts of entries. -/
theorem writeDirect_directCell (s : State) (t i image : Nat) : ∃ n d,
    s.writeDirect (s.directCells t) (directCell i) image = (s.directStored t i image n).countEntries (s.directCells t).table d := by
  unfold State.directStored
  rw [← entry_directCell]
  obtain ⟨n, hn⟩ := setEntry_directCell s t i (directEntry (s.entrySize t) image (s.entry (s.directCells t) (directCell i)))
  exact ⟨n, _, congrArg (fun u : State => u.countEntries (s.directCells t).table _) hn⟩

theorem tblRead_directStored (s : State) (t i image n : Nat) :
    (s.directStored t i image n).tblRead (s.directAddr t i) (s.entrySize t) =
      natLe (s.entrySize t) (directEntry (s.entrySize t) image (leNat (s.tblRead (s.directAddr t i) (s.entrySize t)))) := by
  have hback := tblRead_tblWrite (s.withLearned n) (s.directAddr t i)
    (natLe (s.entrySize t) (directEntry (s.entrySize t) image (leNat (s.tblRead (s.directAddr t i) (s.entrySize t)))))
  rwa [length_natLe] at hback

/-- Every byte outside the entry keeps its value. -/
theorem read_directStored_outside (s : State) {t i x : Nat} (image n : Nat)
    (h : x < s.directAddr t i ∨ s.directAddr t i + s.entrySize t ≤ x) :
    Memory.read (s.directStored t i image n).tbl.mem x = Memory.read s.tbl.mem x :=
  read_tblWrite_outside (s.withLearned n) (by rwa [length_natLe])

/-- The counts of entries and the answer stand in two status registers. -/
theorem only_counted_answered (s : State) (t : Nat) (d : Int) (r l : Nat) : Only [.TBL_CMD_STATUS, .TBL_T_STATUS] s
    (((s.countEntries t d).put TBL_CMD_STATUS.RESULT r).put TBL_CMD_STATUS.LOCATION l) :=
  (((Only.refl _ s).put TBL_T_STATUS.ENTRIES _ _ _ (by decide)).put _ _ _ _ (by decide)).put _ _ _ _ (by decide)

/-- The image that TBL_CMD_DATA holds. -/
def State.cmdImage (s : State) : Nat := leNat (wordBytes ((List.range 16).map fun i => s.raw .TBL_CMD_DATA 0 i))

/-- Out of NIGHT, WRITE_INDEX on a usable direct-indexed table stores the image where the table has the index, and puts RESULT and
LOCATION. -/
theorem exec_writeIndex_direct {s : State} {w : Word} (hn : s.mode ≠ NIGHT) (husable : s.usable (wfld w TBL_CMD.TABLE))
    (hmode : s.isSet TBL_T_CFG.MODE 0 (wfld w TBL_CMD.TABLE)) (req : Requester) :
    exec (.writeIndex req w) s = done (match s.directSpot (wfld w TBL_CMD.TABLE) (wfld w TBL_CMD.INDEX) with
      | some (c, p) => ((s.writeDirect c p s.cmdImage).put TBL_CMD_STATUS.RESULT resOk).put TBL_CMD_STATUS.LOCATION (wfld w TBL_CMD.INDEX)
      | none => (s.put TBL_CMD_STATUS.RESULT resBadIndex).put TBL_CMD_STATUS.LOCATION 0) := by
  change execWriteIndex req w s = _
  rw [execWriteIndex, if_neg hn, State.tblCmd, State.tableCommand, if_neg (by simp [husable]), if_pos hmode]
  dsimp only
  rw [← State.cmdImage]
  cases s.directSpot (wfld w TBL_CMD.TABLE) (wfld w TBL_CMD.INDEX) <;> rfl

theorem fld_result_answer (s : State) {r : Nat} (l : Nat) (h : r < 16) :
    ((s.put TBL_CMD_STATUS.RESULT r).put TBL_CMD_STATUS.LOCATION l).fld TBL_CMD_STATUS.RESULT = r := by
  rw [fld_put_apart _ TBL_CMD_STATUS.LOCATION TBL_CMD_STATUS.RESULT _ _ _ rfl (by decide) (by decide),
    fld_put_same _ TBL_CMD_STATUS.RESULT _ _ _ (by decide) (by decide)]
  exact Nat.mod_eq_of_lt h

/-- LOCATION holds every index that TBL_CMD can name. -/
theorem fld_location_index (s : State) (w : Word) :
    (s.put TBL_CMD_STATUS.LOCATION (wfld w TBL_CMD.INDEX)).fld TBL_CMD_STATUS.LOCATION = wfld w TBL_CMD.INDEX := by
  rw [fld_put_same _ TBL_CMD_STATUS.LOCATION _ _ _ (by decide) (by decide)]
  exact Nat.mod_eq_of_lt (getBits_lt w TBL_CMD.INDEX.hi TBL_CMD.INDEX.lo)

/-- Settles O24: beside the write of table memory, WRITE_INDEX changes the count of learned entries and two status registers only. -/
theorem directTableWritten : Obligations.DirectTableWritten := by
  unfold Obligations.DirectTableWritten
  intro s req w hn husable hmode hquiet t i n a old image ht hi hsize ha hold himage
  have hexec := exec_writeIndex_direct hn husable hmode req
  rw [← ht, ← hi, show s.cmdImage = image from himage.symm] at hexec
  subst hsize ha hold
  refine ⟨fun hin => ?inside, fun hout => ?beyond⟩
  case inside =>
    obtain ⟨n, d, hwrite⟩ := writeDirect_directCell s t i image
    rw [directSpot_inside hin] at hexec
    dsimp only at hexec
    rw [hwrite] at hexec
    have hstatus := only_counted_answered (s.directStored t i image n) (s.directCells t).table d resOk i
    exact completes_done hexec (hstatus.quiet (hquiet.of_gong rfl))
      ⟨tblRead_directStored s t i image n, rfl, fun x hx => read_directStored_outside s image n hx,
        fld_result_answer _ _ (by decide), hi ▸ fld_location_index _ w, hstatus.2, rfl, rfl⟩
  case beyond =>
    rw [directSpot_beyond hout] at hexec
    have hstatus : Only [.TBL_CMD_STATUS] s ((s.put TBL_CMD_STATUS.RESULT resBadIndex).put TBL_CMD_STATUS.LOCATION 0) :=
      ((Only.refl _ s).put _ _ _ _ (by decide)).put _ _ _ _ (by decide)
    exact completes_done hexec (hstatus.quiet hquiet) ⟨fld_result_answer _ _ (by decide), hstatus⟩

/-! ## Blocks, configuration, learning and aging (R169, R187, R189, R193) -/

/-- A sweep's visit that is due, of an enabled and usable aging table with hashed places that is no twin, ages what it finds (R182, R185, R191,
R193). -/
theorem exec_sweepVisit {s u : State} {t : Fin 256} {slot : Nat} {c : Cuckoo} {p : Spot} (hu : u = (s.ageSlow t).noteVisit t slot)
    (hage : s.isSet TBL_T_AGE.AGE_EN 0 t) (hen : s.isSet TBL_T_CFG.EN 0 t) (husable : s.usable t) (hdawn : s.mode ≠ DAWN)
    (htwilight : s.mode ≠ TWILIGHT) (hlpm : s.fld TBL_T_CFG.KIND 0 t ≠ 1) (hrange : s.fld TBL_T_CFG.KIND 0 t ≠ 3)
    (htwin : ∀ x < 256, s.twinOf x ≠ some t.val) (hdue : s.visitDue t slot) (hmode : u.isSet TBL_T_CFG.MODE 0 t = false)
    (hspot : u.spotOf t slot = some (c, p)) : exec (.sweepVisit t slot) s = done (u.sweepEntry t c p) := by
  have hfree : (List.range 256).any (fun x => s.twinOf x == some t.val) = false := by
    simpa using htwin
  change execSweepVisit t slot s = _
  rw [execSweepVisit, if_neg (by simp [hage, hen, husable, hdawn, htwilight, hlpm, hrange, hfree, hdue]), ← hu]
  dsimp only
  rw [if_neg (by simp [hmode]), hspot]

/-- Settles O23, clause by clause: under its condition each command or event takes the branch of its rule. -/
theorem tableCommandsComplete : Obligations.TableCommandsComplete := by
  unfold Obligations.TableCommandsComplete
  intro s req w k t slot
  refine ⟨fun hn => ?commands, fun hn hlock hidle => ?stored, fun hn hlock hused => ?inUse, fun hn hslot hkind => ?configured,
    fun hn hslot => ?reserved, fun i rest hqueue hdawn htwilight => ?learned,
    fun c p u hu hage hen husable hdawn htwilight hlpm hrange htwin hdue hmode hspot =>
      exec_sweepVisit hu hage hen husable hdawn htwilight hlpm hrange htwin hdue hmode hspot⟩
  case commands => exact ⟨if_neg hn, if_neg hn, if_neg hn, if_neg hn, if_neg hn, if_neg hn⟩
  case stored =>
    change execBlockMapWrite req k w s = _
    rw [execBlockMapWrite, if_neg hn, if_neg (by simp [hlock])]
    exact if_neg (by simp [hidle])
  case inUse =>
    change execBlockMapWrite req k w s = _
    rw [execBlockMapWrite, if_neg hn, if_neg (by simp [hlock])]
    exact if_pos (by simpa using hused)
  case configured =>
    change execTCfgWrite req t w s = _
    rw [execTCfgWrite, if_neg hn]
    exact if_neg (by simp [hslot, hkind])
  case reserved =>
    change execTCfgWrite req t w s = _
    rw [execTCfgWrite, if_neg hn]
    exact if_pos (.inl hslot)
  case learned =>
    change execLearnProcess s = _
    rw [execLearnProcess, hqueue]
    exact if_neg (by simp [hdawn, htwilight])

end Sys2Proof.Machine
end

section
/-! SUPPORT. What an instruction that writes a register leaves of its thread, of the other threads and of engine memory (R203, R236 to R240,
R247, R248). -/
namespace Sys2Proof.Machine

/-! ## Registers of a thread (R203) -/

/-- A write of a register changes the registers of the thread alone. -/
theorem setReg_eq (x : Thread) (n : Nat) (v : Word) : x.setReg n v = { x with g := (x.setReg n v).g } := by
  unfold Thread.setReg
  split <;> rfl

@[simp] theorem setReg_step (x : Thread) (n : Nat) (v : Word) : (x.setReg n v).step = x.step := by rw [setReg_eq]

@[simp] theorem reg_zero (x : Thread) : x.reg 0 = 0 := rfl

/-- The register written reads the value, g0 aside; every other register reads as before. -/
theorem reg_setReg (x : Thread) (n m : Nat) (v : Word) : (x.setReg n v).reg m = if m = n ∧ m ≠ 0 then v else x.reg m := by
  unfold Thread.setReg Thread.reg
  by_cases hm : m = 0
  · simp [hm]
  by_cases hn : n = 0
  · simp [hn, hm]
  by_cases h : m = n
  · simp [h, hn]
  · simp [h, hm, hn, Store.get_set_ne _ _ _ _ _ _ (Ne.symm h)]

/-! ## Instructions that write rd and go on (R236) -/

/-- An instruction whose effect is the write of `v` to rd leaves its thread at the next PC. -/
theorem issue_writes {s : State} {t : Nat} {k : ZKind} {f : Nat → Thread → Effect} {v : Word} (hruns : s.runs t k)
    (hf : f (s.nextWord t) (s.thread t) = s.writes t (s.nextWord t) v) :
    s.issue t k f = .next (s.goes t (s.sets t (zrd (s.nextWord t)) v) ((s.thread t).pc + 1)) :=
  issue_next s t k f _ _ 0 hruns hf

/-- Thread `t` of `u` is that of `s` with register `n` holding `v`, one instruction further; no other thread and no byte of engine memory
changed. -/
def RegisterWritten (s : State) (t n : Nat) (v : Word) (u : State) : Prop :=
  u.thread t = { (s.thread t).setReg n v with pc := ((s.thread t).pc + 1) % 65536, done := (s.thread t).done + 1 } ∧ ThreadOnly t s u

theorem registerWritten_goes {s : State} {t : Nat} (hq : Quiet s) (hstep : (s.thread t).step = false) (n : Nat) (v : Word) :
    RegisterWritten s t n v (s.goes t (s.sets t n v) ((s.thread t).pc + 1)) := by
  have hsets : (s.sets t n v).thread t = (s.thread t).setReg n v := thread_onThread_same s t _
  obtain ⟨hthread, hothers, hmem⟩ := goes_thread s t (s.sets t n v) ((s.thread t).pc + 1) 0 (hq.of_gong rfl)
    (by rw [hsets, setReg_step, hstep])
  refine ⟨?_, fun k hk => (hothers k hk).trans (thread_onThread_ne s t k _ hk.symm), hmem⟩
  rw [hthread, hsets, setReg_eq]

/-- Settles O33: each of the six instructions is a write of rd, which changes the registers of its thread alone. -/
theorem registerResultFrame : Obligations.RegisterResultFrame := by
  unfold Obligations.RegisterResultFrame
  rintro s t w x c v rfl rfl hquiet hstep hc
  have hexec : exec c s = .next (s.goes t (s.sets t (zrd (s.nextWord t)) v) ((s.thread t).pc + 1)) := by
    rcases hc with ⟨h, rfl, rfl⟩ | ⟨h, rfl, rfl⟩ | ⟨h, rfl, rfl⟩ | ⟨h, rfl, rfl⟩ | ⟨h, rfl, rfl⟩ | ⟨h, rfl, rfl⟩
    · exact show execAlu t s = _ from issue_writes h rfl
    · exact show execIalu t s = _ from issue_writes h rfl
    · exact show execBfi t s = _ from issue_writes h rfl
    · exact show execHash t s = _ from issue_writes h rfl
    · exact show execTread t s = _ from issue_writes h rfl
    · exact show execSrd t s = _ from issue_writes h rfl
  obtain ⟨hthread, honly⟩ := registerWritten_goes hquiet hstep (zrd (s.nextWord t)) v
  refine completes_next hexec ⟨fun n => ?reg, rfl, ?rest, honly⟩
  case reg =>
    rw [hthread]
    exact reg_setReg (s.thread t) _ n v
  case rest =>
    rw [hthread]
    exact congrArg (fun y : Thread => { y with pc := ((s.thread t).pc + 1) % 65536, done := (s.thread t).done + 1 }) (setReg_eq (s.thread t) _ v)

end Sys2Proof.Machine
end

section
/-! SUPPORT. The commands of clusters and threads (R204 to R209, R215, R222 to R227): what a write of TBC_CTL, of TBC_MEM_DATA and of
TBE_THREAD_CTL does, that the commands and events complete, and which writes of a cluster are refused. -/
namespace Sys2Proof.Machine

/-! ## Words of a command -/

/-- A field of a word as a command writes it reads what was written, cut to its width. -/
theorem wfld_withBit_same (f : Field) (v : Nat) (w : Word) (h : f.hi < 64) (hl : f.lo ≤ f.hi) :
    wfld (withBit f v w) f = v % 2 ^ (f.hi + 1 - f.lo) := getBits_putBits_same w f.hi f.lo v h hl

/-- The fields beside it read as in the word. -/
theorem wfld_withBit_apart (f g : Field) (v : Nat) (w : Word) (hg : g.hi < 64) (hd : g.hi < f.lo ∨ f.hi < g.lo) :
    wfld (withBit f v w) g = wfld w g := getBits_putBits_ne w f.hi f.lo v g.hi g.lo hg hd

/-! ## Accesses to a cluster (R206, R227) -/

theorem wakeCluster_of_awake {s : State} {c : Nat} (h : s.domainAwake c) : s.wakeCluster c = s := if_pos (by simp [h])

theorem served_eq {s : State} {c : Nat} (h : s.clusterIsolated c = false) (effect : State → State) :
    s.served c effect = effect (s.wakeCluster c) := if_neg (by simp [h])

/-- A refusal whose source is not fatal changes TBC_CTL and Gong's records alone. -/
theorem Only.refuseTbc {z s : State} (h : Only (.TBC_CTL :: gongRegs) z s) (c : Nat) (hm : Mild z (14 + c / 4) (8 * (c % 4) + 7)) (t : Nat) :
    Only (.TBC_CTL :: gongRegs) z (s.refuseTbc c t) := by
  have hput := h.put TBC_CTL.REFUSED 1 c 0 (List.mem_cons_self ..)
  exact hput.fire _ _ _ _ _ ((hput.mild _ _ (by decide)).mpr hm) fun r => List.mem_cons_of_mem _

theorem fld_refuseTbc (s : State) (c t : Nat) : (s.refuseTbc c t).fld TBC_CTL.REFUSED c = 1 := by
  unfold State.refuseTbc State.clusterEvent
  rw [fld_fire_ne _ _ _ _ _ _ _ _ _ (by decide), fld_put_same _ _ _ _ _ (by decide) (by decide)]
  rfl

/-! ## TBC_CTL (R204 to R206) -/

/-- REFUSED is cleared by a write of 1. -/
def State.clearRefused (s : State) (c : Nat) (w : Word) : State :=
  if wfld w TBC_CTL.REFUSED = 1 then s.put TBC_CTL.REFUSED 0 c else s

theorem only_clearRefused (s : State) (c : Nat) (w : Word) : Only [.TBC_CTL] s (s.clearRefused c w) := by
  unfold State.clearRefused
  split
  · exact (Only.refl _ s).put _ _ _ _ (List.mem_cons_self ..)
  · exact Only.refl _ s

/-- RESET goes before RUN. -/
theorem writeTbcCtl_reset {w : Word} (hreset : wfld w TBC_CTL.RESET = 1) (s : State) (c : Nat) :
    s.writeTbcCtl c w = (((s.wakeCluster c).clearRefused c w).clusterReset c).drainCluster c (decide (wfld w TBC_CTL.DRAIN = 1)) :=
  if_pos hreset

/-- RUN starts the cluster where it is taken, and is refused elsewhere, whatever DRAIN is. -/
theorem writeTbcCtl_run {w : Word} (hreset : wfld w TBC_CTL.RESET = 0) (hrun : wfld w TBC_CTL.RUN = 1) (s : State) (c : Nat) :
    s.writeTbcCtl c w =
      if ((s.wakeCluster c).clearRefused c w).canRun c then
        (((s.wakeCluster c).clearRefused c w).startCluster c).drainCluster c (decide (wfld w TBC_CTL.DRAIN = 1))
      else ((s.wakeCluster c).clearRefused c w).refuseTbc c :=
  (if_neg (by simp [hreset])).trans (if_pos hrun)

theorem writeTbcCtl_drain {w : Word} (hreset : wfld w TBC_CTL.RESET = 0) (hrun : wfld w TBC_CTL.RUN = 0) (s : State) (c : Nat) :
    s.writeTbcCtl c w = ((s.wakeCluster c).clearRefused c w).drainCluster c (decide (wfld w TBC_CTL.DRAIN = 1)) :=
  (if_neg (by simp [hreset])).trans (if_neg (by simp [hrun]))

/-- REFUSED of a word is that of the word that a command makes of it. -/
theorem clearRefused_withBit (s : State) (c : Nat) (f : Field) (v : Nat) (w : Word) (hd : 3 < f.lo ∨ f.hi < 3) :
    s.clearRefused c (withBit f v w) = s.clearRefused c w := by
  unfold State.clearRefused
  rw [wfld_withBit_apart f TBC_CTL.REFUSED v w (by decide) hd]

/-- CLUSTER_RUN starts a cluster that takes it; any other is refused (R205, R206). -/
theorem exec_clusterRun {s : State} {c : Fin 16} (hn : s.mode ≠ NIGHT) (hi : s.clusterIsolated c = false) (req : Requester) (w : Word) :
    exec (.clusterRun req c w) s = done (if ((s.wakeCluster c).clearRefused c w).canRun c then
      (((s.wakeCluster c).clearRefused c w).startCluster c).drainCluster c (decide (wfld w TBC_CTL.DRAIN = 1))
      else ((s.wakeCluster c).clearRefused c w).refuseTbc c) := by
  change execClusterRun req c w s = _
  have hreset : wfld (withBit TBC_CTL.RESET 0 (withBit TBC_CTL.RUN 1 w)) TBC_CTL.RESET = 0 :=
    wfld_withBit_same _ _ _ (by decide) (by decide)
  have hrun : wfld (withBit TBC_CTL.RESET 0 (withBit TBC_CTL.RUN 1 w)) TBC_CTL.RUN = 1 :=
    (wfld_withBit_apart _ _ _ _ (by decide) (by decide)).trans (wfld_withBit_same _ _ _ (by decide) (by decide))
  have hdrain : wfld (withBit TBC_CTL.RESET 0 (withBit TBC_CTL.RUN 1 w)) TBC_CTL.DRAIN = wfld w TBC_CTL.DRAIN :=
    (wfld_withBit_apart _ _ _ _ (by decide) (by decide)).trans (wfld_withBit_apart _ _ _ _ (by decide) (by decide))
  rw [execClusterRun, if_neg hn, if_neg (by simp [hi]), writeTbcCtl_run hreset hrun, hdrain,
    clearRefused_withBit _ _ _ _ _ (by decide), clearRefused_withBit _ _ _ _ _ (by decide)]

/-- A RUN that is not taken is refused (R206). -/
theorem completes_clusterRun_refused {s : State} {c : Fin 16} (hn : s.mode ≠ NIGHT) (hi : s.clusterIsolated c = false) (hawake : s.domainAwake c)
    (hq : Quiet s) (hm : Mild s (14 + c / 4) (8 * (c % 4) + 7)) (hstate : s.cluster c ≠ LOADED) (req : Requester) (w : Word) :
    Completes (.clusterRun req c w) s fun u =>
      u.fld TBC_CTL.REFUSED c = 1 ∧ u.cluster c = s.cluster c ∧ Only (.TBC_CTL :: gongRegs) s u := by
  have hclear := only_clearRefused s c w
  have hrefuse : ((s.clearRefused c w).canRun c) = false := by
    have hcluster : (s.clearRefused c w).cluster c = s.cluster c := hclear.fld TBC_STATUS.STATE (by decide) c 0
    simp [State.canRun, hcluster, hstate]
  have hexec := exec_clusterRun hn hi req w
  rw [wakeCluster_of_awake hawake, hrefuse, if_neg Bool.false_ne_true] at hexec
  have honly := (hclear.mono (by decide)).refuseTbc c hm initNone
  exact completes_done hexec (honly.quiet hq) ⟨fld_refuseTbc _ c _, honly.fld TBC_STATUS.STATE (by decide) c 0, honly⟩

/-! ## TBC_MEM_DATA (R204, R206) -/

/-- The eight bytes of a word stand in cluster memory at TBC_MEM_ADDR. -/
def State.memStored (s : State) (c : Nat) (w : Word) : State :=
  { s with tbe := { s.tbe with mem := Memory.writeBytes s.tbe.mem (s.memAddr c) (natLe 8 w.toNat) } }

/-- The address is one word further, and the cluster is LOADED. -/
def State.memLoaded (s : State) (c : Nat) (w : Word) : State := ((s.memStored c w).stepMem c).put TBC_STATUS.STATE LOADED c

theorem memDataWrite_stopped {s : State} {c : Nat} (h : s.cluster c = EMPTY ∨ s.cluster c = LOADED) (w : Word) :
    s.memDataWrite c w = s.memLoaded c w := if_pos h

theorem memDataWrite_refused {s : State} {c : Nat} (he : s.cluster c ≠ EMPTY) (hl : s.cluster c ≠ LOADED) (w : Word) :
    s.memDataWrite c w = s.refuseTbc c := if_neg (by simp [he, hl])

theorem only_memLoaded (s : State) (c : Nat) (w : Word) : Only [.TBC_MEM_ADDR, .TBC_STATUS] (s.memStored c w) (s.memLoaded c w) :=
  ((Only.refl _ _).put TBC_MEM_ADDR.ADDR _ _ _ (by decide)).put TBC_STATUS.STATE _ _ _ (by decide)

theorem fld_memLoaded_addr (s : State) (c : Nat) (w : Word) :
    (s.memLoaded c w).fld TBC_MEM_ADDR.ADDR c = (s.fld TBC_MEM_ADDR.ADDR c + 8) % 2 ^ 18 := by
  unfold State.memLoaded State.stepMem
  rw [fld_put_ne _ _ _ _ _ _ _ _ (by decide), fld_put_same _ _ _ _ _ (by decide) (by decide)]
  exact Nat.mod_mod _ _

theorem cluster_memLoaded (s : State) (c : Nat) (w : Word) : (s.memLoaded c w).cluster c = LOADED :=
  fld_put_same _ TBC_STATUS.STATE _ _ _ (by decide) (by decide)

theorem readBytes_memLoaded (s : State) (c : Nat) (w : Word) :
    Memory.readBytes (s.memLoaded c w).tbe.mem (s.memAddr c) 8 = natLe 8 w.toNat :=
  Memory.readBytes_writeBytes s.tbe.mem (s.memAddr c) (natLe 8 w.toNat)

/-- Every byte outside the word keeps its value. -/
theorem read_memLoaded_outside (s : State) {c x : Nat} (w : Word) (h : x < s.memAddr c ∨ s.memAddr c + 8 ≤ x) :
    Memory.read (s.memLoaded c w).tbe.mem x = Memory.read s.tbe.mem x :=
  Memory.read_writeBytes_outside _ _ _ _ (by rwa [length_natLe])

/-- A write of TBC_MEM_DATA of a cluster that is awake and not isolated. -/
theorem exec_memDataWrite {s : State} {c : Fin 16} (hn : s.mode ≠ NIGHT) (hi : s.clusterIsolated c = false) (hawake : s.domainAwake c)
    (req : Requester) (w : Word) : exec (.memDataAccess req c (some w)) s = done (s.memDataWrite c w) := by
  change execMemDataAccess req c (some w) s = _
  rw [execMemDataAccess, if_neg hn, served_eq hi, wakeCluster_of_awake hawake]

/-- Settles O26: a write of TBC_MEM_DATA is `memLoaded` where the cluster is stopped, and a refusal, as a RUN that is not taken, elsewhere. -/
theorem memDataAcceptedWhereStopped : Obligations.MemDataAcceptedWhereStopped := by
  unfold Obligations.MemDataAcceptedWhereStopped
  rintro s req c w a hn - - hi hawake hq hm rfl
  refine ⟨fun hstate => ?stored, fun hempty hloaded => ?refused, fun hstate => completes_clusterRun_refused hn hi hawake hq hm hstate req w⟩
  case stored =>
    have hexec := exec_memDataWrite hn hi hawake req w
    rw [memDataWrite_stopped hstate] at hexec
    exact completes_done hexec (hq.of_gong rfl) ⟨readBytes_memLoaded s c w, fun x => read_memLoaded_outside s w, fld_memLoaded_addr s c w,
      cluster_memLoaded s c w, rfl, (only_memLoaded s c w).2⟩
  case refused =>
    have hexec := exec_memDataWrite hn hi hawake req w
    rw [memDataWrite_refused hempty hloaded] at hexec
    have honly := (Only.refl _ s).refuseTbc c hm initNone
    exact completes_done hexec (honly.quiet hq) ⟨fld_refuseTbc s c _, honly⟩

/-! ## TBE_THREAD_CTL (R221, R225) -/

/-- REFUSED of the thread is cleared by a write of 1. -/
def State.clearThreadRefused (s : State) (t : Nat) (w : Word) : State :=
  if wfld w TBE_THREAD_CTL.REFUSED = 1 then s.put TBE_THREAD_CTL.REFUSED 0 (engineOf t) (t % 8) else s

/-- The pending events that CLR_EVT of a word names are cleared. -/
def State.clearEvents (s : State) (t : Nat) (w : Word) : State :=
  s.onThread t fun x => { x with epend := x.epend &&& (65535 - wfld w TBE_THREAD_CTL.CLR_EVT) }

/-- The commands that a word gives beside CLR_EVT, in their order. -/
def State.threadCommands (s : State) (t : Nat) (w : Word) : State :=
  let s := if wfld w TBE_THREAD_CTL.ABORT_STAGE = 1 ∧ (s.thread t).halted then s.onThread t fun x => { x with staging := {}, staged := 0 } else s
  let s := if wfld w TBE_THREAD_CTL.SEV = 1 then s.event t evSev else s
  let s := if wfld w TBE_THREAD_CTL.RESUME = 1 then s.resumeThread t false else s
  let s := if wfld w TBE_THREAD_CTL.STEP = 1 then s.resumeThread t true else s
  if wfld w TBE_THREAD_CTL.HALT = 1 ∧ wfld w TBE_THREAD_CTL.RESUME = 0 ∧ wfld w TBE_THREAD_CTL.STEP = 0 then s.haltThread t else s

theorem writeThreadCtl_eq (s : State) (t : Nat) (w : Word) :
    s.writeThreadCtl t w = (((s.wakeCluster (clusterOf t)).clearThreadRefused t w).clearEvents t w).threadCommands t w := rfl

/-- A command that sets or clears a bit of a word that leaves REFUSED alone, to a cluster that needs no wake. -/
theorem writeThreadCtl_withBit {s : State} {t : Nat} {w : Word} (hawake : s.wakeCluster (clusterOf t) = s)
    (hrefused : wfld w TBE_THREAD_CTL.REFUSED = 0) (f : Field) (v : Nat) (hf : f.hi < 5) :
    s.writeThreadCtl t (withBit f v w) = (s.clearEvents t w).threadCommands t (withBit f v w) := by
  have hkeep : s.clearThreadRefused t (withBit f v w) = s :=
    if_neg (by rw [wfld_withBit_apart f _ v w (by decide) (.inr hf), hrefused]; decide)
  have hevents : s.clearEvents t (withBit f v w) = s.clearEvents t w := by
    unfold State.clearEvents
    rw [wfld_withBit_apart f _ v w (by decide) (.inr (hf.trans (by decide)))]
  rw [writeThreadCtl_eq, hawake, hkeep, hevents]

/-- The word gives no command but CLR_EVT. -/
def Commandless (w : Word) : Prop :=
  wfld w TBE_THREAD_CTL.HALT = 0 ∧ wfld w TBE_THREAD_CTL.RESUME = 0 ∧ wfld w TBE_THREAD_CTL.STEP = 0 ∧
  wfld w TBE_THREAD_CTL.ABORT_STAGE = 0 ∧ wfld w TBE_THREAD_CTL.SEV = 0

section
variable {w : Word} (h : Commandless w) (s : State) (t : Nat)
include h

theorem threadCommands_commandless : s.threadCommands t w = s := by
  obtain ⟨hhalt, hresume, hstep, habort, hsev⟩ := h
  simp [State.threadCommands, *]

theorem threadCommands_halt : s.threadCommands t (withBit TBE_THREAD_CTL.HALT 1 w) = s.haltThread t := by
  obtain ⟨-, hresume, hstep, habort, hsev⟩ := h
  simp (disch := decide) [State.threadCommands, wfld_withBit_same, wfld_withBit_apart, *]

theorem threadCommands_resume : s.threadCommands t (withBit TBE_THREAD_CTL.RESUME 1 w) = s.resumeThread t false := by
  obtain ⟨hhalt, -, hstep, habort, hsev⟩ := h
  simp (disch := decide) [State.threadCommands, wfld_withBit_same, wfld_withBit_apart, *]

theorem threadCommands_step : s.threadCommands t (withBit TBE_THREAD_CTL.STEP 1 w) = s.resumeThread t true := by
  obtain ⟨hhalt, hresume, -, habort, hsev⟩ := h
  simp (disch := decide) [State.threadCommands, wfld_withBit_same, wfld_withBit_apart, *]

theorem threadCommands_sev : s.threadCommands t (withBit TBE_THREAD_CTL.SEV 1 w) = s.event t evSev := by
  obtain ⟨hhalt, hresume, hstep, habort, -⟩ := h
  simp (disch := decide) [State.threadCommands, wfld_withBit_same, wfld_withBit_apart, *]

theorem threadCommands_abortStage (hhalted : (s.thread t).halted) :
    s.threadCommands t (withBit TBE_THREAD_CTL.ABORT_STAGE 1 w) = s.onThread t fun x => { x with staging := {}, staged := 0 } := by
  obtain ⟨hhalt, hresume, hstep, -, hsev⟩ := h
  simp (disch := decide) [State.threadCommands, wfld_withBit_same, wfld_withBit_apart, *]

end

/-- A command that writes TBE_THREAD_CTL, to a cluster that is not isolated. -/
theorem threadCtl_eq {s : State} {t : Nat} (hn : s.mode ≠ NIGHT) (hi : s.clusterIsolated (clusterOf t) = false) (w : Word) :
    s.threadCtl t w = done ((s.wakeCluster (clusterOf t)).writeThreadCtl t w) := by
  rw [State.threadCtl, if_neg hn, served_eq hi]

/-- A debugger's write of a register of a halted thread, to a cluster that is not isolated. -/
theorem exec_threadRegWrite {s u : State} {t : Fin 1024} {r : ThreadReg} {w : Word} (hn : s.mode ≠ NIGHT)
    (hi : s.clusterIsolated (clusterOf t) = false) (hu : (s.wakeCluster (clusterOf t)).writeThreadReg t r w = u) (req : Requester) :
    exec (.threadRegWrite req t r w) s = done u := by
  change execThreadRegWrite req t r w s = _
  rw [execThreadRegWrite, if_neg hn, served_eq hi, hu]

/-! ## The commands and events of clusters and threads -/

/-- The commands of TBC_CTL, with the fields that a word sets (R204 to R207). -/
theorem clusterCtl_complete {s : State} {c : Fin 16} (hn : s.mode ≠ NIGHT) (hi : s.clusterIsolated c = false) (req : Requester) (w : Word)
    {u v : State} (hu : u = s.wakeCluster c) (hv : v = u.clearRefused c w) :
    (v.canRun c → exec (.clusterRun req c w) s = done ((v.startCluster c).drainCluster c (decide (wfld w TBC_CTL.DRAIN = 1)))) ∧
    (u.wakeCluster c = u → exec (.clusterReset req c w) s = done ((v.clusterReset c).drainCluster c (decide (wfld w TBC_CTL.DRAIN = 1)))) ∧
    (u.wakeCluster c = u → wfld w TBC_CTL.RUN = 0 → wfld w TBC_CTL.RESET = 0 →
      exec (.clusterDrain req c w) s = done (v.drainCluster c true) ∧ exec (.clusterUndrain req c w) s = done (v.drainCluster c false)) := by
  subst hu hv
  refine ⟨fun hrun => ?run, fun hawake => ?reset, fun hawake hrun hreset => ?drain⟩
  case run => rw [exec_clusterRun hn hi, hrun, if_pos rfl]
  case reset =>
    change execClusterReset req c w s = _
    rw [execClusterReset, if_neg hn, served_eq hi, writeTbcCtl_reset (wfld_withBit_same _ _ _ (by decide) (by decide)), hawake,
      clearRefused_withBit _ _ _ _ _ (by decide), wfld_withBit_apart _ _ _ _ (by decide) (by decide)]
  case drain =>
    have hdrain (b : Nat) : (s.wakeCluster c).writeTbcCtl c (withBit TBC_CTL.DRAIN b w) =
        ((s.wakeCluster c).clearRefused c w).drainCluster c (decide (b % 2 = 1)) := by
      rw [writeTbcCtl_drain ((wfld_withBit_apart _ _ _ _ (by decide) (by decide)).trans hreset)
        ((wfld_withBit_apart _ _ _ _ (by decide) (by decide)).trans hrun), hawake, clearRefused_withBit _ _ _ _ _ (by decide),
        wfld_withBit_same _ _ _ (by decide) (by decide)]
      rfl
    constructor
    · change execClusterDrain req c w s = _
      rw [execClusterDrain, if_neg hn, served_eq hi, hdrain]
      rfl
    · change execClusterUndrain req c w s = _
      rw [execClusterUndrain, if_neg hn, served_eq hi, hdrain]
      rfl

/-- The commands of TBE_THREAD_CTL, each with a word that gives no other (R221, R225). -/
theorem threadCtl_complete {s : State} {t : Fin 1024} (hn : s.mode ≠ NIGHT) (hi : s.clusterIsolated (clusterOf t) = false)
    (req : Requester) {w : Word} {u v : State} (hv : v = s.wakeCluster (clusterOf t)) (hu : u = v.clearEvents t w)
    (hawake : v.wakeCluster (clusterOf t) = v) (hw : Commandless w) (hrefused : wfld w TBE_THREAD_CTL.REFUSED = 0) :
    exec (.halt req t w) s = done (u.haltThread t) ∧ exec (.resume req t w) s = done (u.resumeThread t false) ∧
    exec (.step req t w) s = done (u.resumeThread t true) ∧ exec (.threadCtlSev req t w) s = done (u.event t evSev) ∧
    exec (.clrEvt req t w) s = done u ∧
    ((u.thread t).halted → exec (.abortStage req t w) s = done (u.onThread t fun x => { x with staging := {}, staged := 0 })) := by
  subst hv hu
  have hbit (f : Field) (hf : f.hi < 5) : s.threadCtl t (withBit f 1 w) =
      done (((s.wakeCluster (clusterOf t)).clearEvents t w).threadCommands t (withBit f 1 w)) := by
    rw [threadCtl_eq hn hi, writeThreadCtl_withBit hawake hrefused f 1 hf]
  refine ⟨?halt, ?resume, ?step, ?sev, ?clear, fun hhalted => ?abort⟩
  case halt =>
    change s.threadCtl t _ = _
    rw [hbit _ (by decide), threadCommands_halt hw]
  case resume =>
    change s.threadCtl t _ = _
    rw [hbit _ (by decide), threadCommands_resume hw]
  case step =>
    change s.threadCtl t _ = _
    rw [hbit _ (by decide), threadCommands_step hw]
  case sev =>
    change s.threadCtl t _ = _
    rw [hbit _ (by decide), threadCommands_sev hw]
  case clear =>
    have hkeep : (s.wakeCluster (clusterOf t)).clearThreadRefused t w = s.wakeCluster (clusterOf t) := if_neg (by simp [hrefused])
    change s.threadCtl t w = _
    rw [threadCtl_eq hn hi, writeThreadCtl_eq, hawake, hkeep, threadCommands_commandless hw]
  case abort =>
    change s.threadCtl t _ = _
    rw [hbit _ (by decide), threadCommands_abortStage hw _ _ hhalted]

/-- Settles O25, clause by clause: under its condition each command or event takes the branch of its rule. -/
theorem clusterCommandsComplete : Obligations.ClusterCommandsComplete := by
  unfold Obligations.ClusterCommandsComplete
  intro s req c t w
  refine ⟨fun u v hu hv hn hi => clusterCtl_complete hn hi req w hu hv, fun hn hi => ?drain, fun hstate hempty => ?drained, fun hn hi => ?memory,
    fun hn hi hcredits hslots hstate => ?share, fun r hr => ?response, fun d htimer hdue => ?timer, fun ts x htwait hdue hx hgoes => ?twait,
    fun us hus hset hissues hdue => ?watchdog, fun hn hi v hv => ?thread,
    fun u v hv hu hn hi hawake hhalt hresume hstep habort hsev hrefused =>
      threadCtl_complete hn hi req hv hu hawake ⟨hhalt, hresume, hstep, habort, hsev⟩ hrefused,
    fun hruns hclear hquiet hlasted => ?quiet, fun hday hawake hidle hlasted hhold => ?gate⟩
  case drain =>
    constructor
    · change execClusterDrain req c w s = _
      rw [execClusterDrain, if_neg hn, served_eq hi, done]
    · change execClusterUndrain req c w s = _
      rw [execClusterUndrain, if_neg hn, served_eq hi, done]
  case drained => exact show execClusterDrained c s = _ from if_pos ⟨hstate, hempty⟩
  case memory =>
    change execMemDataAccess req c none s = _
    rw [execMemDataAccess, if_neg hn]
    exact if_neg (by simp [hi])
  case share =>
    change execShareWrite req c w s = _
    rw [execShareWrite, if_neg hn, served_eq hi, State.writeShare, if_neg (by omega), done]
  case response =>
    change execChannelResponse 0 s = _
    rw [execChannelResponse, hr]
    rfl
  case timer =>
    change execThreadTimerExpiry t s = _
    rw [execThreadTimerExpiry, htimer]
    exact if_pos hdue
  case twait =>
    subst hx
    change execTwaitEnd t s = _
    rw [execTwaitEnd, htwait]
    exact (if_pos hdue).trans (if_neg (by simp [hgoes]))
  case watchdog =>
    subst hus
    exact show execThreadWatchdog t s = _ from if_pos ⟨hset, hissues, hdue⟩
  case thread =>
    subst hv
    exact ⟨threadCtl_eq hn hi _, threadCtl_eq hn hi _, threadCtl_eq hn hi _, threadCtl_eq hn hi _, threadCtl_eq hn hi _, threadCtl_eq hn hi w,
      fun hhalted => exec_threadRegWrite hn hi (if_neg (by simp [hhalted])) req,
      fun _ hhalted => exec_threadRegWrite hn hi (if_neg (by simp [hhalted])) req,
      fun _ hhalted => exec_threadRegWrite hn hi (if_neg (by simp [hhalted])) req⟩
  case quiet =>
    exact show execQuietCluster c s = _ from if_pos ⟨hruns, by simp [hclear], List.all_eq_true.mpr hquiet, hlasted⟩
  case gate =>
    have hall : s.clusterIdle c := List.all_eq_true.mpr fun k hk => by simp [hidle k hk]
    exact show execClusterGate c s = _ from if_pos ⟨hday, hawake, hall, hlasted, by simp [hhold]⟩

end Sys2Proof.Machine
end

section
/-! SUPPORT. The messages on the PKT, TABLE, PREFETCH, XPT, COPY and MBX channels complete with the effects and answers of their rules
(R214, R216 to R221, R360, R371, R457). -/
namespace Sys2Proof.Machine

/-! ## PKT (R218) -/

theorem exec_pktReturn_some {s : State} {m : Msg} {x : Slot} (hm : s.message 0 0 1 = some m) (hx : m.slot = some x) :
    exec (.pktReturn 0) s =
      done ((((((s.takeMsg 0).poolSample x).sendSlot m x true).countSent m.thread).respond m 0).flowControl) := by
  change execPktReturn 0 s = _
  rw [execPktReturn, hm]
  dsimp only
  rw [hx]

theorem exec_pktReturn_none {s : State} {m : Msg} (hm : s.message 0 0 1 = some m) (hx : m.slot = none) :
    exec (.pktReturn 0) s = done ((s.takeMsg 0).respond m 16) := by
  change execPktReturn 0 s = _
  rw [execPktReturn, hm]
  dsimp only
  rw [hx]

theorem exec_pktDrop_some {s : State} {m : Msg} {x : Slot} (hm : s.message 0 0 2 = some m) (hx : m.slot = some x) :
    exec (.pktDrop 0) s = done ((((((s.takeMsg 0).dropSeq x.pkt).dropSelected x.pkt stDropped).bump .TBC_STAT (clusterOf m.thread) 6).respond
      m 0).flowControl) := by
  change execPktDrop 0 s = _
  rw [execPktDrop, hm]
  dsimp only
  rw [hx]

/-- The slot as SEND hands it on: unsequenced, and as no host's or port's packet unless NEW made it. -/
def Slot.unsequenced (x : Slot) : Slot :=
  { x with pkt := { x.pkt with seq := none, tx := if x.made then x.pkt.tx else none, inPort := if x.made then x.pkt.inPort else none } }

theorem exec_pktSend_some {s : State} {m : Msg} {x : Slot} (hm : s.message 0 0 5 = some m) (hx : m.slot = some x) :
    exec (.pktSend 0) s = done (((((s.takeMsg 0).sendSlot m x.unsequenced false).countSent m.thread).respond m 0).flowControl) := by
  change execPktSend 0 s = _
  rw [execPktSend, hm]
  dsimp only
  rw [hx]
  rfl

/-- The later messages with the frame that a FRAME message sets: the messages, whether one carries the slot, and whether one gave it up. -/
def State.reframed (s : State) (m : Msg) : List Msg × Bool × Bool :=
  reframe m.thread (getBits (m.word 1) 4 0) (getBits (m.word 2) 13 0) (getBits (m.word 2) 29 16) s.tbe.msgs

/-- The thread holds the slot that a FRAME message names, or a later message of it carries the slot. -/
def State.frameHeld (s : State) (m : Msg) : Bool :=
  (s.reframed m).2.1 || (s.thread m.thread).slots.any (fun y => y.num == getBits (m.word 1) 4 0)

/-- A FRAME message of the present epoch whose slot is held. -/
theorem exec_pktFrame_held {s : State} {m : Msg} {u : State} (hu : u = s.takeMsg 0) (hm : s.message 0 0 3 = some m)
    (hepoch : m.epoch = u.epoch (clusterOf m.thread)) (hheld : u.frameHeld m) :
    exec (.pktFrame 0) s =
      if getBits (m.word 2) 13 0 < 0x400 ∨ 0x4000 < getBits (m.word 2) 13 0 + getBits (m.word 2) 29 16 then .next (u.respond m 17)
      else .next (State.respond (if (u.reframed m).2.2 then { u with tbe := { u.tbe with msgs := (u.reframed m).1 } }
        else State.onThread { u with tbe := { u.tbe with msgs := (u.reframed m).1 } } m.thread
          fun x => x.onSlot (getBits (m.word 1) 4 0) fun y => { y with start := getBits (m.word 2) 13 0, len := getBits (m.word 2) 29 16 }) m 0) := by
  subst hu
  change execPktFrame 0 s = _
  rw [execPktFrame, hm]
  have hnone : ¬ (!(s.takeMsg 0).frameHeld m) = true := by simp [hheld]
  exact if_neg (not_or.mpr ⟨not_not_intro hepoch, hnone⟩)

/-- The slot that NEW makes: its bytes, its PHV and its source are free values (log entry 2). -/
def State.newSlot (s : State) (m : Msg) (n : Nat) : Slot :=
  let len := min 0x3B00 (getBits (m.word 1) 13 0)
  let bytes := slice (Config.freeBytes s.free len) 0 len
  { num := n, len, made := true, at_ := s.now, win := Memory.writeBytes {} 0x500 bytes
    pkt := { bytes, phv := slice (Config.freeBytes (s.free + 1) 512) 0 512, source := (Config.freeWord (s.free + 2)).toNat % 4096
             queue := m.thread, pipe := 4 + clusterOf m.thread / 4 } }

/-- NEW gives a free slot to a thread that may hold one more. -/
theorem exec_pktNew_free {s : State} {m : Msg} {u : State} {n : Nat} (hu : u = s.takeMsg 0) (hm : s.message 0 0 4 = some m)
    (hn : u.freeSlotNum (engineOf m.thread) = some n) (hepoch : m.epoch = u.epoch (clusterOf m.thread)) (hfree : u.slotFree m.thread) :
    exec (.pktNew 0) s = .next ((u.drawn.drawn.drawn.giveSlot m.thread (u.newSlot m n)).respond m 0 n) := by
  subst hu
  change execPktNew 0 s = _
  rw [execPktNew, hm]
  dsimp only
  rw [hn]
  exact if_neg (not_or.mpr ⟨not_not_intro hepoch, by simp [hfree]⟩)

/-! ## TABLE and PREFETCH (R219, R220) -/

/-- A message to the ordered port is answered with the result of its operation. -/
theorem tableOp_some {s : State} {m : Msg} {op : Nat} {r : State × TableAnswer} (hm : s.message 0 1 op = some m)
    (hr : r = (s.takeMsg 0).tableCommand op m.table ((m.word 2).toNat % 2 ^ 32) m.gen (leNat ((s.takeMsg 0).tableImage m))) :
    s.tableOp 0 op = r.1.tableRespond m r.2.result r.2.loc (r.2.entry.map fun e => (e, r.2.size)) := by
  subst hr
  rw [State.tableOp, hm]

/-- A key that the flow cache awaits starts its fetch, and the message stays. -/
theorem exec_tableLookup_waits {s : State} {m : Msg} (hm : s.message 0 1 7 = some m) (hen : s.isSet TBL_T_CFG.EN 0 m.table)
    (husable : s.usable m.table) (hserves : s.tableServes m.table) (hwait : s.awaitsFetch m.table (imageKey (s.tableImage m))) :
    exec (.tableLookup 0) s = done (s.fetchKey (s.tierKey m.table (imageKey (s.tableImage m)))) := by
  change execTableLookup 0 s = _
  rw [execTableLookup, hm]
  exact (if_neg (by simp [hen, husable, hserves])).trans (if_pos hwait)

section
variable {s v : State} {m : Msg} (hm : s.message 0 1 7 = some m) (hen : s.isSet TBL_T_CFG.EN 0 m.table) (husable : s.usable m.table)
  (hserves : s.tableServes m.table) (hhere : s.awaitsFetch m.table (imageKey (s.tableImage m)) = false)
  (hv : v = (s.takeMsg 0).tierTouch m.table (imageKey (s.tableImage m)))
include hm hen husable hserves hhere hv

/-- A hit on an entry that keeps no hit mark is answered with its action and the entry. -/
theorem exec_tableLookup_hit {a : Nat} (hfound : v.lookupTable m.table (m.gen % 2) (imageKey (s.tableImage m)) = .hit a none) :
    exec (.tableLookup 0) s = done (v.tableRespond m resOk a (v.hitEntry m.table (m.gen % 2) (imageKey (s.tableImage m)) none)) := by
  subst hv
  change execTableLookup 0 s = _
  rw [execTableLookup, hm]
  refine (if_neg (by simp [hen, husable, hserves])).trans ((if_neg (by simp [hhere])).trans ?_)
  dsimp only
  rw [hfound]
  cases m.setHit <;> rfl

theorem exec_tableLookup_miss (hfound : v.lookupTable m.table (m.gen % 2) (imageKey (s.tableImage m)) = .miss) :
    exec (.tableLookup 0) s = done (v.tableRespond m resNotFound 0 none) := by
  subst hv
  change execTableLookup 0 s = _
  rw [execTableLookup, hm]
  refine (if_neg (by simp [hen, husable, hserves])).trans ((if_neg (by simp [hhere])).trans ?_)
  dsimp only
  rw [hfound]

end

/-- The first message of a list waits for none before it. -/
theorem prefetch_first {m : Msg} (hc : m.channel = 2) (l : List Msg) :
    ¬ (m.channel ≠ 2 ∨ (l.take 0).any (fun e => e.thread == m.thread && e.channel == 2) = true) := by
  simp [hc]

/-- A key that the flow cache holds, or that no tier keeps, gives the credit back. -/
theorem exec_prefetch_held {s : State} {m : Msg} {u : State} (hu : u = s.takeMsg 0) (hm : s.tbe.msgs[0]? = some m) (hc : m.channel = 2)
    (hhere : s.awaitsFetch m.table (imageKey (s.tableImage m)) = false) (hepoch : m.epoch = u.epoch (clusterOf m.thread)) :
    exec (.prefetch 0) s = .next (u.onThread m.thread fun x => { x.returnCredit with prefetches := x.returnCredit.prefetches - 1 }) := by
  subst hu
  change execPrefetch 0 s = _
  rw [execPrefetch, hm]
  exact (if_neg (prefetch_first hc _)).trans ((if_neg (by simp [hhere])).trans (if_neg (not_not_intro hepoch)))

/-- A key that the flow cache awaits starts its fetch, unless one is outstanding. -/
theorem exec_prefetch_waits {s : State} {m : Msg} (hm : s.tbe.msgs[0]? = some m) (hc : m.channel = 2) (hen : s.isSet TBL_T_CFG.EN 0 m.table)
    (husable : s.usable m.table) (hwait : s.awaitsFetch m.table (imageKey (s.tableImage m))) :
    exec (.prefetch 0) s = done (if s.tbl.fetches.contains (s.tierKey m.table (imageKey (s.tableImage m))) then s
      else (s.fetchKey (s.tierKey m.table (imageKey (s.tableImage m)))).devEvent 0x30D) := by
  change execPrefetch 0 s = _
  rw [execPrefetch, hm]
  exact (if_neg (prefetch_first hc _)).trans (if_pos (by simp [hen, husable, hwait]))

/-! ## XPT, COPY and MBX (R360, R371, R457) -/

theorem exec_xptWorkRequest_posted {s : State} {m : Msg} {u : State} (hu : u = s.takeMsg 0) (hm : s.message 0 5 1 = some m)
    (hruns : u.xptRuns) (hlen : m.len = 7) (hqueue : (u.engineQueue m.thread).isSome) :
    exec (.xptWorkRequest 0) s = .next (u.onXpt fun x => { x with posted := x.posted.modify [] m.thread fun l => l ++ [m] }) := by
  subst hu
  change execXptWorkRequest 0 s = _
  rw [execXptWorkRequest, hm]
  exact if_neg (by simp [hruns, hlen, Option.isSome_iff_ne_none.mp hqueue])

/-- The consumer index moves within the entries in use. -/
theorem exec_xptCqConsumer_moved {s : State} {m : Msg} {u : State} {g n gone : Nat} (hu : u = s.takeMsg 0) (hm : s.message 0 5 2 = some m)
    (hqueue : u.engineQueue m.thread = some g) (hn : n = getBits (m.word 1) 15 0) (hgone : gone = (n + 65536 - (u.pair g).C 3) % 65536)
    (hactive : (u.pair g).state = ACTIVE) (hused : gone ≤ (u.pair g).used 3) :
    exec (.xptCqConsumer 0) s = done ((u.onPair g fun q =>
      { q with cons := q.cons.set 0 3 n, rxIrq := { q.rxIrq with times := q.rxIrq.times.drop gone } }).respond m 0) := by
  subst hu hgone hn
  change execXptCqConsumer 0 s = _
  rw [execXptCqConsumer, hm]
  dsimp only
  rw [hqueue]
  exact if_neg (not_or.mpr ⟨not_not_intro hactive, Nat.not_lt.mpr hused⟩)

/-- A sound COPY between spaces that are no command's buffer needs no host. -/
theorem exec_copy_local {s : State} {m : Msg} (hm : s.message 0 7 1 = some m) (hsound : s.copyCheck m = none) (hsrc : m.srcKind ≠ 8)
    (hdst : m.dstKind ≠ 8) : exec (.copy 0 none) s = done ((s.takeMsg 0).copyMove m) := by
  change execCopy 0 none s = _
  rw [execCopy, hm]
  exact (if_neg (not_not_intro hsound)).trans (if_pos (by simp [hsrc, hdst]))

/-- The message words that POST sends come from the memory of the thread. -/
theorem exec_mbxChPost_posted {s : State} {m : Msg} {u : State} {r : State × PostEnd} (hu : u = s.takeMsg 0) (hm : s.message 0 8 1 = some m)
    (haddr : m.mbxAddrOk) (hpos : m.mbxLen ≠ 0) (hlen : m.mbxLen ≤ 8)
    (hr : r = u.mbxPost (2080 + clusterOf m.thread) true (leWords 8 (u.threadRead m.thread m.mbxShared m.mbxAddr 64)) m.mbxLen) :
    (r.2 = .queued → exec (.mbxChPost 0) s = done (r.1.respond m 0)) ∧ (r.2 = .full → exec (.mbxChPost 0) s = done (r.1.respond m 16)) ∧
    (r.2 = .absent → exec (.mbxChPost 0) s = done (r.1.respond m 17)) := by
  subst hu hr
  have hsound : ¬ ((!m.mbxAddrOk) = true ∨ m.mbxLen = 0 ∨ 8 < m.mbxLen) := by simp [haddr, hpos, hlen]
  refine ⟨fun hend => ?_, fun hend => ?_, fun hend => ?_⟩ <;>
  · change execMbxChPost 0 s = _
    rw [execMbxChPost, hm]
    dsimp only
    rw [if_neg hsound, hend]

/-- READ moves the oldest message to the memory of the thread. -/
theorem exec_mbxChRead_some {s : State} {m : Msg} {u : State} {x : MbxMsg} {rest : List MbxMsg} (hu : u = s.takeMsg 0)
    (hm : s.message 0 8 2 = some m) (haddr : m.mbxAddrOk) (hfar : (u.mbox (2080 + clusterOf m.thread)).toFar = x :: rest) :
    exec (.mbxChRead 0) s = done (((u.threadWrite m.thread m.mbxShared m.mbxAddr (wordBytes x.words)).mbxPop (2080 + clusterOf m.thread)
      false).respond m 0 (x.words.length + 16 * x.epoch)) := by
  subst hu
  change execMbxChRead 0 s = _
  rw [execMbxChRead, hm]
  dsimp only
  rw [if_neg (by simp [haddr]), hfar]

/-! ## The statement -/

/-- Settles O27, channel by channel: under its condition each message takes the branch of its rule. -/
theorem channelMessagesComplete : Obligations.ChannelMessagesComplete := by
  unfold Obligations.ChannelMessagesComplete
  intro s m u hu
  refine ⟨fun x hm hx => ?ret, fun x hm hx => ?drop, fun hm hx => ?retNone, fun n start len later hm hn hstart hlen hlater hepoch hheld => ?frame,
    fun n hm hn hepoch hfree => ?new, fun x y hm hx hy => ?send, fun op r v hm hr hv => ?ordered,
    fun key a hm hen husable hserves hkey v hv => ?lookup, fun hm hc => ?prefetch, fun hm hruns hlen hqueue =>
      exec_xptWorkRequest_posted hu hm hruns hlen hqueue,
    fun g n gone hm hqueue hn hgone hactive hused => exec_xptCqConsumer_moved hu hm hqueue hn hgone hactive hused,
    fun hm hsound hsrc hdst => hu ▸ exec_copy_local hm hsound hsrc hdst,
    fun hm haddr hpos hlen r hr => exec_mbxChPost_posted hu hm haddr hpos hlen hr,
    fun x rest hm haddr hfar => exec_mbxChRead_some hu hm haddr hfar, fun b g hm hb hg => ?status⟩
  case ret => exact hu ▸ exec_pktReturn_some hm hx
  case drop => exact hu ▸ exec_pktDrop_some hm hx
  case retNone => exact hu ▸ exec_pktReturn_none hm hx
  case frame =>
    subst hn hstart hlen hlater
    have hframe := exec_pktFrame_held hu hm hepoch (by simpa [State.frameHeld, State.reframed, or_comm] using hheld)
    refine ⟨fun hlow hhigh hkept => ?kept, fun hlow hhigh hgiven => ?given, fun hout => hframe.trans (if_pos hout)⟩
    case kept =>
      rw [hframe, if_neg (by omega), show (u.reframed m).2.2 = false from hkept]
      rfl
    case given =>
      rw [hframe, if_neg (by omega), show (u.reframed m).2.2 = true from hgiven]
      rfl
  case new => exact completes_next (exec_pktNew_free hu hm hn hepoch hfree) ⟨u.newSlot m n, rfl, rfl, rfl, rfl⟩
  case send =>
    rw [hy, hu]
    exact exec_pktSend_some hm hx
  case ordered =>
    have hop : done (s.tableOp 0 op) = .next v := by rw [tableOp_some hm (hu ▸ hr), hv, done]
    refine ⟨?_, ?_, ?_, ?_, ?_, ?_⟩ <;>
    · rintro rfl
      exact hop
  case lookup =>
    subst hu hkey
    exact ⟨fun hhere => exec_tableLookup_hit hm hen husable hserves hhere hv, fun hhere => exec_tableLookup_miss hm hen husable hserves hhere hv,
      exec_tableLookup_waits hm hen husable hserves⟩
  case prefetch =>
    refine ⟨exec_prefetch_held hu hm hc, fun k hen husable hwait hk => ?_⟩
    subst hk
    have hexec := exec_prefetch_waits hm hc hen husable hwait
    refine ⟨fun hnew => ?new, fun hout => ?out⟩
    case new => rw [hexec, if_neg (by simpa using hnew), done]
    case out => rw [hexec, if_pos (by simpa using hout), done]
  case status =>
    subst hu hb hg
    change execMbxChStatus 0 s = _
    rw [execMbxChStatus, hm]

end Sys2Proof.Machine
end

section
/-! SUPPORT. The Zorurn instructions complete with the effects of their rules (R238 to R260): what an instruction that changes its own thread
leaves of the rest, what the fields of a CHW, TRAP and TRET are, and what a load, a store, an atomic, CHS, CHR, CRD and FENCE do where no check
stops them. -/
namespace Sys2Proof.Machine

/-! ## Fields that a word of a kind has (R235) -/

/-- A word of a kind other than ILLEGAL has that kind's OP, and every field with a value that its chapter defines. -/
theorem zlegal_of_zkind {w : Nat} {k : ZKind} (h : zkind w = k) (hk : k ≠ .illegal) : zlegal w ∧ zopKind (zop w) = k := by
  unfold zkind at h
  split at h
  case isTrue hlegal => exact ⟨hlegal, h⟩
  case isFalse => exact absurd h.symm hk

theorem zkind_chw_fields {w : Nat} (h : zkind w = .chw) : zrd w = 0 ∧ bitOf w 19 = false := by
  obtain ⟨hlegal, hop⟩ := zlegal_of_zkind h (by decide)
  rw [zlegal, hop] at hlegal
  have hfields : (zrd w = 0 ∧ bitOf w 19 = false) ∧ bits w 31 20 = 0 := by simpa using hlegal
  exact hfields.1

theorem zkind_trap_fields {w : Nat} (h : zkind w = .trap) : zrd w = 0 ∧ zrs1 w = 0 := by
  obtain ⟨hlegal, hop⟩ := zlegal_of_zkind h (by decide)
  rw [zlegal, hop] at hlegal
  simpa using hlegal

theorem zkind_tret_fields {w : Nat} (h : zkind w = .tret) : bits w 31 6 = 0 := by
  obtain ⟨hlegal, hop⟩ := zlegal_of_zkind h (by decide)
  rw [zlegal, hop] at hlegal
  simpa using hlegal

/-! ## An instruction that changes its own thread and goes on (R236) -/

/-- Counting a completed instruction that is no single step changes nothing of the engines but their threads. -/
theorem goes_tbe {s : State} {t : Nat} {u : State} {pc addr : Nat} (hq : Quiet u) (hstep : (u.thread t).step = false) :
    (s.goes t u pc addr).tbe = { u.tbe with threads := (s.goes t u pc addr).tbe.threads } := by
  have haside := retire_thread (u.onThread t fun y => { y with pc := pc % 65536, mode := if y.mode == .run then .run else y.mode }) t
    (s.thread t).pc (s.nextWord t) addr (by rw [thread_onThread_same]; exact hstep)
  unfold State.goes
  rw [settle_of_quiet (hq.of_gong (haside.2.1.trans rfl)), haside.1]
  rfl

/-- An instruction whose effect is the change `g` of its own thread leaves the thread so changed, at `pc` and one instruction further; every
other thread, engine memory, and all else of the engines are as they were. -/
theorem goes_onThread {s : State} {t : Nat} (hq : Quiet s) (g : Thread → Thread) (hstep : (g (s.thread t)).step = false) (pc : Nat) :
    (s.goes t (s.onThread t g) pc).thread t = { g (s.thread t) with pc := pc % 65536, done := (g (s.thread t)).done + 1 } ∧
      ThreadOnly t s (s.goes t (s.onThread t g) pc) ∧
      (s.goes t (s.onThread t g) pc).tbe = { s.tbe with threads := (s.goes t (s.onThread t g) pc).tbe.threads } := by
  have hchanged : (s.onThread t g).thread t = g (s.thread t) := thread_onThread_same s t g
  have hquiet : Quiet (s.onThread t g) := hq.of_gong rfl
  have hrun : ((s.onThread t g).thread t).step = false := by rw [hchanged, hstep]
  obtain ⟨hthread, hothers, hmem⟩ := goes_thread s t (s.onThread t g) pc 0 hquiet hrun
  exact ⟨by rw [hthread, hchanged], ⟨fun k hk => (hothers k hk).trans (thread_onThread_ne s t k g hk.symm), hmem⟩, goes_tbe hquiet hrun⟩

/-! ## CHW (R251) -/

/-- Word WORD of the staging buffer takes `v`, and STAGED counts it up to 15. -/
def Thread.stages (n : Nat) (v : Word) (x : Thread) : Thread := { x with staging := x.staging.set 0 n v, staged := min 15 (x.staged + 1) }

theorem execChw_stages {s : State} {t : Fin 1024} (h : s.runs t .chw) :
    execChw t s = .next (s.goes t (s.onThread t (Thread.stages (bits (s.nextWord t) 18 16) ((s.thread t).reg (zrs1 (s.nextWord t)))))
      ((s.thread t).pc + 1)) := issue_next s t .chw _ _ _ 0 h rfl

/-- Settles O30: CHW changes its own thread alone, and its count changes no message. -/
theorem chwStages : Obligations.ChwStages := by
  unfold Obligations.ChwStages
  refine ⟨fun w => zkind_chw_fields, ?_⟩
  rintro s t w x rfl rfl hquiet hstep hruns
  obtain ⟨hthread, honly, htbe⟩ := goes_onThread hquiet (Thread.stages (bits (s.nextWord t) 18 16) ((s.thread t).reg (zrs1 (s.nextWord t))))
    hstep ((s.thread t).pc + 1)
  exact completes_next (execChw_stages hruns) ⟨hthread, honly, by rw [htbe], by rw [htbe]⟩

/-! ## TRAP and TRET (R257, R258) -/

theorem execTrap_raises {s : State} {t : Fin 1024} (h : s.runs t .trap) :
    execTrap t s = .next (s.trap t (s.thread t).pc causeTrap 0 (zimm16 (s.nextWord t)) 0 (s.nextWord t)).settle :=
  issue_trap s t .trap _ _ _ _ h rfl

/-- Settles O31: TRAP is a trap of cause TRAP, which the thread's handler takes. -/
theorem trapRaises : Obligations.TrapRaises := by
  unfold Obligations.TrapRaises
  refine ⟨fun w => zkind_trap_fields, ?_⟩
  rintro s t x rfl hquiet hstep hout hvec hmild hruns
  exact completes_next (execTrap_raises hruns)
    (trap_thread s t _ causeTrap _ 0 _ hquiet hstep hout hvec (by decide) (by decide) hmild)

/-- The thread leaves its trap. -/
def Thread.leavesTrap (x : Thread) : Thread := { x with inTrap := false }

theorem execTret_inside {s : State} {t : Fin 1024} (h : s.runs t .tret) (hin : (s.thread t).inTrap) :
    execTret t s = .next (s.goes t (s.onThread t Thread.leavesTrap)
      (if (s.thread t).cause = causeTrap then (s.thread t).tpc + 1 else (s.thread t).tpc)) := issue_next s t .tret _ _ _ 0 h (if_pos hin)

theorem execTret_outside {s : State} {t : Fin 1024} (h : s.runs t .tret) (hout : (s.thread t).inTrap = false) :
    execTret t s = .next (s.trap t (s.thread t).pc causeIllegal 0 0 0 (s.nextWord t)).settle :=
  issue_trap s t .tret _ _ _ _ h (if_neg (by simp [hout]))

/-- Settles O32: in a trap TRET changes its own thread alone, and outside one it is an ILLEGAL that the thread's handler takes. -/
theorem tretEnds : Obligations.TretEnds := by
  unfold Obligations.TretEnds
  refine ⟨fun w => zkind_tret_fields, ?_⟩
  rintro s t x rfl hquiet hstep hruns
  refine ⟨fun hin => ?inside, fun hout => execTret_outside hruns hout, fun hout hvec hmild => ?outside⟩
  case inside =>
    obtain ⟨hthread, honly, _⟩ := goes_onThread hquiet Thread.leavesTrap hstep
      (if (s.thread t).cause = causeTrap then (s.thread t).tpc + 1 else (s.thread t).tpc)
    exact completes_next (execTret_inside hruns hin) ⟨hthread, honly⟩
  case outside =>
    exact completes_next (execTret_outside hruns hout)
      (trap_thread s t _ causeIllegal _ 0 _ hquiet hstep hout hvec (by decide) (by decide) hmild)

/-! ## Loads, stores and atomics (R243 to R246) -/

/-- An aligned access inside its space does not trap (R244). -/
theorem accessTrap_none {s : State} {t : Nat} {x : Thread} {space addr n : Nat} {store : Bool} (hin : s.inSpace t x space addr n store)
    (halign : addr % n = 0) : s.accessTrap t x space addr n store = none := by
  simp [State.accessTrap, hin, halign]

/-- What ATOM leaves in memory by its operation (R246): the sum, the new value where the old one is `d`, or the union. -/
def atomStored (op n old b d : Nat) : Nat :=
  match op with
  | 0 => (old + b) % 2 ^ (8 * n)
  | 1 => if old = d % 2 ^ (8 * n) then b else old
  | _ => old ||| b

section
variable {s : State} {t : Fin 1024} {w : Nat} {x : Thread} (hw : w = s.nextWord t) (hx : x = s.thread t)
include hw hx

theorem execLd_loads {a : Word} {n space v : Nat} {bs : List Byte} {u : State} (ha : a = memAddr w (x.reg (zrs1 w))) (hn : n = 2 ^ bits w 20 19)
    (hspace : space = bits w 18 16) (hbs : bs = s.loadBytes t x space a.toNat n) (hv : v = leNat (if bitOf w 22 then bs.reverse else bs))
    (h : s.runs t .ld) (hin : s.inSpace t x space a.toNat n false) (halign : a.toNat % n = 0)
    (hu : u = ((s.engEvent t 0x008).spaceEvent t space).touchEvent t space a.toNat n) :
    execLd t s = .next (s.goes t ((if 4 ≤ space then (u.engEvent t 0x00B).devEvent 0x303 else u).sets t (zrd w)
      (if bitOf w 21 then BitVec.ofInt 64 (signed (8 * n) v) else BitVec.ofNat 64 v)) (x.pc + 1) a.toNat) := by
  subst hw hx ha hn hspace hbs hv hu
  refine issue_next s t .ld _ _ _ _ h ?_
  dsimp only
  rw [accessTrap_none hin halign]
  rfl

theorem execSt_stores {a : Word} {n space : Nat} {bs : List Byte} (ha : a = memAddr w (x.reg (zrs1 w))) (hn : n = 2 ^ bits w 20 19)
    (hspace : space = bits w 18 16) (hbs : bs = natLe n (x.reg (zrd w)).toNat) (h : s.runs t .st) (hin : s.inSpace t x space a.toNat n true)
    (halign : a.toNat % n = 0) :
    execSt t s = .next (s.goes t (((s.engEvent t 0x009).spaceEvent t space).storeBytes t space a.toNat
      (if bitOf w 22 then bs.reverse else bs)) (x.pc + 1) a.toNat) := by
  subst hw hx ha hn hspace hbs
  refine issue_next s t .st _ _ _ _ h ?_
  dsimp only
  rw [accessTrap_none hin halign]

theorem execAtom_stores {a n space old b : Nat} {u : State} (ha : a = (x.reg (zrs1 w)).toNat) (hn : n = if bitOf (zfn w) 2 then 8 else 4)
    (hspace : space = bits (zfn w) 5 3) (hlow : space ≤ 1) (hold : old = leNat (s.threadRead t (space = 1) a n))
    (hb : b = (x.reg (zrs2 w)).toNat % 2 ^ (8 * n)) (h : s.runs t .atom) (hin : s.inSpace t x space a n true) (halign : a % n = 0)
    (hu : u = (s.engEvent t 0x00A).spaceEvent t space) :
    execAtom t s = .next (s.goes t ((u.threadWrite t (space = 1) a (natLe n (atomStored (bits (zfn w) 1 0) n old b (x.reg (zrd w)).toNat))).sets t
      (zrd w) (BitVec.ofNat 64 old)) (x.pc + 1) a) := by
  subst hw hx ha hn hspace hold hb hu
  refine issue_next s t .atom _ _ _ _ h ?_
  dsimp only
  rw [if_neg (by omega), accessTrap_none hin halign]
  rfl

/-! ## Channels (R252, R253) -/

omit hw in
theorem execChs_sends {h : Word} (hh : h = x.staging.get 0 0) (hruns : s.runs t .chs) (hsend : s.sendable t h) (hcredit : s.creditFree t)
    (hch : getBits h 7 0 ≠ 2) :
    execChs t s = .next (s.goes t (((s.sendMessage t x).bump .TBC_STAT (clusterOf t) 7).engEvent t 0x00D) (x.pc + 1) h.toNat) := by
  subst hx hh
  refine issue_next s t .chs _ _ _ _ hruns ?_
  dsimp only
  rw [if_neg (by rw [hsend]; decide), if_neg (by rw [hcredit]; decide), if_neg hch]

theorem execChr_reads {r : List Word} {rest : List (List Word)} {v : Word} (hruns : s.runs t .chr) (hunread : x.unread = r :: rest)
    (hv : v = if bits w 18 16 < getBits (r.headD 0) 19 16 then r.getD (bits w 18 16) 0 else 0) :
    execChr t s = .next (s.goes t (s.onThread t fun y => if bitOf w 19
      then { (y.setReg (zrd w) v).returnCredit with unread := rest, mode := .run }
      else { y.setReg (zrd w) v with mode := .run }) (x.pc + 1)) := by
  subst hw hx hv
  refine issue_next s t .chr _ _ _ 0 hruns ?_
  dsimp only
  rw [hunread]

/-! ## Counters (R259) -/

theorem execCrd_engineCounter (hruns : s.runs t .crd) (hsel : zimm16 w < 8) (hleave : bitOf (s.fld PMC_USER.CLUSTERS) (clusterOf t)) :
    execCrd t s = .next (s.goes t (s.sets t (zrd w) (s.raw .PMC_CTR_VAL 0 (pmcEngine (engineOf t) + zimm16 w))) (x.pc + 1)) := by
  subst hw hx
  refine issue_writes hruns ?_
  dsimp only
  rw [if_neg (by omega), if_neg (by omega), if_neg (by simp [hleave]), if_pos hsel]

end

/-- Settles O29, instruction by instruction: under its condition each meaning takes the branch of its rule. -/
theorem threadInstructionsComplete : Obligations.ThreadInstructionsComplete := by
  unfold Obligations.ThreadInstructionsComplete
  intro s t w x hw hx
  refine ⟨fun h => ?alu, fun h => ?ialu, fun h => ?bfi, fun h hkeep => ?movi, fun h => ?hash, fun h => ?tread, fun h => ?srd, fun h => ?swr,
    fun h htaken => ?brTaken, fun h hpassed => ?brPassed, fun h => ?jal, fun h => ?jalr,
    fun a n space bs v ha hn hspace hbs hv h hin halign u hu => execLd_loads hw hx ha hn hspace hbs hv h hin halign hu,
    fun a n space bs ha hn hspace hbs h hin halign => execSt_stores hw hx ha hn hspace hbs h hin halign,
    fun a n space old b ha hn hspace hlow hold hb h hin halign u hu => ?atom,
    fun h hh hruns hsend hcredit hch => execChs_sends hx hh hruns hsend hcredit hch,
    fun r rest v h hunread hv => execChr_reads hw hx h hunread hv,
    fun h hpending => ?wfeGoes, fun h hnone => ?wfeWaits, fun h hpast => ?twaitGoes, fun h hfuture => ?twaitWaits, fun h => ?sev, fun h => ?sevt,
    fun h hsel hleave => execCrd_engineCounter hw hx h hsel hleave, fun h hsel => ?crdCycles, fun h hsel => ?crdDone,
    fun h hnone => ?fenceGoes, fun h hposted => ?fenceWaits, fun h => ?illegal⟩
  case atom =>
    have hexec := execAtom_stores hw hx ha hn hspace hlow hold hb h hin halign hu
    refine ⟨fun hop => ?_, fun hop => ?_, fun hop => ?_⟩ <;>
    · rw [hop] at hexec
      exact hexec
  all_goals subst hw hx
  case alu => exact show execAlu t s = _ from issue_writes h rfl
  case ialu => exact show execIalu t s = _ from issue_writes h rfl
  case bfi => exact show execBfi t s = _ from issue_writes h rfl
  case movi => exact show execMovi t s = _ from issue_writes h (congrArg (s.writes t _) (if_neg (by simp [hkeep])))
  case hash => exact show execHash t s = _ from issue_writes h rfl
  case tread => exact show execTread t s = _ from issue_writes h rfl
  case srd => exact show execSrd t s = _ from issue_writes h rfl
  case swr => exact show execSwr t s = _ from issue_next s t .swr _ _ _ 0 h rfl
  case brTaken => exact show execBr t s = _ from issue_next s t .br _ _ _ 0 h (if_pos htaken)
  case brPassed => exact show execBr t s = _ from issue_next s t .br _ _ _ 0 h (if_neg (by simp [hpassed]))
  case jal => exact show execJal t s = _ from issue_next s t .jal _ _ _ 0 h rfl
  case jalr => exact show execJalr t s = _ from issue_next s t .jalr _ _ _ 0 h rfl
  case wfeGoes => exact show execWfe t s = _ from issue_writes h (if_pos hpending)
  case wfeWaits => exact show execWfe t s = _ from issue_wait s t .wfe _ _ h (if_neg (not_not.mpr hnone))
  case twaitGoes => exact show execTwait t s = _ from issue_next s t .twait _ _ _ 0 h (if_pos hpast)
  case twaitWaits => exact show execTwait t s = _ from issue_wait s t .twait _ _ h (if_neg (by omega))
  case sev => exact show execSev t s = _ from issue_next s t .sev _ _ _ 0 h rfl
  case sevt => exact show execSevt t s = _ from issue_next s t .sevt _ _ _ 0 h rfl
  case crdCycles => exact show execCrd t s = _ from issue_writes h (if_pos hsel)
  case crdDone => exact show execCrd t s = _ from issue_writes h ((if_neg (by omega)).trans (if_pos hsel))
  case fenceGoes => exact show execFence t s = _ from issue_next s t .fence _ _ _ 0 h (if_neg (by simpa using hnone))
  case fenceWaits => exact show execFence t s = _ from issue_wait s t .fence _ _ h (if_pos (by simpa using hposted))
  case illegal => exact show execIllegal t s = _ from issue_trap s t .illegal _ _ _ _ h rfl

end Sys2Proof.Machine
end

section
/-! SUPPORT. The commands and events of the host queues complete with the effects of their rules (R287, R288, R291, R292, R294, R300, R303 to
R307). -/
namespace Sys2Proof.Machine

/-! ## Doorbells (R291, R292) -/

/-- A doorbell of a network function that its host reaches is one more request of its link, and acts. -/
theorem exec_doorbell {s : State} {f : Fin 2080} (hnet : s.isNvmeFn f = false) (hreach : s.hostReaches f) (page bytes : Nat) (aligned : Bool)
    (w : Word) : exec (.doorbell f page bytes aligned w) s = done ((s.hostTlp f).doorbell f page bytes aligned w) := by
  change execDoorbell f page bytes aligned w s = _
  rw [execDoorbell, if_neg (by simp [hnet]), State.hostRow, if_pos hreach]

/-- A doorbell that is narrow or misaligned is discarded and counted. -/
theorem doorbell_discarded {s : State} {f page bytes : Nat} {aligned : Bool} (hpage : page < doorbellPages f)
    (hbad : bytes ≠ 8 ∨ aligned = false) (w : Word) : s.doorbell f page bytes aligned w = s.bump .FNC_FN_STAT f 0 := by
  rw [State.doorbell, if_neg hpage.not_ge]
  refine if_pos ?_
  rcases hbad with hbytes | haligned
  · exact .inl hbytes
  · exact .inr (.inl (by simp [haligned]))

/-- A doorbell that R291 does not discard gives index `n` of ring `r`: a producer moves inside the ring and a consumer up to the producer;
an index beyond halts the queue. -/
def State.ringDoorbell (s : State) (f g r n : Nat) (arm : Bool) : State :=
  let x := s.pair g
  let step := (n + 65536 - x.C r) % 65536
  if r < 2 then
    if x.used r ≤ step ∧ step ≤ x.size r then s.onPair g fun y => { y with prod := y.prod.set 0 r n }
    else s.haltQueue g stBadDoorbell n (r = 1)
  else if step ≤ x.used r then s.completionDoorbell f g r n arm
  else s.haltQueue g stBadDoorbell n (r = 3)

/-- An aligned doorbell of 8 bytes to an ACTIVE queue of the page, with its reserved bits zero, is not discarded. -/
theorem doorbell_taken {s : State} {f page q g : Nat} {w : Word} (hg : g = s.globalQueue f q) (hpage : page < doorbellPages f)
    (hq : getBits w 27 16 = q) (hreserved : getBits w 63 31 = 0) (hcount : q < s.qpCount f) (hcfg : getBits (s.pair g).cfg 24 16 = page)
    (hactive : (s.pair g).state = ACTIVE) :
    s.doorbell f page 8 true w = s.ringDoorbell f g (getBits w 29 28) (getBits w 15 0) (bitOf w.toNat 30) := by
  subst hg hq
  rw [State.doorbell, if_neg hpage.not_ge]
  exact if_neg (by simp [hreserved, hcount, hcfg, hactive])

section
variable {s : State} {g r n : Nat} (f : Nat) (arm : Bool)

theorem ringDoorbell_producer (hr : r < 2) (hused : (s.pair g).used r ≤ (n + 65536 - (s.pair g).C r) % 65536)
    (hsize : (n + 65536 - (s.pair g).C r) % 65536 ≤ (s.pair g).size r) :
    s.ringDoorbell f g r n arm = s.onPair g fun y => { y with prod := y.prod.set 0 r n } := (if_pos hr).trans (if_pos ⟨hused, hsize⟩)

theorem ringDoorbell_producer_bad (hr : r < 2) (hbad : (n + 65536 - (s.pair g).C r) % 65536 < (s.pair g).used r ∨
    (s.pair g).size r < (n + 65536 - (s.pair g).C r) % 65536) :
    s.ringDoorbell f g r n arm = s.haltQueue g stBadDoorbell n (r = 1) := (if_pos hr).trans (if_neg (by omega))

theorem ringDoorbell_consumer (hr : 2 ≤ r) (hused : (n + 65536 - (s.pair g).C r) % 65536 ≤ (s.pair g).used r) :
    s.ringDoorbell f g r n arm = s.completionDoorbell f g r n arm := (if_neg hr.not_gt).trans (if_pos hused)

theorem ringDoorbell_consumer_bad (hr : 2 ≤ r) (hbad : (s.pair g).used r < (n + 65536 - (s.pair g).C r) % 65536) :
    s.ringDoorbell f g r n arm = s.haltQueue g stBadDoorbell n (r = 3) := (if_neg hr.not_gt).trans (if_neg hbad.not_ge)

end

/-! ## Fetch (R293, R294) -/

/-- What a fetch comes to by how its reads end now: outstanding, the oldest chain taken, or failed. -/
def State.txFetched (s : State) (f q : Nat) : Option CplStatus → State
  | none => s.issueRead f (.txDescriptors f q)
  | some r => match cplError r with
    | some e => s.txReadFails f q e
    | none => s.fetchChain f q

theorem txFetched_good {r : CplStatus} (h : cplError r = none) (s : State) (f q : Nat) : s.txFetched f q (some r) = s.fetchChain f q := by
  rw [State.txFetched, h]

theorem txFetched_bad {r : CplStatus} {e : AerError} (h : cplError r = some e) (s : State) (f q : Nat) :
    s.txFetched f q (some r) = s.txReadFails f q e := by
  rw [State.txFetched, h]

/-- The network queue whose turn it is, with no read of it outstanding, is fetched. -/
theorem exec_txFetch {s t : State} {f : Fin 2080} {q l : Nat} (hlink : s.linkOf f = some l) (hdusk : s.mode ≠ DUSK)
    (hnet : s.isSarup (s.globalQueue f q) = false) (hnext : s.nextFetch l = some (f.val, q))
    (hidle : s.readPending f (· == .txDescriptors f q) = false)
    (ht : t = (s.onLink l fun k => { k with lastFn := f }).onFn f fun x => { x with lastQueue := q }) (reply : Option CplStatus) :
    exec (.txFetch f q reply) s = done (t.txFetched f q reply) := by
  subst ht
  change execTxFetch f q reply s = _
  rw [execTxFetch, hlink]
  refine (if_neg (by simp [hdusk, hnet, hnext, hidle])).trans ?_
  cases reply with
  | none => rfl
  | some r =>
    dsimp only [State.txFetched]
    cases cplError r <;> rfl

/-! ## Queue states (R303) -/

/-- A write of FNC_Q_CTL that leaves REFUSED alone goes by ENABLE and by the state of the selected queue. -/
theorem queueCtl_eq {s : State} {f q : Nat} {w : Word} (hsel : q = s.fld FNC_Q_SEL.QUEUE f) (hcount : q < s.qpCount f)
    (hkeep : getBits w 1 1 = 0) : s.queueCtl f w =
      if getBits w 0 0 = 1 then
        if (s.pair (s.globalQueue f q)).state = DISABLED then s.onPair (s.globalQueue f q) QueuePair.activate
        else s.onPair (s.globalQueue f q) fun x => { x with refused := true }
      else if (s.pair (s.globalQueue f q)).state = ACTIVE ∨ (s.pair (s.globalQueue f q)).state = HALTED then
        (s.onPair (s.globalQueue f q) fun x => { x with state := STOPPING, enable := false }).stopHeld (s.globalQueue f q)
      else s := by
  subst hsel
  have hno : ¬ getBits w 1 1 = 1 := by omega
  rw [State.queueCtl, if_neg hcount.not_ge]
  dsimp only
  rw [if_neg hno]

/-! ## Resources (R288) -/

/-- RES_VALID_WRITE that leaves REFUSED alone stores VALID, or is refused. -/
theorem exec_resValidWrite {s : State} {w : Word} (hn : s.mode ≠ NIGHT) (hkeep : wfld w FNC_RES_CTL.REFUSED = 0) (req : Requester)
    (f : Fin 2080) : exec (.resValidWrite req f w) s =
      .next (if (if wfld w FNC_RES_CTL.VALID = 1 then !s.isSet FNC_RES_CTL.VALID f && s.resRefused f
          else s.isSet FNC_RES_CTL.VALID f && s.queueBusy f) then s.put FNC_RES_CTL.REFUSED 1 f
        else s.put FNC_RES_CTL.VALID (wfld w FNC_RES_CTL.VALID) f) := by
  have hno : ¬ wfld w FNC_RES_CTL.REFUSED = 1 := by omega
  change execResValidWrite req f w s = _
  rw [execResValidWrite, if_neg hn, if_neg hno]

/-! ## The statement -/

/-- Settles O36, clause by clause: under its condition each command or event takes the branch of its rule. -/
theorem hostQueueCommandsComplete : Obligations.HostQueueCommandsComplete := by
  unfold Obligations.HostQueueCommandsComplete
  intro s req f q page w g x hg hx
  refine ⟨fun t h y r n step hnet hreach ht hh hy hpage hq hr hn hreserved hcount hcfg hactive hstep => ?doorbell,
    fun bytes aligned hnet hreach hpage hbad => ?discarded, fun l hlink hdusk hnet hnext hidle t ht => ?fetch,
    fun t hcount hleaves => ?completion, fun t rest hcount htimes harmed htimer hdue hmode => ?moderation,
    fun hn hsel hcount hkeep => ?control, fun hcount hstopping hended => ?drained, fun hn hkeep => ?resources⟩
  case doorbell =>
    subst hy hr hn hstep
    have hexec := exec_doorbell hnet hreach page 8 true w
    rw [← ht, doorbell_taken hh hpage hq hreserved hcount hcfg hactive] at hexec
    refine ⟨fun hr hused hsize => ?_, fun hr hbad => ?_, fun hr hused => ?_, fun hr hbad => ?_⟩
    · rw [hexec, ringDoorbell_producer _ _ hr hused hsize, done]
    · rw [hexec, ringDoorbell_producer_bad _ _ hr hbad, done]
    · rw [hexec, ringDoorbell_consumer _ _ hr hused, done]
    · rw [hexec, ringDoorbell_consumer_bad _ _ hr hbad, done]
  case discarded => rw [exec_doorbell hnet hreach, doorbell_discarded hpage hbad, done]
  case fetch =>
    subst hg
    have hexec := exec_txFetch hlink hdusk hnet hnext hidle ht
    refine ⟨hexec none, fun r hgood => ?_, fun r e hbad => ?_⟩
    · rw [hexec, txFetched_good hgood, done]
    · rw [hexec, txFetched_bad hbad, done]
  case completion =>
    subst hg
    change execTxCompletionWrite f q s = _
    rw [execTxCompletionWrite, if_neg hcount.not_ge, hleaves]
    rfl
  case moderation =>
    subst hg hx
    change execModerationTimer f q true s = _
    rw [execModerationTimer, if_neg hcount.not_ge]
    dsimp only
    rw [if_pos rfl, htimes]
    exact if_pos ⟨harmed, htimer, hdue, hmode⟩
  case control =>
    subst hg hx
    have henable : exec (.queueEnable req f w) s = done (s.queueCtl f w) := if_neg hn
    have hdisable : exec (.queueDisable req f w) s = done (s.queueCtl f w) := if_neg hn
    rw [queueCtl_eq hsel hcount hkeep] at henable hdisable
    refine ⟨fun hone hstate => ?_, fun hone hstate => ?_, fun hzero hstate => ?_⟩
    · rw [henable, if_pos hone, if_pos hstate, done]
    · rw [henable, if_pos hone, if_neg hstate, done]
    · rw [hdisable, if_neg (by omega), if_pos (.inl hstate), done]
  case drained =>
    subst hg hx
    have hall : (s.pair (s.globalQueue f q)).chains.all (·.left == 0) := by simpa using hended
    change execQueueDrained f q s = _
    rw [execQueueDrained, if_neg hcount.not_ge]
    exact if_pos ⟨hstopping, hall⟩
  case resources =>
    have hexec := exec_resValidWrite hn hkeep req f
    refine ⟨fun hone hfits => ?_, fun hone hfree hrefused => ?_, fun hzero hheld hbusy => ?_, fun hzero hidle => ?_⟩
    · simpa [hone, hfits] using hexec
    · simpa [hone, hfree, hrefused] using hexec
    · simpa [hzero, hheld, hbusy] using hexec
    · simpa [hzero, hidle] using hexec

end Sys2Proof.Machine
end

section
/-! SUPPORT. Memory requests of hosts, accesses of the debugger and DOE objects complete with the effects of their rules (R286, R316, R321,
R322, R328, R331 to R333, R413, R414, R445, R458). -/
namespace Sys2Proof.Machine

/-! ## Hosts (R286, R316, R321, R328, R333) -/

/-- A memory request on a link that is up is counted, and goes by IDE_REQ and by what the function takes. -/
theorem exec_hostMemoryRequest {s t : State} {l : Fin 16} (hn : s.mode ≠ NIGHT) (hup : s.isSet HL_LINK_STATUS.UP l)
    (ht : t = (s.bump .HL_STAT l 0).devEvent 0x30A) (f : Fin 2080) (bar addr : Nat) (data : Option Word) (sec : Bool) :
    exec (.hostMemoryRequest l f bar addr data sec) s =
      if t.isSet HL_LINK_CTL.IDE_REQ l && !sec then done ((t.bump .HL_STAT l 7).unsupported f data)
      else if !t.takesMemory l f ∨ !t.hasBar f bar then done (t.unsupported f data)
      else done (t.barAccess l f bar addr data) := by
  subst ht
  exact if_neg (by simp [hn, hup])

/-- A request inside a Secure stream, or one on a link that asks for none, passes IDE (R333). -/
theorem ide_passes {t : State} {l : Nat} {sec : Bool} (h : t.isSet HL_LINK_CTL.IDE_REQ l = false ∨ sec) :
    ¬ (t.isSet HL_LINK_CTL.IDE_REQ l && !sec) = true := by
  rcases h with h | h <;> simp [h]

/-! ## Debug (R413, R445, R458) -/

/-- While debug is open its transport performs the access. -/
theorem exec_debugAccess_open {s : State} (hn : s.mode ≠ NIGHT) (hopen : s.isSet SEC_LIFECYCLE.DEBUG_OPEN) (d : DebugAccess) :
    exec (.debugAccess d) s = done (s.debugPerforms d) := (if_neg hn).trans (if_pos hopen)

/-- A hart that runs, outside debug mode, enters it. -/
theorem debugPerforms_halt {s : State} {h : Fin 24} (hrun : s.coresRun (h / 8)) (hout : bitOf (s.fld GLB_CC_STATUS.DEBUG) h = false) :
    s.debugPerforms (.halt h) = (s.put ⟨.GLB_CC_STATUS, 24 + h, 24 + h⟩ 1).fire 28 (3 + h / 8) := if_pos (by simp [hrun, hout])

/-! ## The statement -/

/-- Settles O38, clause by clause: under its condition each access takes the branch of its rule. -/
theorem hostAccessesComplete : Obligations.HostAccessesComplete := by
  unfold Obligations.HostAccessesComplete
  intro s l f pf bar addr data sec t hn
  refine ⟨fun hup ht => ?memory, fun k hmgr hup ht htakes => ?manager, fun hopen => ?debug, fun hclosed hen d => ?trigger,
    fun obj hruns => if_pos hruns, fun hruns => if_pos hruns⟩
  case memory =>
    have hexec := exec_hostMemoryRequest hn hup ht f bar addr data sec
    refine ⟨fun hide htakes hbar => ?_, fun hide hno => ?_, fun hreq hsec => ?_⟩
    · rw [hexec, if_neg (ide_passes hide), if_neg (by simp [htakes, hbar]), done]
    · rw [hexec, if_neg (ide_passes hide), if_pos (by simpa using hno), done]
    · rw [hexec, if_pos (by simp [hreq, hsec]), done]
  case manager =>
    subst ht
    change execMgrBarAccess addr data s = _
    rw [execMgrBarAccess, hmgr]
    dsimp only
    rw [if_neg (by simp [hn, hup]), if_pos htakes, done]
  case debug =>
    have hexec := exec_debugAccess_open hn hopen
    refine ⟨hexec _, fun h hrun hout => ?_, fun h => hexec _⟩
    rw [hexec, debugPerforms_halt hrun hout, done]
  case trigger =>
    change execDebugAccess d s = _
    rw [execDebugAccess, if_neg hn, if_neg (by simp [hclosed]), if_pos hen, done]

end Sys2Proof.Machine
end

section
/-! SUPPORT. Commands and events of the host links and their functions complete with the effects of their rules (R309 to R311, R314, R315,
R317, R318, R320, R325, R326, R328, R331). -/
namespace Sys2Proof.Machine

/-! ## A link comes up (R309, R310) and recovers -/

/-- Link `l` trained: up, with its speed, its lanes, flits, and the order of its lanes. -/
def State.trained (s : State) (l speed lanes : Nat) (flit reversed : Bool) : State :=
  let sp := min speed (min 5 (s.fld HL_LINK_CFG.MAX_SPEED l))
  let s := ((s.put HL_LINK_STATUS.UP 1 l).put HL_LINK_STATUS.LTSSM 3 l).put HL_LINK_STATUS.SPEED sp l
  let s := s.put HL_LINK_STATUS.LANES (within lanes 1 (s.trainLanes l)) l
  (s.put HL_LINK_STATUS.FLIT (b2n (flit || sp == 5)) l).put HL_LINK_STATUS.REVERSED (b2n reversed) l

theorem exec_hostLinkUp {s : State} {l : Fin 16} (hexists : s.linkExists l) (hrun : s.linksRun) (hperst : (s.hlink l).perst = false)
    (hdetect : (s.hlink l).heldDetect = false) (htrain : s.trainLanes l ≠ 0) (speed lanes : Nat) (flit reversed : Bool) :
    exec (.hostLinkUp l speed lanes flit reversed) s = .next (s.trained l speed lanes flit reversed) :=
  if_neg (by simp [hexists, hrun, hperst, hdetect, htrain])

section
variable (s : State) (l speed lanes : Nat) (flit reversed : Bool)

theorem only_trained : Only [.HL_LINK_STATUS] s (s.trained l speed lanes flit reversed) :=
  ((((((Only.refl _ s).put _ _ _ _ (by decide)).put _ _ _ _ (by decide)).put _ _ _ _ (by decide)).put _ _ _ _ (by decide)).put
    _ _ _ _ (by decide)).put _ _ _ _ (by decide)

theorem fld_trained_reversed : (s.trained l speed lanes flit reversed).fld HL_LINK_STATUS.REVERSED l = b2n reversed := by
  unfold State.trained
  rw [fld_put_same _ _ _ _ _ (by decide) (by decide)]
  cases reversed <;> rfl

/-- A field of the link's status apart from its speed, lanes, flits and lane order holds what UP and LTSSM left in it. -/
theorem fld_trained {g : Field} (hreg : .HL_LINK_STATUS = g.reg) (hg : g.hi < 64)
    (hapart : ∀ k ∈ [HL_LINK_STATUS.SPEED, HL_LINK_STATUS.LANES, HL_LINK_STATUS.FLIT, HL_LINK_STATUS.REVERSED], g.hi < k.lo ∨ k.hi < g.lo) :
    (s.trained l speed lanes flit reversed).fld g l = ((s.put HL_LINK_STATUS.UP 1 l).put HL_LINK_STATUS.LTSSM 3 l).fld g l := by
  simp only [List.forall_mem_cons] at hapart
  obtain ⟨hspeed, hlanes, hflit, hreversed, -⟩ := hapart
  unfold State.trained
  dsimp only
  rw [fld_put_apart _ _ _ _ _ _ hreg hg hreversed, fld_put_apart _ _ _ _ _ _ hreg hg hflit, fld_put_apart _ _ _ _ _ _ hreg hg hlanes,
    fld_put_apart _ _ _ _ _ _ hreg hg hspeed]

theorem fld_trained_ltssm : (s.trained l speed lanes flit reversed).fld HL_LINK_STATUS.LTSSM l = 3 := by
  rw [fld_trained _ _ _ _ _ _ rfl (by decide) (by decide), fld_put_same _ _ _ _ _ (by decide) (by decide)]
  rfl

theorem fld_trained_up : (s.trained l speed lanes flit reversed).fld HL_LINK_STATUS.UP l = 1 := by
  rw [fld_trained _ _ _ _ _ _ rfl (by decide) (by decide),
    fld_put_apart _ HL_LINK_STATUS.LTSSM HL_LINK_STATUS.UP _ _ _ rfl (by decide) (by decide), fld_put_same _ _ _ _ _ (by decide) (by decide)]
  rfl

end

/-- A recovery of a link that is up counts the error of a flit, and logs the error that the link layer reports, if it reports one. -/
theorem exec_hostLinkRecovery {s : State} {l : Fin 16} (hup : s.isSet HL_LINK_STATUS.UP l) (e : LinkError) :
    exec (.hostLinkRecovery l e none) s =
      done ((linkErrorAer e).elim ((s.put HL_LINK_STATUS.LTSSM 4 l).flitError l e)
        (((s.put HL_LINK_STATUS.LTSSM 4 l).flitError l e).pcieError (2 * l))) := by
  change execHostLinkRecovery l e none s = _
  rw [execHostLinkRecovery, if_neg (by simp [hup])]
  cases linkErrorAer e <;> rfl

/-! ## Function-level resets and virtual functions (R317, R318, R320) -/

theorem pfOf_lt {s : State} {f pf : Nat} (h : s.pfOf f = some pf) : pf < 32 := by
  unfold State.pfOf at h
  split at h
  case isTrue hpf => exact Option.some.inj h ▸ hpf
  case isFalse => exact List.mem_range.mp (List.mem_of_find?_eq_some h)

theorem linkOf_of_pfOf {s : State} {f pf : Nat} (h : s.pfOf f = some pf) : s.linkOf f = some (pf / 2) := by
  simp [State.linkOf, h]

/-- The reset of a VF ends once its requests are out, its PF not being in reset. -/
theorem exec_flrComplete_vf {s : State} {f : Fin 2080} {l pf : Nat} (hlink : s.linkOf f = some l) (hpf : s.pfOf f = some pf) (hvf : 32 ≤ f.val)
    (hflr : (s.pcie f).flr.isSome) (hout : (s.pcie pf).flr = none) (hdrained : s.drainedFn f) :
    exec (.flrComplete f) s = done (s.endFlr l [f.val]) := by
  change execFlrComplete f s = _
  have hthis : f.val ≠ 2 * l := by
    have hl : pf / 2 = l := Option.some.inj ((linkOf_of_pfOf hpf).symm.trans hlink)
    have := pfOf_lt hpf
    omega
  rw [execFlrComplete, hlink, hpf]
  dsimp only
  rw [if_neg (by simp [Option.isSome_iff_ne_none.mp hflr, hout]), if_neg hvf.not_gt, if_neg (by simp [hdrained]), if_neg hvf.not_gt,
    if_neg hthis]

/-! ## Reads of host memory (R315, R325, R326) -/

/-- A read that is due fails, unless its function is in reset: then its answer is no longer wanted. Its tag is void from now on. -/
theorem exec_completionTimeout {s u : State} {l : Fin 16} {tag : Nat} {r : HostRead}
    (hread : (s.hlink l).reads.find? (fun r => r.tag == tag) = some r)
    (hdue : r.issued + s.cplTimeout l ≤ s.up)
    (hu : u = (s.onLink l fun k => { k with reads := k.reads.filter fun x => x.tag != tag, void := k.void ++ [(tag, s.up)] }).bump .HL_STAT l 4) :
    exec (.completionTimeout l tag) s =
      done ((if (u.pcie r.fn).flr.isSome then u.readLost r else u.readFails r .completionTimeout).afterRead r.fn) := by
  subst hu
  change execCompletionTimeout l tag s = _
  rw [execCompletionTimeout, hread]
  exact if_neg hdue.not_gt

/-! ## The statement -/

/-- Settles O37, clause by clause: under its condition each command or event takes the branch of its rule. -/
theorem hostLinkCommandsComplete : Obligations.HostLinkCommandsComplete := by
  unfold Obligations.HostLinkCommandsComplete
  intro s l f pf n tag
  refine ⟨fun hexists => if_pos hexists, fun u hu hexists hrun hdetect => ?release,
    fun speed lanes flit rev hexists hrun hperst hdetect htrain => ?linkUp, fun hup => if_neg (by simp [hup]),
    fun hup => exec_hostLinkRecovery hup .none,
    fun e a hup ha => ?recovery, fun hpf hpresent hout => if_neg (by simp [hpf, hpresent, hout]),
    fun hvf hpresent hout => if_neg (by simp [hvf, hpresent, hout]),
    fun k p hlink hpf hvf hflr hout hdrained => exec_flrComplete_vf hlink hpf hvf hflr hout hdrained,
    fun hup hoff hn hdawn htwilight hout => if_neg (by simp [hup, hoff, hn, hdawn, htwilight, hout]),
    fun gone hup hn hout hgone => ?vfDisable, fun k hlink hbus => ?busMaster, fun k hlink hpresent hout => ?config,
    fun r hread hdue u hu => ?timeout, fun st hvoid => if_pos hvoid, fun st r hvoid hread hbus hflr hgood => ?completion,
    fun v hvoid hdue => ?voidTag, fun slot hstream => if_neg hstream⟩
  case release =>
    subst hu
    exact congrArg Host.Outcome.next (if_pos (by simp [hexists, hrun, hdetect]))
  case linkUp =>
    exact ⟨_, exec_hostLinkUp hexists hrun hperst hdetect htrain speed lanes flit rev, fld_trained_up .., fld_trained_ltssm ..,
      fld_trained_reversed .., only_trained ..⟩
  case recovery => rw [exec_hostLinkRecovery hup, ha, Option.elim_some, done]
  case vfDisable =>
    subst hgone
    exact if_neg (by simp [hup, hn, hout])
  case busMaster =>
    change execBmeClear f s = _
    rw [execBmeClear, hlink]
    exact if_neg (by simp [hbus])
  case config =>
    have hserved : ¬ (!s.fnPresent f ∨ s.fnInReset f) := by simp [hpresent, hout]
    have hexec (item : ConfigItem) : exec (.hostConfigWrite f item) s = execHostConfigWrite f item s := rfl
    simp only [hexec, execHostConfigWrite, hlink, if_neg hserved, done, implies_true, true_and]
    exact ⟨fun e b a ha => by simp only [ha], fun e b a ha => by simp only [ha]⟩
  case timeout =>
    have hexec := exec_completionTimeout hread hdue hu
    refine ⟨fun hrunning => ?_, fun hreset => ?_⟩
    · rw [hexec, if_neg (by simp [hrunning]), done]
    · rw [hexec, if_pos hreset, done]
  case completion =>
    change execCompletionRx l tag st s = _
    rw [execCompletionRx, if_neg (by simp [hvoid]), hread]
    dsimp only
    rw [if_neg (by simp [hbus]), if_neg (by simp [hflr]), hgood, done]
  case voidTag =>
    change execVoidTagReuse l tag s = _
    rw [execVoidTagReuse, hvoid]
    exact if_neg hdue.not_gt

end Sys2Proof.Machine
end

section
/-! SUPPORT. The storage controllers' registers, doorbells, fetch and dispatch, and the manager's storage commands, complete with the effects
of their rules (R315, R363 to R370, R373, R374). -/
namespace Sys2Proof.Machine

/-! ## Controller registers (R367 to R369) -/

/-- A host's request that reaches the function is one more request of its link, and acts. -/
theorem hostRow_reached {s : State} {f : Nat} (h : s.hostReaches f) (go : State → State) : s.hostRow f go = done (go (s.hostTlp f)) := if_pos h

section
variable {s : State} {f w : Nat}

theorem writeCc_enables (hoff : (s.nvmCtl f).enabled = false) (hen : bitOf w 0) : s.writeCc f w = s.ccEnable f w := by
  simp [State.writeCc, hoff, hen]

theorem writeCc_disables (hon : (s.nvmCtl f).enabled) (hen : bitOf w 0 = false) : s.writeCc f w = s.ccDisable f w := by
  simp [State.writeCc, hon, hen]

theorem writeCc_shuts (hon : (s.nvmCtl f).enabled) (hen : bitOf w 0) (hshn : bits w 15 14 ≠ 0) : s.writeCc f w = s.ccShutdown f w := by
  simp [State.writeCc, hon, hen, hshn]

end

/-! ## Dispatch (R370, R373, R374) -/

/-- A held I/O command that the ordering rules allow is dispatched by every row that takes its opcode. -/
theorem dispatchCmd_held {s : State} {h : Nat} {m : NvmCmd} {p : NvmCmd → Bool} (hm : s.nvmCmd h = some m) (hio : m.sq ≠ 0)
    (hheld : m.stage = .held) (hmay : s.mayDispatch m) (hp : p m) : s.dispatchCmd h p = s.toReady m := by
  rw [State.dispatchCmd, hm]
  exact if_pos ⟨hio, hheld, hp, hmay⟩

/-! ## The manager's commands (R365, R366) -/

/-- A command that ends well leaves result 0. -/
theorem nvmResult_ok (s : State) : s.nvmResult nrOk = s.put NVM_CMD_STATUS.RESULT 0 := rfl

/-- An entry none of whose attachments is dirty or busy takes the words of NVM_CMD_DATA. -/
theorem nsWrite_idle {s : State} {n : Nat} (hidle : ∀ a ∈ s.attachments, attached (s.attachment a.1 a.2) → attNs (s.attachment a.1 a.2) = n →
    attDirty (s.attachment a.1 a.2) = 0 ∧ s.attBusy a.1 a.2 = false) {d : Nat → Nat} (hd : d = fun i => (s.raw .NVM_CMD_DATA 0 i).toNat) :
    s.nsWrite n = (s.onNvm fun x => { x with
      ns := (((x.ns.set 0 (4 * n) (d 0 % 2 ^ 52)).set 0 (4 * n + 1) (d 1 % 65536)).set 0 (4 * n + 2) (d 2)).set 0 (4 * n + 3) (d 3) }).put
        NVM_CMD_STATUS.RESULT 0 := by
  subst hd
  refine (if_neg ?_).trans (nvmResult_ok _)
  rw [List.any_eq_true]
  rintro ⟨a, ha, hbusy⟩
  simp only [Bool.and_eq_true, beq_iff_eq, Bool.or_eq_true, bne_iff_ne] at hbusy
  obtain ⟨⟨hatt, hns⟩, hbusy⟩ := hbusy
  obtain ⟨hclean, hfree⟩ := hidle a ha hatt hns
  rcases hbusy with hdirty | hbusy
  · exact hdirty hclean
  · exact absurd hbusy (by simp [hfree])

section
variable {s : State} {f k : Nat} (hf : f < 2080) (hk : 0 < k) (hmax : k ≤ 256) (hnvme : s.isNvmeFn f)
include hf hk hmax hnvme

theorem nsAttach_free {n : Nat} (hfree : attached (s.attachment f k) = false) (hvalid : bitOf (s.nsWord n 0) 49) :
    s.nsAttach f k n = ((s.setAttachment f k (n + 2 ^ 12)).put NVM_CMD_STATUS.RESULT 0).nsChanged f k := by
  rw [State.nsAttach, if_neg (by omega), if_neg (by simp [hnvme]), if_neg (by simp [hfree]), if_neg (by simp [hvalid]), nvmResult_ok]

theorem nsDetach_idle (hatt : attached (s.attachment f k)) (hclean : attDirty (s.attachment f k) = 0) (hidle : s.attBusy f k = false) :
    s.nsDetach f k = ((s.setAttachment f k 0).put NVM_CMD_STATUS.RESULT 0).nsChanged f k := by
  rw [State.nsDetach, if_neg (by omega), if_neg (by simp [hnvme]), if_neg (by simp [hatt]), if_neg (by simp [hclean, hidle]),
    nvmResult_ok]

end

/-! ## The statement -/

/-- Settles O44, clause by clause: under its condition each write, event or command takes the branch of its rule. -/
theorem storageControllersComplete : Obligations.StorageControllersComplete := by
  unfold Obligations.StorageControllersComplete
  intro s req f v w q c hc
  subst hc
  refine ⟨fun hnvme hreach t d ht hd => ?host, fun hon hen hserves hvalid hout => if_pos (by simp [hon, hen, hserves, hvalid, hout]),
    fun hshut hdone hclean => ?shutdown, fun hfetch hnext hidle => ?fetch, fun h m hm hio hheld hmay => ?dispatch,
    fun hn n k g hns hk hg => ?manager, fun hn hnvme hoff hfits => ?resources⟩
  case host =>
    subst ht hd
    have hrow := hostRow_reached hreach
    refine ⟨fun hen hoff hfell => ?_, fun hen hon => ?_, fun hshn hen hon => ?_, fun hon hsize => ?_, fun hon hsize => ?_⟩
    · change execCcEnable f v s = _
      rw [execCcEnable, if_neg (by simp [hnvme, hen]), hrow, writeCc_enables hoff hen, State.ccEnable, if_neg (by simp [hfell]), done]
    · change execCcDisable f v s = _
      rw [execCcDisable, if_neg (by simp [hnvme, hen]), hrow, writeCc_disables hon hen, State.ccDisable, done]
    · change execCcShutdown f v s = _
      rw [execCcShutdown, if_neg (by simp [hnvme, hshn]), hrow, writeCc_shuts hon hen hshn, State.ccShutdown, done]
    · change execSqDoorbell f q v s = _
      rw [execSqDoorbell, if_neg (by simp [hnvme]), hrow, State.sqTail, if_pos ⟨hon, hsize⟩, done]
    · change execCqDoorbell f q v s = _
      rw [execCqDoorbell, if_neg (by simp [hnvme]), hrow, State.cqHead]
      exact congrArg done (if_pos ⟨hon, hsize⟩)
  case shutdown =>
    have hleft : (s.nvm.cmds.any fun m => m.fn == f.val && m.stage != .event) = false := by simpa using hdone
    exact if_pos ⟨hshut, by simp [hleft], .inl hclean⟩
  case fetch =>
    have hexec (reply : Option CplStatus) : exec (.commandFetch f q reply) s = _ :=
      if_neg (by simp [hfetch, hnext, hidle])
    refine ⟨hexec none, fun r hgood => ?_, fun r e hbad => ?_⟩
    · simp only [hexec, hgood, done]
    · simp only [hexec, hbad, done, State.cmdReadFails]
  case dispatch =>
    have hready (p : NvmCmd → Bool) (hp : p m) : done (s.dispatchCmd h p) = .next (s.toReady m).settle :=
      congrArg done (dispatchCmd_held hm hio hheld hmay hp)
    have hrow (op : Nat) (hop : m.opcode = op) : done (s.dispatchCmd h fun x => x.opcode == op) = .next (s.toReady m).settle :=
      hready _ (by simp [hop])
    exact ⟨hready _ rfl, hrow 0, hrow 1, hrow 2, hrow 5, hrow 8, hrow 9⟩
  case manager =>
    subst hns hk hg
    refine ⟨fun hop hidle d u hd hu => ?_, fun hop => ?_, fun hop hf hk hmax hnvme hfree hvalid => ?_,
      fun hop hf hk hmax hnvme hatt hclean hidle => ?_⟩
    · subst hu
      exact (if_neg (by simp [hn, hop])).trans (congrArg done (nsWrite_idle hidle hd))
    · exact (if_neg (by simp [hn, hop])).trans (congrArg done (nvmResult_ok _))
    · exact (if_neg (by simp [hn, hop])).trans (congrArg done (nsAttach_free hf hk hmax hnvme hfree hvalid))
    · exact (if_neg (by simp [hn, hop])).trans (congrArg done (nsDetach_idle hf hk hmax hnvme hatt hclean hidle))
  case resources =>
    have hstored : s.writeFnRes f w = s.writeReg .NVM_FN_RES 0 f w := by
      refine if_neg ?_
      rcases hfits with hzero | hfits
      · simp [hnvme, hoff, hzero]
      · simp [hnvme, hoff, hfits]
    exact (if_neg hn).trans (congrArg done hstored)

end Sys2Proof.Machine
end

section
/-! SUPPORT. The order of a connection's packets (R346, R347, R358): a packet that R337 lets through is new and inside the window, a
duplicate, or beyond the window. -/
namespace Sys2Proof.Machine

/-! ## Packets that R337 lets through -/

/-- A packet of the row's opcode that the row is done with leaves the unit's input. -/
theorem sarupTake_taken {s u : State} {k g op : Nat} {p : Packet} {h : SarupIn} {go : State → SarupIn → Packet → Take}
    (hin : s.xpt.input[k]? = some (g, p)) (hfate : s.sarupFate g p.bytes = .packet h) (hop : h.body.op = op)
    (hgo : go (s.touchCtx h.conn) h p = (u, false)) : s.sarupTake k op go = u.xptTake k := by
  rw [State.sarupTake, hin]
  dsimp only
  rw [hfate]
  dsimp only
  rw [if_neg (not_not_intro hop), hgo]
  exact if_neg Bool.false_ne_true

/-! ## The window (R346, R347) -/

section
variable {t : State} {h : SarupIn} (writes : Bool) (go : State → Take)

/-- A new packet inside the window, which may write, is carried out. -/
theorem sequenced_new (hnear : psnDiff h.psn (t.conn h.conn).recvBase < 1024) (hnew : h.psn ∉ (t.conn h.conn).got)
    (hbus : (t.pcie (t.connFn h.conn)).busMaster) : t.sequenced h writes go = go t :=
  (if_pos ⟨hnear, by simp [hnew]⟩).trans (if_neg (by simp [hbus]))

/-- A packet before B, or whose bit is set, is acknowledged and no more. -/
theorem sequenced_duplicate (hdup : 2 ^ 31 ≤ psnDiff h.psn (t.conn h.conn).recvBase ∨
    psnDiff h.psn (t.conn h.conn).recvBase < 1024 ∧ h.psn ∈ (t.conn h.conn).got) :
    t.sequenced h writes go = ((t.bump .XPT_STAT 0 3).sendAck h.conn, false) := by
  rcases hdup with hbefore | ⟨hnear, hgot⟩
  · exact (if_neg (by omega)).trans (if_neg (by omega))
  · exact (if_neg (by simp [hgot])).trans (if_neg (by omega))

/-- A packet beyond the window is dropped. -/
theorem sequenced_beyond (hfar : 1024 ≤ psnDiff h.psn (t.conn h.conn).recvBase) (hahead : psnDiff h.psn (t.conn h.conn).recvBase < 2 ^ 31) :
    t.sequenced h writes go = ((t.bump .XPT_STAT 0 4).fire 27 22 0 initXpt, false) :=
  (if_neg (by omega)).trans (if_pos ⟨hfar, hahead⟩)

end

section
variable {s u : State} {k g : Nat} {p : Packet} {h : SarupIn} (hin : s.xpt.input[k]? = some (g, p)) (hfate : s.sarupFate g p.bytes = .packet h)
include hin hfate

/-- A packet that R346 or R347 set aside, leaving `u`, is not given to its row's own effect. -/
theorem sequencedRow_setAside (hseq : ∀ writes go, (s.touchCtx h.conn).sequenced h writes go = (u, false))
    {op : Nat} {writes : Bool} {go : SarupIn → Packet → State → Take} (hop : h.body.op = op) :
    done (s.sarupTake k op fun s h p => s.sequenced h writes (go h p)) = .next (u.xptTake k).settle :=
  congrArg done (sarupTake_taken hin hfate hop (hseq writes (go h p)))

/-- A new packet is given to its row's own effect, and leaves the input where that is done with it. -/
theorem sequencedRow_performed (hseq : ∀ writes go, (s.touchCtx h.conn).sequenced h writes go = go (s.touchCtx h.conn))
    {op : Nat} {writes : Bool} {go : SarupIn → Packet → State → Take} (hop : h.body.op = op) (hgo : go h p (s.touchCtx h.conn) = (u, false)) :
    done (s.sarupTake k op fun s h p => s.sequenced h writes (go h p)) = .next (u.xptTake k).settle :=
  congrArg done (sarupTake_taken hin hfate hop ((hseq writes (go h p)).trans hgo))

end

/-- Settles O41: a duplicate ends in the sequencing that every row shares, before the row's own effect. -/
theorem sarupDuplicates : Obligations.SarupDuplicates := by
  unfold Obligations.SarupDuplicates
  rintro s k g p h t reply hin hfate rfl hdup u rfl
  have hseq writes go := sequenced_duplicate writes go hdup
  refine ⟨?_, ?_, ?_, ?_, ?_, ?_, ?_, ?_, ?_, ?_⟩ <;> exact sequencedRow_setAside hin hfate hseq

/-- Settles O42: a packet beyond the window ends in the sequencing that every row shares, before the row's own effect. -/
theorem sarupBeyondWindow : Obligations.SarupBeyondWindow := by
  unfold Obligations.SarupBeyondWindow
  rintro s k g p h t reply hin hfate rfl hfar hahead u rfl
  have hseq writes go := sequenced_beyond writes go hfar hahead
  refine ⟨?_, ?_, ?_, ?_, ?_, ?_, ?_, ?_, ?_, ?_⟩ <;> exact sequencedRow_setAside hin hfate hseq

end Sys2Proof.Machine
end

section
/-! SUPPORT. The commands of XPT_CMD (R334, R354, R355, R361): by its OP a command is carried out, and a WIN_WRITE of an enabled window is
refused. -/
namespace Sys2Proof.Machine

/-- What a command of XPT_CMD does that is not refused for BUSY, its OP or its INDEX. -/
def State.xptPerforms (s : State) (op i : Nat) : State :=
  match op with
  | 1 => s.connWrite i
  | 2 => (s.setXptData ((List.range 8).map (s.ctxWord i))).put XPT_CMD_STATUS.RESULT 0
  | 3 => (s.connReset i).put XPT_CMD_STATUS.RESULT 0
  | 4 => s.winWrite i
  | 5 => (s.setXptData ((List.range 4).map (s.winWord i))).put XPT_CMD_STATUS.RESULT 0
  | _ => (((if s.winEn i then s.winOff i else s).put XPT_CMD_STATUS.BUSY 1).put XPT_CMD_STATUS.RESULT 0).onXpt fun x => { x with revoking := some i }

theorem xptCommand_taken {s : State} {w : Word} {op : Nat} (hbusy : s.isSet XPT_CMD_STATUS.BUSY = false) (hop : wfld w XPT_CMD.OP = op)
    (hknown : 0 < op ∧ op ≤ 6) (hindex : op ≤ 3 → wfld w XPT_CMD.INDEX < 262144) :
    s.xptCommand w = s.xptPerforms op (wfld w XPT_CMD.INDEX) := by
  subst hop
  have hopen : ¬ (s.isSet XPT_CMD_STATUS.BUSY ∨ wfld w XPT_CMD.OP = 0 ∨ 6 < wfld w XPT_CMD.OP) := by
    simp only [hbusy, Bool.false_eq_true, false_or]
    omega
  refine (if_neg hopen).trans ((if_neg (by omega)).trans ?_)
  unfold State.xptPerforms
  rfl

theorem xptPerforms_revoke {s : State} {i : Nat} (hen : s.winEn i) : s.xptPerforms 6 i = (((s.winOff i).put XPT_CMD_STATUS.BUSY 1).put
    XPT_CMD_STATUS.RESULT 0).onXpt fun x => { x with revoking := some i } := by
  have h : (if s.winEn i then s.winOff i else s) = s.winOff i := if_pos hen
  exact h ▸ rfl

/-- A row of XPT_CMD, out of NIGHT, for a word of its own OP that is not refused. -/
theorem xptRow_taken {s : State} {w : Word} {op : Nat} (hn : s.mode ≠ NIGHT) (hbusy : s.isSet XPT_CMD_STATUS.BUSY = false)
    (hop : wfld w XPT_CMD.OP = op) (hknown : 0 < op ∧ op ≤ 6) (hindex : op ≤ 3 → wfld w XPT_CMD.INDEX < 262144) :
    (if s.mode = NIGHT then .next s else s.xptOp op w) = done (s.xptPerforms op (wfld w XPT_CMD.INDEX)) :=
  (if_neg hn).trans ((if_pos hop).trans (congrArg done (xptCommand_taken hbusy hop hknown hindex)))

/-! ## Refusals (R361) -/

/-- A refusal whose source is not fatal changes XPT_CMD_STATUS and Gong's records alone. -/
theorem only_xptRefuse {s : State} (hm : Mild s 27 23) (result : Nat) : Only (.XPT_CMD_STATUS :: gongRegs) s (s.xptRefuse result) := by
  have hput : Only (.XPT_CMD_STATUS :: gongRegs) s ((s.put XPT_CMD_STATUS.REFUSED 1).put XPT_CMD_STATUS.RESULT result) :=
    ((Only.refl _ s).put _ _ _ _ (List.mem_cons_self ..)).put _ _ _ _ (List.mem_cons_self ..)
  exact hput.fire _ _ _ _ _ ((hput.mild _ _ (by decide)).mpr hm) fun r => List.mem_cons_of_mem _

theorem fld_xptRefuse_refused (s : State) (result : Nat) : (s.xptRefuse result).fld XPT_CMD_STATUS.REFUSED = 1 := by
  unfold State.xptRefuse
  rw [fld_fire_ne _ _ _ _ _ _ _ _ _ (by decide),
    fld_put_apart _ XPT_CMD_STATUS.RESULT XPT_CMD_STATUS.REFUSED _ _ _ rfl (by decide) (by decide), fld_put_same _ _ _ _ _ (by decide) (by decide)]
  rfl

theorem fld_xptRefuse_result (s : State) (result : Nat) :
    (s.xptRefuse result).fld XPT_CMD_STATUS.RESULT = result % 2 ^ (XPT_CMD_STATUS.RESULT.hi + 1 - XPT_CMD_STATUS.RESULT.lo) := by
  unfold State.xptRefuse
  rw [fld_fire_ne _ _ _ _ _ _ _ _ _ (by decide), fld_put_same _ _ _ _ _ (by decide) (by decide)]

/-- What changes registers alone changes no memory. -/
theorem Only.sameMemory {l : List RegName} {s t : State} (h : Only l s t) : SameMemory s t := by
  rw [SameMemory, h.1]
  exact ⟨rfl, rfl, rfl, rfl⟩

/-- Settles O43: WIN_WRITE of an enabled window is `xptRefuse 1`, which touches registers alone. -/
theorem enabledWindowKept : Obligations.EnabledWindowKept := by
  unfold Obligations.EnabledWindowKept
  intro s req w hn hq hm hop hbusy hen
  have hexec : exec (.winWrite req w) s = done (s.winWrite (wfld w XPT_CMD.INDEX)) := xptRow_taken hn hbusy hop (by decide) (by omega)
  rw [show s.winWrite (wfld w XPT_CMD.INDEX) = s.xptRefuse 1 from if_pos hen] at hexec
  have honly := only_xptRefuse hm 1
  exact completes_done hexec (honly.quiet hq) ⟨honly, honly.sameMemory, fld_xptRefuse_refused s 1, fld_xptRefuse_result s 1⟩

end Sys2Proof.Machine
end

section
/-! SUPPORT. Work requests, timers and receive completions of the Sarup transport complete with the effects of their rules (R334, R335, R340,
R341, R344, R345, R348, R349, R351, R353 to R355). -/
namespace Sys2Proof.Machine

/-! ## Work requests (R289, R340, R360) -/

section
variable {s : State} {op : Nat} (hruns : s.xptRuns) (hdusk : s.mode ≠ DUSK)
include hruns hdusk

/-- The request of a host queue whose turn it is issues its read; once that has ended well it is carried out. -/
theorem wrRow_host {f : Fin 2080} {k l n : Nat} {v : WorkReq} {t : State} (hlink : s.linkOf f = some l)
    (hat : s.wrAt f (s.globalQueue f k) = some (v, n)) (hop : v.op = op) (hnet : s.isSarup (s.globalQueue f k))
    (hnext : s.nextFetch l = some (f.val, k)) (hidle : s.readPending f (· == .txDescriptors f k) = false)
    (ht : t = (s.onLink l fun x => { x with lastFn := f }).onFn f fun x => { x with lastQueue := k }) :
    s.wrRow op (.host f k) none = done (t.issueRead f (.txDescriptors f k)) ∧
    ∀ r, cplError r = none → s.wrRow op (.host f k) (some r) = done (t.sarupFetch f k) := by
  subst ht
  have hserved : ¬ ((!s.xptRuns) = true ∨ s.mode = DUSK) := by simp [hruns, hdusk]
  refine ⟨(if_neg hserved).trans ?_, fun r hgood => (if_neg hserved).trans ?_⟩
  · dsimp only
    rw [hlink, hat]
    exact if_neg (by simp [hop, hnet, hnext, hidle])
  · dsimp only
    rw [hlink, hat]
    dsimp only
    rw [if_neg (by simp [hop, hnet, hnext, hidle]), hgood]

/-- The request that an engine posted is carried out on its queue, which is active. -/
theorem wrRow_engine {e : Fin 1024} {m : Msg} {rest : List Msg} {g f k : Nat} {t : State} (hposted : s.xpt.posted.get [] e = m :: rest)
    (hqueue : s.engineQueue e = some g) (howner : s.queueOwner g = some (f, k)) (hop : m.work.op = op)
    (ht : t = s.onXpt fun x => { x with posted := x.posted.set [] e rest }) (hactive : (t.pair g).state = ACTIVE)
    (hsound : t.wrBad f g m.work = false) (reply : Option CplStatus) :
    s.wrRow op (.engine e) reply = done (t.runWork f g m.work (t.wrChain g m.work 0 0 (some m))) := by
  subst ht
  refine (if_neg (by simp [hruns, hdusk])).trans ?_
  dsimp only
  rw [hposted, hqueue]
  dsimp only
  rw [howner]
  dsimp only
  rw [if_neg (by simp [hop]), if_neg (not_not_intro hactive), if_neg (by simp [hsound])]

end

/-! ## Revocations (R354) -/

/-- The oldest REVOKE of a window completes once the writes accepted before are visible. -/
theorem exec_revokeComplete_request {s : State} {win g : Nat} {q : QueuePair} {es : List (Nat × QueuePair)} {c : TxChain} {cs : List TxChain}
    {r : SarupReq} (hpairs : s.hq.pairs.entries = (g, q) :: es) (hchains : q.chains = c :: cs) (hleft : c.left ≠ 0)
    (hsarup : c.sarup = some r) (hwin : r.revoke = some win) :
    exec (.revokeComplete win) s = .next ((s.endRequests g (fun x _ => x.id == c.id) stOk).bump .XPT_STAT 0 13) := by
  change execRevokeComplete win s = _
  have hfirst : (c.left != 0 && c.sarup.any fun r => r.revoke == some win) = true := by simp [hleft, hsarup, hwin]
  rw [execRevokeComplete, hpairs, List.findSome?_cons]
  dsimp only
  rw [hchains, List.find?_cons_of_pos (p := fun c : TxChain => c.left != 0 && c.sarup.any fun r => r.revoke == some win) hfirst]
  rfl

/-- A WIN_REVOKE ends where no queue waits for it. -/
theorem exec_revokeComplete_command {s : State} {win : Nat} (hpairs : s.hq.pairs.entries = []) (hrevoking : s.xpt.revoking = some win) :
    exec (.revokeComplete win) s =
      .next (((s.put XPT_CMD_STATUS.BUSY 0).bump .XPT_STAT 0 13).onXpt fun x => { x with revoking := none }) := by
  change execRevokeComplete win s = _
  rw [execRevokeComplete, hpairs]
  exact if_pos hrevoking

/-! ## Timers (R344, R345, R349, R351) -/

/-- The FLUSH that B has passed is answered. -/
theorem exec_flushVisible_passed {s : State} {c psn : Nat} {x : Nat × Nat} (hflush : (s.conn c).flushes.find? (fun x => x.1 == psn) = some x)
    (hready : s.connState c = cReady) (hruns : s.xptRuns) (hpassed : 0 < psnDiff (s.conn c).recvBase psn)
    (hnear : psnDiff (s.conn c).recvBase psn < 2 ^ 31) :
    exec (.flushVisible c psn) s = done ((s.onConn c fun k => { k with flushes := k.flushes.filter (·.1 != psn) }).postResponse c
      { body := { op := oFlushResp, msgId := x.2 }, fixed := true }) := by
  change execFlushVisible c psn s = _
  rw [execFlushVisible, hflush]
  exact if_neg (by simpa [hready, hruns, hpassed.ne'] using hnear)

section
variable {s : State} {c psn : Nat} {x : SarupPkt} (hpkt : (s.conn c).out.find? (fun x => x.psn == psn) = some x) (hready : s.connState c = cReady)
include hpkt hready

/-- A packet of the stream that is out of the part and whose time is over is sent again, or fails its connection. -/
theorem exec_retransmitTimeout_due (hfree : x.rnrAt = none) (hout : s.sarupInside c psn = false)
    (hdue : x.sentUp + ofUs (bits (s.ctxWord c 3) 15 0 * 2 ^ min (x.sends - 1) 3) ≤ s.up) :
    exec (.retransmitTimeout c psn) s = if bits (s.ctxWord c 3) 19 16 + 1 ≤ x.sends then
      done ((s.failPsn c psn xRetryExceeded).fire 27 18 0 initXpt) else done (s.sendPkt c x) := by
  change execRetransmitTimeout c psn s = _
  rw [execRetransmitTimeout, hpkt]
  exact if_neg (by simp [hready, hfree, hout, hdue])

/-- A refused message is sent again when its wait is over. -/
theorem exec_rnrRetry_due {d : Nat} (hwait : x.rnrAt = some d) (hdue : d ≤ s.up) :
    exec (.rnrRetry c psn) s = done (((s.conn c).out.filter fun y => y.body.msgId == x.body.msgId && y.body.op == x.body.op).foldl
      (fun u y => u.sendPkt c y) s) := by
  change execRnrRetry c psn s = _
  rw [execRnrRetry, hpkt]
  dsimp only
  rw [hwait]
  exact if_neg (by simp [hready, hdue])

end

/-! ## Receive completions (R348, R360) -/

/-- The oldest message that B has passed leaves the connection's notes, is counted, and its completion is written. -/
def State.messageNotified (s : State) (c f : Nat) (n : SarupNote) : State :=
  ((s.onConn c fun k => { k with notes := k.notes.filter (fun x => !List.contains [n] x)
                                 sends := k.sends.filter fun x => !List.any [n] fun n => n.kind == 2 && n.ssn == x.ssn }).bump .XPT_STAT 0 12).writeCompletion
    f (s.connQueue c) 3 n.ts (place n.imm 31 0 + place c 49 32)
    (sarupWord2 n.start 0 n.kind 1 n.degraded false n.hdrTs.isSome n.len) (n.hdrTs.getD 0)

/-- A message that was not refused is notified where its completion can be written, and the thread of an engine queue is told. -/
theorem exec_sarupRxCompletion_notified {s : State} {c f k : Nat} {n : SarupNote} {ns : List SarupNote} (hpassed : (s.conn c).passed = n :: ns)
    (htaken : n.refused = false) (howner : s.queueOwner (s.connQueue c) = some (f, k)) (hroom : (s.pair (s.connQueue c)).full 3 = false)
    (hreach : s.queueReach f (s.connQueue c)) (hactive : (s.pair (s.connQueue c)).state = ACTIVE) :
    (s.engineThread (s.connQueue c) = none → exec (.sarupRxCompletion c) s = done (s.messageNotified c f n)) ∧
    ∀ e, s.engineThread (s.connQueue c) = some e → exec (.sarupRxCompletion c) s = done ((s.messageNotified c f n).event e evSev) := by
  have hrefused : (n :: ns).takeWhile (·.refused) = [] := List.takeWhile_cons_of_neg (by simp [htaken])
  have hopen : ¬ ((s.pair (s.connQueue c)).full 3 ∨ !s.queueReach f (s.connQueue c) ∨ (s.pair (s.connQueue c)).state ≠ ACTIVE) := by
    simp [hroom, hreach, hactive]
  refine ⟨fun hthread => ?_, fun e hthread => ?_⟩ <;>
  · change execSarupRxCompletion c s = _
    rw [execSarupRxCompletion]
    dsimp only
    rw [hpassed, hrefused, List.length_nil, List.drop_zero]
    dsimp only
    rw [howner]
    dsimp only
    rw [if_neg hopen, hthread]
    rfl

/-! ## The statement -/

/-- Settles O39, clause by clause: under its condition each command, request or event takes the branch of its rule. -/
theorem sarupCommandsComplete : Obligations.SarupCommandsComplete := by
  unfold Obligations.SarupCommandsComplete
  rintro s req w i rfl
  refine ⟨fun hn hbusy => ?commands, fun g hn hdisabled => ?binding, fun op q reply u hruns hdusk hturn => ?work,
    fun hi hstate hdue => if_neg (by simp [hi.not_ge, hstate, hdue.not_gt]),
    fun g q es c cs r hpairs hchains hleft hsarup hwin => exec_revokeComplete_request hpairs hchains hleft hsarup hwin,
    fun hpairs hrevoking => exec_revokeComplete_command hpairs hrevoking,
    fun psn x hflush hready hruns hpassed hnear => exec_flushVisible_passed hflush hready hruns hpassed hnear,
    fun hready hcount hdue => if_neg (by simp [hready, hcount, hdue.not_gt]), fun psn x hpkt hready => ?timers,
    fun n ns f k g t hg hpassed htaken howner hroom hreach hactive ht => ?completion⟩
  case commands =>
    refine ⟨fun f k hop hi _ _ _ _ => xptRow_taken hn hbusy hop (by decide) fun _ => hi,
      fun hop hi => xptRow_taken hn hbusy hop (by decide) fun _ => hi, fun hop hi => xptRow_taken hn hbusy hop (by decide) fun _ => hi,
      fun hop _ => xptRow_taken hn hbusy hop (by decide) (by omega), fun hop => xptRow_taken hn hbusy hop (by decide) (by omega),
      fun hop hen => (xptRow_taken hn hbusy hop (by decide) (by omega)).trans (congrArg done (xptPerforms_revoke hen))⟩
  case binding => exact (if_neg hn).trans (congrArg done (if_neg (not_not_intro hdisabled)))
  case work =>
    have hrow : s.wrRow op q reply = .next u := by
      rcases hturn with ⟨f, k, l, v, n, t, rfl, hlink, hat, hop, hnet, hnext, hidle, ht, ⟨rfl, rfl⟩ | ⟨r, rfl, hgood, rfl⟩⟩ |
        ⟨e, m, rest, g, f, k, t, rfl, hposted, hqueue, howner, hop, ht, hactive, hsound, rfl⟩
      · exact (wrRow_host hruns hdusk hlink hat hop hnet hnext hidle ht).1
      · exact (wrRow_host hruns hdusk hlink hat hop hnet hnext hidle ht).2 r hgood
      · exact wrRow_engine hruns hdusk hposted hqueue howner hop ht hactive hsound reply
    refine ⟨?_, ?_, ?_, ?_, ?_, ?_, ?_, ?_, ?_⟩ <;>
    · rintro rfl
      exact hrow
  case timers =>
    refine ⟨fun hfree hout hdue => ?_, fun d hwait hdue => exec_rnrRetry_due hpkt hready hwait hdue⟩
    have hexec := exec_retransmitTimeout_due hpkt hready hfree hout hdue
    refine ⟨fun hfew => ?_, fun hmany => ?_⟩
    · rw [hexec, if_neg (by omega), done]
    · rw [hexec, if_pos (by omega), done]
  case completion =>
    subst hg ht
    exact exec_sarupRxCompletion_notified hpassed htaken howner hroom hreach hactive

end Sys2Proof.Machine
end

section
/-! SUPPORT. A packet that the Sarup transport unit accepts is carried out by its opcode (R341, R344, R346, R349, R350, R352, R356). -/
namespace Sys2Proof.Machine

/-! ## Data that is placed (R341, R346, R349, R356) -/

section
variable {s : State} {h : SarupIn}

/-- Data whose key is good and whose memory is in reach is placed; that of a WRITE_IMM is noted. -/
theorem placeWrite_placed {fn : Option Nat} {a : Nat} (hwin : s.winCheck h.conn h.body.key h.body.off h.body.payload.length 12 = some (fn, a))
    (hreach : s.xReach fn) (p : Packet) :
    s.placeWrite h p = (if h.body.op = oWriteImm then (s.xWrite fn a h.body.payload).notePacket h.conn h p 1 0 false
      else s.xWrite fn a h.body.payload).acceptPsn h.conn h := by
  unfold State.placeWrite
  dsimp only
  rw [hwin]
  exact if_neg (by simp [hreach])

/-- A SEND packet whose message has had its turn. -/
theorem takeSend_found {x : SarupSend} (hfound : (s.conn h.conn).sends.find? (fun x => x.ssn == h.body.key) = some x) (p : Packet) :
    s.takeSend h p = (if x.bufs = [] then s.refusePkt h.conn h p 2 else s.placeSend h p x, false) := by
  unfold State.takeSend
  dsimp only
  rw [hfound]

/-- A READ_RESP of an outstanding READ is placed, and the READ completes with its last. -/
theorem takeReadResp_placed {x : TxChain} {r : SarupReq} {u : State}
    (hreach : s.xReach (s.localFn (s.connFn h.conn) (s.connQueue h.conn))) (hreq : s.request h.conn 3 h.body.msgId = some (x, r))
    (hu : u = (s.xWrite (s.localFn (s.connFn h.conn) (s.connQueue h.conn)) (r.addr + h.body.off) h.body.payload).onPair (s.connQueue h.conn)
      (fun q => { q with chains := q.chains.map fun y =>
        if y.id = x.id then { y with sarup := some { r with placed := r.placed + h.body.payload.length } } else y })) :
    s.takeReadResp h = (if x.len ≤ r.placed + h.body.payload.length then u.endRequests (s.connQueue h.conn) (fun y _ => y.id == x.id) stOk
      else u).acceptPsn h.conn h := by
  subst hu
  refine (if_neg (by simp [hreach])).trans ?_
  rw [hreq]

end

/-! ## Reads of windows (R315, R350) -/

section
variable {s : State} {h : SarupIn} {p : Packet}

/-- A window in DDR is read at once. -/
theorem windowRead_ddr (reply : Option ReadEnd) (go : State → State) : s.windowRead h p none reply go = (go s, false) := rfl

/-- A read of a window in host memory that has ended well. -/
theorem windowRead_good {f : Nat} (hdma : s.dmaOk f) (hidle : s.readPending f (· == .sarup h.conn h.psn) = false) (go : State → State) :
    s.windowRead h p (some f) (some none) go = (go (s.linkCount f 1 1), false) :=
  (if_neg (by simp [hdma])).trans (if_neg (by simp [hidle]))

/-- The response of a READ_REQ joins the stream with the bytes of the window. -/
def State.readAnswered (s : State) (h : SarupIn) (fn : Option Nat) (a n : Nat) : State :=
  (s.acceptPsn h.conn h).postResponse h.conn { body := { op := oReadResp, msgId := h.body.msgId, payload := s.xRead fn a n }, len := n }

theorem takeReadReq_checked {fn : Option Nat} {a n : Nat} (hn : n = beNat (slice h.body.payload 0 4)) (hlen : 4 ≤ h.body.payload.length)
    (hwin : s.winCheck h.conn h.body.key h.body.off n 13 = some (fn, a)) (reply : Option ReadEnd) :
    s.takeReadReq h p reply = s.windowRead h p fn reply fun s => s.readAnswered h fn a n := by
  subst hn
  refine (if_neg hlen.not_gt).trans ?_
  rw [hwin]
  rfl

/-- An atomic writes the new word and answers with the old one. -/
def State.atomicDone (s : State) (h : SarupIn) (fn : Option Nat) (a : Nat) (new : Nat → Nat) : State :=
  ((s.xWrite fn a (natLe 8 (new (leNat (s.xRead fn a 8))))).acceptPsn h.conn h).postResponse h.conn
    { body := { op := oAtomicResp, msgId := h.body.msgId, payload := natBe 8 (leNat (s.xRead fn a 8)) }, fixed := true }

theorem takeAtomic_checked {fn : Option Nat} {a size : Nat} (hlen : size ≤ h.body.payload.length)
    (hwin : s.winCheck h.conn h.body.key h.body.off 8 14 = some (fn, a)) (reply : Option ReadEnd) (new : Nat → Nat) :
    s.takeAtomic h p reply size new = s.windowRead h p fn reply fun s => s.atomicDone h fn a new := by
  refine (if_neg hlen.not_gt).trans ?_
  rw [hwin]
  rfl

/-- The two ends of an atomic: at once in a window in DDR, after its read in one in host memory. -/
theorem takeAtomic_done {size : Nat} (hlen : size ≤ h.body.payload.length) (a : Nat) (new : Nat → Nat) :
    (∀ reply, s.winCheck h.conn h.body.key h.body.off 8 14 = some (none, a) →
      s.takeAtomic h p reply size new = (s.atomicDone h none a new, false)) ∧
    (∀ f, s.winCheck h.conn h.body.key h.body.off 8 14 = some (some f, a) → s.dmaOk f → s.readPending f (· == .sarup h.conn h.psn) = false →
      s.takeAtomic h p (some none) size new = ((s.linkCount f 1 1).atomicDone h (some f) a new, false)) :=
  ⟨fun reply hwin => (takeAtomic_checked hlen hwin reply new).trans (windowRead_ddr reply _),
    fun _ hwin hdma hidle => (takeAtomic_checked hlen hwin _ new).trans (windowRead_good hdma hidle _)⟩

end

/-! ## The statement -/

/-- Settles O40, opcode by opcode: a new packet takes the branch of its rule. -/
theorem sarupPacketsComplete : Obligations.SarupPacketsComplete := by
  unfold Obligations.SarupPacketsComplete
  rintro s k g p h t hin hfate rfl
  refine ⟨fun hop => congrArg done (sarupTake_taken hin hfate hop rfl), fun hop => congrArg done (sarupTake_taken hin hfate hop rfl),
    fun hnear hnew hbus => ?sequenced⟩
  have hseq writes go := sequenced_new writes go hnear hnew hbus
  refine ⟨fun fn a hwin hreach => ⟨fun hop => sequencedRow_performed hin hfate hseq hop ?write, fun hop => sequencedRow_performed hin hfate hseq hop ?writeImm⟩,
    fun x hop hfound => ⟨fun hbufs => sequencedRow_performed hin hfate hseq hop ?send, fun hnone => sequencedRow_performed hin hfate hseq hop ?refused⟩,
    fun a n hop hn hlen => ⟨fun reply hwin => sequencedRow_performed hin hfate hseq hop ((takeReadReq_checked hn hlen hwin _).trans (windowRead_ddr _ _)),
      fun f r hwin hdma hidle hgood => sequencedRow_performed hin hfate hseq hop ?read⟩,
    fun hop hlen a new hnew => ⟨fun reply hwin => sequencedRow_performed hin hfate hseq hop ?addDdr,
      fun f r u hwin hdma hidle hgood hu => sequencedRow_performed hin hfate hseq hop ?addHost⟩,
    fun hop hlen a new hnew => ⟨fun reply hwin => sequencedRow_performed hin hfate hseq hop ?casDdr,
      fun f r u hwin hdma hidle hgood hu => sequencedRow_performed hin hfate hseq hop ?casHost⟩,
    fun x r u hop hreach hreq hu => ⟨fun hmore => sequencedRow_performed hin hfate hseq hop ?part, fun hlast => sequencedRow_performed hin hfate hseq hop ?last⟩,
    fun hop => sequencedRow_performed hin hfate hseq hop rfl, fun hop => sequencedRow_performed hin hfate hseq hop rfl,
    fun hop => sequencedRow_performed hin hfate hseq hop rfl⟩
  case write =>
    rw [placeWrite_placed hwin hreach, if_neg (by rw [hop]; decide)]
  case writeImm =>
    rw [placeWrite_placed hwin hreach, if_pos hop]
  case send =>
    rw [takeSend_found hfound, if_neg hbufs]
  case refused =>
    rw [takeSend_found hfound, if_pos hnone]
  case read =>
    rw [Option.map_some, hgood]
    exact (takeReadReq_checked hn hlen hwin _).trans (windowRead_good hdma hidle _)
  case addDdr =>
    subst hnew
    exact (takeAtomic_done hlen a _).1 _ hwin
  case addHost =>
    subst hnew hu
    rw [Option.map_some, hgood]
    exact (takeAtomic_done hlen a _).2 f hwin hdma hidle
  case casDdr =>
    subst hnew
    exact (takeAtomic_done hlen a _).1 _ hwin
  case casHost =>
    subst hnew hu
    rw [Option.map_some, hgood]
    exact (takeAtomic_done hlen a _).2 f hwin hdma hidle
  case part => rw [takeReadResp_placed hreach hreq hu, if_neg hmore.not_ge]
  case last => rw [takeReadResp_placed hreach hreq hu, if_pos hlast]

end Sys2Proof.Machine
end

section
/-! SUPPORT. The queue of waiting commands (00_scope): a step performs the command at its front, always answers, and leaves the rest as it
was. -/
namespace Sys2Proof.Machine

/-! ## The front of the queue -/

/-- Settles O4: the two cases of `step`. -/
theorem stepRunsFront : Obligations.StepRunsFront :=
  ⟨fun _ _ _ h => step_of_pending_cons h, fun _ h => step_of_pending_nil h⟩

theorem pending_deviceReset (s : State) (src : ResetSource) : (s.deviceReset src).pending = s.pending := by
  obtain ⟨-, -, -, -, -, -, -, -, -, -, -, hpending⟩ := unitsKept_deviceReset s src
  exact hpending

theorem pending_applySteps (s : State) : s.applySteps.pending = s.pending := by
  obtain ⟨hpending, -, -⟩ := (keeps_shiftInstants s s s.car.steps.sum).mpr (keeps_self s)
  unfold State.applySteps
  by_cases hnone : s.car.steps = []
  · rw [if_pos hnone]
  by_cases hheld : s.held = true
  · rw [if_neg hnone, if_pos hheld]
  rw [if_neg hnone, if_neg hheld]
  dsimp only
  split <;> simp only [put_pending, hpending]

theorem pending_tick (s : State) : s.tick.pending = s.pending := by
  by_cases hdown : s.modes.hold = .aonDown
  · rw [State.tick, if_pos hdown]
  · obtain ⟨hpending, -, -⟩ := keeps_tick hdown
    rw [hpending, pending_applySteps]
    rfl

theorem pending_execAonReset {uv : Nat} {s t : State} (ht : exec (.aonReset uv) s = .next t) : t.pending = s.pending := by
  change execAonReset uv s = .next t at ht
  unfold execAonReset at ht
  split at ht
  · cases ht
    rfl
  · cases ht
    obtain ⟨hpending, -, -⟩ := (keeps_settle (s.deviceReset .aon) (s.deviceReset .aon)).mpr (keeps_self _)
    exact hpending.trans (pending_deviceReset s .aon)

/-- No command adds, drops or reorders a waiting command: AON_RESET by its reset, every other by what its meaning keeps. -/
theorem pending_exec {c : Instr} {s t : State} (ht : exec c s = .next t) : t.pending = s.pending := by
  by_cases haon : ∃ uv, c = .aonReset uv
  · obtain ⟨uv, rfl⟩ := haon
    exact pending_execAonReset ht
  · obtain ⟨hpending, -, -⟩ := (keepsOut_exec s c s (fun uv hc => haon ⟨uv, hc⟩) t ht).mpr (keeps_self s)
    exact hpending

/-- Settles O8: a command keeps the queue that it is given, which is the rest; an edge keeps the empty queue. -/
theorem queueFirstInFirstOut : Obligations.QueueFirstInFirstOut := by
  unfold Obligations.QueueFirstInFirstOut
  intro s t ht
  cases hp : s.pending with
  | nil =>
    rw [step_of_pending_nil hp] at ht
    cases ht
    rw [pending_tick, hp, List.tail_nil]
  | cons c rest =>
    rw [step_of_pending_cons hp] at ht
    rw [pending_exec ht, List.tail_cons]

/-! ## Every command answers -/

/-- The meaning ends in a next state: no fault, no refusal. -/
def Answers (o : Out) : Prop := ∃ t, o = .next t

theorem answers_next (t : State) : Answers (.next t) := ⟨t, rfl⟩

theorem answers_done (t : State) : Answers (done t) := ⟨_, rfl⟩

theorem answers_carDone (s t : State) : Answers (carDone s t) := ⟨_, rfl⟩

theorem answers_ite {c : Prop} [Decidable c] {a b : Out} (ha : Answers a) (hb : Answers b) : Answers (if c then a else b) := by
  split
  · exact ha
  · exact hb

/-- An instruction completes, traps or waits, or is not the row's: each is a next state. -/
theorem answers_issue (s : State) (t : Nat) (k : ZKind) (f : Nat → Thread → Effect) : Answers (s.issue t k f) := by
  unfold State.issue
  dsimp only
  refine answers_ite ?_ (answers_next s)
  cases f (s.nextWord t) (s.thread t) with
  | next => exact answers_done _
  | trap => exact answers_done _
  | wait => exact answers_done _

/-- A work request of a host queue or of an engine, found or not, is a next state. -/
theorem answers_wrRow (s : State) (op : Nat) (q : SarupQueue) (reply : Option CplStatus) : Answers (s.wrRow op q reply) := by
  unfold State.wrRow
  dsimp only
  repeat' split
  all_goals simp only [answers_next, answers_done]

theorem answers_execPpsEdge (gnss falling : Bool) (phase : Fin 128) (freq10m : Int) (s : State) : Answers (execPpsEdge gnss falling phase freq10m s) := by
  refine answers_ite (answers_next s) (answers_ite (answers_carDone ..) (answers_ite ?_ (answers_ite (answers_carDone ..) (answers_carDone ..))))
  split <;> exact answers_carDone ..

theorem answers_execCreateIoSq (h : Nat) (s : State) : Answers (execCreateIoSq h s) := by
  unfold execCreateIoSq
  split
  · exact answers_next s
  · exact answers_ite (answers_done _) (answers_done _)

/-- Every meaning is a tree of branches with a next state at each leaf. The instructions and the work requests have theirs in a shared
operation; some rows look up what they act on, and branch on what they find; the others branch on conditions alone. -/
theorem answers_exec (c : Instr) (s : State) : Answers (exec c s) := by
  cases c with
  | ppsEdge gnss falling phase freq10m => exact answers_execPpsEdge gnss falling phase freq10m s
  | createIoSq h => exact answers_execCreateIoSq h s
  | wrWrite | wrWriteImm | wrSend | wrRead | wrFetchAdd | wrCas | wrFlush | wrOpen | wrRevoke => exact answers_wrRow s _ _ _
  | alu | ialu | bfi | movi | atom | hash | ld | st | br | jal | jalr | chw | chs | chr | srd | swr | tread | twait | wfe | sev | sevt |
  trap | tret | crd | fence | illegal =>
    simp only [exec, answers_issue, execAlu, execIalu, execBfi, execMovi, execAtom, execHash, execLd, execSt, execBr, execJal, execJalr,
      execChw, execChs, execChr, execSrd, execSwr, execTread, execTwait, execWfe, execSev, execSevt, execTrap, execTret, execCrd,
      execFence, execIllegal]
  | pllLockLost | ptpFrameRx | ptpMessageTx | nmeaSentence | nmeaHoldExpiry | measurementMissing | wtrExpiry | carryHoldEnd | ptmDialogue
  | holdRelease | holdExpiry | launchEnter | launchSend | tokenReply | frameTx | synceRestore | packetAdmit | snareAnswer | staleDrop |
  poolDispatch | reorderTimeout | streamIdleEvict | learnProcess | sweepVisit | memDataAccess | channelResponse | threadTimerExpiry |
  twaitEnd | pktReturn | pktDrop | pktFrame | pktNew | pktSend | tableLookup | prefetch | cryptoComplete | cmpComplete | xptWorkRequest |
  xptCqConsumer | take | complete | mark | defer | copy | mbxChPost | mbxChRead | mbxChStatus | frameSelect | txFetch | txCompletionWrite
  | moderationTimer | flrComplete | bmeClear | completionTimeout | completionRx | mgrBarAccess | revokeComplete | flushVisible |
  retransmitTimeout | rnrRetry | sarupRxCompletion | commandFetch | deleteIoSq | createIoCq | deleteIoCq | getLogPage | identify | abort |
  setFeatures | getFeatures | asyncEventRequest | keyDeleteComplete | rollbackDone | mailboxTimeout | selfTestDone | pllRelock |
  memoryEccError | hostConfigWrite | voidTagReuse | avsAck | avsAckTimeout | leapFlagClear =>
    simp only [exec, execPllLockLost, execPtpFrameRx, execPtpMessageTx, execNmeaSentence,
      execNmeaHoldExpiry, execMeasurementMissing, execWtrExpiry, execCarryHoldEnd, execPtmDialogue, execHoldRelease, execHoldExpiry,
      execLaunchEnter, execLaunchSend, execTokenReply, execFrameTx, execSynceRestore, execPacketAdmit, execSnareAnswer, execStaleDrop,
      execPoolDispatch, execReorderTimeout, execStreamIdleEvict, execLearnProcess, execSweepVisit, execMemDataAccess,
      execChannelResponse, execThreadTimerExpiry, execTwaitEnd, execPktReturn, execPktDrop, execPktFrame, execPktNew, execPktSend,
      execTableLookup, execPrefetch, execCryptoComplete, execCmpComplete, execXptWorkRequest, execXptCqConsumer, execTake, execComplete,
      execMark, execDefer, execCopy, execMbxChPost, execMbxChRead, execMbxChStatus, execFrameSelect, execTxFetch, execTxCompletionWrite,
      execModerationTimer, execFlrComplete, execBmeClear, execCompletionTimeout, execCompletionRx, execMgrBarAccess, execRevokeComplete,
      execFlushVisible, execRetransmitTimeout, execRnrRetry, execSarupRxCompletion, execCommandFetch, execDeleteIoSq, execCreateIoCq,
      execDeleteIoCq, execGetLogPage, execIdentify, execAbort, execSetFeatures, execGetFeatures, execAsyncEventRequest,
      execKeyDeleteComplete, execRollbackDone, execMailboxTimeout, execSelfTestDone, execPllRelock, execMemoryEccError,
      execHostConfigWrite, execVoidTagReuse, execAvsAck, execAvsAckTimeout, execLeapFlagClear]
    repeat' split
    all_goals simp only [answers_next, answers_done, answers_carDone]
  | _ =>
    repeat' refine answers_ite ?_ ?_
    all_goals exact ⟨_, rfl⟩

theorem answers_step (s : State) : Answers (step s) := by
  cases hp : s.pending with
  | nil => exact ⟨_, step_of_pending_nil hp⟩
  | cons c rest =>
    rw [step_of_pending_cons hp]
    exact answers_exec c _

/-- A run takes its first step and goes on from the state that it answers. -/
theorem run_succ_of_step {s t : State} (h : step s = .next t) (n : Nat) : core.run (n + 1) s = core.run n t := by
  have hstep : core.step s = .next t := h
  simp only [Host.Core.run, hstep]

theorem safe_all (n : Nat) (s : State) : Safe n s := by
  induction n generalizing s with
  | zero => exact ⟨s, rfl⟩
  | succ n ih =>
    obtain ⟨t, ht⟩ := answers_step s
    obtain ⟨u, hu⟩ := ih t
    exact ⟨u, (run_succ_of_step ht n).trans hu⟩

/-- Settles O9: each step answers, so a run is safe by induction on its length. -/
theorem everyStepAnswers : Obligations.EveryStepAnswers := by
  unfold Obligations.EveryStepAnswers
  exact fun s => ⟨answers_step s, fun n => safe_all n s⟩

end Sys2Proof.Machine
end


section
/-! SUPPORT. Control cores and mailboxes (R442 to R454): posts, pops, resets and timeouts complete with the effects of their rules, and a
post that is refused or ignored queues nothing. -/
namespace Sys2Proof.Machine

/-! ## Mailboxes -/

@[simp] theorem mbox_onMbox_same (s : State) (m : Nat) (g : Mailbox → Mailbox) : (s.onMbox m g).mbox m = g (s.mbox m) := by
  simp only [State.mbox, State.onMbox, Store.modify, Store.get_set_same]

theorem mbox_onMbox_ne (s : State) {m k : Nat} (g : Mailbox → Mailbox) (h : k ≠ m) : (s.onMbox m g).mbox k = s.mbox k :=
  Store.get_set_ne _ _ _ _ _ _ h.symm

theorem RegsBut.mild {l : List RegName} {s t : State} (h : RegsBut l s t) (hl : RegName.GONG_SEV ∉ l) {g src : Nat} (hm : Mild s g src) :
    Mild t g src := by
  unfold Mild State.severity at *
  rwa [h.fld _ (by simpa [GONG_SEV.SEV] using hl)]

/-- The registers that a refused post writes: the mailboxes' counters, and Gong's. -/
def refusalRegs : List RegName := .MBX_STAT :: gongRegs

/-- A counter of the mailboxes rises and a source that is not fatal fires. -/
theorem Only.bumpFire {z s : State} (h : Only refusalRegs z s) (i : Nat) {g src : Nat} (hm : Mild s g src) :
    Only refusalRegs z ((s.bump .MBX_STAT 0 i).fire g src) :=
  have hb : Only refusalRegs s (s.bump .MBX_STAT 0 i) := (Only.refl _ s).bump _ _ _ _ (by decide)
  h.trans (hb.fire _ _ _ _ _ (hb.2.mild (by decide) hm) fun _ => List.mem_cons_of_mem _)

/-- A state that differs from `s` with mailbox `m` updated in registers of `l` alone differs from `s` in these and that mailbox. -/
theorem mbox_frame {l : List RegName} {s t : State} {m : Nat} {g : Mailbox → Mailbox} (h : Only l (s.onMbox m g) t) :
    t = { s with regs := t.regs, mbx := t.mbx } ∧ RegsBut l s t ∧ t.mbox m = g (s.mbox m) ∧ ∀ k, k ≠ m → t.mbox k = s.mbox k := by
  obtain ⟨hregs, hbut⟩ := h
  have hmbx : t.mbx = (s.onMbox m g).mbx := by rw [hregs]
  have hbox : ∀ k, t.mbox k = (s.onMbox m g).mbox k := fun k => by simp only [State.mbox, hmbx]
  refine ⟨?_, hbut, (hbox m).trans (mbox_onMbox_same s m g), fun k hk => (hbox k).trans (mbox_onMbox_ne s g hk)⟩
  rw [hmbx]
  exact hregs

/-! ## Posts and pops at a place (R448 to R450) -/

section
variable {s : State} {p : MbxPlace} {m : Nat} {toMgr : Bool} {words : List Word}
  (hreach : s.placeReached p) (hside : s.mbxSide p = some (m, toMgr, words)) (hm : m < 2096)
include hreach hside hm

/-- A post at a place that is reached, other than one to the token unit or to SEC, is a post in the place's mailbox. -/
theorem exec_post {w : Word} (htoken : isTokenPost toMgr words (wfld w MBX_POST.LEN) = false) (req : Requester) :
    exec (.post req p w) s = done (s.mbxPost m toMgr words (wfld w MBX_POST.LEN)).1 := by
  have hat : s.postAt p w = (s.mbxPost m toMgr words (wfld w MBX_POST.LEN)).1 := by
    rw [State.postAt, hside]
    dsimp only
    rw [htoken, if_neg Bool.false_ne_true, if_neg hm.not_ge]
  exact (if_pos hreach).trans (congrArg done hat)

theorem exec_pop (req : Requester) (w : Word) : exec (.pop req p w) s = done (s.mbxPop m (!toMgr)) := by
  have hat : s.popAt p = s.mbxPop m (!toMgr) := by
    rw [State.popAt, hside]
    exact if_neg hm.not_ge
  exact (if_pos hreach).trans (congrArg done hat)

end

section
variable {s : State} {m len : Nat} {toMgr : Bool} (words : List Word)

theorem mbxPost_ignored (hlen : len = 0 ∨ 8 < len) : (s.mbxPost m toMgr words len).1 = s.bump .MBX_STAT 0 6 := by
  rw [State.mbxPost, if_pos hlen]

theorem mbxPost_full (hpos : 0 < len) (hlen : len ≤ 8) (hpresent : s.mbxAbsent m toMgr = false)
    (hroom : roomOf ((s.mbox m).queue toMgr) < len) : (s.mbxPost m toMgr words len).1 =
      ((s.onMbox m fun b => b.onFlags toMgr fun g => { g with full := true }).bump .MBX_STAT 0 2).fire 30 2 := by
  rw [State.mbxPost, if_neg (by omega), hpresent, if_neg Bool.false_ne_true, if_pos (.inl hroom)]

theorem mbxPost_absent (hpos : 0 < len) (hlen : len ≤ 8) (habsent : s.mbxAbsent m toMgr) :
    (s.mbxPost m toMgr words len).1 = ((s.mbxSetTimeout m toMgr).bump .MBX_STAT 0 3).fire 30 2 := by
  rw [State.mbxPost, if_neg (by omega), if_pos habsent]

end

/-- A refused post ends in a state that is quiet and framed by `mbox_frame`. -/
theorem completes_refusal {c : Instr} {s u : State} {m : Nat} {g : Mailbox → Mailbox} (hq : Quiet s) (hexec : exec c s = done u)
    (ho : Only refusalRegs (s.onMbox m g) u) : Completes c s fun t => t = { s with regs := t.regs, mbx := t.mbx } ∧
      RegsBut refusalRegs s t ∧ t.mbox m = g (s.mbox m) ∧ ∀ k, k ≠ m → t.mbox k = s.mbox k :=
  completes_done hexec (ho.quiet (hq.of_gong rfl)) (mbox_frame ho)

/-- Settles O51: each refusal counts, fires and sets its sender's flag, and a pop of an empty queue is no change. -/
theorem mailboxRefusals : Obligations.MailboxRefusals := by
  unfold Obligations.MailboxRefusals
  intro s req p w m toMgr words len hreach hq hside hm
  refine ⟨?post, fun hempty => ?pop⟩
  case post =>
    rintro rfl htoken hmild
    have hexec := exec_post hreach hside hm htoken req
    refine ⟨fun hlen => ?ignored, fun hpos hlen hpresent hroom => ?full, fun hpos hlen habsent hmild0 => ?absent⟩
    case ignored =>
      rw [hexec, mbxPost_ignored words hlen]
      exact done_of_quiet (hq.of_gong rfl)
    case full =>
      rw [mbxPost_full words hpos hlen hpresent hroom] at hexec
      exact completes_refusal hq hexec ((Only.refl _ _).bumpFire 2 hmild)
    case absent =>
      rw [mbxPost_absent words hpos hlen habsent] at hexec
      have htimeout : Only refusalRegs (s.onMbox m fun b => b.onFlags toMgr fun g => { g with timeout := true }) (s.mbxSetTimeout m toMgr) :=
        (Only.refl _ _).bumpFire 5 hmild0
      exact completes_refusal hq hexec (htimeout.bumpFire 3 (htimeout.2.mild (by decide) hmild))
  case pop =>
    rw [exec_pop hreach hside hm, State.mbxPop, hempty]
    exact done_of_quiet hq

/-! ## The statement of completions -/

/-- A write of GLB_CC_CTL in service is stored, and the clusters that it holds in reset are held (R443). -/
theorem exec_ccRun {s : State} {w : Word} (hn : s.mode ≠ NIGHT) (hdawn : s.mode ≠ DAWN) (htwilight : s.mode ≠ TWILIGHT) (req : Requester) :
    exec (.ccRun req w) s = .next (((List.range 2).filter fun c => !bitOf ((s.writeReg .GLB_CC_CTL 0 0 w).fld GLB_CC_CTL.RUN) c).foldl
      (fun t c => if bitOf (s.fld GLB_CC_CTL.RUN) c then (t.holdCores (c + 1)).onGong fun g =>
        { g with coreEpochs := g.coreEpochs.modify 0 (c + 1) fun e => (e + 1) % 16 } else t.holdCores (c + 1)) (s.writeReg .GLB_CC_CTL 0 0 w)) :=
  (if_neg hn).trans (if_neg (by simp [hdawn, htwilight]))

/-- A message that has stayed unread for its timeout sets TIMEOUT, where its sender's flag is clear (R451). -/
theorem exec_mailboxTimeout {s : State} {m : Fin 2104} {toMgr : Bool} {x : MbxMsg} {rest : List MbxMsg}
    (hqueue : (s.mbox m).queue toMgr = x :: rest) (hdue : x.posted + ofMs (s.mbxTimeout m) ≤ s.up)
    (hclear : ((s.mbox m).flags toMgr).timeout = false) : exec (.mailboxTimeout m toMgr) s = done (s.mbxSetTimeout m toMgr) := by
  change execMailboxTimeout m toMgr s = _
  rw [execMailboxTimeout, hqueue]
  exact if_pos ⟨hdue, by rw [hclear]; rfl⟩

/-- Settles O50, clause by clause: under its condition each command takes the branch of its rule. -/
theorem mailboxCommandsComplete : Obligations.MailboxCommandsComplete := by
  unfold Obligations.MailboxCommandsComplete
  intro s req w
  refine ⟨fun hn => ⟨?run, ?post, fun p m toMgr words hreach hside hm => exec_pop hreach hside hm req w, ?reset⟩,
    fun h hdue => if_pos hdue, fun m toMgr x rest hqueue hdue hclear => exec_mailboxTimeout hqueue hdue hclear⟩
  case run =>
    rintro u rfl hdawn htwilight
    exact exec_ccRun hn hdawn htwilight req
  case post =>
    rintro p m toMgr words len hreach hside rfl htoken hm
    exact exec_post hreach hside hm htoken req
  case reset =>
    rintro u v hreset rfl rfl
    exact (if_neg hn).trans (congrArg done (if_pos hreset))

end Sys2Proof.Machine
end


section
/-! SUPPORT. An event that Gong takes (R460, R461, R464): how a source that is not fatal is counted and recorded. -/
namespace Sys2Proof.Machine

/-! ## Counts and the first-error record -/

theorem satAdd_le (v d hi : Nat) : satAdd v d hi ≤ hi := by
  unfold satAdd
  split <;> omega

/-- A saturating count reads what it held and `d`, within its field. -/
theorem fld_sat_same (s : State) (f : Field) (d n i : Nat) (h : f.hi < 64) (hl : f.lo ≤ f.hi) :
    (s.sat f d n i).fld f n i = satAdd (s.fld f n i) d (2 ^ (f.hi + 1 - f.lo) - 1) := by
  have hle := satAdd_le (s.fld f n i) d (2 ^ (f.hi + 1 - f.lo) - 1)
  have hpos := Nat.two_pow_pos (f.hi + 1 - f.lo)
  rw [State.sat, fld_put_same _ _ _ _ _ h hl, Nat.mod_eq_of_lt (by omega)]

/-- GONG_FIRST_INFO of an event that is no access flag. -/
def firstInfo (src sev init typ more : Nat) : Word :=
  BitVec.ofNat 64 (place 1 0 0 + place src 5 1 + place sev 8 7 + place init 20 9 + place typ 23 21 + place more 63 32)

section
variable {s : State} {g src sev : Nat} (init typ addr : Nat)

theorem firstError_kept (hvalid : s.isSet GONG_FIRST_INFO.VALID 0 g) (hrank : s.outranks g src false sev = false) :
    s.firstError g src false sev init typ addr = s.sat GONG_FIRST_INFO.MORE 1 0 g :=
  if_pos (by simp [hvalid, hrank])

theorem raw_firstError_taken (htaken : s.isSet GONG_FIRST_INFO.VALID 0 g = false ∨ s.outranks g src false sev) :
    (s.firstError g src false sev init typ addr).raw .GONG_FIRST_INFO 0 g = firstInfo src sev init typ
        (if s.isSet GONG_FIRST_INFO.VALID 0 g then satAdd (s.fld GONG_FIRST_INFO.MORE 0 g) 1 (2 ^ 32 - 1) else 0) ∧
      (s.firstError g src false sev init typ addr).raw .GONG_FIRST_ADDR 0 g = BitVec.ofNat 64 addr ∧
      (s.firstError g src false sev init typ addr).raw .GONG_FIRST_TS 0 g = BitVec.ofNat 64 s.ts64 := by
  have hno : ¬ (s.isSet GONG_FIRST_INFO.VALID 0 g && !s.outranks g src false sev) = true := by
    rcases htaken with h | h <;> simp [h]
  have hflag : place (b2n false) 6 6 = 0 := rfl
  rw [State.firstError, if_neg hno]
  dsimp only
  rw [hflag]
  refine ⟨?_, ?_, raw_setRaw_same ..⟩
  · rw [raw_setRaw_ne _ _ _ _ _ _ _ _ (by decide), raw_setRaw_ne _ _ _ _ _ _ _ _ (by decide), raw_setRaw_same]
    rfl
  · rw [raw_setRaw_ne _ _ _ _ _ _ _ _ (by decide), raw_setRaw_same]

end

/-! ## A source that fires -/

/-- Source `src` of group `g` is counted. -/
def State.counted (s : State) (g src : Nat) : State := s.sat (countField (32 * g + src)) 1 0 ((32 * g + src) / 4)

/-- Source `src` of group `g` is counted and its status bit is set. -/
def State.flagged (s : State) (g src : Nat) : State := (s.counted g src).put ⟨.GONG_STATUS, src, src⟩ 1 0 g

/-- What an event changes before the first-error record takes it. -/
def flagRegs : List RegName := [.GONG_COUNT, .GONG_STATUS]

theorem only_counted (s : State) (g src : Nat) : Only [.GONG_COUNT] s (s.counted g src) :=
  (Only.refl _ s).sat _ _ _ _ (by simp [countField])

theorem only_flagged (s : State) (g src : Nat) : Only flagRegs s (s.flagged g src) :=
  ((only_counted s g src).mono (by simp [flagRegs])).put _ _ _ _ (by simp [flagRegs])

theorem severity_counted (s : State) (g src : Nat) : (s.counted g src).severity g src = s.severity g src := by
  unfold State.severity
  rw [(only_counted s g src).fld _ (by simp [GONG_SEV.SEV])]

section
variable {s : State} {g src : Nat} (addr init typ : Nat)

theorem fire_masked (h : s.severity g src = 0) : s.fire g src addr init typ = s.counted g src :=
  if_pos ((severity_counted s g src).trans h)

/-- A source that is neither masked nor fatal is counted, flagged and recorded. -/
theorem fire_recorded (h : s.severity g src ≠ 0) (hm : Mild s g src) :
    s.fire g src addr init typ = (s.flagged g src).firstError g src false (s.severity g src) init typ addr := by
  have hsev := severity_counted s g src
  have hne : ¬ (s.counted g src).severity g src = 0 := hsev ▸ h
  have hnot3 : ¬ (s.counted g src).severity g src = 3 := hsev ▸ hm
  refine (if_neg hne).trans ((if_neg hnot3).trans ?_)
  change (s.flagged g src).firstError g src false ((s.counted g src).severity g src) init typ addr = _
  rw [hsev]

end

section
variable (s : State) (g src : Nat) {f : Field} {r : RegName}

theorem fld_flagged (hf : f.reg ∉ flagRegs) (i : Nat) : (s.flagged g src).fld f 0 i = s.fld f 0 i := (only_flagged s g src).fld f hf 0 i

theorem raw_flagged (hr : r ∉ flagRegs) (i : Nat) : (s.flagged g src).raw r 0 i = s.raw r 0 i := (only_flagged s g src).2 r hr 0 i

theorem valid_flagged : (s.flagged g src).isSet GONG_FIRST_INFO.VALID 0 g = s.isSet GONG_FIRST_INFO.VALID 0 g := by
  unfold State.isSet
  rw [fld_flagged s g src (by decide)]

theorem outranks_flagged (sev : Nat) : (s.flagged g src).outranks g src false sev = s.outranks g src false sev := by
  have hts : (s.flagged g src).ts64 = s.ts64 := rfl
  unfold State.outranks State.isSet
  rw [raw_flagged s g src (by decide), fld_flagged s g src (by decide), fld_flagged s g src (by decide), fld_flagged s g src (by decide), hts]

end

/-- The count of a source that fires rises by one and saturates, whatever the record takes. -/
theorem count_counted (s : State) (g src : Nat) : (s.counted g src).fld (countField (32 * g + src)) 0 ((32 * g + src) / 4) =
    satAdd (s.fld (countField (32 * g + src)) 0 ((32 * g + src) / 4)) 1 65535 := by
  have hwidth : (countField (32 * g + src)).hi + 1 - (countField (32 * g + src)).lo = 16 := by simp only [countField]; omega
  rw [State.counted, fld_sat_same _ _ _ _ _ (by simp only [countField]; omega) (by simp only [countField]; omega), hwidth]
  rfl

/-- The registers of a first-error record. -/
def recordRegs : List RegName := [.GONG_FIRST_INFO, .GONG_FIRST_ADDR, .GONG_FIRST_TS]

theorem only_firstError (s : State) (g src sev init typ addr : Nat) : Only recordRegs s (s.firstError g src false sev init typ addr) := by
  unfold State.firstError
  split
  · exact (Only.refl _ s).sat _ _ _ _ (by decide)
  · exact (((Only.refl _ s).setRaw _ _ _ _ (by decide)).setRaw _ _ _ _ (by decide)).setRaw _ _ _ _ (by decide)

/-- A field of the record below MORE keeps its value when only MORE grows. -/
theorem fld_sat_more (s : State) {f : Field} (hr : f.reg = .GONG_FIRST_INFO) (hf : f.hi < 32) (g : Nat) :
    (s.sat GONG_FIRST_INFO.MORE 1 0 g).fld f 0 g = s.fld f 0 g :=
  fld_put_apart _ _ _ _ _ _ hr.symm (by omega) (.inl hf)

/-! ## Injection -/

/-- An injected event whose source is not fatal ends in the state that the source's firing leaves. -/
theorem exec_inject {s : State} {req : Requester} {w : Word} (hn : s.mode ≠ NIGHT) (hgo : wfld w GONG_INJECT.GO = 1) :
    exec (.inject req w) s = done (s.fire (wfld w GONG_INJECT.SOURCE / 32) (wfld w GONG_INJECT.SOURCE % 32) 0 (codeOf req) 6) :=
  (if_neg hn).trans (if_pos hgo)

/-- Settles O53: a masked source is only counted; any other is flagged, and the record takes it or counts it in MORE. -/
theorem injectReports : Obligations.InjectReports := by
  unfold Obligations.InjectReports
  rintro s req w g src hn hq hgo hg hsrc hm
  have hexec := exec_inject (req := req) hn hgo
  rw [← hg, ← hsrc] at hexec
  have honly := only_fire s g src 0 (codeOf req) 6 hm
  refine completes_done hexec (honly.quiet hq) ⟨honly, ?count, fun hmasked => ?masked, fun hsev => ?_⟩
  case count =>
    by_cases hmasked : s.severity g src = 0
    · rw [fire_masked _ _ _ hmasked, count_counted]
    · rw [fire_recorded _ _ _ hmasked hm, (only_firstError ..).fld _ (by simp [countField, recordRegs]), State.flagged,
        fld_put_ne _ _ _ _ _ _ _ _ (by simp [countField]), count_counted]
  case masked =>
    rw [fire_masked _ _ _ hmasked]
    exact (only_counted s g src).2
  rw [fire_recorded _ _ _ hsev hm]
  have hsrc64 : src < 64 := by omega
  refine ⟨?status, fun hinvalid => ?first, fun hvalid hrank => ?replaced, fun hvalid hrank => ?kept⟩
  case status =>
    rw [(only_firstError ..).fld _ (by simp [recordRegs]), State.flagged, fld_put_same _ _ _ _ _ hsrc64 le_rfl]
    simp
  case first =>
    have hno : ¬ s.isSet GONG_FIRST_INFO.VALID 0 g = true := by simp [hinvalid]
    have htaken := raw_firstError_taken (src := src) (sev := s.severity g src) (codeOf req) 6 0 (.inl ((valid_flagged s g src).trans hinvalid))
    rwa [valid_flagged, if_neg hno] at htaken
  case replaced =>
    have htaken := raw_firstError_taken (codeOf req) 6 0 (.inr ((outranks_flagged s g src _).trans hrank))
    rwa [valid_flagged, if_pos hvalid, fld_flagged s g src (by decide)] at htaken
  case kept =>
    rw [firstError_kept _ _ _ ((valid_flagged s g src).trans hvalid) ((outranks_flagged s g src _).trans hrank)]
    refine ⟨?_, fun f hf => ?_, ?_, ?_⟩
    · rw [fld_sat_same _ _ _ _ _ (by decide) (by decide), fld_flagged s g src (by decide)]
      rfl
    · have hfield : f.reg = .GONG_FIRST_INFO ∧ f.hi < 32 := by
        fin_cases hf <;> decide
      rw [fld_sat_more _ hfield.1 hfield.2, fld_flagged s g src (by rw [hfield.1]; decide)]
    · rw [raw_sat_ne _ _ _ _ _ _ _ _ (by decide), raw_flagged s g src (by decide)]
    · rw [raw_sat_ne _ _ _ _ _ _ _ _ (by decide), raw_flagged s g src (by decide)]

end Sys2Proof.Machine
end


section
/-! SUPPORT. Commands and events of Gong, of the self-tests, of memory errors, stalls, the board and Snare's rule sets complete with the
effects of their rules (R460, R461, R470 to R472, R478, R513, R521). -/
namespace Sys2Proof.Machine

/-! ## Severities (R461, R468) -/

theorem bitOf_zero (k : Nat) : bitOf 0 k = false := by simp [bitOf]

/-- Severities of a group of which no source's status bit is set change, and no fatal condition is gained. -/
theorem exec_sevWrite {s : State} {g : Fin 32} (hn : s.mode ≠ NIGHT) (hg : g ≠ 0) (hidle : s.fld GONG_STATUS.SRC 0 g = 0) (req : Requester)
    (w : Word) : exec (.sevWrite req g w) s = done (s.writeReg .GONG_SEV 0 g w) := by
  have hval : ¬ g.val = 0 := fun h => hg (Fin.ext h)
  change execSevWrite req g w s = _
  rw [execSevWrite, if_neg hn]
  dsimp only
  rw [if_neg hval, hidle]
  simp only [bitOf_zero, Bool.false_eq_true, false_and, if_false, List.foldl_fixed]

/-! ## Snare's rule sets (R521) -/

/-- An image that fits is loaded while no other load is under way. -/
theorem exec_snareLoad {s u : State} {w : Word} {a len : Nat} (hn : s.mode ≠ NIGHT) (hgo : wfld w SNR_LOAD.GO = 1)
    (hu : u = s.writeReg .SNR_LOAD 0 0 w) (ha : a = page4k (u.fld SNR_LOAD.ADDR)) (hlen : len = leNat (s.ddrRead a 8))
    (hidle : s.isSet SNR_LOAD.BUSY = false) (hmax : len ≤ 2 ^ 23) (hfits : ceilDiv len 65536 ≤ s.snareBlocks.length) (req : Requester) :
    exec (.snareLoad req w) s = .next ((u.loadImage a len (u.fld SNR_LOAD.RULE_SET)).put SNR_LOAD.BUSY 1) := by
  have hset : ¬ wfld w SNR_LOAD.GO = 0 := by omega
  change execSnareLoad req w s = _
  rw [execSnareLoad, if_neg hn]
  dsimp only
  rw [if_neg hset, ← hu, ← ha, ← hlen, hidle]
  refine if_neg ?_
  rintro (h | h | h)
  · exact Bool.false_ne_true h
  · exact absurd hmax h.not_ge
  · exact absurd hfits h.not_ge

theorem exec_snareLoadDone {s : State} (hbusy : s.isSet SNR_LOAD.BUSY) (hnone : ∀ p ∈ s.net.snare, ∀ i ∈ s.net.images, i.old → i.num ≠ p.image) :
    exec .snareLoadDone s = .next (State.put { s with net := { s.net with images := s.net.images.filter fun i => !i.old } } SNR_LOAD.BUSY 0) := by
  refine if_neg ?_
  rw [hbusy]
  simpa using hnone

/-! ## Self-tests (R471, R472) -/

section
variable {s t : State} {k : Fin 11} {n : Nat} {x : TestUnit} {rest : List TestUnit} (hrunning : s.gong.running = x :: rest)
  (hkind : x.kind = k.val) (hunit : x.unit = n) (hlane : k ≠ 4)
  (ht : t = s.onGong fun g => { g with running := g.running.filter fun y => !(y.kind == k.val && y.unit == n) })
include hrunning hkind hunit hlane ht

/-- The test that runs first ends; of a unit that is no PCIe lane, it is filed and the next test of the kind begins. -/
theorem exec_selfTestDone (pass : Bool) : exec (.selfTestDone k n pass) s = done (State.nextTest
    (if !pass || t.gong.transient.any (fun e => e.kind == k.val && e.unit == n && decide (x.ts < e.ts + t.fld GONG_CFG.LASTING_S * 4000000000))
      then t.lasting x else t.transientUnit x) k) := by
  subst ht
  have hval : ¬ k.val = 4 := fun h => hlane (Fin.ext h)
  have hfind : (x :: rest).find? (fun u => u.kind == k.val && u.unit == n) = some x := List.find?_cons_of_pos (by simp [hkind, hunit])
  change execSelfTestDone k n pass s = _
  rw [execSelfTestDone, hrunning, hfind]
  dsimp only
  rw [if_neg hval]

end

/-! ## The statement -/

/-- Settles O52, clause by clause: under its condition each command or event takes the branch of its rule. -/
theorem faultCommandsComplete : Obligations.FaultCommandsComplete := by
  unfold Obligations.FaultCommandsComplete
  intro s req w
  refine ⟨fun hn => ⟨fun hgo => ?inject, fun hclear => ?counts, fun g hg hidle => exec_sevWrite hn hg hidle req w,
      fun u a len hgo hu ha hlen hidle hmax hfits => exec_snareLoad hn hgo hu ha hlen hidle hmax hfits req⟩,
    fun k n x rest t hrunning hkind hunit hlane ht => ?tests, fun hn cls us hlong => ?stall, exec_snareLoadDone, rfl,
    fun n l hl hexists hclock => ?refclk, fun hn c => if_neg hn, fun p => rfl, rfl, fun hn => ?memory, fun v hstep => ?regulator⟩
  case inject => exact (if_neg hn).trans (if_pos hgo)
  case counts =>
    refine (if_neg hn).trans (congrArg Host.Outcome.next ?_)
    exact if_pos hclear
  case tests =>
    have hexec := exec_selfTestDone hrunning hkind hunit hlane ht
    refine ⟨fun hfirst => ?_, ?_⟩
    · rw [hexec, if_neg (by rw [hfirst]; decide), done]
    · rw [hexec, if_pos (by simp), done]
  case stall =>
    refine if_neg ?_
    rintro (h | h)
    · exact hn h
    · exact absurd hlong h.not_ge
  case refclk =>
    refine if_pos (List.any_eq_true.mpr ⟨l, List.mem_range.mpr hl, ?_⟩)
    simp [hexists, hclock]
  case memory =>
    refine ⟨fun c row addr unc u hu => ?_, fun c row addr hpoisoned => ?_, fun c line => if_neg hn, fun c line h => if_neg hn, fun b r => if_neg hn,
      fun n => if_neg hn⟩
    · subst hu
      exact if_neg hn
    · refine (if_neg hn).trans (if_pos ?_)
      simpa using hpoisoned
  case regulator =>
    refine ⟨?_, fun hlast => ?_, fun hmore => ?_⟩
    · change execAvsAck s = _
      rw [execAvsAck, hstep]
    · change execAvsAckTimeout s = _
      rw [execAvsAckTimeout, hstep]
      simp [hlast]
    · change execAvsAckTimeout s = _
      rw [execAvsAckTimeout, hstep]
      exact congrArg Host.Outcome.next (if_neg (by dsimp only; omega))

end Sys2Proof.Machine
end


section
/-! SUPPORT. Flow counter commands, record blocks, histogram snapshots and sketch commands complete with the effects of their rules (R426,
R430, R431, R434, R436, R437). -/
namespace Sys2Proof.Machine

/-! ## Flow counters and histograms (R426, R434) -/

/-- A row of CMP_FC_CMD acts where the write names its OP. -/
theorem fcRow_taken {s : State} {w : Word} {op : Nat} (hn : s.mode ≠ NIGHT) (hop : wfld w CMP_FC_CMD.OP = op) (t : State) :
    (if s.mode = NIGHT ∨ wfld w CMP_FC_CMD.OP ≠ op then .next s else .next t : Out) = .next t :=
  if_neg (by simp [hn, hop])

/-- A histogram with its counts copied at an instant, and cleared if the snapshot clears. -/
def Histogram.snapped (x : Histogram) (ts : Nat) (clear : Bool) : Histogram :=
  let y : Histogram := { x with snap := x.counts, snapTs := ts, snapDegraded := x.degraded }
  if clear then { y with counts := {}, degraded := 0 } else y

theorem exec_histSnap {s u : State} {h : Fin 32} {w : Word} (hn : s.mode ≠ NIGHT)
    (hu : u = s.writeReg .CMP_HIST_CFG 0 h (w &&& ~~~(BitVec.ofNat 64 32))) (hsnap : wfld w CMP_HIST_CFG.SNAP = 1) (req : Requester) :
    exec (.histSnap req h w) s = .next { u with tel := { u.tel with
      hists := u.tel.hists.modify {} h fun x => x.snapped u.ts64 (u.isSet CMP_HIST_CFG.CLEAR_ON_SNAP 0 h) } } := by
  refine (if_neg hn).trans (congrArg Host.Outcome.next ?_)
  rw [State.writeHistCfg, ← hu]
  exact if_neg (by rw [hsnap]; decide)

/-! ## Sketches (R436, R437) -/

section
variable {s u : State} {p : Nat} {w : Word}

/-- While EN is 1 a write keeps MODE and PROF; it flips the banks only where CLEARED is 1. -/
theorem skRefused_eq_false
    (hkeep : s.isSet CMP_SK_CFG.EN 0 p → wfld w CMP_SK_CFG.MODE = s.fld CMP_SK_CFG.MODE 0 p ∧ wfld w CMP_SK_CFG.PROF = s.fld CMP_SK_CFG.PROF 0 p)
    (hswap : wfld w CMP_SK_CFG.SWAP = 1 → s.isSet CMP_SK_CFG.CLEARED 0 p) : s.skRefused p w = false := by
  unfold State.skRefused
  rw [Bool.or_eq_false_iff]
  constructor
  · cases hen : s.isSet CMP_SK_CFG.EN 0 p with
    | false => rfl
    | true =>
      obtain ⟨hmode, hprof⟩ := hkeep hen
      simp [hmode, hprof]
  · by_cases h : wfld w CMP_SK_CFG.SWAP = 1
    · simp [h, hswap h]
    · simp [h]

theorem writeSkCfg_swap (hu : u = s.writeReg .CMP_SK_CFG 0 p (w &&& ~~~(BitVec.ofNat 64 0x300))) (hok : s.skRefused p w = false) (hswap : wfld w CMP_SK_CFG.SWAP = 1) (hclear : wfld w CMP_SK_CFG.CLEAR = 0) :
    s.writeSkCfg p w = u.swapSketch p := by
  have hno : ¬ wfld w CMP_SK_CFG.CLEAR = 1 := by omega
  rw [State.writeSkCfg, if_neg (by simp [hok])]
  dsimp only
  rw [if_neg hno, if_pos hswap, ← hu]

theorem writeSkCfg_clear (hu : u = s.writeReg .CMP_SK_CFG 0 p (w &&& ~~~(BitVec.ofNat 64 0x300))) (hok : s.skRefused p w = false) (hswap : wfld w CMP_SK_CFG.SWAP = 0) (hclear : wfld w CMP_SK_CFG.CLEAR = 1) :
    s.writeSkCfg p w = u.clearSketch p := by
  have hno : ¬ wfld w CMP_SK_CFG.SWAP = 1 := by omega
  rw [State.writeSkCfg, if_neg (by simp [hok])]
  dsimp only
  rw [if_pos hclear, if_neg hno, ← hu]

theorem writeSkCfg_refused (hswap : wfld w CMP_SK_CFG.SWAP = 1) (hdirty : s.isSet CMP_SK_CFG.CLEARED 0 p = false) :
    s.writeSkCfg p w = s.refuseSketch p :=
  if_pos (by simp [State.skRefused, hswap, hdirty])

end

/-- A query answers the estimate of the key that the sketch's profile forms now. -/
theorem exec_sketchQuery {s : State} {w : Word} {p e : Nat} {key : List Byte} (hn : s.mode ≠ NIGHT) (hgo : wfld w CMP_SK_QUERY.GO = 1)
    (hp : p = wfld w CMP_SK_QUERY.SKETCH)
    (hkey : key = (wordBytes ((List.range 8).map fun i => s.raw .CMP_SK_KEY 0 i)).take (s.profileLength p (s.fld CMP_SK_CFG.PROF 0 p)))
    (he : e = s.estimate p key) (req : Requester) : exec (.sketchQuery req w) s =
      .next ((s.put CMP_SK_RESULT.ESTIMATE e).put CMP_SK_RESULT.SATURATED (b2n (e == 2 ^ 32 - 1))) := by
  refine (if_neg hn).trans (congrArg Host.Outcome.next ?_)
  rw [State.skQuery, if_neg (by rw [hgo]; decide)]
  dsimp only
  rw [← hp, ← hkey, ← he]

/-! ## The statement -/

/-- Settles O49, clause by clause: under its condition each command or event takes the branch of its rule. -/
theorem telemetryCommandsComplete : Obligations.TelemetryCommandsComplete := by
  unfold Obligations.TelemetryCommandsComplete
  intro s req w
  refine ⟨fun hn => ⟨fun i u hi hu => ?counters, fun hop => fcRow_taken hn hop _, fun h u hu hsnap => ?snapshot, fun p u hkeep hu => ?sketch,
    fun p key e hgo hp hkey he => exec_sketchQuery hn hgo hp hkey he req⟩, fun hopen hdue => if_pos ⟨hopen, hdue⟩, fun p u hclearing hu => ?cleared⟩
  case counters =>
    rw [hu, hi]
    exact ⟨fun hop => fcRow_taken hn hop _, fun hop => fcRow_taken hn hop _⟩
  case snapshot =>
    have hexec := exec_histSnap hn hu hsnap req
    refine ⟨fun hkeep => ?_, fun hclear => ?_⟩
    · rwa [hkeep] at hexec
    · rwa [hclear] at hexec
  case sketch =>
    have hswapExec : exec (.sketchSwap req p w) s = done (s.writeSkCfg p w) := if_neg hn
    have hclearExec : exec (.sketchClear req p w) s = done (s.writeSkCfg p w) := if_neg hn
    refine ⟨fun hswap hclear => ⟨fun hcleared => ?_, fun hdirty => ?_⟩, fun hswap hclear => ?_⟩
    · rw [hswapExec, writeSkCfg_swap hu (skRefused_eq_false hkeep fun _ => hcleared) hswap hclear]
      rfl
    · rw [hswapExec, writeSkCfg_refused hswap hdirty]
      rfl
    · rw [hclearExec, writeSkCfg_clear hu (skRefused_eq_false hkeep fun h => by omega) hswap hclear, done]
  case cleared =>
    subst hu
    exact if_pos (by simpa using hclearing)

end Sys2Proof.Machine
end


section
/-! SUPPORT. Requests of the lookaside cipher cores and the compression units complete with the effects of their rules, and faults mark what
they hit (R386 to R394, R419 to R423). -/
namespace Sys2Proof.Machine

/-! ## Requests become jobs (R386, R420) -/

theorem firstOf_zero (s : State) (channel : Nat) : s.firstOf 0 channel = true := by simp [State.firstOf]

/-- A job joins the cipher cores' jobs, with the domain of its core awake. -/
def State.beginCrypto (s : State) (core : Nat) (m : Msg) (key : Option KeyEntry) : State :=
  ((s.devEvent 0x305).wakeDomain (16 + core / 16)).onSec fun x => { x with jobs := x.jobs ++ [{ core, msg := m, key }] }

/-- A job joins the compression units' jobs, with the domain of its unit awake. -/
def State.beginCmp (s : State) (unit : Nat) (m : Msg) : State :=
  let v := (s.devEvent 0x306).wakeDomain (24 + unit)
  { v with tel := { v.tel with jobs := v.tel.jobs ++ [{ unit, msg := m }] } }

section
variable {s u : State} {m : Msg} {core op : Nat} (hclock : s.engineClock) (hu : u = s.takeMsg 0)
include hclock hu

/-- A sound request at the front of its channel, which names no host memory, starts on the core that is free where its key allows it. -/
theorem startCrypto_begins (hmsg : s.message 0 3 op = some m) (hfree : s.freeCore = some core) (hen : u.isSet CRY_CFG.EN) (hhost : m.cHost = false)
    (hsound : u.cryptoBad m none = false) : s.startCrypto 0 op =
      if op ≠ opHash ∧ !(if op = opHash then (u, none) else u.readKey m.cKey).2.any (keyAllows m)
      then (if op = opHash then (u, none) else u.readKey m.cKey).1.cryptoRespond m 18
      else (if op = opHash then (u, none) else u.readKey m.cKey).1.beginCrypto core m (if op = opHash then (u, none) else u.readKey m.cKey).2 := by
  rw [State.startCrypto, hmsg]
  dsimp only
  rw [hfree]
  dsimp only
  rw [if_neg (by simp [firstOf_zero, hclock]), ← hu, hhost, hen, if_neg Bool.false_ne_true, hsound, if_neg (by decide), if_neg (by decide),
    if_neg (by decide)]
  rfl

theorem startCrypto_keyed (hmsg : s.message 0 3 op = some m) (hfree : s.freeCore = some core) (hen : u.isSet CRY_CFG.EN) (hhost : m.cHost = false)
    (hsound : u.cryptoBad m none = false) (hop : op ≠ opHash) (hkey : (u.readKey m.cKey).2.any (keyAllows m)) :
    s.startCrypto 0 op = (u.readKey m.cKey).1.beginCrypto core m (u.readKey m.cKey).2 := by
  rw [startCrypto_begins hclock hu hmsg hfree hen hhost hsound, if_neg hop, if_neg (by simp [hkey])]

theorem startCrypto_hash (hmsg : s.message 0 3 opHash = some m) (hfree : s.freeCore = some core) (hen : u.isSet CRY_CFG.EN)
    (hhost : m.cHost = false) (hsound : u.cryptoBad m none = false) : s.startCrypto 0 opHash = u.beginCrypto core m none := by
  rw [startCrypto_begins hclock hu hmsg hfree hen hhost hsound, if_pos rfl, if_neg (by simp)]

/-- A sound compression request starts on the unit that is free. -/
theorem startCmp_begins (hmsg : s.message 0 4 op = some m) (hfree : s.freeUnit = some core) (hen : u.isSet CMP_CFG.EN) (hhost : m.zHost = false)
    (hsound : u.cmpBad m none = false) : s.startCmp 0 op = u.beginCmp core m := by
  rw [State.startCmp, hmsg]
  dsimp only
  rw [hfree]
  dsimp only
  rw [if_neg (by simp [firstOf_zero, hclock]), ← hu, hhost, hen, if_neg Bool.false_ne_true, hsound, if_neg (by decide), if_neg (by decide),
    if_neg (by decide)]
  rfl

end

/-! ## The statement -/

/-- Settles O28, clause by clause: under its condition each request or event takes the branch of its rule. -/
theorem lookasideComplete : Obligations.LookasideComplete := by
  unfold Obligations.LookasideComplete
  intro s m core u hu
  refine ⟨fun op r v hmsg hfree hclock hen hhost hsound hr hkey hv => ?keyed, fun hmsg hfree hclock hen hhost hsound => ?hash,
    fun op v w hmsg hfree hclock hen hhost hsound hv hw => ?compression, fun k reply j hfind => ?cryptoEnds, fun k reply j hfind => ?cmpEnds,
    fun i => rfl, fun k => rfl, fun k c hk hc hnew => ?inline⟩
  case keyed =>
    have hstart (hop : op ≠ opHash) : done (s.startCrypto 0 op) = .next v := by
      rw [startCrypto_keyed hclock hu hmsg hfree hen hhost hsound hop (hr ▸ hkey), ← hr, hv]
      rfl
    refine ⟨?_, ?_, ?_, ?_, ?_, ?_⟩ <;>
    · rintro rfl
      exact hstart (by decide)
  case hash => exact congrArg done (startCrypto_hash hclock hu hmsg hfree hen hhost hsound)
  case compression =>
    have hstart : done (s.startCmp 0 op) = .next w := by
      rw [startCmp_begins hclock hu hmsg hfree hen hhost hsound, hw, hv]
      rfl
    refine ⟨?_, ?_, ?_, ?_⟩ <;>
    · rintro rfl
      exact hstart
  case cryptoEnds =>
    change execCryptoComplete k reply s = _
    rw [execCryptoComplete, hfind]
    rfl
  case cmpEnds =>
    change execCmpComplete k reply s = _
    rw [execCmpComplete, hfind]
    rfl
  case inline =>
    have hcores : ¬ unitCores k ≤ c := by
      rw [unitCores, if_pos hk]
      exact hc.not_ge
    change execInlineParityFault k c s = _
    rw [execInlineParityFault, if_neg hcores]
    dsimp only
    rw [if_pos hk, done]

end Sys2Proof.Machine
end


section
/-! SUPPORT. Admin commands of NVMe controllers and the messages of a thread's NVM channel complete with the effects of their rules (R363 to
R365, R370 to R372, R378, R380). -/
namespace Sys2Proof.Machine

/-! ## Queues (R363 to R365, R368) -/

section
variable {s : State} {h : Nat} {m : NvmCmd} {c : NvmCtl} (hc : c = s.nvmCtl m.fn)
include hc

/-- A submission queue of an allowed identifier, size, completion queue and page is made. -/
theorem exec_createIoSq {cq : Nat} (hcmd : s.adminCmd h 1 = some m) (hcq : cq = bits (m.dw 11) 31 16) (hentry : bits c.cc 19 16 = 6)
    (hsize : 2 ≤ m.qsize) (hid : m.qid ≠ 0) (hpairs : m.qid ≤ s.nvmPairs m.fn) (hfree : (c.sq m.qid).size = 0) (hcq0 : cq ≠ 0)
    (hcqPairs : cq ≤ s.nvmPairs m.fn) (hcqMade : (c.cq cq).size ≠ 0) (hcontig : bitOf (m.dw 11) 0) (hpage : m.prp1 % c.page = 0) :
    exec (.createIoSq h) s = done ((s.onSq m.fn m.qid fun _ => { base := m.prp1, size := m.qsize, cq }).endCmd m ncOk) := by
  change execCreateIoSq h s = _
  rw [execCreateIoSq, hcmd]
  dsimp only
  rw [← hc, ← hcq]
  refine if_neg (not_not_intro ?_)
  rw [if_neg (by omega), if_neg (by omega), if_neg (by omega), if_neg hcqMade, if_neg (by simp [hcontig]), if_neg (not_not_intro hpage)]

/-- A completion queue of an allowed identifier, size, vector and page is made. -/
theorem exec_createIoCq {iv : Nat} (hcmd : s.adminCmd h 5 = some m) (hiv : iv = bits (m.dw 11) 31 16) (hentry : bits c.cc 23 20 = 4)
    (hsize : 2 ≤ m.qsize) (hid : m.qid ≠ 0) (hpairs : m.qid ≤ s.nvmPairs m.fn) (hfree : (c.cq m.qid).size = 0) (hvector : iv < s.nvmVectors m.fn)
    (hcontig : bitOf (m.dw 11) 0) (hpage : m.prp1 % c.page = 0) : exec (.createIoCq h) s =
      done ((s.onCq m.fn m.qid fun _ => { base := m.prp1, size := m.qsize, vector := iv, irq := bitOf (m.dw 11) 1 }).endCmd m ncOk) := by
  change execCreateIoCq h s = _
  rw [execCreateIoCq, hcmd]
  dsimp only
  rw [← hc, ← hiv]
  refine if_neg (not_not_intro ?_)
  rw [if_neg (by omega), if_neg (by omega), if_neg hvector.not_ge, if_neg (by simp [hcontig]), if_neg (not_not_intro hpage)]

/-- The commands of a submission queue end, and it is removed. -/
theorem exec_deleteIoSq (hcmd : s.adminCmd h 0 = some m) (hid : m.qid ≠ 0) (hmade : (c.sq m.qid).size ≠ 0) : exec (.deleteIoSq h) s =
    done (((s.endCmds (fun x => x.fn == m.fn && x.sq == m.qid) ncSqDeleted 4).onSq m.fn m.qid fun _ => {}).endCmd m ncOk) := by
  change execDeleteIoSq h s = _
  rw [execDeleteIoSq, hcmd]
  dsimp only
  rw [← hc, if_neg (by simp [hid, hmade])]

/-- A completion queue to which no submission queue completes is removed. -/
theorem exec_deleteIoCq (hcmd : s.adminCmd h 4 = some m) (hid : m.qid ≠ 0) (hmade : (c.cq m.qid).size ≠ 0)
    (hunused : ∀ e ∈ c.sqs.entries, e.1 = 0 ∨ e.2.cq ≠ m.qid) :
    exec (.deleteIoCq h) s = done ((s.onCq m.fn m.qid fun _ => {}).endCmd m ncOk) := by
  have hnone : ¬ (c.sqs.entries.any fun e => e.1 != 0 && e.2.cq == m.qid) = true := by
    simp only [List.any_eq_true, Bool.and_eq_true, bne_iff_ne, beq_iff_eq, not_exists, not_and]
    exact fun e he => (hunused e he).resolve_left
  change execDeleteIoCq h s = _
  rw [execDeleteIoCq, hcmd]
  dsimp only
  rw [← hc, if_neg (by simp [hid, hmade]), if_neg hnone]

end

/-! ## Log pages and Identify (R363, R364) -/

section
variable {s r : State} {h : Nat} {m : NvmCmd}

/-- A part of the error log or the changed list goes to the host; with RAE its event stays masked. -/
theorem exec_getLogPage {page : List Byte} {len off : Nat} (hcmd : s.adminCmd h 2 = some m) (hlog : s.logPage m.fn (bits (m.dw 10) 7 0) = some page)
    (hlid : bits (m.dw 10) 7 0 = 1 ∨ bits (m.dw 10) 7 0 = 4) (hlen : len = 4 * (bits (m.dw 10) 31 16 + 65536 * bits (m.dw 11) 15 0 + 1))
    (hoff : off = m.dw 12 + 2 ^ 32 * m.dw 13) (hin : off ≤ page.length) (halign : off % 4 = 0)
    (hdata : s.adminData m (slice page off (min len (2 ^ 21))) = (r, true)) (hrae : bitOf (m.dw 10) 15) :
    exec (.getLogPage h) s = done ((r.endCmd m ncOk).sendNotice m.fn) := by
  have hnotSmart : ¬ bits (m.dw 10) 7 0 = 2 := by omega
  change execGetLogPage h s = _
  rw [execGetLogPage, hcmd]
  dsimp only
  rw [hlog]
  dsimp only
  rw [if_neg hnotSmart, ← hoff, ← hlen, if_neg (by simp [hin, halign]), hdata]
  dsimp only
  rw [if_neg (by decide), if_pos hrae]

/-- The answer that an Identify command gives goes to the host. -/
theorem exec_identify {bs : List Byte} (hcmd : s.adminCmd h 6 = some m) (hdata : s.adminData m bs = (r, true))
    (hans : bits (m.dw 10) 7 0 = 1 ∧ bs = s.identifyCtl m.fn ∨ bits (m.dw 10) 7 0 = 0 ∧ 0 < m.nsid ∧ m.nsid ≤ 256 ∧
      attached (s.attachment m.fn m.nsid) ∧ bs = s.identifyNs (attNs (s.attachment m.fn m.nsid))) :
    exec (.identify h) s = done (r.endCmd m ncOk) := by
  change execIdentify h s = _
  rw [execIdentify, hcmd]
  dsimp only
  rcases hans with ⟨hcns, hbs⟩ | ⟨hcns, hpos, hmax, hatt, hbs⟩
  · simp only [hcns, ← hbs, hdata]
    rfl
  · have hin : ¬ (m.nsid = 0 ∨ 256 < m.nsid) := by omega
    simp only [hcns, if_neg hin, if_pos hatt, ← hbs, hdata]
    rfl

/-! ## Abort, features and event requests (R363, R365, R378, R380) -/

/-- A command that waits at the front of its controller's commands ends with Command Abort Requested. -/
theorem exec_abort_found {x : NvmCmd} {rest : List NvmCmd} (hcmd : s.adminCmd h 8 = some m) (hfront : s.nvm.cmds = x :: rest)
    (hfn : x.fn = m.fn) (hsq : x.sq = m.qid) (hio : x.sq ≠ 0) (hcid : x.cid = bits (m.dw 10) 31 16) (hheld : x.stage = .held) :
    exec (.abort h) s = done (((s.endCmd x ncAborted).nvmStat 8).endCmd m ncOk 0) := by
  have hqid : m.qid ≠ 0 := hsq ▸ hio
  change execAbort h s = _
  rw [execAbort, hcmd]
  dsimp only
  rw [hfront, List.find?_cons_of_pos (by simp [hfn, hsq, hcid, hheld, hqid])]

/-- No command has the identifier: nothing is aborted. -/
theorem exec_abort_missing (hcmd : s.adminCmd h 8 = some m) (hnone : ∀ x ∈ s.nvm.cmds, x.cid ≠ bits (m.dw 10) 31 16) :
    exec (.abort h) s = done ((s.nvmStat 9).endCmd m ncOk 1) := by
  change execAbort h s = _
  rw [execAbort, hcmd]
  dsimp only
  rw [List.find?_eq_none.mpr fun x hx => by simp [hnone x hx]]

/-- Arbitration and Asynchronous Event Configuration take the value given. -/
theorem exec_setFeatures {fid : Nat} (hcmd : s.adminCmd h 9 = some m) (hfid : fid = bits (m.dw 10) 7 0) (hknown : fid = 1 ∨ fid = 0x0B)
    (hsave : bitOf (m.dw 10) 31 = false) : exec (.setFeatures h) s =
      done (((s.onCtl m.fn fun c => { c with features := c.features.set 0 fid (m.dw 11) }).endCmd m ncOk).sendNotice m.fn) := by
  have hfeature : featureKnown fid = true := by rcases hknown with rfl | rfl <;> rfl
  change execSetFeatures h s = _
  rw [execSetFeatures, hcmd]
  dsimp only
  rw [← hfid, if_neg (by simp [hfeature, hsave]), if_neg (by omega), if_neg (by omega), if_neg (by omega), if_neg (by omega)]

/-- A known feature other than the number of queues and a vector's configuration is answered with its current value. -/
theorem exec_getFeatures {fid : Nat} (hcmd : s.adminCmd h 0x0A = some m) (hfid : fid = bits (m.dw 10) 7 0)
    (hknown : fid = 1 ∨ fid = 6 ∨ fid = 8 ∨ fid = 0x0B ∨ fid = 0xC0) :
    exec (.getFeatures h) s = done (s.endCmd m ncOk ((s.nvmCtl m.fn).features.get 0 fid)) := by
  have hfeature : featureKnown fid = true := by rcases hknown with rfl | rfl | rfl | rfl | rfl <;> rfl
  change execGetFeatures h s = _
  rw [execGetFeatures, hcmd]
  dsimp only
  rw [← hfid, if_neg (by simp [hfeature]), if_neg (by omega), if_neg (by omega)]

theorem exec_getFeatures_queues (hcmd : s.adminCmd h 0x0A = some m) (hfid : bits (m.dw 10) 7 0 = 7) :
    exec (.getFeatures h) s = done (s.endCmd m ncOk (s.queueCounts m.fn)) := by
  change execGetFeatures h s = _
  rw [execGetFeatures, hcmd]
  dsimp only
  rw [hfid, if_neg (by decide), if_pos rfl]

/-- Fewer than four event requests wait, so one more does. -/
theorem exec_asyncEventRequest (hcmd : s.adminCmd h 0x0C = some m)
    (hfew : (s.nvm.cmds.filter fun x => x.fn == m.fn && x.stage == .event).length < 4) :
    exec (.asyncEventRequest h) s = done ((s.onCmd h fun x => { x with stage := .event }).sendNotice m.fn) := by
  change execAsyncEventRequest h s = _
  rw [execAsyncEventRequest, hcmd]
  exact if_neg hfew.not_ge

end

/-! ## The NVM channel of a thread (R370 to R372, R378) -/

section
variable {s u : State} {x : Msg} {m : NvmCmd} (hu : u = s.takeMsg 0)
include hu

/-- A TAKE answers the command at the front of the ready queue: seven words, its opcode and NSID first. -/
theorem completes_take {rest : List Nat} {k : Nat} (hmsg : s.message 0 6 1 = some x)
    (hready : u.nvm.ready.get [] (clusterOf x.thread) = k :: rest) (hepoch : x.epoch = u.epoch (clusterOf x.thread)) (hcmd : u.nvmCmd k = some m) :
    Completes (.take 0) s fun t => ∃ ws, ws.length = 7 ∧ ws.head? = some (BitVec.ofNat 64 (m.dw 0 + 2 ^ 32 * m.nsid)) ∧
      t = ((u.onNvm fun n => { n with ready := n.ready.set [] (clusterOf x.thread) rest }).onCmd k fun y =>
        { y with stage := .taken x.thread }).respond x 0 k ws := by
  have hexec : exec (.take 0) s = execTake 0 s := rfl
  rw [execTake, hmsg] at hexec
  dsimp only at hexec
  rw [← hu, hready] at hexec
  dsimp only at hexec
  rw [if_neg (not_not_intro hepoch), hcmd] at hexec
  exact ⟨_, hexec, _, rfl, rfl, rfl⟩

theorem exec_complete (hmsg : s.message 0 6 2 = some x) (hcmd : u.nvmCmd (getBits (x.word 1) 31 0) = some m) :
    exec (.complete 0) s = done (((u.endCmd m (nvmStatus (getBits (x.word 2) 42 40) (getBits (x.word 2) 39 32) (getBits (x.word 2) 43 43 == 1))
      (getBits (x.word 2) 31 0)).nvmStat 1).respond x 0) := by
  change execComplete 0 s = _
  rw [execComplete, hmsg]
  dsimp only
  rw [← hu, hcmd]

section
variable {f k : Nat} (hf : f = getBits (x.word 1) 11 0) (hk : k = getBits (x.word 1) 20 12) (hfn : f < 2080) (hatt : attached (u.attachment f k))
include hf hk hfn hatt

theorem exec_mark {v : Int} (hv : v = (attDirty (u.attachment f k) : Int) + signed 32 (getBits (x.word 1) 63 32))
    (hmsg : s.message 0 6 3 = some x) (hpos : 0 ≤ v) :
    exec (.mark 0) s = .next ((u.setDirty f k (min v.toNat (2 ^ 32 - 1))).respond x 0) := by
  change execMark 0 s = _
  rw [execMark, hmsg]
  dsimp only
  rw [← hu, ← hf, ← hk, if_neg (by simp [hfn, hatt]), ← hv, if_neg hpos.not_gt]

theorem exec_defer (hmsg : s.message 0 6 4 = some x) :
    exec (.defer 0) s = done ((u.deferError f k (x.word 2).toNat (getBits (x.word 3) 31 0)).respond x 0) := by
  change execDefer 0 s = _
  rw [execDefer, hmsg]
  dsimp only
  rw [← hu, ← hf, ← hk, if_neg (by simp [hfn, hatt])]

end

end

/-! ## The statement -/

/-- Settles O45, clause by clause: under its condition each command or message takes the branch of its rule. -/
theorem storageCommandsComplete : Obligations.StorageCommandsComplete := by
  unfold Obligations.StorageCommandsComplete
  intro s h m c hc
  refine ⟨fun cq => exec_createIoSq hc, fun iv => exec_createIoCq hc, exec_deleteIoSq hc, exec_deleteIoCq hc,
    fun page len off r => exec_getLogPage, fun r hcmd hcns hdata => exec_identify hcmd hdata (.inl ⟨hcns, rfl⟩),
    fun r hcmd hcns hpos hmax hatt hdata => exec_identify hcmd hdata (.inr ⟨hcns, hpos, hmax, hatt, rfl⟩), fun x rest => exec_abort_found,
    exec_abort_missing, fun fid => exec_setFeatures, fun fid hcmd hfid hknown => hc ▸ exec_getFeatures hcmd hfid hknown, exec_getFeatures_queues,
    exec_asyncEventRequest, fun x u hu => ⟨fun rest k => completes_take hu, fun w hmsg hcmd hw => hw ▸ exec_complete hu hmsg hcmd,
      fun f k v hf hk hfn hatt hv => ⟨exec_mark hu hf hk hfn hatt hv, exec_defer hu hf hk hfn hatt⟩⟩⟩

end Sys2Proof.Machine
end


section
/-! SUPPORT. Key commands, images, fuses, measurements and security triggers complete with the effects of their rules (R393, R395, R404 to
R407, R414). -/
namespace Sys2Proof.Machine

/-! ## Key commands (R393, R395) -/

/-- A key command is carried out by its OP, outside MIDNIGHT and while no other is. -/
theorem keyCommand_taken {s : State} {w : Word} (hm : s.mode ≠ MIDNIGHT) (hidle : s.isSet CRY_KEY_STATUS.BUSY = false) :
    (wfld w CRY_KEY_CMD.OP = 1 → s.keyCommand w = s.keyLoad w) ∧ (wfld w CRY_KEY_CMD.OP = 2 → s.keyCommand w = s.keyImport w) ∧
      (wfld w CRY_KEY_CMD.OP = 3 → s.keyCommand w = s.keyDelete w) ∧ (wfld w CRY_KEY_CMD.OP = 4 → s.keyCommand w = s.keyQuery w) := by
  refine ⟨?_, ?_, ?_, ?_⟩ <;>
  · intro hop
    rw [State.keyCommand, if_neg (by simp [hidle]), if_neg hm, hop]
    rfl

/-- A row of CRY_KEY_CMD acts where the write names its OP. -/
theorem keyRow_taken {s : State} {w : Word} {op : Nat} (hn : s.mode ≠ NIGHT) (hop : wfld w CRY_KEY_CMD.OP = op) :
    (if s.mode = NIGHT ∨ wfld w CRY_KEY_CMD.OP ≠ op then .next s else done (s.keyCommand w)) = done (s.keyCommand w) :=
  if_neg (by simp [hn, hop])

section
variable {s r : State} {w : Word} {i : Nat} (hi : i = wfld w CRY_KEY_CMD.INDEX)
include hi

/-- A key of a known algorithm is stored at a free index. -/
theorem keyLoad_stored (halg : wfld w CRY_KEY_CMD.ALG ≤ 5) (hfree : s.readKey i = (r, none)) :
    s.keyLoad w = (r.storeKey i (keyOf w s.keyData)).keyEnds krOk := by
  rw [State.keyLoad, ← hi]
  rw [if_neg halg.not_gt, hfree, if_neg (by simp)]

/-- A key that unwraps under a KEK and names the index is stored at a free one. -/
theorem keyImport_stored {q : State} {kek : KeyEntry} {blob plain : List Byte} {n : Nat} (halg : wfld w CRY_KEY_CMD.ALG ≤ 5)
    (hfree : s.readKey i = (r, none)) (hn : n = keyLength (wfld w CRY_KEY_CMD.ALG)) (hblob : blob = r.ddrRead (s.raw .CRY_KEY_DATA 0 0).toNat (16 + n))
    (hkek : r.readKey (getBits (s.raw .CRY_KEY_DATA 0 1) 19 0) = (q, some kek)) (hwrap : kek.alg = 5)
    (hok : algoOk algKeyUnwrap [kek.material, blob]) (hplain : plain = algo algKeyUnwrap [kek.material, blob] (8 + n))
    (hword : leAt plain 0 8 = getBits w 47 24) : s.keyImport w = (q.storeKey i (keyOf w (plain.drop 8))).keyEnds krOk := by
  rw [State.keyImport, ← hi, ← hn]
  dsimp only
  rw [if_neg halg.not_gt, hfree, if_neg (by simp)]
  dsimp only
  rw [hkek]
  dsimp only
  rw [← hblob, ← hplain, if_neg (by simp [hwrap, hok, hword])]

/-- The key at an index that holds one is gone, and the command waits where an operation uses it. -/
theorem keyDelete_held {k : KeyEntry} {u : State} (hheld : s.readKey i = (r, some k))
    (hu : u = (r.ddrWrite (s.keyAddr i) (List.replicate 128 0)).onSec fun x =>
      { x with cache := x.cache.filter fun e => e.1 != i, images := x.images.keep fun k => k != i }) :
    s.keyDelete w = if u.keyInUse i then (u.onSec fun x => { x with deleting := some i }).put CRY_KEY_STATUS.BUSY 1 else u.keyEnds krOk := by
  rw [State.keyDelete, ← hi]
  dsimp only
  rw [hheld, if_neg (by simp)]
  dsimp only
  rw [← hu]

theorem keyQuery_held {k : KeyEntry} (hheld : s.readKey i = (r, some k)) : s.keyQuery w =
    (((r.put CRY_KEY_STATUS.VALID 1).put CRY_KEY_STATUS.ALG k.alg).put CRY_KEY_STATUS.USE k.use).keyEnds krOk := by
  rw [State.keyQuery, ← hi, hheld]

theorem keyQuery_empty (hfree : s.readKey i = (r, none)) : s.keyQuery w =
    (((r.put CRY_KEY_STATUS.VALID 0).put CRY_KEY_STATUS.ALG 0).put CRY_KEY_STATUS.USE 0).keyEnds krOk := by
  rw [State.keyQuery, ← hi, hfree]

end

/-! ## Images (R404, R405) -/

/-- A rejected image records its check, and a flash read error is told by the board's source 6 too. -/
def State.imageFails (s : State) (check : Nat) : State :=
  if check = 7 then ((s.put SEC_BOOT_STATUS.FAIL check).fire 29 1 0 initSec).fire 31 6 else (s.put SEC_BOOT_STATUS.FAIL check).fire 29 1 0 initSec

/-- While the boot ROM is about an image, one that fails a check leads to TWILIGHT, or there leaves it waiting for another. -/
theorem exec_imageRejected {s : State} {img : List Byte} {k : Fin 8} (hboot : s.booting) (hfresh : s.sec.waitsImage = false) (hk : k.val ≠ 0)
    (hcheck : k.val = 7 ∨ s.imageCheck s.bootKind img = k.val) : exec (.imageRejected img k) s =
      if (s.imageFails k).mode = TWILIGHT then done ((s.imageFails k).onSec fun x => { x with waitsImage := true })
      else done (if (s.imageFails k).isSet GLB_MODE.TRANSIT then s.imageFails k else (s.imageFails k).beginTransition TWILIGHT false) :=
  if_pos ⟨hboot, by rw [hfresh]; rfl, hk, hcheck⟩

/-! ## Rollback counters and measurements (R406, R407) -/

/-- A rollback counter moves up to a value within its limit. -/
theorem rollbackCommand_begins {s : State} {w : Word} {c v n : Nat} (hc : c = wfld w SEC_ROLLBACK_CMD.COUNTER)
    (hv : v = wfld w SEC_ROLLBACK_CMD.VALUE) (hidle : s.isSet SEC_ROLLBACK_CMD.BUSY = false) (hup : s.fld (SEC_ROLLBACK.COUNTER c) < v)
    (hlimit : s.rollbackLimit c = some n) (hmax : v ≤ n) (init : Nat) : s.rollbackCommand init w =
      ((s.writeReg .SEC_ROLLBACK_CMD 0 0 w).put SEC_ROLLBACK_CMD.BUSY 1).onSec fun x => { x with rollback := some (c, v) } := by
  have hvalue : ¬ (v = 0 ∧ wfld w SEC_ROLLBACK_CMD.REFUSED = 1) := fun h => by omega
  rw [State.rollbackCommand, ← hc, ← hv]
  rw [if_neg hvalue, if_neg (by simp [hidle, hup, hlimit, hmax])]

/-- The manager extends a measurement that is its own. -/
theorem exec_measureExtend {s : State} {req : Requester} {w : Word} {k : Nat} (hn : s.mode ≠ NIGHT) (hk : k = wfld w SEC_MEASURE_EXTEND.INDEX)
    (hown : 6 ≤ k) (hmgr : isManager req) : exec (.measureExtend req w) s =
      .next ((s.writeReg .SEC_MEASURE_EXTEND 0 0 w).extend k (wordBytes ((List.range 6).map fun k => s.raw .SEC_MEASURE_DATA 0 k))) := by
  have hnot0 : ¬ (k = 0 ∧ wfld w SEC_MEASURE_EXTEND.REFUSED = 1) := fun h => by omega
  have hallowed : ¬ (k < 6 ∨ (!isManager req) = true) := by simp [hown, hmgr]
  change execMeasureExtend req w s = _
  rw [execMeasureExtend, if_neg hn, ← hk]
  dsimp only
  rw [if_neg hnot0, if_neg hallowed]

/-! ## The statement -/

/-- Settles O46, clause by clause: under its condition each command or event takes the branch of its rule. -/
theorem keyCommandsComplete : Obligations.KeyCommandsComplete := by
  unfold Obligations.KeyCommandsComplete
  intro s req w i hi
  refine ⟨fun hn hm hidle => ?keys, fun hdeleting hunused => ?deleted, fun img hboot hfresh => ?images, fun hn => ?fuses, fun c v hbusy => ?blown,
    fun hen => congrArg done (if_pos hen), fun hen => congrArg done (if_pos (by simp [hen])), rfl⟩
  case keys =>
    obtain ⟨hload, himport, hdelete, hquery⟩ := keyCommand_taken (w := w) hm hidle
    refine ⟨fun r hop halg hfree => ?_, fun r q kek blob plain n hop halg hfree hlen hblob hkek hwrap hok hplain hword => ?_, fun r k u hop hheld hu => ?_,
      fun r k hop hheld => ?_, fun r hop hfree => ?_⟩
    · exact (keyRow_taken hn hop).trans (congrArg done ((hload hop).trans (keyLoad_stored hi halg hfree)))
    · exact (keyRow_taken hn hop).trans
        (congrArg done ((himport hop).trans (keyImport_stored hi halg hfree hlen hblob hkek hwrap hok hplain hword)))
    · have hexec : exec (.keyDelete req w) s = _ := (keyRow_taken hn hop).trans (congrArg done ((hdelete hop).trans (keyDelete_held hi hheld hu)))
      refine ⟨fun hunused => ?_, fun hused => ?_⟩
      · rw [hexec, if_neg (by simp [hunused]), done]
      · rw [hexec, if_pos hused, done]
    · exact (keyRow_taken hn hop).trans (congrArg done ((hquery hop).trans (keyQuery_held hi hheld)))
    · exact (keyRow_taken hn hop).trans (congrArg done ((hquery hop).trans (keyQuery_empty hi hfree)))
  case deleted =>
    change execKeyDeleteComplete s = _
    rw [execKeyDeleteComplete, hdeleting]
    exact if_neg (by simp [hunused])
  case images =>
    refine ⟨fun hcheck => if_pos ⟨hboot, by rw [hfresh]; rfl, hcheck⟩, fun k u hk hcheck hu => ?_⟩
    have hexec := exec_imageRejected hboot hfresh hk hcheck
    rw [show s.imageFails k = u from hu.symm] at hexec
    refine ⟨fun htwilight => ?_, fun hother hidle => ?_⟩
    · rw [hexec, if_pos htwilight, done]
    · rw [hexec, if_neg hother, if_neg (by simp [hidle]), done]
  case fuses =>
    refine ⟨fun c v n hc hv hidle hup hlimit hmax => ?_, fun k hk hown hmgr => exec_measureExtend hn hk hown hmgr, fun hlock => ?_, fun hopen => ?_⟩
    · exact (if_neg hn).trans (congrArg done (rollbackCommand_begins hc hv hidle hup hlimit hmax _))
    · exact (if_neg hn).trans (congrArg done (if_pos hlock))
    · exact (if_neg hn).trans (congrArg done (if_neg hopen))
  case blown =>
    change execRollbackDone s = _
    rw [execRollbackDone, hbusy]

end Sys2Proof.Machine
end


section
/-! SUPPORT. Requests to the root of trust complete with the effects of their rules (R405, R410 to R413, R416 to R418). -/
namespace Sys2Proof.Machine

/-- A request of mailbox 0 to 3 is carried out by its opcode. -/
theorem rotRequest_opcode {r : Nat} (hbox : r < 4) (s : State) (msg : List Word) :
    (opcodeOf msg = 0x41 → s.rotRequest r msg = s.rotNonce r msg) ∧ (opcodeOf msg = 0x42 → s.rotRequest r msg = s.rotSigned r msg) ∧
      (opcodeOf msg = 0x43 → s.rotRequest r msg = s.rotImage r msg) ∧ (opcodeOf msg = 0x44 → s.rotRequest r msg = s.rotAdvance r msg) ∧
      (opcodeOf msg = 0x45 → s.rotRequest r msg = s.rotProgram r msg) := by
  refine ⟨?_, ?_, ?_, ?_, ?_⟩ <;>
  · intro hop
    rw [opcodeOf] at hop
    rw [State.rotRequest, if_neg hbox.not_ge, hop]
    rfl

/-! ## Requests over MCTP (R416, R417): requesters 2 and 3, whose buffer is the message itself -/

section
variable {s : State} {r : Nat} {msg : List Word} (hr : r = 2 ∨ r = 3)
include hr

theorem rotReach_mctp (a n : Nat) : s.rotReach r a n = true := by
  rcases hr with rfl | rfl <;> rfl

/-- Out of NIGHT a request over MCTP is carried out as it arrives. -/
theorem secArrive_mctp (hn : s.mode ≠ NIGHT) : s.secArrive r msg = s.rotRequest r msg := by
  rw [State.secArrive, if_neg hn, if_pos hr]

/-- The nonce of GET_NONCE goes out in the reply alone. -/
theorem rotNonce_mctp {n : List Byte} (hnonce : n = slice (Config.freeBytes s.free 48) 0 48) : s.rotNonce r msg =
    (s.drawn.onSec fun x => { x with nonces := ⟨Store.put r (n, s.up) x.nonces.entries⟩ }).rotReply r msg rotOk n := by
  have h0 : r ≠ 0 := by omega
  have h1 : r ≠ 1 := by omega
  rw [State.rotNonce]
  dsimp only
  rw [if_neg (by simp [rotReach_mctp hr]), if_neg h0, if_neg h1, ← hnonce]

/-- The COMMAND of a signed command over MCTP can always be read. -/
theorem signedCode_mctp (hop : opcodeOf msg = 0x42) : s.signedCode r msg = some (cmdCode (s.rotRead r msg 8192)) :=
  if_pos ⟨hop, rotReach_mctp hr _ _⟩

/-- A signed command that is checked and whose conditions hold has its effect, uses its nonce up and is answered. -/
theorem rotSigned_mctp {c : List Byte} {t : State} (hlife : s.fld SEC_LIFECYCLE.STATE ≠ 3) (hopen : s.sec.refuseUntil.get 0 r ≤ s.up)
    (hc : c = s.rotRead r msg 8192) (hok : s.signedStatus r c = rotOk) (heffect : s.signedEffect c = some t) : s.rotSigned r msg =
      (t.onSec fun x => { x with nonces := x.nonces.keep fun k => k != r, rejects := x.rejects.set 0 r 0 }).rotReply r msg rotOk := by
  have hallowed : ¬ (s.fld SEC_LIFECYCLE.STATE = 3 ∨ s.up < s.sec.refuseUntil.get 0 r) := by simp [hlife, hopen]
  rw [State.rotSigned, if_neg hallowed, if_neg (by simp [rotReach_mctp hr]), ← hc]
  dsimp only
  rw [if_neg (by simp [hok]), heffect]

/-- An image that SEC waits for and that passes its checks runs. -/
theorem rotImage_mctp {n : Nat} {img : List Byte} (hwaits : s.sec.waitsImage) (hlen : n = getBits (msg.getD 2 0) 63 0) (hmax : n ≤ 0x2000000)
    (himg : img = s.rotRead r msg n) (hcheck : s.imageCheck s.bootKind img = 0) :
    s.rotImage r msg = (s.runImage img 2).rotReply r msg rotOk := by
  have hallowed : ¬ (r = 0 ∨ (!s.sec.waitsImage) = true ∨ (!s.rotReach r (msg.getD 1 0).toNat n) = true ∨ 0x2000000 < n) := by
    simp only [hwaits, rotReach_mctp hr]
    simp
    omega
  rw [State.rotImage, ← hlen]
  dsimp only
  rw [if_neg hallowed, ← himg, if_pos hcheck]

/-- What a signed command's row does over MCTP, where its COMMAND is that of the row. -/
theorem signedRow_mctp {code : Nat} (hn : s.mode ≠ NIGHT) (hop : opcodeOf msg = 0x42) (hcode : cmdCode (s.rotRead r msg 8192) = code) :
    (if opcodeOf msg = 0x42 ∧ (s.signedCode r msg).all (· == code) then done (s.secArrive r msg) else .next s) = done (s.rotSigned r msg) := by
  obtain ⟨_, hsigned, _⟩ := rotRequest_opcode (by omega : r < 4) s msg
  have hrow : (s.signedCode r msg).all (· == code) = true := by simp [signedCode_mctp hr hop, hcode]
  rw [if_pos ⟨hop, hrow⟩, secArrive_mctp hr hn, hsigned hop]

end

/-! ## Requests by mailbox (R412, R417) -/

/-- A request by mailbox is posted, and served with what waits there. -/
theorem secArrive_mailbox {s : State} (hn : s.mode ≠ NIGHT) (msg : List Word) :
    s.secArrive 0 msg = (s.mbxPost 2096 false msg msg.length).1.secServe 2096 := by
  rw [State.secArrive, if_neg hn, if_neg (by decide)]

/-- The oldest request of mailbox 0 is carried out where the answer has room. -/
theorem secTake_taken {s : State} {x : MbxMsg} {rest : List MbxMsg} (hfront : (s.mbox 2096).toFar = x :: rest)
    (hroom : roomOf (s.mbox 2096).toMgr ≠ 0) : s.secTake 2096 = (s.mbxPop 2096 false).rotRequest 0 x.words := by
  rw [State.secTake, hfront]
  exact if_neg hroom

section
variable {u : State} {msg : List Word}

/-- LIFECYCLE_ADVANCE of an OPEN part. -/
theorem rotRequest_advance (hop : opcodeOf msg = 0x44) (hopen : u.fld SEC_LIFECYCLE.STATE = 0) :
    u.rotRequest 0 msg = ((u.put SEC_LIFECYCLE.STATE 1).fire 29 6 0 initSec).rotReply 0 msg rotOk := by
  obtain ⟨_, _, _, hadvance, _⟩ := rotRequest_opcode (by decide : 0 < 4) u msg
  rw [hadvance hop, State.rotAdvance, hopen]
  dsimp only
  rw [if_neg (by decide), if_neg (by simp)]

/-- SLOT_PROGRAM of a slot that is not programmed, from a buffer of DDR. -/
theorem rotRequest_program {k a : Nat} (hop : opcodeOf msg = 0x45) (hslot : k = (msg.getD 2 0).toNat) (ha : a = (msg.getD 1 0).toNat)
    (hk : k < 4) (hlife : u.fld SEC_LIFECYCLE.STATE < 2) (hfree : bitOf (u.fld SEC_SLOT_STATUS.PROGRAMMED) k = false) (hlow : 2 ^ 40 ≤ a)
    (hhigh : a + 2689 ≤ 2 ^ 40 + 2 ^ 39) : u.rotRequest 0 msg =
      ((u.put ⟨.SEC_SLOT_STATUS, k, k⟩ 1).onSec fun y => { y with slots := y.slots.set [] k (hash384 (u.ddrRead (a - 2 ^ 40) 2689)) }).rotReply 0 msg rotOk := by
  obtain ⟨_, _, _, _, hprogram⟩ := rotRequest_opcode (by decide : 0 < 4) u msg
  have hreach : u.rotReach 0 a (97 + 2592) = true := by
    rw [State.rotReach, if_pos rfl, decide_eq_true hlow, decide_eq_true hhigh, Bool.and_self]
  have hread : u.rotRead 0 msg (97 + 2592) = u.ddrRead (a - 2 ^ 40) 2689 := by rw [State.rotRead, if_pos rfl, ← ha]
  have hallowed : ¬ (0 ≠ 0 ∨ 4 ≤ k ∨ 2 ≤ u.fld SEC_LIFECYCLE.STATE ∨ bitOf (u.fld SEC_SLOT_STATUS.PROGRAMMED) k = true ∨
      (!u.rotReach 0 a (97 + 2592)) = true) := by
    simp [hk, hlife, hfree, hreach]
  rw [hprogram hop, State.rotProgram, ← hslot, ← ha]
  dsimp only
  rw [if_neg hallowed, hread]

end

/-! ## The statement -/

theorem fin_two_add_eq (p : Fin 2) : 2 + p.val = 2 ∨ 2 + p.val = 3 := by omega

/-- Settles O47, clause by clause: under its condition each request takes the branch of its rule. -/
theorem rootOfTrustRequestsComplete : Obligations.RootOfTrustRequestsComplete := by
  unfold Obligations.RootOfTrustRequestsComplete
  intro s msg hn
  refine ⟨fun r hr => ?mctp, fun t ht => ?mailbox, fun x rest u hfront hroom hu => ?served, fun p bs => ⟨fun q hq => ?spdm, ?message⟩⟩
  case mctp =>
    have hr' : r.val = 2 ∨ r.val = 3 := hr.imp (congrArg Fin.val) (congrArg Fin.val)
    obtain ⟨hnonceOp, _, himageOp, _⟩ := rotRequest_opcode (by omega : r.val < 4) s msg
    refine ⟨fun n hop hnonce => ?_, fun code c t v hop hlife hopen hc hcode hok heffect hv => ?_, fun n img hop hwaits hlen hmax himg hcheck => ?_⟩
    · exact (if_pos hop).trans (congrArg done ((secArrive_mctp hr' hn).trans ((hnonceOp hop).trans (rotNonce_mctp hr' hnonce))))
    · rw [hc] at hcode
      have hrow : done (s.rotSigned r msg) = .next v := by rw [rotSigned_mctp hr' hlife hopen hc hok heffect, done, hv]
      refine ⟨?_, ?_, ?_, ?_⟩ <;>
      · rintro rfl
        exact (signedRow_mctp hr' hn hop hcode).trans hrow
    · exact (if_pos hop).trans (congrArg done ((secArrive_mctp hr' hn).trans ((himageOp hop).trans (rotImage_mctp hr' hwaits hlen hmax himg hcheck))))
  case mailbox =>
    have harrive : done (s.secArrive 0 msg) = .next (t.secServe 2096).settle := by rw [secArrive_mailbox hn, ← ht, done]
    exact ⟨fun hop => (if_pos hop).trans harrive, fun hop => (if_pos hop).trans harrive⟩
  case served =>
    have htake := secTake_taken hfront hroom
    rw [← hu] at htake
    exact ⟨fun hop hopen => htake.trans (rotRequest_advance hop hopen), fun k a hop hslot ha hk hlife hfree hlow hhigh =>
      htake.trans (rotRequest_program hop hslot ha hk hlife hfree hlow hhigh)⟩
  case spdm =>
    rw [hq]
    exact if_neg hn
  case message =>
    exact (if_neg hn).trans (congrArg done (secArrive_mctp (fin_two_add_eq p) hn))

end Sys2Proof.Machine
end
